-- ==== Sys2Proof/Word.lean ====
section
/-! DEFINITION. The word types of the model and the map type that its tables are kept in. -/

namespace Sys2Proof

/-- A byte of memory or of a message. -/
abbrev Byte := BitVec 8
/-- A 32-bit register (R540 serves the window in 4-byte units). -/
abbrev Word := BitVec 32
/-- A 64-bit quantity. -/
abbrev DWord := BitVec 64
/-- A table keyed by a number.  Canonical form: keys strictly rising. -/
abbrev NMap (α : Type) := List (Nat × α)

end Sys2Proof
end

