-- ==== Sys2Proof/Syntax.lean ====
section
/-! DEFINITION. The commands of the block: one constructor of Instr per row of the opcode table, with the
operands the step takes from outside (what a party wrote, what a read returned, what a port received),
and the types of those operands. -/

namespace Sys2Proof

/-- Outcome of the signature checks of R45 and R467 and of the digest comparison of R59, which the
specification leaves to published standards: the environment says how each check ended (assumption 4). -/
structure Verdict where
  rsa : Bool
  mldsa : Bool
  base : Bool := true
  deriving DecidableEq, Repr

/-- A slot that a port receives, after its check code has passed: a standalone cell or link control cell
with its 12-byte header (bit 95 first, R197) and its payload (byte i in bits [8i+7:8i]), or train cell k of
the train whose head the port received last. -/
inductive SlotIn where
  | cell (hdr : BitVec 96) (pay : BitVec 512)
  | train (k : Nat) (pay : BitVec 512)
  deriving DecidableEq, Repr
/-- One slot as the link layer of a receiving port takes it from a codeword (R204): good, with whether the
link layer counts it (Table 7.1) and its length, or failing its check. -/
inductive LinkSlot where
  | good (counted : Bool) (bytes : Nat)
  | bad
  deriving DecidableEq, Repr

/-- What reads return while a SEND is placed (R88, R172): table entries by address, for tables that do not lie
in this adapter's tier memory; the receive ring's next slots and the completion ring's next OWN bits, for
rings outside it; and whether such a read failed. -/
structure RecvReads where
  tables : NMap (BitVec 128) := []
  slots : List (BitVec 512) := []
  owns : List Bool := []
  failed : Bool := false
  deriving DecidableEq, Repr


/-- What a PCIe read was for (R394): data of a work, by its key, an address (2^37 times the ACC port plus the
offset in its window) and a length; a slot of a ring; another structure. -/
inductive PcieRead where
  | data (owner addr len : Nat)
  | ring (ring slot : Nat)
  | other
  deriving DecidableEq, Repr

/-- A memory BAR that enumeration finds (R383). -/
structure BarFound where
  index : Nat
  size : Nat
  is64 : Bool
  prefetch : Bool
  deriving DecidableEq, Repr

/-- What the scan of one ring reads (R157, R443): its slots that software handed over, and the OWN bits of its
completion ring's next slots, where those do not lie in tier memory; and whether such a read failed. -/
structure RingScan where
  ring : Nat
  entries : List (BitVec 512) := []
  owns : List Bool := []
  failed : Bool := false
  deriving DecidableEq, Repr

/-- An error that the hardware detects (R515): its part class and KIND (Tables 19.1, 19.4), PART_INDEX, INSTANCE
(0xFFFF none) and DETAIL; how its automatic retry ended; the bank of a memory error, the pseudo-channel of a tier-1
or pseudo-channel error (its index is then the stack), the byte offset of a core-store error; and the time in ms. -/
structure ErrorIn where
  cls : Nat
  kind : Nat
  index : Nat
  inst : Nat := 0xFFFF
  detail : Nat := 0
  retryOk : Bool
  bank : Nat := 0
  pc : Nat := 0
  off : Nat := 0
  ms : Nat := 0
  deriving DecidableEq, Repr

/-- What the dump holds that the specification lays out no further (R536): the failing part's registers, and the
REGISTERS, RINGS, QUEUE_PAIRS and REPAIR sections; and whether the host took every write. -/
structure DumpIn where
  fault : List Byte := []
  registers : List Byte := []
  rings : List Byte := []
  queuePairs : List Byte := []
  repair : List Byte := []
  hostOk : Bool := true
  deriving DecidableEq, Repr

/-- How the signatures and the read of the stored structures ended at a boot (R465, R467, R469): of the bundles of
BANK_A and BANK_B, and of the images of LANZIL_A and LANZIL_B. -/
structure BootIn where
  bankA : Bool := true
  bankB : Bool := true
  slotA : Verdict := ⟨true, true, true⟩
  slotB : Verdict := ⟨true, true, true⟩
  deriving DecidableEq, Repr

/-- What the end of a firmware action finds (R467, R477, R490, R495): the staged bytes as they were read; the
signature checks, and with `base` whether a token's DEVICE is this module's or a KEK record decapsulates; whether
flash took the write and read back good; the decapsulated key; and the reads of a life-cycle change's scan. -/
structure FwEnd where
  bytes : List Byte := []
  verdict : Verdict := ⟨true, true, true⟩
  flashOk : Bool := true
  kek : BitVec 256 := 0
  scans : List RingScan := []
  deriving DecidableEq, Repr

/-- A unit action (R70): a power-state change (park or unpark), halt, reset, fence, in the order of their strength
(R72). -/
inductive UnitActionKind where
  | park | unpark | halt | reset | fence
  deriving DecidableEq, Repr

/-- The commands.  Each constructor is one row of spec/opcode_table.json; the rule it cites is the row's. -/
inductive Instr where
  /-- POWER_UP (R564). -/
  | powerUp
  /-- POWER_GOOD (R564). -/
  | powerGood
  /-- POWER_LOSS (R565). -/
  | powerLoss (cause : Nat)
  /-- COLD_RST_N_ASSERT (R566). -/
  | coldRstNAssert
  /-- COLD_RESET (R469). -/
  | coldReset (selfTestOk copyAOk copyBOk : Bool) (straps : Nat)
  /-- FIRMWARE_BOOT (R469). -/
  | firmwareBoot (x : BootIn)
  /-- WIPE_DONE (R126). -/
  | wipeDone
  /-- WARM_RESET (R471). -/
  | warmReset (x : BootIn) (scans : List RingScan)
  /-- GX_CTRL_WARM_RESET (R543). -/
  | gxCtrlWarmReset (value : Word)
  /-- HOST_LINK_LOSS (R486). -/
  | hostLinkLoss
  /-- HST_LINK_UP (R568). -/
  | hstLinkUp (rate width : Nat)
  /-- FLR_VF (R379). -/
  | flrVf (n : Nat)
  /-- FLR_PF (R379). -/
  | flrPf
  /-- VF_ENABLE_CHANGE (R430). -/
  | vfEnableChange (enable : Bool) (numVfs : Nat)
  /-- TICK_EDGE (R29). -/
  | tickEdge (reads : NMap (BitVec 128)) (overruns : List (Nat × Nat))
  /-- COMMIT_APPLY (R67). -/
  | commitApply
  /-- TICK_COMMIT_ACTIVATE (R41). -/
  | tickCommitActivate
  /-- COMMIT_WRITE (R68). -/
  | commitWrite (off : Nat) (seq : Word)
  /-- TICK_COMMIT_WRITE (R41). -/
  | tickCommitWrite (seq : Word)
  /-- COMMIT_MULTI (R546). -/
  | commitMulti (value : Word)
  /-- TICK_COUNT_LO_READ (R28). -/
  | tickCountLoRead
  /-- TICK_ALIGN_CELL_RECEIVE (R210). -/
  | tickAlignCellReceive (port : Nat) (pay : BitVec 512) (late : Int)
  /-- PTP_MESSAGE_RECEIVE (R229). -/
  | ptpMessageReceive (port : Nat) (offset : Option Int)
  /-- PTP_LOCK (R36). -/
  | ptpLock
  /-- PTP_LOCK_LOST (R36). -/
  | ptpLockLost
  /-- ALIGN_ACQUIRED (R36). -/
  | alignAcquired
  /-- ALIGN_LOST (R36). -/
  | alignLost
  /-- ALIGN_INPUT_TIMEOUT (R37). -/
  | alignInputTimeout
  /-- HOLDOVER_TIMEOUT (R36). -/
  | holdoverTimeout
  /-- LZ_VERIFY (R61). -/
  | lzVerify (requester : Nat)
  /-- LZ_PARTIAL (R61). -/
  | lzPartial (requester : Nat)
  /-- LZ_FULL (R61). -/
  | lzFull (requester : Nat)
  /-- PARTIAL_RELOAD_APPLY (R63). -/
  | partialReloadApply
  /-- GRANULE_WIPE_DONE (R112). -/
  | granuleWipeDone (g : Nat)
  /-- BOND_FORM (R58). -/
  | bondForm (flock : Nat)
  /-- BOND_ACTION_ACK (R70). -/
  | bondActionAck (flock member : Nat)
  /-- BOND_ACK_TIMEOUT (R71). -/
  | bondAckTimeout (flock member node unit : Nat)
  /-- INVALIDATE (R99). -/
  | invalidate (slot : Nat)
  /-- INVALIDATE_COMPLETE (R101). -/
  | invalidateComplete (slot : Nat)
  /-- WALK_COMPLETE (R91). -/
  | walkComplete (n : Nat) (reads : NMap (BitVec 128))
  /-- SCRUB_PASS (R119). -/
  | scrubPass (corrected : Nat)
  /-- ERROR_DETECTED (R515). -/
  | errorDetected (x : ErrorIn)
  /-- ROW_REPAIR_DONE (R121). -/
  | rowRepairDone (bank : Nat)
  /-- PC_SWAP_COMPLETE (R122). -/
  | pcSwapComplete (stack pc : Nat)
  /-- FRAME_RETIRE_REDIRECT (R123). -/
  | frameRetireRedirect (frame : Nat)
  /-- CORE_SWAP_BEGIN (R521). -/
  | coreSwapBegin
  /-- CORE_SWAP_COMPLETE (R521). -/
  | coreSwapComplete
  /-- DUMP_COMPLETE (R533). -/
  | dumpComplete (x : DumpIn)
  /-- DUMP_TIMEOUT (R533). -/
  | dumpTimeout
  /-- STALE_REQUEST_DISCARD (R519). -/
  | staleRequestDiscard (part epoch : Nat)
  /-- DUMP_REGION (R535). -/
  | dumpRegion (slot : Nat)
  /-- RING_REGISTER (R131). -/
  | ringRegister (slot : Nat)
  /-- RING_SHUTDOWN (R157). -/
  | ringShutdown (slot : Nat) (entries : List (BitVec 512)) (owns : List Bool) (failed : Bool)
  /-- MGMT_ENABLE (R133). -/
  | mgmtEnable (value : Word)
  /-- MGMT_DISABLE (R133). -/
  | mgmtDisable (entries : List (BitVec 512))
  /-- SQ_POLL (R148). -/
  | sqPoll (ring : Nat) (entry : BitVec 512) (failed : Bool)
  /-- ENTRY_ACCEPT (R138). -/
  | entryAccept (ring : Nat)
  /-- CQ_RESERVATION_CHECK (R139). -/
  | cqReservationCheck (ring : Nat) (own failed : Bool)
  /-- DOORBELL (R151). -/
  | doorbell (n ring : Nat)
  /-- COMPLETION_RELEASE (R140). -/
  | completionRelease (ring : Nat) (failed : Bool)
  /-- QP_CREATE (R163). -/
  | qpCreate (slot : Nat) (remote : BitVec 256) (failed : Bool)
  /-- QP_MODIFY_RECONNECT (R164). -/
  | qpModifyReconnect (slot : Nat) (remote : BitVec 256) (failed : Bool)
  /-- QP_MODIFY_TIMERS (R162). -/
  | qpModifyTimers (slot : Nat)
  /-- QP_MODIFY_ERROR (R164). -/
  | qpModifyError (slot : Nat)
  /-- QP_DESTROY (R165). -/
  | qpDestroy (slot : Nat)
  /-- WRITE (R166). -/
  | write (ring slot : Nat)
  /-- READ (R166). -/
  | read (ring slot : Nat)
  /-- SEND (R172). -/
  | send (ring slot : Nat)
  /-- ATOMIC (R171). -/
  | atomic (ring slot : Nat)
  /-- WRITE_REDUCE (R334). -/
  | writeReduce (ring slot : Nat)
  /-- ATTN (R166). -/
  | attn (ring slot : Nat)
  /-- FENCE (R169). -/
  | fence (ring slot : Nat)
  /-- DECODE_ATTN (R353). -/
  | decodeAttn (ring slot : Nat) (reads : NMap (BitVec 128))
  /-- PREFILL_APPEND (R360). -/
  | prefillAppend (ring slot : Nat) (reads : NMap (BitVec 128))
  /-- KV_GATHER (R361). -/
  | kvGather (ring slot : Nat) (reads : NMap (BitVec 128))
  /-- TIER_MOVE (R362). -/
  | tierMove (ring slot : Nat)
  /-- COLLECTIVE (R295). -/
  | collective (ring slot : Nat)
  /-- RECV (R172). -/
  | recv (qpn : Nat) (x : RecvReads)
  /-- TRAIN_RECEIVE (R202). -/
  | trainReceive (port : Nat) (hdr : BitVec 96) (pay : BitVec 512)
  /-- DATA_CELL_RECEIVE (R178). -/
  | dataCellReceive (port : Nat) (slot : SlotIn)
  /-- REDUCE_CELL_RECEIVE (R335). -/
  | reduceCellReceive (port : Nat) (slot : SlotIn)
  /-- SEND_CELL_RECEIVE (R172). -/
  | sendCellReceive (port : Nat) (slot : SlotIn) (x : RecvReads)
  /-- READ_REQ_RECEIVE (R176). -/
  | readReqReceive (port : Nat) (slot : SlotIn)
  /-- READ_RESP_RECEIVE (R166). -/
  | readRespReceive (port : Nat) (slot : SlotIn)
  /-- ATOMIC_REQ_RECEIVE (R171). -/
  | atomicReqReceive (port : Nat) (slot : SlotIn)
  /-- ATOMIC_RESP_RECEIVE (R171). -/
  | atomicRespReceive (port : Nat) (slot : SlotIn)
  /-- ATTN_REQ_RECEIVE (R176). -/
  | attnReqReceive (port : Nat) (slot : SlotIn)
  /-- ATTN_RESP_RECEIVE (R370). -/
  | attnRespReceive (port : Nat) (slot : SlotIn)
  /-- ACK_RECEIVE (R180). -/
  | ackReceive (port : Nat) (slot : SlotIn)
  /-- NACK_MISSING_RECEIVE (R183). -/
  | nackMissingReceive (port : Nat) (slot : SlotIn)
  /-- NACK_RNR_RECEIVE (R183). -/
  | nackRnrReceive (port : Nat) (slot : SlotIn)
  /-- NACK_MOVED_RECEIVE (R186). -/
  | nackMovedReceive (port : Nat) (slot : SlotIn)
  /-- NACK_QP_ERROR_RECEIVE (R164). -/
  | nackQpErrorReceive (port : Nat) (slot : SlotIn)
  /-- RESP_ACK_RECEIVE (R171). -/
  | respAckReceive (port : Nat) (slot : SlotIn)
  /-- READ_EXECUTE (R168). -/
  | readExecute (qpn msn : Nat)
  /-- ATOMIC_PERFORM (R168). -/
  | atomicPerform (qpn msn : Nat)
  /-- ATTN_KERNEL_START (R168). -/
  | attnKernelStart (qpn msn : Nat) (reads : NMap (BitVec 128))
  /-- RECV_COMPLETE (R168). -/
  | recvComplete (qpn : Nat)
  /-- MISSING_NACK_SEND (R182). -/
  | missingNackSend (qpn msn : Nat) (resp : Bool)
  /-- RECORD_TIMEOUT (R182). -/
  | recordTimeout (qpn msn : Nat) (resp : Bool)
  /-- RETRANSMIT_TIMEOUT (R183). -/
  | retransmitTimeout (qpn msn : Nat)
  /-- RNR_RESEND (R183). -/
  | rnrResend (qpn msn : Nat)
  /-- CODEWORD_RECEIVE (R203). -/
  | codewordReceive (port : Nat) (lcw : BitVec 20) (slots : List LinkSlot) (corrected : Bool) (lane : Option Nat)
  /-- SPARE_LANE_SWAP (R212). -/
  | spareLaneSwap (port : Nat)
  /-- RECEIVER_DETECT (R208). -/
  | receiverDetect (port : Nat)
  /-- TRAINING_SUCCESS (R208). -/
  | trainingSuccess (port : Nat)
  /-- TRAINING_ATTEMPT_TIMEOUT (R208). -/
  | trainingAttemptTimeout (port : Nat)
  /-- FEC_LOCK (R208). -/
  | fecLock (port now : Nat)
  /-- FEC_LOCK_TIMEOUT (R208). -/
  | fecLockTimeout (port : Nat)
  /-- IDENT_RECEIVE (R209). -/
  | identReceive (port : Nat) (pay : BitVec 512) (now : Nat)
  /-- IDENT_ROUND_TIMEOUT (R209). -/
  | identRoundTimeout (port now : Nat)
  /-- IDENT_TIMEOUT (R208). -/
  | identTimeout (port : Nat)
  /-- CODEWORD_LOCK_LOSS (R208). -/
  | codewordLockLoss (port : Nat)
  /-- PORT_ADMIN_DOWN (R208). -/
  | portAdminDown (down : Bool)
  /-- PORT_RESTART (R208). -/
  | portRestart
  /-- TRANSMIT_SELECT (R264). -/
  | transmitSelect (clk : Nat) (x : RecvReads)
  /-- NO_ROUTE_RETRY (R215). -/
  | noRouteRetry
  /-- CMAP_LOAD (R220). -/
  | cmapLoad (header : List Byte) (levels : List Byte) (headerAgain : List Byte) (failed : Bool)
  /-- FENCE_TABLE_WRITE (R222). -/
  | fenceTableWrite (value : Word)
  /-- ETH_LINK_UP (R227). -/
  | ethLinkUp (port lanes : Nat)
  /-- ETH_LINK_DOWN (R227). -/
  | ethLinkDown (port : Nat)
  /-- ETH_FRAME_RECEIVE (R232). -/
  | ethFrameReceive (port : Nat) (frame : List Byte) (corrected uncorrectable : Nat) (x : RecvReads)
  /-- XOFF_REPEAT (R241). -/
  | xoffRepeat (port pri : Nat)
  /-- PAUSE_FRAME_RECEIVE (R240). -/
  | pauseFrameReceive (port : Nat) (frame : List Byte)
  /-- PAUSE_EXPIRY (R240). -/
  | pauseExpiry (port pri : Nat)
  /-- GANDER_TX_TRIP (R243). -/
  | ganderTxTrip (port pri : Nat)
  /-- GANDER_TX_CLEAR (R243). -/
  | ganderTxClear (port pri : Nat)
  /-- GANDER_RX_TRIP (R244). -/
  | ganderRxTrip (port pri : Nat)
  /-- GANDER_RX_CLEAR (R244). -/
  | ganderRxClear (port pri : Nat)
  /-- ROCE_PACKET_RECEIVE (R249). -/
  | rocePacketReceive (port : Nat) (x : RecvReads)
  /-- CNP_RECEIVE (R274). -/
  | cnpReceive (port : Nat)
  /-- CELL_FRAME_RECEIVE (R255). -/
  | cellFrameReceive (port : Nat) (late : Int) (x : RecvReads)
  /-- ETH_COUNTER_LO_READ (R258). -/
  | ethCounterLoRead (port counter : Nat)
  /-- UNODE_ROUTE_WRITE (R262). -/
  | unodeRouteWrite (value : Word) (remote : BitVec 256) (failed : Bool)
  /-- REQUEST_RECEIVE (R268). -/
  | requestReceive (port : Nat) (hdr : BitVec 96) (pay : BitVec 512)
  /-- GRANT_RECEIVE (R269). -/
  | grantReceive (port : Nat) (hdr : BitVec 96) (pay : BitVec 512)
  /-- SCHED_CNP_RECEIVE (R274). -/
  | schedCnpReceive (port : Nat) (hdr : BitVec 96) (pay : BitVec 512)
  /-- GCL_ENTRY_ADVANCE (R282). -/
  | gclEntryAdvance (port : Nat)
  /-- GCL_LIST_SWITCH (R283). -/
  | gclListSwitch (port : Nat)
  /-- HERD_DEFINE (R291). -/
  | herdDefine (slot : Nat) (list : List (BitVec 64)) (failed : Bool)
  /-- HERD_DISSOLVE (R294). -/
  | herdDissolve (slot : Nat)
  /-- COLLECTIVE_SLOT_ACQUIRE (R313). -/
  | collectiveSlotAcquire (herd : Nat)
  /-- STEP_DEADLINE_MISS (R300). -/
  | stepDeadlineMiss (herd seq : Nat)
  /-- HERD_PIECE_RECEIVE (R301). -/
  | herdPieceReceive (qpn : Nat) (reads : NMap (BitVec 128))
  /-- HERD_SKIP_RECEIVE (R305). -/
  | herdSkipReceive (qpn : Nat)
  /-- HERD_VOTE_RECEIVE (R308). -/
  | herdVoteReceive (qpn : Nat)
  /-- HERD_ABORT_RECEIVE (R307). -/
  | herdAbortReceive (qpn : Nat)
  /-- HERD_COMMIT_RECEIVE (R309). -/
  | herdCommitReceive (qpn : Nat)
  /-- HERD_DECIDE_ABORT_RECEIVE (R309). -/
  | herdDecideAbortReceive (qpn : Nat)
  /-- HOLD_TIMEOUT (R309). -/
  | holdTimeout (herd seq : Nat)
  /-- COLLECTIVE_COMPLETE (R309). -/
  | collectiveComplete (herd seq : Nat)
  /-- HERD_MEMBERSHIP_CHANGE (R298). -/
  | herdMembershipChange (herd : Nat)
  /-- WORK_ITEM_END (R364). -/
  | workItemEnd (key item engine : Nat) (reads : NMap (BitVec 128))
  /-- KERNEL_COMPLETE (R370). -/
  | kernelComplete (key : Nat)
  /-- ACC_RECEIVER_DETECT (R382). -/
  | accReceiverDetect (port : Nat)
  /-- ACC_LINK_UP (R382). -/
  | accLinkUp (port rate width : Nat)
  /-- ACC_ENUMERATE (R383). -/
  | accEnumerate (port vendor device : Nat) (bars : List BarFound)
  /-- ACC_LINK_DOWN (R382). -/
  | accLinkDown (port : Nat)
  /-- ACC_ERR_FATAL (R382). -/
  | accErrFatal (port : Nat)
  /-- ACC_ADMIN_DOWN (R382). -/
  | accAdminDown (value : Word)
  /-- ACC_RESTART (R382). -/
  | accRestart (value : Word)
  /-- ACC_REQUEST_RECEIVE (R386). -/
  | accRequestReceive (port : Nat)
  /-- PCIE_FLUSH_COMPLETE (R390). -/
  | pcieFlushComplete (port : Nat) (ok : Bool)
  /-- PCIE_READ_COMPLETION (R394). -/
  | pcieReadCompletion (what : PcieRead) (outcome : Nat) (bytes : List Byte)
  /-- PCIE_COMPLETION_TIMEOUT (R394). -/
  | pcieCompletionTimeout (what : PcieRead)
  /-- CV_CLEAR (R400). -/
  | cvClear
  /-- CV_START (R400). -/
  | cvStart
  /-- CV_STOP (R400). -/
  | cvStop
  /-- CV_STREAM_BOUNDARY (R399). -/
  | cvStreamBoundary (source index : Nat)
  /-- CV_CONFIG_WRITE (R401). -/
  | cvConfigWrite (off : Nat) (v : Word)
  /-- CV_BYTES_LO_READ (R402). -/
  | cvBytesLoRead
  /-- CV_SELF_TEST_DONE (R518). -/
  | cvSelfTestDone (unit : Nat) (pass : Bool)
  /-- KEY_LOAD (R414). -/
  | keyLoad (slot : Nat) (record : BitVec 512) (failed : Bool)
  /-- KEY_REKEY (R414). -/
  | keyRekey (slot : Nat) (record : BitVec 512) (failed : Bool)
  /-- KEY_ERASE (R415). -/
  | keyErase (slot : Nat)
  /-- KEY_CHANGE_APPLY (R415). -/
  | keyChangeApply (n : Nat)
  /-- INSTANCE_RESET_DRAIN (R441). -/
  | instanceResetDrain (slot : Nat)
  /-- INSTANCE_RESET_SQUASH (R441). -/
  | instanceResetSquash (slot : Nat)
  /-- INSTANCE_RESET_DISCARD (R442). -/
  | instanceResetDiscard (slot : Nat)
  /-- INSTANCE_RESET_COMPLETE (R443). -/
  | instanceResetComplete (n : Nat) (scans : List RingScan)
  /-- INSTANCE_FREEZE (R445). -/
  | instanceFreeze (slot : Nat)
  /-- FREEZE_ACTIVATE (R445). -/
  | freezeActivate (n : Nat)
  /-- FREEZE_COMPLETE (R447). -/
  | freezeComplete (n : Nat)
  /-- INSTANCE_THAW (R450). -/
  | instanceThaw (slot : Nat)
  /-- THAW_ACTIVATE (R450). -/
  | thawActivate (n : Nat)
  /-- INSTANCE_SAVE_STATE (R452). -/
  | instanceSaveState (slot : Nat) (reads : NMap (BitVec 128))
  /-- INSTANCE_SAVE_MEMORY (R451). -/
  | instanceSaveMemory (slot : Nat) (reads : NMap (BitVec 128))
  /-- INSTANCE_RESTORE_STATE (R456). -/
  | instanceRestoreState (slot : Nat) (reads : NMap (BitVec 128)) (table : List (BitVec 128)) (failed : Bool)
  /-- INSTANCE_RESTORE_MEMORY (R457). -/
  | instanceRestoreMemory (slot : Nat) (reads : NMap (BitVec 128))
  /-- MBX_OUT_POST (R434). -/
  | mbxOutPost (n : Nat)
  /-- MBX_OUT_TAKEN (R434). -/
  | mbxOutTaken (n : Nat)
  /-- MBX_IN_POST (R434). -/
  | mbxInPost (n : Nat)
  /-- MBX_IN_DONE (R434). -/
  | mbxInDone (n : Nat)
  /-- MBX_BUFFER_WRITE (R435). -/
  | mbxBufferWrite (n : Nat) (inbound : Bool) (off : Nat) (v : Word)
  /-- FW_VERIFY (R477). -/
  | fwVerify
  /-- FW_INSTALL (R477). -/
  | fwInstall
  /-- ACTIVATE_ROLLING (R478). -/
  | activateRolling
  /-- ACTIVATE_WARM (R477). -/
  | activateWarm
  /-- COMMIT_SVN (R468). -/
  | commitSvn
  /-- RESTART_BANTAM (R473). -/
  | restartBantam (bantam : Nat)
  /-- LC_CHANGE (R495). -/
  | lcChange
  /-- KEK_INSTALL (R490). -/
  | kekInstall
  /-- WATCHDOG_EXPIRY (R474). -/
  | watchdogExpiry (bantam ms : Nat)
  /-- BANTAM_RESTART_COMPLETE (R473). -/
  | bantamRestartComplete (digestOk : Bool) (ms : Nat)
  /-- FW_ACTIVATION_RESUME (R479). -/
  | fwActivationResume
  /-- FW_HELLO (R481). -/
  | fwHello
  /-- JOIN_DOMAIN (R483). -/
  | joinDomain
  /-- HOST_BEAT (R485). -/
  | hostBeat (value : Word) (ms : Nat)
  /-- HOST_SILENT (R485). -/
  | hostSilent (ms : Nat)
  /-- GET_VERSION (R489). -/
  | getVersion (hst : Bool)
  /-- GET_CAPABILITIES (R489). -/
  | getCapabilities (hst : Bool) (version : Nat)
  /-- NEGOTIATE_ALGORITHMS (R489). -/
  | negotiateAlgorithms (hst offered : Bool)
  /-- GET_DIGESTS (R489). -/
  | getDigests (hst : Bool)
  /-- GET_CERTIFICATE (R489). -/
  | getCertificate (hst : Bool) (slot offset length : Nat)
  /-- CHALLENGE (R489). -/
  | challenge (hst : Bool) (slot : Nat)
  /-- GET_MEASUREMENTS (R489). -/
  | getMeasurements (hst : Bool) (index : Nat)
  /-- KEY_EXCHANGE (R489). -/
  | keyExchange (hst : Bool) (slot session : Nat)
  /-- FINISH (R489). -/
  | finish (hst : Bool) (session : Nat) (good : Bool)
  /-- HEARTBEAT (R489). -/
  | heartbeat (hst : Bool) (session : Nat)
  /-- KEY_UPDATE (R489). -/
  | keyUpdate (hst : Bool) (session : Nat)
  /-- END_SESSION (R489). -/
  | endSession (hst : Bool) (session : Nat)
  /-- SPDM_UNSUPPORTED_REQUEST (R489). -/
  | spdmUnsupportedRequest (hst : Bool)
  /-- DRBG_RESEED (R491). -/
  | drbgReseed
  /-- PS_EXIT_COMPLETE (R505). -/
  | psExitComplete
  /-- ASLEEP_ACCESS (R504). -/
  | asleepAccess (write : Bool) (off : Nat)
  /-- DOMAIN_IDLE_TIMEOUT (R499). -/
  | domainIdleTimeout (domain : Nat)
  /-- DOMAIN_WAKE (R499). -/
  | domainWake (domain : Nat)
  /-- FLOCK_PARK (R507). -/
  | flockPark (value : Word)
  /-- FLOCK_UNPARK (R507). -/
  | flockUnpark (value : Word)
  /-- INPUT_SAMPLE (R509). -/
  | inputSample (sensor degC mv : Nat) (voltBad : Bool) (sampleW avgW : Nat)
  /-- DEMAND_DECREASE (R511). -/
  | demandDecrease
  /-- EMERGENCY_BEGIN (R512). -/
  | emergencyBegin
  /-- EMERGENCY_END (R512). -/
  | emergencyEnd
  /-- THERMAL_TRIP (R513). -/
  | thermalTrip (sensor degC : Nat)
  /-- INT_ENABLE_WRITE (R548). -/
  | intEnableWrite (page : Option Nat) (v : Word)
  /-- MSIX_VECTOR_UNMASK (R548). -/
  | msixVectorUnmask (fn : Nat) (vector : Option Nat)
  /-- INST_TICK_LO_READ (R550). -/
  | instTickLoRead (n : Nat)
  /-- LATCHED_LO_READ (R375). -/
  | latchedLoRead (off : Nat)
  /-- REGISTER_WRITE (R5). -/
  | registerWrite (off : Nat) (v : Word) (full : Bool)
  /-- PPS_PULSE (R559). -/
  | ppsPulse
  /-- PTP_PORT_LINK_CHANGE (R558). -/
  | ptpPortLinkChange (up : Bool)
  /-- MCTP_CONTROL_MESSAGE (R560). -/
  | mctpControlMessage (eid : Nat)
  /-- ACC_ERROR_MESSAGE (R376). -/
  | accErrorMessage (port : Nat)
  /-- BOND_UNIT_ACTION_RECEIVE (R70). -/
  | bondUnitActionReceive (flock : Nat) (kind : UnitActionKind)
  /-- LZ_ACTION_END (R61). -/
  | lzActionEnd (image : List Byte) (v : Verdict)
  /-- FW_ACTION_END (R477). -/
  | fwActionEnd (x : FwEnd)
  deriving DecidableEq, Repr

end Sys2Proof
end

