-- ==== Sys2Proof/Config.lean ====
section
/-! DEFINITION. The free values of the model: constants without a body, one for each value that the
specification leaves open and after which the machine goes on. -/

namespace Sys2Proof

/-- The n-th 128-bit output of the NIST SP 800-90A generator of R491 (assumption 5). -/
opaque Config.drbg : Nat → BitVec 128
/-- The estimate that R35's median gives for an even number of values, which the specification does not
fix: applied to the two middle values (assumption 6). -/
opaque Config.midpoint : Int → Int → Int

/-- A byte of an uncorrectable codeword as a read delivers it (R120): applied to the free-value counter and
the byte's address (assumption 7). -/
opaque Config.badByte : Nat → Nat → Byte
/-- The set of the L2 that a SPACE and a virtual page fall into, and the way replaced among those that may
be (R90 states neither; assumption 8). -/
opaque Config.l2Set : Nat → Nat → Nat
opaque Config.l2Victim : Nat → Nat
/-- INIT_CREDIT and SPARE_GROUP of the adapter's own IDENT, which Table 7.6 does not fix: applied to nothing,
and to the half (assumption 9). -/
opaque Config.initCredit : Nat
opaque Config.spareGroup : Nat → Nat
/-- ALPHA as its 16 bits hold it (R274 states no rounding; assumption 10). -/
opaque Config.alpha16 : Rat → Rat
/-- The timer code of an RNR NAK, which R250 does not fix (assumption 14). -/
opaque Config.rnrTimer : Nat
/-- A time in ns for one in thirds of a nanosecond that is not whole (R35 states no rounding; assumption 19). -/
opaque Config.nsRound : Int → Int
/-- SEND_DELAY of an alignment cell that the adapter sends: a matter of timing, applied to the port and the count
(assumption 20). -/
opaque Config.sendDelay : Nat → Nat → Nat
/-- Whether a use of a port's rate that is no whole 255th is rounded up (Table 7.8 states no rounding; assumption 19). -/
opaque Config.useRound : Nat → Nat → Bool
/-- Whole bytes of a shaper's tokens that are no whole bytes: applied to eighths of a byte (Table 9.4 states no rounding;
assumption 19). -/
opaque Config.tokenBytes : Int → Int
/-- Whether a PCIe link of a port, trained to a generation, runs in flit mode: the PCIe specification's matter
(assumption 21). -/
opaque Config.flitMode : Nat → Nat → Bool

end Sys2Proof
end

