-- ==== Sys2Proof/Machine/State.lean ====
section
/-! DEFINITION. The state of the GX-6400 as plain data: what every chapter of the specification gives the
adapter to hold, the queue of waiting commands, and the log of what the adapter has sent. -/

namespace Sys2Proof.Machine

/-- One row of a register table: the register's offset, its reset value, the masks of its bits by access
type (R5), and the offsets of the index registers that select its position, if it is indexed. -/
structure RegInfo where
  off : Nat
  reset : Word := 0
  rw : Word := 0
  rws : Word := 0
  w1c : Word := 0
  /-- RWS bits that a write of 1 clears. -/
  w1s : Word := 0
  cmt : Word := 0
  wo : Word := 0
  ix : List Nat := []
  deriving DecidableEq, Repr

/-- A pending set of one block (R67): its sequence number, the copied shadows, and whether it belongs to
a group (R546); `atTick` is the activation tick that holds the set back, 0 for the next edge (R41). -/
structure CommitSet where
  seq : Word
  vals : NMap Word
  group : Bool := false
  atTick : BitVec 64 := 0
  deriving DecidableEq, Repr

/-- The alignment states of Table 1.4. -/
inductive AlignState where
  | free | acquire | aligned | holdover
  deriving DecidableEq, Repr

/-- The fabric tick and its alignment (R25 to R41). -/
structure TickState where
  /-- The tick counter (R27). -/
  count : BitVec 64 := 0
  /-- Bits [63:32] latched by the last read of GX_TICK_COUNT_LO (R28). -/
  hiLatch : Word := 0
  /-- The same latch of each instance page (R550). -/
  pageLatch : NMap Word := []
  align : AlignState := .free
  /-- The anchor pair (R33). -/
  anchorTick : BitVec 64 := 0
  anchorTime : BitVec 64 := 0
  /-- For an odd PERIOD, the next tick is the longer one (R26). -/
  longNext : Bool := false
  /-- Length in clk of the tick that is running (R26, R38). -/
  lengthClk : Nat := 3000
  /-- Consecutive ticks with |offset| at most 40 ns, above 250 ns, and without input (Table 1.4). -/
  inTol : Nat := 0
  outTol : Nat := 0
  noInput : Nat := 0
  /-- Consecutive ticks without a neighbour's alignment cell (Table 1.4). -/
  noNbr : Nat := 0
  /-- EPOCH_BEHIND bars acquisition until a tick-block commit or a warm reset (R37). -/
  behind : Bool := false
  ptpLocked : Bool := false
  /-- The last offset the PTP client measured, in ns. -/
  ptpOffset : Option Int := none
  /-- Offsets measured in this tick, by cell port or, from 32 up, by UDP node entry (R35). -/
  nbrOffsets : NMap Int := []
  /-- Tick counts that the neighbours' cells of this tick carried. -/
  nbrCounts : NMap (BitVec 64) := []
  /-- How many neighbours entered the last estimate, and the estimate (R35, Tables 1.12, 1.13). -/
  nbrCount : Nat := 0
  offset : Int := 0
  /-- Excess clk still owed by each unit (R32). -/
  debts : NMap Nat := []
  deriving DecidableEq, Repr

/-- One entry of the PORTS section (R47). -/
structure LzPort where
  enable : Bool
  /-- PERSONALITY 1: Ethernet. -/
  eth : Bool
  udpCells : Bool
  mtu : Nat
  deriving DecidableEq, Repr

/-- The KIND of a Flock record (Table 2.4). -/
inductive FlockKind where
  | inner | leafEngines | leafCore
  deriving DecidableEq, Repr

/-- A Flock record (Table 2.4). -/
structure Flock where
  id : Nat
  /-- PARENT_ID; none for a root (0xFFFF). -/
  parent : Option Nat
  kind : FlockKind
  exported : Bool
  inst : Bool
  bonded : Bool
  core : Nat
  mask : Byte
  slot : Nat
  unit : Nat
  bond : Nat
  deriving DecidableEq, Repr

/-- An entry of the MEMORY section (R55). -/
structure LzMem where
  flock : Nat
  cstore : Nat
  t1 : Nat
  t2 : Nat
  deriving DecidableEq, Repr

/-- An entry of the BONDS section (R58). -/
structure LzBond where
  id : Nat
  members : Nat
  index : Nat
  deriving DecidableEq, Repr

/-- The structure that a Lanzil image defines (R44 to R58). -/
structure Structure where
  buildId : BitVec 64 := 0
  minRev : Nat := 0
  widthMode : Nat := 0
  ports : List LzPort := []
  flocks : List Flock := []
  /-- Instance number and FLOCK_ID (R54). -/
  insts : List (Nat × Nat) := []
  mems : List LzMem := []
  /-- Queue state, reorder and retry, packet buffers, collective staging, in MiB (R56). -/
  sram : Nat × Nat × Nat × Nat := (32, 64, 96, 56)
  period : Nat := 16
  guard : Nat := 150
  nodeIds : Nat := 1
  large : Nat := 256
  bonds : List LzBond := []
  deriving DecidableEq, Repr

/-- The empty structure (R60): instance 0 alone, on one exported inner Flock at slot 0, UNIT 0. -/
def Structure.empty : Structure :=
  { ports := List.replicate 8 ⟨false, false, false, 1518⟩
    flocks := [⟨0, none, .inner, true, true, false, 0, 0, 0, 0, 0⟩]
    insts := [(0, 0)] }

/-- A partial image that has been verified (R63): the structure that it makes, whether it has the sections of the
tree, and the directory index of a TICK section, for DETAIL (R73). -/
structure Reload where
  next : Structure
  tree : Bool
  tick : Option Nat
  deriving DecidableEq, Repr

/-- One unit action in progress: the Flock, the kind, the bond members yet to acknowledge, the tick at
which it was sent, and whether it completes DEGRADED (R71). -/
structure UnitAction where
  flock : Nat
  kind : UnitActionKind
  waiting : List Nat
  sentAt : BitVec 64
  degraded : Bool := false
  deriving DecidableEq, Repr

/-- The Lanzil block (R44 to R73). -/
structure LzState where
  /-- The running full image with the partial images applied to it. -/
  run : Structure := Structure.empty
  /-- The running structure comes from an image (false: the empty structure, R60). -/
  loaded : Bool := false
  /-- The two stored boot images and which is newer (R465). -/
  slotA : List Byte := []
  slotB : List Byte := []
  newestB : Bool := false
  /-- The running action: 1 VERIFY, 2 PARTIAL, 3 FULL (R62). -/
  action : Nat := 0
  /-- A verified partial image that waits for its edge or for an emergency to clear (R66). -/
  held : Option Reload := none
  /-- Bonded Flocks that are formed (R58), by FLOCK_ID. -/
  formed : List Nat := []
  /-- Members of a bond fenced under R71: (BOND_ID, member index). -/
  fencedMembers : List (Nat × Nat) := []
  unitActions : List UnitAction := []
  /-- Flocks that a unit action has fenced (R70), by FLOCK_ID. -/
  fenced : List Nat := []
  deriving DecidableEq, Repr

/-- Translation of one page as a cache holds it (R85, R89): a leaf of any granule. -/
structure XlEntry where
  /-- Identity of the fill, by which uses and INVALIDATEs name the entry. -/
  id : Nat := 0
  space : Nat
  /-- Virtual base of the page and log2 of its size (12, 16, 21 or 30). -/
  vbase : Nat
  size : Nat
  node : Nat
  offset : Nat
  read : Bool
  write : Bool
  atomic : Bool
  uses : Nat := 0
  dying : Bool := false
  deriving DecidableEq, Repr

/-- A table walk in progress (R91): what asked for it, and whether an INVALIDATE accepted since then keeps
its result out of every cache (R99). -/
structure Walk where
  space : Nat
  inst : Nat
  va : Nat
  /-- Key of the operation or kernel that stalls on it. -/
  owner : Nat
  stale : Bool := false
  /-- SCOPE, SPACE, VA and PAGES of the INVALIDATEs accepted since it began. -/
  missed : List (Nat × Nat × Nat × Nat) := []
  deriving DecidableEq, Repr

/-- An accepted INVALIDATE that has not completed (R101): its slot, and the entries it marked. -/
structure Inval where
  slot : Nat
  /-- 0 RANGE, 1 SPACE, 2 ALL. -/
  scope : Nat
  marked : List Nat
  /-- RANGE with PAGES 0: it waits for the earlier ones alone. -/
  zero : Bool := false
  deriving DecidableEq, Repr

/-- The translation block (R74 to R106). -/
structure XlState where
  l2 : List XlEntry := []
  /-- L1 copies: logical core, SPACE, virtual base (R89). -/
  l1 : List (Nat × Nat × Nat) := []
  /-- Walk cache: SPACE, level, virtual base of the region, table entry. -/
  walkCache : List (Nat × Nat × Nat × BitVec 64) := []
  /-- Space cache, most recently used first (R83). -/
  spaceCache : NMap (BitVec 128) := []
  /-- OWNER of the spaces under which translations were cached (R83, R104). -/
  owners : NMap Nat := []
  walks : NMap Walk := []
  nextWalk : Nat := 0
  nextId : Nat := 0
  invals : List Inval := []
  /-- Results of overtaken walks, which serve only the operation that asked (R99), by its key. -/
  held : List (Nat × XlEntry) := []
  deriving DecidableEq, Repr

/-- The memories (R107 to R126). Granule keys: tier-1 granule g is g, tier-2 granule h is 4,096 + h. -/
structure MemState where
  /-- Tier bytes by node offset; unlisted bytes are 0 (R125). -/
  bytes : List Host.Cell := []
  /-- Core-store bytes by 2^27 times the logical core plus the byte offset; unlisted bytes are 0. -/
  stores : List Host.Cell := []
  /-- FLOCK_ID of each assigned granule (R110). -/
  owner : NMap Nat := []
  /-- Granules whose wipe runs (R112). -/
  wiping : List Nat := []
  /-- GX_MEM_STATUS: PHASE, and the number of granules of each package that are clean (R126). -/
  phase : Nat := 0
  t2Clean : Nat := 0
  /-- clk since the cold-reset wipe began, while it runs. -/
  wipeClk : Nat := 0
  /-- Uncorrectable codewords: node offset divided by 32 (R120). -/
  bad : List Nat := []
  /-- Uncorrectable core-store words: store key divided by 8. -/
  badStore : List Nat := []
  /-- Retirement granule of each package (R123). -/
  retire : NMap Nat := []
  /-- Tier-1 banks whose row repair runs (R121). -/
  rowBusy : List Nat := []
  /-- Pseudo-channel copies that run: stack, pseudo-channel (R122). -/
  pcRun : List (Nat × Nat) := []
  /-- Tier-2 frames whose retirement copy runs, by frame number (R123). -/
  frameRun : List Nat := []
  deriving DecidableEq, Repr

/-- Ring kinds (Table 5.1). -/
inductive RingKind where
  | sq | cq | rq
  deriving DecidableEq, Repr

/-- The content of a completion, but for the fields that the ring gives it (Table 5.7). -/
structure Completion where
  status : Nat
  cont : Bool := false
  recv : Bool := false
  detail : Nat := 0
  bytes : Nat := 0
  imm : Nat := 0
  aux : Nat := 0
  /-- USER_TAG of the FIRST entry of the chain. -/
  tag : Nat := 0
  deriving DecidableEq, Repr

/-- An accepted entry without a written completion (R138).  `head` is the slot of the FIRST entry of its
chain; `payload` gathers the chain's continuation bytes in the FIRST entry (R145). -/
structure Op where
  slot : Nat
  entry : BitVec 512
  head : Nat
  payload : List Byte := []
  /-- The chain's LAST entry has been accepted (R146). -/
  whole : Bool := true
  started : Bool := false
  malformed : Option Nat := none
  /-- The completion, once the operation has ended. -/
  done : Option Completion := none
  /-- PCIe ports whose flush the completion waits for (R389). -/
  flush : List Nat := []
  deriving DecidableEq, Repr

/-- A registered ring (R128 to R142). -/
structure Ring where
  kind : RingKind
  base : BitVec 64
  /-- 0 HOST, 1 to 4 ACC0 to ACC3, 5 TIER. -/
  loc : Nat
  log2 : Nat
  inst : Nat
  cq : Nat := 0
  pollInt : Nat := 0
  maxInt : Nat := 0
  space : Nat := 0
  /-- Polling has begun (R131). -/
  polled : Bool := false
  interval : Nat := 0
  /-- Next slot to fetch, and position of the next completion (R142, R148). -/
  nextFetch : Nat := 0
  nextDone : Nat := 0
  /-- A CQ slot is reserved and unused (R138). -/
  reserved : Bool := false
  /-- A doorbell waits (R151). -/
  doorbell : Bool := false
  ops : List Op := []
  /-- Bytes of the slot that the last poll found with OWN 1, until the entry is accepted (R136). -/
  fetched : Option (BitVec 512) := none
  /-- Management slot of the RING_REGISTER that made the ring (R131). -/
  regBy : Option Nat := none
  /-- Slot of the FIRST entry of an open chain (R145). -/
  openChain : Option Nat := none
  /-- Slot of the RING_SHUTDOWN that stops the ring (R157). -/
  shutting : Option Nat := none
  /-- The last recorded completion: entry slot, CQ slot, the 32 bytes, the first byte of the returned entry (R142). -/
  last : Option (Nat × Nat × List Byte × Nat) := none
  /-- CQ: next slot to reserve and next slot to write. -/
  resNext : Nat := 0
  wrNext : Nat := 0
  deriving DecidableEq, Repr

/-- The queue block (R128 to R160). -/
structure QueueState where
  rings : NMap Ring := []
  /-- The management rings are registered (GX_Q_MGMT_CTRL.ACTIVE). -/
  mgmtActive : Bool := false
  /-- Polls left in this tick (R150). -/
  budget : Nat := 1024
  /-- Polls that wait for the next tick, in the order they became due; true for a doorbell's. -/
  deferred : List (Nat × Bool) := []
  /-- Deferred polls that this tick's budget serves first. -/
  issued : List Nat := []
  /-- Rings whose scan after a warm reset has not ended (R188). -/
  scanning : List Nat := []
  deriving DecidableEq, Repr

/-- States of a queue pair (Table 6.3). -/
inductive QpState where
  | ready | error | movedWait
  deriving DecidableEq, Repr

/-- A fetched RECV entry (R172): its SSN, RQ slot, buffer, what has arrived, and the fault of its buffer. -/
structure RecvEntry where
  ssn : Nat
  slot : Nat
  buf : Nat
  len : Nat
  space : Nat
  /-- TOTAL_LENGTH and IMM of the SEND and the MSN of its last message, once its tail has arrived. -/
  total : Option Nat := none
  imm : Nat := 0
  lastMsn : Nat := 0
  /-- Lowest MSN of the SEND seen so far. -/
  firstMsn : Nat := 0
  /-- Bytes written, the first fault (cause, VA and MSN), and the status of the SEND. -/
  bytes : Nat := 0
  fault : Option (Nat × Nat × Nat) := none
  status : Nat := 0
  /-- The bytes of a Herd's SEND, by offset. -/
  data : List (Nat × List Byte) := []
  /-- AUX of the completion on a RoCEv2 queue pair (R251, R252). -/
  aux : Option Nat := none
  deriving DecidableEq, Repr

/-- What a RoCEv2 queue pair holds besides (R247 to R251): its remote table entry; as responder the count of
completed messages that an AETH carries, whether the NAK Sequence Error of the present gap is sent, the SEND (1)
or RDMA WRITE (2) in progress with its next address, the bytes still due and those taken, and the last eight atomic results by
PSN. -/
structure RoceQp where
  remote : BitVec 256 := 0
  msn : Nat := 0
  nakSent : Bool := false
  rxKind : Nat := 0
  rxVa : Nat := 0
  rxLeft : Nat := 0
  rxTotal : Nat := 0
  atomics : List (Nat × Nat) := []
  deriving DecidableEq, Repr

/-- A queue pair context (R161, R162). RTO to WINDOW as QP_CREATE or TIMERS gave them. -/
structure Qp where
  typ : Nat
  access : Nat
  peerNode : Nat
  peerUnit : Nat
  peerQpn : Nat
  sq : Nat
  rq : Nat
  inst : Nat
  rto : Nat := 0
  retry : Nat := 0
  rnrDelay : Nat := 0
  rnrLimit : Nat := 0
  window : Nat := 0
  ah : BitVec 128 := 0
  state : QpState := .ready
  /-- Next MSN to send; EXPECTED and the completed MSNs above it (R177). -/
  nextMsn : Nat := 0
  expected : Nat := 0
  winBits : List Nat := []
  sendSsn : Nat := 0
  recvSsn : Nat := 0
  recvs : List RecvEntry := []
  /-- Status list: MSN and status (R179). -/
  statuses : List (Nat × Nat) := []
  /-- The Herd whose exchange the queue pair serves (R292). -/
  herd : Option Nat := none
  /-- A raw queue pair (R252). -/
  raw : Bool := false
  roce : RoceQp := {}
  deriving DecidableEq, Repr

/-- A page of a tile's side after translation: virtual base of the piece, length, node, node offset. -/
structure PageMap where
  va : Nat
  len : Nat
  node : Nat
  off : Nat
  deriving DecidableEq, Repr

/-- Progress of a tile (R94, R95): not yet translated, translated, sent as a message, complete. -/
inductive TileState where
  | waiting | ready | sent | done
  deriving DecidableEq, Repr

/-- One tile of an operation. -/
structure Tile where
  src : Nat
  dst : Nat
  len : Nat
  state : TileState := .waiting
  uses : List Nat := []
  srcPages : List PageMap := []
  dstPages : List PageMap := []
  /-- Faults found so far: side (0 source, 1 destination), VA, cause. -/
  faults : List (Nat × Nat × Nat) := []
  msn : Nat := 0
  /-- The message's status, and the status found at the requester itself. -/
  status : Nat := 0
  own : Nat := 0
  deriving DecidableEq, Repr

/-- Kinds of running operation; `seal` is a WRITE under a tier slot (R422). -/
inductive RunKind where
  | write | read | send | atomic | writeReduce | attn | seal
  deriving DecidableEq, Repr

/-- Where an operation is cut short: the first tile that is not sent, and what the completion reports. -/
structure Cut where
  tile : Nat
  status : Nat
  detail : Nat := 0
  va : Nat := 0
  deriving DecidableEq, Repr

/-- A running operation, by ring · 65,536 + slot of its FIRST entry; operations of a Herd's engine have keys
from 2^40. -/
structure OpRun where
  kind : RunKind
  ring : Nat
  slot : Nat
  qpn : Nat
  inst : Nat
  space : Nat
  tiles : List Tile
  /-- The tile from which on nothing is sent, and the status, DETAIL and VA that it gives (R96, R426). -/
  cut : Option Cut := none
  /-- No further tile starts, and the operation ends with this status (R157, R441). -/
  stopped : Option Nat := none
  ssn : Nat := 0
  imm : Nat := 0
  /-- REDOP and FORMAT of a WRITE_REDUCE, SIZE and AOP of an ATOMIC, KIND of an ATTN. -/
  op : Nat := 0
  format : Nat := 0
  operA : Nat := 0
  operB : Nat := 0
  /-- Bytes that do not come from memory: an ATTN parameter block, a Herd's message, a blob. -/
  data : Option (List Byte) := none
  /-- What an ATTN's tail reported. -/
  aux : Nat := 0
  /-- A flush that covers its writes failed: it ends with this status (R394). -/
  force : Nat := 0
  deriving DecidableEq, Repr

/-- A requester's record of a message (R176, R183). -/
structure Msg where
  qpn : Nat
  msn : Nat
  run : Nat
  tile : Nat
  kind : RunKind
  cells : Nat
  bytes : Nat
  /-- Cells not yet sent a first time start here; cells queued to be sent again. -/
  next : Nat := 0
  resend : List Nat := []
  marks : List Nat := []
  tries : Nat := 0
  rnr : Nat := 0
  deadline : Nat := 0
  /-- Tick of the pending resend after an RNR NACK (R183). -/
  rnrAt : Option Nat := none
  /-- Port of the first transmission (R183). -/
  path : Option Nat := none
  acked : Bool := false
  /-- Response cells that have arrived, out of how many (0: none yet), and the tick of the last new one. -/
  respGot : List Nat := []
  respCnt : Nat := 0
  respTick : Nat := 0
  /-- Ciphertext of a response under GCM, and its tag. -/
  respData : NMap (List Byte) := []
  respTag : Option (List Byte) := none
  respStatus : Nat := 0
  /-- The key slot has been charged for the message, or for its response (R425). -/
  charged : Bool := false
  respCharged : Bool := false
  deriving DecidableEq, Repr

/-- A responder's record of an incoming message (R176). -/
structure RxRec where
  qpn : Nat
  msn : Nat
  kind : Nat
  /-- CELL_CNT. -/
  cnt : Nat
  got : List Nat := []
  lastTick : Nat := 0
  status : Nat := 0
  ssn : Nat := 0
  /-- Control payloads by cell index: READ_REQ runs, the ATOMIC operands, the ATTN parameter cells. -/
  pays : NMap (BitVec 512) := []
  /-- Cells held: ciphertext for the tag of R419, or a Herd's message. -/
  data : NMap (List Byte) := []
  fills : NMap Nat := []
  tag : Option (List Byte) := none
  sealBad : Bool := false
  imm : Nat := 0
  /-- Bytes written by the message. -/
  bytes : Nat := 0
  /-- Pages of the RECV buffer part that the message covers, and the uses held on them. -/
  pages : List PageMap := []
  uses : List Nat := []
  /-- The message's bytes are rejected whole: a faulting buffer or an exhausted key. -/
  refused : Bool := false
  executed : Bool := false
  /-- Ports whose flush the message's completion waits for (R391). -/
  flush : List Nat := []
  deriving DecidableEq, Repr

/-- A response that the adapter sends as responder (R171, R182): of a READ (KIND 4), an ATOMIC (6) or an
ATTN (8).  An ATOMIC's and an ATTN's are the result cache. -/
structure RespRec where
  qpn : Nat
  msn : Nat
  kind : Nat
  /-- Runs of a READ: node offset, bytes, offset in the tile. -/
  runs : List (Nat × Nat × Nat) := []
  /-- The bytes as the execution read or computed them. -/
  data : List Byte := []
  lineOff : Nat := 0
  cells : Nat
  status : Nat := 0
  aux : Nat := 0
  /-- The kernel has ended (ATTN). -/
  ready : Bool := true
  next : Nat := 0
  resend : List Nat := []
  marks : List Nat := []
  lastTick : Nat := 0
  path : Option Nat := none
  deriving DecidableEq, Repr

/-- A control cell that waits to be sent (R264): its node and unit, the header and payload, and the queue
pair that sends it. -/
structure CtlCell where
  node : Nat
  unit : Nat
  hdr : BitVec 96
  pay : BitVec 512
  qpn : Option Nat := none
  deriving DecidableEq, Repr

/-- The transport block (R161 to R195). -/
structure TpState where
  qps : NMap Qp := []
  runs : NMap OpRun := []
  /-- Messages of the requester by QPN · 2^64 + MSN. -/
  msgs : NMap Msg := []
  recs : NMap RxRec := []
  resps : NMap RespRec := []
  control : List CtlCell := []
  /-- Messages answered with RNR in this tick, by QPN · 2^64 + MSN (R172). -/
  rnrSent : List Nat := []
  /-- Next key of a Herd engine's operation. -/
  nextRun : Nat := 0
  deriving DecidableEq, Repr

/-- Link states (Table 7.5). -/
inductive LinkState where
  | disabled | training | fecLock | identify | up | fenced
  deriving DecidableEq, Repr

/-- A standalone cell, or a train with its cells, bound for a node: the header, the payload or train header,
and, for a retransmission, the port that first carried it (R215). -/
structure WireItem where
  node : Nat
  unit : Nat
  hdr : BitVec 96
  pay : BitVec 512
  cells : List (BitVec 512) := []
  retx : Bool := false
  avoid : Option Nat := none
  /-- It goes by UDP (R254), charged to this instance. -/
  udp : Bool := false
  inst : Nat := 0
  /-- It has been counted as held for want of a candidate link (R215). -/
  counted : Bool := false
  deriving DecidableEq, Repr

/-- A cell port (R196 to R214). -/
structure CellPort where
  state : LinkState := .disabled
  /-- Failed training attempts (R208), and a receiver is detected. -/
  attempts : Nat := 0
  detected : Bool := false
  /-- IDENT of the peer (Table 7.6). -/
  peerSwitch : Bool := false
  plane : Nat := 0
  peerId : Nat := 0
  peerKnown : Bool := false
  peerAlign : Bool := false
  peerSpareCap : Bool := false
  peerSpareGroup : Nat := 255
  /-- Rounds of the delay exchange answered so far, the smallest RTT and the link delay, in ns (R209). -/
  rounds : Nat := 0
  rtt : Nat := 0
  delay : Nat := 0
  sentDone : Bool := false
  gotDone : Bool := false
  identTicks : Nat := 0
  /-- Fenced lanes of the port, and the spare stands in (R212, R214). -/
  fencedLanes : List Nat := []
  spareUsed : Bool := false
  narrowed : Bool := false
  rttLong : Bool := false
  /-- Counts of the link layer, modulo 2,048 (R204). -/
  txLsn : Nat := 0
  ackedLsn : Nat := 0
  rxLsn : Nat := 0
  /-- Retry buffer, oldest first: what was sent, with the LSN of its first slot. -/
  retry : List (Nat × WireItem) := []
  /-- What is queued on the link, oldest first (R205, R215). -/
  queue : List WireItem := []
  credit : Nat := 0
  /-- Waiting for a RESYNC codeword (R204). -/
  waitResync : Bool := false
  /-- LSN that was NAKed once and waits for its resend; the tick of the last lasting fault (R207). -/
  suspect : Option Nat := none
  lastLasting : Option Nat := none
  /-- The retrain of R207 runs. -/
  retrain : Bool := false
  /-- A parked spare lane is being retuned to replace this lane (R212). -/
  spareWait : Option Nat := none
  /-- Head of the train in progress, header and payload (R200), and whether R223 lets its cells in. -/
  train : Option (BitVec 96 × BitVec 512) := none
  trainOk : Bool := true
  deriving DecidableEq, Repr

/-- States of a fence-table entry (R222). -/
structure FenceEntry where
  node : Nat
  unit : Nat
  /-- 1 ACTIVE, 2 FENCED. -/
  state : Nat
  epoch : Nat
  deriving DecidableEq, Repr

/-- The cell fabric (R196 to R226). -/
structure CfState where
  ports : NMap CellPort := []
  /-- Spray rotor (R215). -/
  rotor : Nat := 0
  /-- Live consolidated map: generation, plane mask, levels by index (R219, R220), and one that waits for
  its edge. -/
  mapGen : Nat := 0
  planeMask : Nat := 255
  levels : NMap Nat := []
  mapNext : Option (Nat × Nat × NMap Nat) := none
  mapLoaded : Bool := false
  /-- GX_TP_RETX_CNT, GX_CF_STALE_EPOCH_CNT and GX_CF_FENCED_DROP_CNT as step 1 of the last edge latched them (R29,
  R218). -/
  seen : Nat × Nat × Nat := (0, 0, 0)
  fences : NMap FenceEntry := []
  /-- Tick in which an entry last became FENCED (R298). -/
  fencedAt : Nat := 0
  /-- What is held for want of a candidate link (R215, R216). -/
  held : List WireItem := []
  /-- Spare lane of each half: DEVICE_ID and SPARE_GROUP of its peer's IDENT, and the halves whose spare is
  in use or fenced (R212, R214). -/
  spareId : NMap (Nat × Nat) := []
  spareUsed : List Nat := []
  /-- Bytes sent and received in this tick, by port (telemetry, R216). -/
  txBytes : NMap Nat := []
  rxBytes : NMap Nat := []
  retries : NMap Nat := []
  deriving DecidableEq, Repr

/-- The consumer of a received frame (Table 8.3). -/
inductive Consumer where
  | ptp | roce | cell
  deriving DecidableEq, Repr

/-- A received frame whose consumer has not taken it yet: its priority, the 256-byte blocks it holds, and
its bytes without FCS (R232, R234). -/
structure RxFrame where
  consumer : Consumer
  pri : Nat
  blocks : Nat
  bytes : List Byte
  deriving DecidableEq, Repr

/-- A frame in a port's transmit queue (R231): its bytes without FCS, and the pacer it is charged to
(a QPN, or 65,536 + a UDP node entry). -/
structure TxFrame where
  bytes : List Byte
  pacer : Option Nat := none
  inst : Nat := 0
  cell : Bool := false
  /-- Messages that it carries packets of: QPN and MSN. -/
  msgs : List (Nat × Nat) := []
  deriving DecidableEq, Repr

/-- An Ethernet port (R227 to R245, R258). -/
structure EthPort where
  link : Bool := false
  narrowed : Bool := false
  fencedLanes : List Nat := []
  rx : List RxFrame := []
  /-- Priorities that the peer pauses, and those named with nonzero quanta in this tick. -/
  pausedRx : List Nat := []
  pauseSeen : List Nat := []
  /-- Priorities that the adapter pauses. -/
  pausedTx : List Nat := []
  txStorm : List Nat := []
  rxStorm : List Nat := []
  /-- Consecutive edges, by priority, of: paused by the peer with a frame waiting; no pause with nonzero
  quanta; paused by the adapter; use at or below XON (R243, R244). -/
  stuckTk : NMap Nat := []
  quietTk : NMap Nat := []
  heldTk : NMap Nat := []
  lowTk : NMap Nat := []
  /-- Transmit queue of each priority. -/
  tx : NMap (List TxFrame) := []
  /-- Counters by index, 48 bits; latched high words; half-range bits (R258, R259). -/
  counters : NMap Nat := []
  latches : NMap Nat := []
  half : BitVec 64 := 0
  rawQp : Option Nat := none
  deriving DecidableEq, Repr

/-- A UDP node entry (R256, R262), with the remote-table entry it named when it was stored. -/
structure Unode where
  valid : Bool := false
  node : Nat := 0
  remote : Nat := 0
  port : Nat := 0
  delay : Nat := 0
  entry : BitVec 256 := 0
  /-- Slots packed into the frame that is being filled, as they go on the wire. -/
  fill : List Byte := []
  /-- The instance whose slots it holds (R263). -/
  fillInst : Nat := 0
  deriving DecidableEq, Repr

/-- The Ethernet block (R227 to R262). -/
structure EthState where
  ports : NMap EthPort := []
  unodes : NMap Unode := []
  /-- Queue pairs that got a CNP in this tick, and source nodes that got a cell CNP (R253, R273). -/
  cnpQps : List Nat := []
  cnpNodes : List Nat := []
  deriving DecidableEq, Repr

/-- A rate controller and its pacer (R274): RC and RT in MB/s. -/
structure RateCtl where
  rc : Rat
  rt : Rat
  alpha : Rat := 1
  quiet : Nat := 0
  stage : Nat := 0
  cnp : Bool := false
  /-- Bytes that the pacer lets through. -/
  tokens : Rat := 0
  deriving DecidableEq, Repr

/-- A pooled REQUEST (R268). -/
structure Request where
  node : Nat
  unit : Nat
  dst : Nat
  tick : Nat
  demand : Nat
  weight : Nat
  deriving DecidableEq, Repr

/-- A gate control list as it runs (R281 to R285). -/
structure GateList where
  enable : Bool := false
  compat : Bool := false
  guardMode : Nat := 0
  length : Nat := 1
  cycleTk : Nat := 1
  guardNs : Nat := 0
  base : Nat := 0
  cycleNs : Nat := 0
  /-- GATES and DURATION of each entry. -/
  entries : List (Nat × Nat) := []
  deriving DecidableEq, Repr

/-- The list of a port, the entry that runs, and a committed list that waits for its cycle start (R283). -/
structure GclState where
  run : GateList := {}
  entry : Nat := 0
  next : Option GateList := none
  deriving DecidableEq, Repr

/-- The scheduling block (R263 to R287). -/
structure SchedState where
  /-- Allowance and debt toward each destination node, in slot bytes (R265, R269). -/
  allow : NMap Int := []
  /-- Newest GRANT of this tick by node: TICK and GRANTED. -/
  grants : NMap (Nat × Nat) := []
  pool : List Request := []
  /-- Pair granted last: source coordinate and addressed node. -/
  lastPair : Option (Nat × Nat) := none
  /-- Sums of DEMAND that arrived and GRANTED sent in this tick (R271). -/
  demandSum : Nat := 0
  grantedSum : Nat := 0
  /-- Tokens of each shaper in eighths of a byte; TC and TP of each meter in eighths of a byte. -/
  shapers : NMap Int := []
  meters : NMap (Int × Int) := []
  gcls : NMap GclState := []
  /-- Rate controllers: by QPN, and by 65,536 + UDP node entry. -/
  rates : NMap RateCtl := []
  /-- Deficits and turns of the classes (key 0 to 7 on cell links, 8 · port + 8 + class on Ethernet ports), of the
  instances by 512 · class key + instance, and of the queue pairs of each (R264); the next UDP node entry (R256). -/
  classDef : NMap Int := []
  instDef : NMap Int := []
  classPos : NMap Nat := []
  instPos : NMap Nat := []
  qpPos : NMap Nat := []
  unodePos : Nat := 0
  deriving DecidableEq, Repr

/-- A position of a Herd queue pair's receiving sequence (R305, R306): the SSN, the collective's SEQ, the kind
(0 piece, 1 vote, 2 decision), the step of the schedule, the piece's length, and whether the member has
opened it for receiving. -/
structure HerdPos where
  ssn : Nat
  seq : Nat
  kind : Nat
  step : Nat := 0
  len : Nat := 0
  opened : Bool := false
  deriving DecidableEq, Repr

/-- A SEND that has arrived whole on a Herd queue pair (R304). -/
structure HerdMsg where
  qpn : Nat
  ssn : Nat
  imm : Nat
  total : Nat
  bytes : List Byte
  /-- A status other than OK that its messages met. -/
  status : Nat := 0
  deriving DecidableEq, Repr

/-- A collective of a Herd (R295 to R314), from its entry on. -/
structure Coll where
  seq : Nat
  ring : Nat
  slot : Nat
  /-- COLL, L, DEADLINE, REDOP, FORMAT, FIXED_ORDER, ROOT, SRC, DST (Table 10.2). -/
  kind : Nat
  len : Nat
  deadline : Nat
  redop : Nat
  format : Nat
  fixed : Bool
  root : Nat
  src : Nat
  dst : Nat
  /-- Tick at which it took a staging slot; none while it waits (R313). -/
  slotAt : Option Nat := none
  /-- Active ranks and GEN when its first step became ready (R298). -/
  active : List Nat := []
  gen : Nat := 0
  begun : Bool := false
  /-- Ticks at which steps became ready; steps that have ended; steps that have opened. -/
  ready : NMap Nat := []
  ended : List Nat := []
  opened : List Nat := []
  /-- Pieces sent and pieces taken: step and rank. -/
  sent : List (Nat × Nat) := []
  got : List (Nat × Nat) := []
  /-- Contributions held in staging: step, rank, bytes. -/
  staged : List (Nat × Nat × List Byte) := []
  /-- Results that wait to be sent down a tree: step, bytes. -/
  held : List (Nat × List Byte) := []
  /-- The first abort met: CODE (0 TIMEOUT, 1 FENCED) and the rank that caused it; whether its SKIPs are sent. -/
  abort : Option (Nat × Nat) := none
  skipped : Bool := false
  /-- Ranks whose VOTE has arrived; an ABORT forwarded; own vote or ABORT sent, and when. -/
  votes : List Nat := []
  voted : Bool := false
  voteAt : Nat := 0
  /-- The decision received or made: none, COMMIT (2), or the CODE of DECIDE_ABORT. -/
  decision : Option Nat := none
  /-- The decision has been passed on. -/
  told : Bool := false
  /-- Status, DETAIL and AUX of the member's own failure (Table 10.6). -/
  failure : Option (Nat × Nat × Nat) := none
  /-- Keys of its SENDs that are not yet acknowledged. -/
  sends : List Nat := []
  /-- The ring is shutting down or its instance squashes its work (R157, R441). -/
  stopped : Option Nat := none
  deriving DecidableEq, Repr

/-- A Herd (R288 to R294). -/
structure Herd where
  inst : Nat
  sq : Nat
  rank : Nat
  qpBase : Nat
  flock : Nat
  priv : Bool
  udp : Bool
  depth : Nat
  slotKib : Nat
  hold : Nat
  /-- Node, UNIT and QP_BASE of each rank. -/
  members : List (Nat × Nat × Nat)
  active : List Nat
  gen : Nat := 0
  broken : Bool := false
  /-- SEQ of the last accepted collective and of the last completed one. -/
  lastSeq : Nat := 0
  doneSeq : Nat := 0
  colls : NMap Coll := []
  deriving DecidableEq, Repr

/-- The collective engine (R288 to R316). -/
structure HerdState where
  herds : NMap Herd := []
  /-- Receiving positions by QPN, in SSN order. -/
  pos : NMap (List HerdPos) := []
  inbox : List HerdMsg := []
  deriving DecidableEq, Repr

/-- A sequence descriptor (Table 12.5). -/
structure KSeq where
  bt : Nat
  a : Nat
  b : Nat
  data : Nat
  deriving DecidableEq, Repr

/-- A kernel that has started (R340 to R371), keyed as its operation, or for an ATTN as the responder's message. -/
structure Kernel where
  ring : Nat := 0
  slot : Nat := 0
  /-- QPN and MSN of the ATTN that it answers. -/
  attn : Option (Nat × Nat) := none
  inst : Nat
  space : Nat
  kind : Nat
  params : List Byte
  /-- LENGTH and OUT_VA of the entry. -/
  len : Nat
  out : Nat
  seqs : List KSeq := []
  /-- Work items that have ended; what they leave in merge staging, or the bytes that they write: item, and
  addresses with bytes. -/
  done : List Nat := []
  staged : List (Nat × List (Nat × List Byte)) := []
  /-- Sequences whose outputs are written; for an ATTN, the outputs that it holds. -/
  flushed : Nat := 0
  held : List Byte := []
  /-- BYTES and WORK so far (R370). -/
  bytes : Nat := 0
  work : Nat := 0
  /-- The lowest sequence that failed: sequence, status, DETAIL, VA. -/
  fail : Option (Nat × Nat × Nat × Nat) := none
  /-- It starts no further item, and ends with this status (R369). -/
  stopped : Option Nat := none
  /-- A flush that covers its writes failed: it ends with this status (R394). -/
  force : Nat := 0
  /-- The logical core whose engine runs the item at hand (R89). -/
  core : Option Nat := none
  deriving DecidableEq, Repr

/-- The attention block (R340 to R375): kernels, the count of tokens read, and its latch. -/
structure KernelState where
  kernels : NMap Kernel := []
  tokens : Nat := 0
  tokensHi : Word := 0
  deriving DecidableEq, Repr

/-- Work that waits for a flush (R390, R391): a responder's message, or a local operation, kernel or collective,
by its key. -/
inductive Waiter where
  | rx (qpn msn : Nat)
  | run (key : Nat)
  deriving DecidableEq, Repr

/-- States of an accelerator port (Table 13.2). -/
inductive AccState where
  | down | training | enumerating | ready | contained
  deriving DecidableEq, Repr

/-- A memory BAR as enumeration found and placed it (R383). -/
structure AccBar where
  index : Nat
  size : Nat
  is64 : Bool
  prefetch : Bool
  addr : Nat := 0
  deriving DecidableEq, Repr

/-- An accelerator port (R382 to R391). -/
structure AccPort where
  state : AccState := .down
  bars : List AccBar := []
  /-- Base and size of the exposed window (R384). -/
  winBase : Nat := 0
  winSize : Nat := 0
  vendor : Nat := 0
  device : Nat := 0
  /-- Bus Master Enable given at enumeration (R383). -/
  busMaster : Bool := false
  /-- Rate and width that the link trained to. -/
  rate : Nat := 0
  width : Nat := 0
  /-- Work that has written through the port since the last flush was issued. -/
  dirty : List Waiter := []
  /-- Work that the flush in progress covers; none when no flush is outstanding. -/
  flush : Option (List Waiter) := none
  /-- Work whose completion waits for a flush. -/
  waiting : List Waiter := []
  deriving DecidableEq, Repr

/-- Bytes that a read through an ACC port returned, for the work that asked for them: the work's key, the
address as 2^37 times the port plus the offset, and whether the read failed, and how (R394). -/
structure AccGot where
  owner : Nat
  addr : Nat
  bytes : List Byte
  failed : Bool := false
  deriving DecidableEq, Repr

/-- The PCIe ports (R376 to R395). -/
structure PcieState where
  hstUp : Bool := false
  hstRate : Nat := 0
  hstWidth : Nat := 0
  acc : NMap AccPort := []
  got : List AccGot := []
  /-- Uses that writes through a port hold until their flush (R100, R390). -/
  uses : List (Waiter × Nat) := []
  /-- Bytes that each Mule has moved: egress 0 to 15, ingress 16 to 31. -/
  mules : NMap Nat := []
  /-- Latched high words of the _LO registers of the block, by register offset. -/
  latches : NMap Word := []
  deriving DecidableEq, Repr

/-- States of a check-value unit (Table 14.3). -/
inductive CvRun where
  | stopped | armed | running | stopping
  deriving DecidableEq, Repr

/-- A check-value unit (R396 to R405): RUNNING, BYTES, and the snapshot that reads return (R402).  Its
selection and parameters are registers. -/
structure CvUnit where
  state : CvRun := .stopped
  running : BitVec 64 := 0
  bytes : BitVec 64 := 0
  snapRunning : BitVec 64 := 0
  snapBytes : BitVec 64 := 0
  snapResult : BitVec 64 := 0
  /-- The self-test of R518 runs. -/
  testing : Bool := false
  deriving DecidableEq, Repr

/-- A REKEY or ERASE that waits for the slot's charges to end (R415): the entry's slot on the management
ring, and for a REKEY the new key, SALT and LIMIT. -/
structure KeyChange where
  slot : Nat
  erase : Bool
  key : BitVec 256 := 0
  salt : BitVec 32 := 0
  limit : Nat := 0
  deriving DecidableEq, Repr

/-- A key slot (R410).  States: 0 EMPTY, 1 ACTIVE, 2 EXHAUSTED, 3 SPENT (Table 15.2). -/
structure KeySlot where
  state : Nat := 0
  inst : Nat := 0
  /-- 0 QP_TX, 1 QP_RX, 2 TIER_SEAL, 3 TIER_OPEN. -/
  binding : Nat := 0
  qpn : Nat := 0
  mode : Nat := 0
  aes256 : Bool := false
  /-- The key, byte 0 in bits [7:0]. -/
  key : BitVec 256 := 0
  /-- SALT, its first byte in bits [7:0]. -/
  salt : BitVec 32 := 0
  used : Nat := 0
  limit : Nat := 0
  invocation : Nat := 0
  /-- Messages sent or expected under the key (R417). -/
  messages : Nat := 0
  change : Option KeyChange := none
  deriving DecidableEq, Repr

/-- The cipher engine (R407 to R429). -/
structure CipherState where
  slots : NMap KeySlot := []
  /-- Bytes encrypted or decrypted, and the latches of the _LO reads. -/
  bytes : Nat := 0
  bytesHi : Word := 0
  usedHi : Word := 0
  limitHi : Word := 0
  deriving DecidableEq, Repr

/-- The states of an instance (Table 16.1). -/
inductive InstState where
  | disabled | ready | halted | resetting | freezing | frozen
  deriving DecidableEq, Repr

/-- The modes of INSTANCE_RESET (R440). -/
inductive ResetMode where
  | drain | squash | discard
  deriving DecidableEq, Repr

/-- A running reset: its mode, WIPE, and the slots of the INSTANCE_RESET entries that it completes. -/
structure ResetRun where
  mode : ResetMode
  wipe : Bool
  slots : List Nat
  deriving DecidableEq, Repr

/-- One instance (R430 to R461). -/
structure Instance where
  state : InstState := .disabled
  /-- REASON of GX_INST_Q_STATUS (R154). -/
  reason : Nat := 0
  restored : Bool := false
  /-- It has been given a ring since its last reset (R64). -/
  ringed : Bool := false
  migrationId : BitVec 64 := 0
  freezeEdge : BitVec 64 := 0
  /-- An accepted FREEZE that has not completed: its slot and activation tick (R445). -/
  freeze : Option (Nat × BitVec 64) := none
  /-- An accepted THAW that waits for its edge: its slot and the tick of its acceptance (R450). -/
  thaw : Option (Nat × BitVec 64) := none
  reset : Option ResetRun := none
  /-- Mailbox buffers by byte offset; unlisted words are 0 (R434). -/
  mboxOut : NMap Word := []
  mboxIn : NMap Word := []
  outFull : Bool := false
  inFull : Bool := false
  /-- Latched high words of GX_VI_MIGRATION_ID and GX_VI_FREEZE_EDGE. -/
  migLatch : Word := 0
  edgeLatch : Word := 0
  deriving DecidableEq, Repr

/-- The instances and the virtual functions that the host has enabled (R430). -/
structure InstBlock where
  insts : NMap Instance := [(0, { state := .ready })]
  vfEnable : Bool := false
  numVfs : Nat := 0
  deriving DecidableEq, Repr

/-- GX_FW_STATUS.BOOT. -/
inductive BootState where
  | rom | loading | ready | recovery
  deriving DecidableEq, Repr

/-- A firmware bundle as a bank holds it (Table 17.3). -/
structure Bundle where
  release : Nat
  svn : Nat
  ifaceLow : Nat
  ifaceHigh : Nat
  features : BitVec 64
  minRev : Nat
  /-- Lengths of the six Bantam images. -/
  lengths : List Nat
  deriving DecidableEq, Repr

/-- The life-cycle states (Table 17.12). -/
inductive LifeCycle where
  | manufacture | provisioned | deployed | returned | decommissioned
  deriving DecidableEq, Repr

/-- The actions of Table 17.7. -/
inductive FwAction where
  | verify | install | activateRolling | activateWarm | commitSvn | restartBantam | lcChange | kekInstall
  deriving DecidableEq, Repr

/-- A rolling activation: the Bantams yet to restart and those already on the new bank (R478);
`back` while it rolls back. -/
structure Roll where
  left : List Nat
  rolled : List Nat := []
  back : Bool := false
  deriving DecidableEq, Repr

/-- The SPDM responder's connection (R489). -/
structure SpdmState where
  /-- Negotiated version: 0x12 or 0x13; 0 before GET_VERSION. -/
  version : Nat := 0
  gotCapabilities : Bool := false
  negotiated : Bool := false
  /-- Sessions by identifier; true once FINISH has been taken. -/
  sessions : NMap Bool := []
  /-- Key updates of each session. -/
  keyUpdates : NMap Nat := []
  deriving DecidableEq, Repr

/-- Boot, banks, Bantams and the domain (R462 to R487). -/
structure FwState where
  boot : BootState := .rom
  /-- A cold reset has a cause and has not begun; a warm reset has a cause (Table 20.1) and has not begun (R462). -/
  coldDue : Bool := true
  warmDue : Option Nat := none
  bankA : Option Bundle := none
  bankB : Option Bundle := none
  activeB : Bool := false
  pending : Bool := false
  fallback : Bool := false
  fusedSvn : Nat := 0
  /-- STATE, RESULT and DETAIL of GX_FW_STATUS. -/
  state : Nat := 0
  result : Nat := 0
  detail : Nat := 0
  /-- The running action of Table 17.7, and a deferred activation (R479). -/
  action : Option FwAction := none
  /-- The Bantam that a running RESTART_BANTAM names. -/
  target : Nat := 0
  deferred : Option FwAction := none
  roll : Option Roll := none
  /-- The Bantam now restarting, and those that wait (R473). -/
  restarting : Option Nat := none
  waiting : List Nat := []
  /-- Time in ms of the end of each Bantam's last restart (R474). -/
  lastEnd : NMap Nat := []
  /-- The bank from which each Bantam last started (R473). -/
  bantamBank : NMap Bool := []
  /-- The driver's last FW_HELLO: range and features (R481). -/
  hello : Option (Nat × Nat × BitVec 64) := none
  agreed : Nat := 0
  features : BitVec 64 := 0
  joined : Bool := false
  /-- Condition 5 alone failed at an earlier edge (R483); a mismatch was reported (R484). -/
  refused : Bool := false
  mismatch : Bool := false
  /-- SEQ of firmware mailbox notices, and the messages that wait for the inbound buffer (R436, R481). -/
  noticeSeq : Nat := 0
  outbox : List (List Byte) := []
  /-- The restart that runs is a step of a roll; Bantams whose restart a watchdog caused (R474, R478). -/
  restartRoll : Bool := false
  dogs : List Nat := []
  /-- Time in ms of the last heartbeat (R485). -/
  beatAt : Nat := 0
  deriving DecidableEq, Repr

/-- Life cycle, keys and the generator (R488 to R496). -/
structure SecState where
  lc : LifeCycle := .provisioned
  transitionsLeft : Nat := 15
  /-- Owner rows used, and whether one is current (R496). -/
  ownerRows : Nat := 0
  owned : Bool := false
  kek : Option (BitVec 256) := none
  nonce : BitVec 128 := 0
  debugOpen : Bool := false
  udsErased : Bool := false
  /-- Outputs drawn from the DRBG, and requests since it was last seeded (R491). -/
  drbgCount : Nat := 0
  drbgSince : Nat := 0
  drbgStopped : Bool := false
  deriving DecidableEq, Repr

/-- The power states (R500). -/
inductive PowerState where
  | ps0 | ps1 | ps2 | ps3 | ps4
  deriving DecidableEq, Repr

/-- The conditions of a domain (R498). -/
inductive Cond where
  | on | idle | retention | off
  deriving DecidableEq, Repr

/-- Power states, domains, throttling and emergencies (R498 to R514). -/
structure PwState where
  ps : PowerState := .ps0
  /-- A commit of TARGET held until the emergency ends (R512). -/
  held : Option PowerState := none
  /-- The exit of PS3 or PS4 that is running, to this state (R505). -/
  exit : Option PowerState := none
  /-- GX_PW_STATUS.RESULT. -/
  result : Nat := 0
  level : Nat := 0
  thermal : Nat := 0
  power : Nat := 0
  /-- Consecutive ticks for which each demand's falling condition has held (R511). -/
  thermalBelow : Nat := 0
  powerBelow : Nat := 0
  /-- Ticks for which the power demand has stood at 12 with the average above the limit (R512). -/
  powerAt12 : Nat := 0
  emergency : Bool := false
  cause : Nat := 0
  /-- Consecutive ticks without a cause (R512). -/
  clearTicks : Nat := 0
  /-- Hottest sensor and its reading, input voltage, last 1 ms average, last 10 us sample. -/
  sensor : Nat := 0
  degC : Nat := 0
  mv : Nat := 50000
  avgW : Nat := 0
  sampleW : Nat := 0
  /-- The voltage has been outside 40 V to 60 V for 1 ms. -/
  voltBad : Bool := false
  clamped : Bool := false
  tripped : Bool := false
  deriving DecidableEq, Repr

/-- A park (true) or unpark that has not completed; `under` while it waits for the action of an ancestor, whose status
it then takes (R72). -/
structure ParkRun where
  flock : Nat
  park : Bool
  under : Bool := false
  deriving DecidableEq, Repr

/-- The 236 domains and the parked Flocks (R498, R499, R507). -/
structure DomainState where
  /-- Conditions by domain; unlisted is ON. -/
  conds : NMap Cond := []
  /-- Parked Flocks, and a park or unpark that has not completed. -/
  parked : List Nat := []
  parkRun : Option ParkRun := none
  deriving DecidableEq, Repr

/-- An entry of the error log (Table 19.4). -/
structure LogEntry where
  tick : BitVec 64
  partClass : Nat
  kind : Nat
  index : Nat
  outcome : Nat
  action : Nat
  inst : Nat
  detail : BitVec 64
  epoch : Nat
  deriving DecidableEq, Repr

/-- The repair record (R531): what it holds of cores, lanes, rows, spares and withdrawn memory. -/
structure RepairRecord where
  /-- Logical core that P16 serves. -/
  spareMap : Option Nat := none
  spareBad : Bool := false
  /-- Logical cores withdrawn (R525). -/
  lost : List Nat := []
  /-- Fenced physical cores. -/
  fencedCores : List Nat := []
  /-- Active lanes; 32 and 33 are the spares. -/
  fencedLanes : List Nat := []
  /-- Row repairs: part class (2 tier 1, 6 core store, 7 logic SRAM) and bank number. -/
  rows : List (Nat × Nat) := []
  /-- Spare pseudo-channels in use: stack and replaced pseudo-channel (R122). -/
  pcs : List (Nat × Nat) := []
  /-- Retired tier-2 frames, in order, by frame number (R123). -/
  frames : List Nat := []
  /-- Withdrawn granules: tier and granule (R124). -/
  withdrawn : List (Nat × Nat) := []
  /-- Tier-2 frames withdrawn (R124), by frame number. -/
  withdrawnFrames : List Nat := []
  fencedAes : List Nat := []
  /-- Egress Mules 0 to 15, ingress Mules 16 to 31. -/
  fencedMules : List Nat := []
  fencedCvu : List Nat := []
  trips : Nat := 0
  /-- The last trip has not been reported by a boot (R532). -/
  tripOpen : Bool := false
  deriving DecidableEq, Repr

/-- A swap of the spare core: physical and logical core, and whether the copy runs (R521). -/
structure CoreSwap where
  px : Nat
  lk : Nat
  copying : Bool
  deriving DecidableEq, Repr

/-- A registered dump destination (R535). -/
structure DumpReg where
  hostValid : Bool := false
  hostAddr : BitVec 64 := 0
  hostLen : Nat := 0
  tierValid : Bool := false
  tierOffset : Nat := 0
  tierLen : Nat := 0
  deriving DecidableEq, Repr

/-- An error captured while Bantam 5 restarts (R528): one whose lasting action the port has taken, or one still to
be classified. -/
inductive Captured where
  | handled (e : LogEntry)
  | raw (x : ErrorIn)
  deriving DecidableEq, Repr

/-- Errors, spares and dumps (R515 to R538). -/
structure ReState where
  /-- The repair state in force, and the two copies of the record with their validity. -/
  now : RepairRecord := {}
  record : RepairRecord := {}
  copyABad : Bool := false
  copyBBad : Bool := false
  loaded : Bool := false
  /-- Part epochs by part key (R519): 0 to 15 logical cores, 32 to 63 Mules, 64 to 75 AES cores,
  96 to 127 check-value units. -/
  epochs : NMap Nat := []
  swap : Option CoreSwap := none
  /-- Lasting core faults that wait (R528), as physical cores. -/
  coreQueue : List Nat := []
  log : NMap LogEntry := []
  logHead : Nat := 0
  logCount : Nat := 0
  /-- Errors captured while Bantam 5 restarts, in detection order (R528). -/
  captured : List Captured := []
  /-- Times in ms of recent fatal errors (R534). -/
  fatalTimes : List Nat := []
  /-- A fatal error whose dump is being written (R533). -/
  dumping : Bool := false
  /-- Entry of the log that the fatal error wrote. -/
  fatalAt : Nat := 0
  dumpReg : DumpReg := {}
  /-- SEQ and state of the last dump: 0 none, 1 writing, 2 host, 3 tier, 4 lost. -/
  dumpSeq : Nat := 0
  dumpState : Nat := 0
  pcieDegraded : Bool := false
  portDegraded : Bool := false
  deriving DecidableEq, Repr

/-- The module's pins and its sideband (R553 to R571). -/
structure PinState where
  pwrEn : Bool := true
  /-- VIN at or above the turn-on level; the inrush charge is running. -/
  vinOk : Bool := true
  charging : Bool := false
  pwrGood : Bool := true
  /-- COLD_RST_N has been low for 10 us and is still low (R566). -/
  coldHeld : Bool := false
  /-- A latched overcurrent turn-off (Table 21.3). -/
  ocLatched : Bool := false
  accRefclk : Bool := true
  hstPerst : Bool := false
  /-- ACC ports whose ACC_PERST_N is asserted (R567). -/
  accPerst : List Nat := [0, 1, 2, 3]
  thermtrip : Bool := false
  /-- A cold reset waits for the junction to read below 95 C (R569). -/
  hotHold : Bool := false
  /-- Whole PTP seconds marked on PPS_OUT so far. -/
  ppsCount : Nat := 0
  /-- The 1000BASE-X PTP port's link (R558). -/
  ptpPortUp : Bool := false
  /-- SMB_ADDR and HST_SRIS as the last cold reset read the straps (R571). -/
  smbAddr : Nat := 7
  sris : Bool := false
  /-- The MCTP endpoint's EID (R560). -/
  eid : Nat := 0
  deriving DecidableEq, Repr

/-- GX_STATUS, the group commit and MSI-X (R542, R546, R548). -/
structure GlobalState where
  fatalHalt : Bool := false
  adapterHalt : Bool := false
  resetCause : Nat := 0
  /-- Blocks whose check rejected the last group commit (Table 20.2). -/
  rejected : Nat := 0
  /-- MSI-X table words by key 1024·function + 4·vector + word; unlisted words read 0, and 1 (masked)
  in a vector's control word. -/
  msixTable : NMap Word := []
  /-- Functions whose MSI-X capability is enabled and unmasked. -/
  msixOn : List Nat := []
  /-- Pending bits, as 64·function + vector. -/
  msixPending : List Nat := []
  deriving DecidableEq, Repr

/-- Answers of the SPDM responder (R489), by the names of DSP0274.  A measurement carries the values of its block
that the specification names (Table 17.11); digests, certificates and signatures are DSP0274's. -/
inductive SpdmReply where
  | version (versions : List Nat)
  | capabilities
  | algorithms
  | digests (slots : Nat)
  | certificate (slot offset length : Nat)
  | challengeAuth (slot : Nat)
  | measurements (blocks : List (Nat × List Nat))
  | keyExchangeRsp (session : Nat)
  | finishRsp (session : Nat)
  | heartbeatAck (session : Nat)
  | keyUpdateAck (session : Nat)
  | endSessionAck (session : Nat)
  /-- ERROR with its code. -/
  | error (code : Nat)
  deriving DecidableEq, Repr

/-- What leaves the adapter. -/
inductive Output where
  /-- The answer of a register read. -/
  | readData (value : BitVec 64)
  /-- An MSI-X message of a function's vector: address and data of its table entry. -/
  | msix (function vector : Nat) (addr : BitVec 64) (data : Word)
  /-- TICK_OUT, high for 64 clk after the edge, and PPS_OUT (R559). -/
  | tickOut (count : BitVec 64)
  | ppsOut
  /-- A write to host memory, or through ACC port n - 1 for n from 1 to 4 (R129, R137). -/
  | busWrite (loc : Nat) (addr : BitVec 64) (bytes : List Byte)
  /-- A data write to an aperture with the relaxed-ordering attribute (R388). -/
  | relaxedWrite (loc : Nat) (addr : BitVec 64) (bytes : List Byte)
  /-- A flush read of a PCIe port: 0 HST, 1 to 4 ACC0 to ACC3 (R389). -/
  | flushRead (port : Nat)
  /-- A cell or train on a cell port, its slots numbered from the LSN; when it goes again from an LSN inside it, its
  slots from that one on (R204). -/
  | slot (port lsn : Nat) (item : WireItem)
  /-- A link control cell (R196). -/
  | control (port : Nat) (hdr : BitVec 96) (pay : BitVec 512)
  /-- A frame on an Ethernet port, with its FCS (R230). -/
  | frame (port : Nat) (bytes : List Byte)
  /-- ACC_PERST_N of an accelerator port is driven low or high (R567). -/
  | accPerst (port : Nat) (low : Bool)
  /-- A NAK in the link control word: go back to the LSN after this one (R204). -/
  | nak (port lsn : Nat)
  /-- A unit action on a bonded Flock, sent to a member of its bond, and a member's acknowledgement (R70). -/
  | unitAction (flock member : Nat) (kind : UnitActionKind)
  | unitAck (flock : Nat) (kind : UnitActionKind)
  /-- An answer of the SPDM responder, on HST or on the sideband, and of the MCTP endpoint's control (R489, R560). -/
  | spdm (onHst : Bool) (reply : SpdmReply)
  | mctp (eid : Nat)
  deriving DecidableEq, Repr

/-- No command of this model faults: every error the specification describes is a state that the adapter
enters (a status, an event, a halt), so the type has no constructor. -/
inductive Fault where
  deriving DecidableEq, Repr

/-- The reasons for which a command is not carried out. -/
inductive Refusal where
  /-- Raised by an arm of `exec` whose command has no meaning yet.  Safe: the machine stops. -/
  | notModelled (mnemonic : String)
  deriving DecidableEq, Repr

/-- The machine. -/
structure State where
  /-- Commands that wait, first in, first out. -/
  pending : List Instr := []
  /-- What the adapter has sent, oldest first: the model's own log. -/
  out : List Output := []
  /-- Register values that differ from their reset values, by register key. -/
  regs : NMap Word := []
  /-- Shadow values that differ from their reset values, by register key (R67). -/
  shadows : NMap Word := []
  /-- Pending sets by block number of Table 20.1 (R67). -/
  commits : NMap CommitSet := []
  tick : TickState := {}
  lz : LzState := {}
  gl : GlobalState := {}
  xl : XlState := {}
  mem : MemState := {}
  /-- Free values drawn so far: the model's own counter (assumption 7). -/
  freeCount : Nat := 0
  q : QueueState := {}
  tp : TpState := {}
  cf : CfState := {}
  eth : EthState := {}
  cs : SchedState := {}
  hd : HerdState := {}
  kn : KernelState := {}
  ce : CipherState := {}
  pc : PcieState := {}
  cv : NMap CvUnit := []
  vi : InstBlock := {}
  fw : FwState := {}
  sec : SecState := {}
  spdm : SpdmState := {}
  pw : PwState := {}
  dom : DomainState := {}
  re : ReState := {}
  pins : PinState := {}
  deriving DecidableEq, Repr

/-- The machine after power-on and reset, before the first command. -/
def State.reset : State := {}

end Sys2Proof.Machine
end

