-- ==== Sys2Proof/Machine/RegTable.lean ====
section
/-! DEFINITION. The register tables of the specification (Tables 1.5 to 1.14, 2.6, 3.12, 4.5, 5.13,
5.14, 6.9, 7.9, 8.10, 9.4, 10.8, 11.9, 12.10, 13.5, 14.5, 15.8, 16.9, 16.10, 17.15, 18.7, 19.7, 20.2, 20.4):
the offset, the reset value and the access type of every bit of every register, one row per register.
Reserved bits belong to no mask (R7).  An instance page's registers stand at 0x0400_0000 plus their page offset. -/

namespace Sys2Proof.Machine

/-- GX_TICK_PERIOD, offset 0x10000. -/
abbrev Reg.GX_TICK_PERIOD : Nat := 0x10000
/-- GX_TICK_GUARD, offset 0x10004. -/
abbrev Reg.GX_TICK_GUARD : Nat := 0x10004
/-- GX_TICK_EPOCH_LO, offset 0x10008. -/
abbrev Reg.GX_TICK_EPOCH_LO : Nat := 0x10008
/-- GX_TICK_EPOCH_HI, offset 0x1000c. -/
abbrev Reg.GX_TICK_EPOCH_HI : Nat := 0x1000c
/-- GX_TICK_ACTIVATE_LO, offset 0x10010. -/
abbrev Reg.GX_TICK_ACTIVATE_LO : Nat := 0x10010
/-- GX_TICK_ACTIVATE_HI, offset 0x10014. -/
abbrev Reg.GX_TICK_ACTIVATE_HI : Nat := 0x10014
/-- GX_TICK_COMMIT, offset 0x10018. -/
abbrev Reg.GX_TICK_COMMIT : Nat := 0x10018
/-- GX_TICK_COUNT_LO, offset 0x1001c. -/
abbrev Reg.GX_TICK_COUNT_LO : Nat := 0x1001c
/-- GX_TICK_COUNT_HI, offset 0x10020. -/
abbrev Reg.GX_TICK_COUNT_HI : Nat := 0x10020
/-- GX_TICK_STATUS, offset 0x10024. -/
abbrev Reg.GX_TICK_STATUS : Nat := 0x10024
/-- GX_TICK_OFFSET, offset 0x10028. -/
abbrev Reg.GX_TICK_OFFSET : Nat := 0x10028
/-- GX_TICK_EVENTS, offset 0x1002c. -/
abbrev Reg.GX_TICK_EVENTS : Nat := 0x1002c
/-- GX_TICK_OVERRUN_CNT, offset 0x10030. -/
abbrev Reg.GX_TICK_OVERRUN_CNT : Nat := 0x10030
/-- GX_LZ_STAGE_LO, offset 0x20000. -/
abbrev Reg.GX_LZ_STAGE_LO : Nat := 0x20000
/-- GX_LZ_STAGE_HI, offset 0x20004. -/
abbrev Reg.GX_LZ_STAGE_HI : Nat := 0x20004
/-- GX_LZ_STAGE_LEN, offset 0x20008. -/
abbrev Reg.GX_LZ_STAGE_LEN : Nat := 0x20008
/-- GX_LZ_CONTROL, offset 0x2000c. -/
abbrev Reg.GX_LZ_CONTROL : Nat := 0x2000c
/-- GX_LZ_STATUS, offset 0x20010. -/
abbrev Reg.GX_LZ_STATUS : Nat := 0x20010
/-- GX_LZ_ACTIVE_LO, offset 0x20014. -/
abbrev Reg.GX_LZ_ACTIVE_LO : Nat := 0x20014
/-- GX_LZ_ACTIVE_HI, offset 0x20018. -/
abbrev Reg.GX_LZ_ACTIVE_HI : Nat := 0x20018
/-- GX_LZ_EVENTS, offset 0x2001c. -/
abbrev Reg.GX_LZ_EVENTS : Nat := 0x2001c
/-- GX_XL_SPTAB_LO, offset 0x30000. -/
abbrev Reg.GX_XL_SPTAB_LO : Nat := 0x30000
/-- GX_XL_SPTAB_HI, offset 0x30004. -/
abbrev Reg.GX_XL_SPTAB_HI : Nat := 0x30004
/-- GX_XL_SPTAB_CFG, offset 0x30008. -/
abbrev Reg.GX_XL_SPTAB_CFG : Nat := 0x30008
/-- GX_XL_NODE_ID, offset 0x30010. -/
abbrev Reg.GX_XL_NODE_ID : Nat := 0x30010
/-- GX_XL_COMMIT, offset 0x30030. -/
abbrev Reg.GX_XL_COMMIT : Nat := 0x30030
/-- GX_XL_EVENTS, offset 0x30034. -/
abbrev Reg.GX_XL_EVENTS : Nat := 0x30034
/-- GX_XL_FAULT_CNT, offset 0x30038. -/
abbrev Reg.GX_XL_FAULT_CNT : Nat := 0x30038
/-- GX_XL_LAST_FAULT_INFO, offset 0x3003c. -/
abbrev Reg.GX_XL_LAST_FAULT_INFO : Nat := 0x3003c
/-- GX_XL_LAST_FAULT_VA_LO, offset 0x30040. -/
abbrev Reg.GX_XL_LAST_FAULT_VA_LO : Nat := 0x30040
/-- GX_XL_LAST_FAULT_VA_HI, offset 0x30044. -/
abbrev Reg.GX_XL_LAST_FAULT_VA_HI : Nat := 0x30044
/-- GX_XL_L2_MISS_CNT, offset 0x30048. -/
abbrev Reg.GX_XL_L2_MISS_CNT : Nat := 0x30048
/-- GX_XL_INVAL_PENDING, offset 0x3004c. -/
abbrev Reg.GX_XL_INVAL_PENDING : Nat := 0x3004c
/-- GX_MEM_STATUS, offset 0x40000. -/
abbrev Reg.GX_MEM_STATUS : Nat := 0x40000
/-- GX_MEM_T1_AVAIL, offset 0x40004. -/
abbrev Reg.GX_MEM_T1_AVAIL : Nat := 0x40004
/-- GX_MEM_T2_AVAIL, offset 0x40008. -/
abbrev Reg.GX_MEM_T2_AVAIL : Nat := 0x40008
/-- GX_MEM_GMAP_INDEX, offset 0x4000c. -/
abbrev Reg.GX_MEM_GMAP_INDEX : Nat := 0x4000c
/-- GX_MEM_GMAP_DATA, offset 0x40010. -/
abbrev Reg.GX_MEM_GMAP_DATA : Nat := 0x40010
/-- GX_MEM_SCRUB, offset 0x40014. -/
abbrev Reg.GX_MEM_SCRUB : Nat := 0x40014
/-- GX_MEM_COMMIT, offset 0x40018. -/
abbrev Reg.GX_MEM_COMMIT : Nat := 0x40018
/-- GX_MEM_EVENTS, offset 0x4001c. -/
abbrev Reg.GX_MEM_EVENTS : Nat := 0x4001c
/-- GX_MEM_CE_CNT, offset 0x40020. -/
abbrev Reg.GX_MEM_CE_CNT : Nat := 0x40020
/-- GX_MEM_UE_CNT, offset 0x40024. -/
abbrev Reg.GX_MEM_UE_CNT : Nat := 0x40024
/-- GX_MEM_SPARES, offset 0x40028. -/
abbrev Reg.GX_MEM_SPARES : Nat := 0x40028
/-- GX_Q_MGMT_SQ_LO, offset 0x50000. -/
abbrev Reg.GX_Q_MGMT_SQ_LO : Nat := 0x50000
/-- GX_Q_MGMT_SQ_HI, offset 0x50004. -/
abbrev Reg.GX_Q_MGMT_SQ_HI : Nat := 0x50004
/-- GX_Q_MGMT_CQ_LO, offset 0x50008. -/
abbrev Reg.GX_Q_MGMT_CQ_LO : Nat := 0x50008
/-- GX_Q_MGMT_CQ_HI, offset 0x5000c. -/
abbrev Reg.GX_Q_MGMT_CQ_HI : Nat := 0x5000c
/-- GX_Q_MGMT_CTRL, offset 0x50010. -/
abbrev Reg.GX_Q_MGMT_CTRL : Nat := 0x50010
/-- GX_Q_POLL_BUDGET, offset 0x50014. -/
abbrev Reg.GX_Q_POLL_BUDGET : Nat := 0x50014
/-- GX_Q_COMMIT, offset 0x50018. -/
abbrev Reg.GX_Q_COMMIT : Nat := 0x50018
/-- GX_Q_EVENTS, offset 0x5001c. -/
abbrev Reg.GX_Q_EVENTS : Nat := 0x5001c
/-- GX_Q_HALT_INFO, offset 0x50020. -/
abbrev Reg.GX_Q_HALT_INFO : Nat := 0x50020
/-- GX_Q_HALT_WHERE, offset 0x50024. -/
abbrev Reg.GX_Q_HALT_WHERE : Nat := 0x50024
/-- GX_Q_POLL_CNT, offset 0x50028. -/
abbrev Reg.GX_Q_POLL_CNT : Nat := 0x50028
/-- GX_Q_POLL_DEFER_CNT, offset 0x5002c. -/
abbrev Reg.GX_Q_POLL_DEFER_CNT : Nat := 0x5002c
/-- GX_Q_DOORBELL_BAD_CNT, offset 0x50030. -/
abbrev Reg.GX_Q_DOORBELL_BAD_CNT : Nat := 0x50030
/-- GX_Q_RINGS_ACTIVE, offset 0x50034. -/
abbrev Reg.GX_Q_RINGS_ACTIVE : Nat := 0x50034
/-- GX_INST_DOORBELL, page offset 0x0. -/
abbrev Reg.GX_INST_DOORBELL : Nat := 0x4000000
/-- GX_INST_Q_STATUS, page offset 0x4. -/
abbrev Reg.GX_INST_Q_STATUS : Nat := 0x4000004
/-- GX_TP_DEFAULTS, offset 0x60000. -/
abbrev Reg.GX_TP_DEFAULTS : Nat := 0x60000
/-- GX_TP_TIMERS, offset 0x60004. -/
abbrev Reg.GX_TP_TIMERS : Nat := 0x60004
/-- GX_TP_COMMIT, offset 0x60008. -/
abbrev Reg.GX_TP_COMMIT : Nat := 0x60008
/-- GX_TP_EVENTS, offset 0x6000c. -/
abbrev Reg.GX_TP_EVENTS : Nat := 0x6000c
/-- GX_TP_QP_COUNT, offset 0x60010. -/
abbrev Reg.GX_TP_QP_COUNT : Nat := 0x60010
/-- GX_TP_QP_INDEX, offset 0x60014. -/
abbrev Reg.GX_TP_QP_INDEX : Nat := 0x60014
/-- GX_TP_QP_STATE, offset 0x60018. -/
abbrev Reg.GX_TP_QP_STATE : Nat := 0x60018
/-- GX_TP_RETX_CNT, offset 0x6001c. -/
abbrev Reg.GX_TP_RETX_CNT : Nat := 0x6001c
/-- GX_TP_DUP_CNT, offset 0x60020. -/
abbrev Reg.GX_TP_DUP_CNT : Nat := 0x60020
/-- GX_TP_NACK_CNT, offset 0x60024. -/
abbrev Reg.GX_TP_NACK_CNT : Nat := 0x60024
/-- GX_TP_RNR_CNT, offset 0x60028. -/
abbrev Reg.GX_TP_RNR_CNT : Nat := 0x60028
/-- GX_TP_NO_RECORD_CNT, offset 0x6002c. -/
abbrev Reg.GX_TP_NO_RECORD_CNT : Nat := 0x6002c
/-- GX_TP_BAD_CELL_CNT, offset 0x60030. -/
abbrev Reg.GX_TP_BAD_CELL_CNT : Nat := 0x60030
/-- GX_TP_RECORDS_FREE, offset 0x60034. -/
abbrev Reg.GX_TP_RECORDS_FREE : Nat := 0x60034
/-- GX_CF_PORT_INDEX, offset 0x70000. -/
abbrev Reg.GX_CF_PORT_INDEX : Nat := 0x70000
/-- GX_CF_PORT_STATUS, offset 0x70004. -/
abbrev Reg.GX_CF_PORT_STATUS : Nat := 0x70004
/-- GX_CF_PORT_CTRL, offset 0x70008. -/
abbrev Reg.GX_CF_PORT_CTRL : Nat := 0x70008
/-- GX_CF_PORT_TIMING, offset 0x7000c. -/
abbrev Reg.GX_CF_PORT_TIMING : Nat := 0x7000c
/-- GX_CF_PORT_PEER, offset 0x70010. -/
abbrev Reg.GX_CF_PORT_PEER : Nat := 0x70010
/-- GX_CF_SPRAY, offset 0x70014. -/
abbrev Reg.GX_CF_SPRAY : Nat := 0x70014
/-- GX_CF_PUB_LO, offset 0x70018. -/
abbrev Reg.GX_CF_PUB_LO : Nat := 0x70018
/-- GX_CF_PUB_HI, offset 0x7001c. -/
abbrev Reg.GX_CF_PUB_HI : Nat := 0x7001c
/-- GX_CF_PUB_CFG, offset 0x70020. -/
abbrev Reg.GX_CF_PUB_CFG : Nat := 0x70020
/-- GX_CF_CMAP_LO, offset 0x70024. -/
abbrev Reg.GX_CF_CMAP_LO : Nat := 0x70024
/-- GX_CF_CMAP_HI, offset 0x70028. -/
abbrev Reg.GX_CF_CMAP_HI : Nat := 0x70028
/-- GX_CF_CMAP_CFG, offset 0x7002c. -/
abbrev Reg.GX_CF_CMAP_CFG : Nat := 0x7002c
/-- GX_CF_CMAP_GEN, offset 0x70030. -/
abbrev Reg.GX_CF_CMAP_GEN : Nat := 0x70030
/-- GX_CF_OWN_EPOCH_INDEX, offset 0x70034. -/
abbrev Reg.GX_CF_OWN_EPOCH_INDEX : Nat := 0x70034
/-- GX_CF_OWN_EPOCH, offset 0x70038. -/
abbrev Reg.GX_CF_OWN_EPOCH : Nat := 0x70038
/-- GX_CF_COMMIT, offset 0x7003c. -/
abbrev Reg.GX_CF_COMMIT : Nat := 0x7003c
/-- GX_CF_FENCE_INDEX, offset 0x70040. -/
abbrev Reg.GX_CF_FENCE_INDEX : Nat := 0x70040
/-- GX_CF_FENCE_COORD, offset 0x70044. -/
abbrev Reg.GX_CF_FENCE_COORD : Nat := 0x70044
/-- GX_CF_FENCE_DATA, offset 0x70048. -/
abbrev Reg.GX_CF_FENCE_DATA : Nat := 0x70048
/-- GX_CF_EVENTS, offset 0x7004c. -/
abbrev Reg.GX_CF_EVENTS : Nat := 0x7004c
/-- GX_CF_FEC_CORR_CNT, offset 0x70050. -/
abbrev Reg.GX_CF_FEC_CORR_CNT : Nat := 0x70050
/-- GX_CF_CRC_ERR_CNT, offset 0x70054. -/
abbrev Reg.GX_CF_CRC_ERR_CNT : Nat := 0x70054
/-- GX_CF_LINK_RETRY_CNT, offset 0x70058. -/
abbrev Reg.GX_CF_LINK_RETRY_CNT : Nat := 0x70058
/-- GX_CF_STALE_EPOCH_CNT, offset 0x7005c. -/
abbrev Reg.GX_CF_STALE_EPOCH_CNT : Nat := 0x7005c
/-- GX_CF_FENCED_DROP_CNT, offset 0x70060. -/
abbrev Reg.GX_CF_FENCED_DROP_CNT : Nat := 0x70060
/-- GX_CF_MISROUTE_CNT, offset 0x70064. -/
abbrev Reg.GX_CF_MISROUTE_CNT : Nat := 0x70064
/-- GX_CF_NO_ROUTE_CNT, offset 0x70068. -/
abbrev Reg.GX_CF_NO_ROUTE_CNT : Nat := 0x70068
/-- GX_CF_FENCE_ENTRY, offset 0x7006c. -/
abbrev Reg.GX_CF_FENCE_ENTRY : Nat := 0x7006c
/-- GX_ETH_PORT_INDEX, offset 0x80000. -/
abbrev Reg.GX_ETH_PORT_INDEX : Nat := 0x80000
/-- GX_ETH_MAC_LO, offset 0x80004. -/
abbrev Reg.GX_ETH_MAC_LO : Nat := 0x80004
/-- GX_ETH_MAC_HI, offset 0x80008. -/
abbrev Reg.GX_ETH_MAC_HI : Nat := 0x80008
/-- GX_ETH_IPV4, offset 0x8000c. -/
abbrev Reg.GX_ETH_IPV4 : Nat := 0x8000c
/-- GX_ETH_IPV6, offset 0x80010. -/
abbrev Reg.GX_ETH_IPV6 : Nat := 0x80010
/-- GX_ETH_RX_CTRL, offset 0x80020. -/
abbrev Reg.GX_ETH_RX_CTRL : Nat := 0x80020
/-- GX_ETH_FC_CTRL, offset 0x80024. -/
abbrev Reg.GX_ETH_FC_CTRL : Nat := 0x80024
/-- GX_ETH_PRI_INDEX, offset 0x80028. -/
abbrev Reg.GX_ETH_PRI_INDEX : Nat := 0x80028
/-- GX_ETH_PRI_XOFF, offset 0x8002c. -/
abbrev Reg.GX_ETH_PRI_XOFF : Nat := 0x8002c
/-- GX_ETH_PRI_HEADROOM, offset 0x80030. -/
abbrev Reg.GX_ETH_PRI_HEADROOM : Nat := 0x80030
/-- GX_ETH_RX_LIMIT, offset 0x80034. -/
abbrev Reg.GX_ETH_RX_LIMIT : Nat := 0x80034
/-- GX_ETH_GANDER, offset 0x80038. -/
abbrev Reg.GX_ETH_GANDER : Nat := 0x80038
/-- GX_ETH_GANDER_STATUS, offset 0x8003c. -/
abbrev Reg.GX_ETH_GANDER_STATUS : Nat := 0x8003c
/-- GX_ETH_GHASH_INDEX, offset 0x80040. -/
abbrev Reg.GX_ETH_GHASH_INDEX : Nat := 0x80040
/-- GX_ETH_GHASH_DATA, offset 0x80044. -/
abbrev Reg.GX_ETH_GHASH_DATA : Nat := 0x80044
/-- GX_ETH_CELL_UDP, offset 0x80048. -/
abbrev Reg.GX_ETH_CELL_UDP : Nat := 0x80048
/-- GX_ETH_RTAB_LO, offset 0x8004c. -/
abbrev Reg.GX_ETH_RTAB_LO : Nat := 0x8004c
/-- GX_ETH_RTAB_HI, offset 0x80050. -/
abbrev Reg.GX_ETH_RTAB_HI : Nat := 0x80050
/-- GX_ETH_RTAB_CFG, offset 0x80054. -/
abbrev Reg.GX_ETH_RTAB_CFG : Nat := 0x80054
/-- GX_ETH_UNODE_INDEX, offset 0x80058. -/
abbrev Reg.GX_ETH_UNODE_INDEX : Nat := 0x80058
/-- GX_ETH_UNODE_NODE, offset 0x8005c. -/
abbrev Reg.GX_ETH_UNODE_NODE : Nat := 0x8005c
/-- GX_ETH_UNODE_ROUTE, offset 0x80060. -/
abbrev Reg.GX_ETH_UNODE_ROUTE : Nat := 0x80060
/-- GX_ETH_COMMIT, offset 0x80064. -/
abbrev Reg.GX_ETH_COMMIT : Nat := 0x80064
/-- GX_ETH_EVENTS, offset 0x80068. -/
abbrev Reg.GX_ETH_EVENTS : Nat := 0x80068
/-- GX_ETH_HALF_PORTS, offset 0x8006c. -/
abbrev Reg.GX_ETH_HALF_PORTS : Nat := 0x8006c
/-- GX_ETH_PORT_STATUS, offset 0x80070. -/
abbrev Reg.GX_ETH_PORT_STATUS : Nat := 0x80070
/-- GX_ETH_RAW_QP, offset 0x80074. -/
abbrev Reg.GX_ETH_RAW_QP : Nat := 0x80074
/-- GX_CS_GRANT, offset 0x90000. -/
abbrev Reg.GX_CS_GRANT : Nat := 0x90000
/-- GX_CS_ECN_CTRL, offset 0x90004. -/
abbrev Reg.GX_CS_ECN_CTRL : Nat := 0x90004
/-- GX_CS_ECN_RATE, offset 0x90008. -/
abbrev Reg.GX_CS_ECN_RATE : Nat := 0x90008
/-- GX_CS_CLASS_INDEX, offset 0x9000c. -/
abbrev Reg.GX_CS_CLASS_INDEX : Nat := 0x9000c
/-- GX_CS_CLASS_CFG, offset 0x90010. -/
abbrev Reg.GX_CS_CLASS_CFG : Nat := 0x90010
/-- GX_CS_INST_INDEX, offset 0x90014. -/
abbrev Reg.GX_CS_INST_INDEX : Nat := 0x90014
/-- GX_CS_INST_CFG, offset 0x90018. -/
abbrev Reg.GX_CS_INST_CFG : Nat := 0x90018
/-- GX_CS_SHAPER_INDEX, offset 0x9001c. -/
abbrev Reg.GX_CS_SHAPER_INDEX : Nat := 0x9001c
/-- GX_CS_SHAPER_RATE, offset 0x90020. -/
abbrev Reg.GX_CS_SHAPER_RATE : Nat := 0x90020
/-- GX_CS_SHAPER_BURST, offset 0x90024. -/
abbrev Reg.GX_CS_SHAPER_BURST : Nat := 0x90024
/-- GX_CS_SHAPER_TOKENS, offset 0x90028. -/
abbrev Reg.GX_CS_SHAPER_TOKENS : Nat := 0x90028
/-- GX_CS_PORT_INDEX, offset 0x9002c. -/
abbrev Reg.GX_CS_PORT_INDEX : Nat := 0x9002c
/-- GX_CS_PORT_OVERHEAD, offset 0x90030. -/
abbrev Reg.GX_CS_PORT_OVERHEAD : Nat := 0x90030
/-- GX_CS_GCL_CFG, offset 0x90034. -/
abbrev Reg.GX_CS_GCL_CFG : Nat := 0x90034
/-- GX_CS_GCL_GUARD, offset 0x90038. -/
abbrev Reg.GX_CS_GCL_GUARD : Nat := 0x90038
/-- GX_CS_GCL_BASE_LO, offset 0x9003c. -/
abbrev Reg.GX_CS_GCL_BASE_LO : Nat := 0x9003c
/-- GX_CS_GCL_BASE_HI, offset 0x90040. -/
abbrev Reg.GX_CS_GCL_BASE_HI : Nat := 0x90040
/-- GX_CS_GCL_CYCLE_NS, offset 0x90044. -/
abbrev Reg.GX_CS_GCL_CYCLE_NS : Nat := 0x90044
/-- GX_CS_GCL_ENTRY_INDEX, offset 0x90048. -/
abbrev Reg.GX_CS_GCL_ENTRY_INDEX : Nat := 0x90048
/-- GX_CS_GCL_ENTRY, offset 0x9004c. -/
abbrev Reg.GX_CS_GCL_ENTRY : Nat := 0x9004c
/-- GX_CS_GCL_STATUS, offset 0x90050. -/
abbrev Reg.GX_CS_GCL_STATUS : Nat := 0x90050
/-- GX_CS_METER_INDEX, offset 0x90054. -/
abbrev Reg.GX_CS_METER_INDEX : Nat := 0x90054
/-- GX_CS_METER_CFG, offset 0x90058. -/
abbrev Reg.GX_CS_METER_CFG : Nat := 0x90058
/-- GX_CS_METER_CIR, offset 0x9005c. -/
abbrev Reg.GX_CS_METER_CIR : Nat := 0x9005c
/-- GX_CS_METER_PIR, offset 0x90060. -/
abbrev Reg.GX_CS_METER_PIR : Nat := 0x90060
/-- GX_CS_METER_CBS, offset 0x90064. -/
abbrev Reg.GX_CS_METER_CBS : Nat := 0x90064
/-- GX_CS_METER_PBS, offset 0x90068. -/
abbrev Reg.GX_CS_METER_PBS : Nat := 0x90068
/-- GX_CS_METER_GREEN_CNT, offset 0x9006c. -/
abbrev Reg.GX_CS_METER_GREEN_CNT : Nat := 0x9006c
/-- GX_CS_METER_YELLOW_CNT, offset 0x90070. -/
abbrev Reg.GX_CS_METER_YELLOW_CNT : Nat := 0x90070
/-- GX_CS_METER_RED_CNT, offset 0x90074. -/
abbrev Reg.GX_CS_METER_RED_CNT : Nat := 0x90074
/-- GX_CS_COMMIT, offset 0x90078. -/
abbrev Reg.GX_CS_COMMIT : Nat := 0x90078
/-- GX_CS_EVENTS, offset 0x9007c. -/
abbrev Reg.GX_CS_EVENTS : Nat := 0x9007c
/-- GX_CS_REQ_DROP_CNT, offset 0x90080. -/
abbrev Reg.GX_CS_REQ_DROP_CNT : Nat := 0x90080
/-- GX_CS_CELL_CE_CNT, offset 0x90084. -/
abbrev Reg.GX_CS_CELL_CE_CNT : Nat := 0x90084
/-- GX_CS_CELL_CNP_TX_CNT, offset 0x90088. -/
abbrev Reg.GX_CS_CELL_CNP_TX_CNT : Nat := 0x90088
/-- GX_CS_CELL_CNP_RX_CNT, offset 0x9008c. -/
abbrev Reg.GX_CS_CELL_CNP_RX_CNT : Nat := 0x9008c
/-- GX_HD_HERD_INDEX, offset 0xa0000. -/
abbrev Reg.GX_HD_HERD_INDEX : Nat := 0xa0000
/-- GX_HD_HERD_STATUS, offset 0xa0004. -/
abbrev Reg.GX_HD_HERD_STATUS : Nat := 0xa0004
/-- GX_HD_HERD_SEQ, offset 0xa0008. -/
abbrev Reg.GX_HD_HERD_SEQ : Nat := 0xa0008
/-- GX_HD_COUNT, offset 0xa000c. -/
abbrev Reg.GX_HD_COUNT : Nat := 0xa000c
/-- GX_HD_STAGE_FREE, offset 0xa0010. -/
abbrev Reg.GX_HD_STAGE_FREE : Nat := 0xa0010
/-- GX_HD_EVENTS, offset 0xa0014. -/
abbrev Reg.GX_HD_EVENTS : Nat := 0xa0014
/-- GX_HD_LAST_ABORT, offset 0xa0018. -/
abbrev Reg.GX_HD_LAST_ABORT : Nat := 0xa0018
/-- GX_HD_LAST_ABORT_SEQ, offset 0xa001c. -/
abbrev Reg.GX_HD_LAST_ABORT_SEQ : Nat := 0xa001c
/-- GX_HD_DONE_CNT, offset 0xa0020. -/
abbrev Reg.GX_HD_DONE_CNT : Nat := 0xa0020
/-- GX_HD_TIMEOUT_CNT, offset 0xa0024. -/
abbrev Reg.GX_HD_TIMEOUT_CNT : Nat := 0xa0024
/-- GX_HD_FENCED_CNT, offset 0xa0028. -/
abbrev Reg.GX_HD_FENCED_CNT : Nat := 0xa0028
/-- GX_RA_EVENTS, offset 0xb0000. -/
abbrev Reg.GX_RA_EVENTS : Nat := 0xb0000
/-- GX_RA_NAN_CNT, offset 0xb0004. -/
abbrev Reg.GX_RA_NAN_CNT : Nat := 0xb0004
/-- GX_RA_OVF_CNT, offset 0xb0008. -/
abbrev Reg.GX_RA_OVF_CNT : Nat := 0xb0008
/-- GX_RA_SAT_CNT, offset 0xb000c. -/
abbrev Reg.GX_RA_SAT_CNT : Nat := 0xb000c
/-- GX_RA_FIXED_CNT, offset 0xb0010. -/
abbrev Reg.GX_RA_FIXED_CNT : Nat := 0xb0010
/-- GX_AT_EVENTS, offset 0xc0000. -/
abbrev Reg.GX_AT_EVENTS : Nat := 0xc0000
/-- GX_AT_ACTIVE, offset 0xc0004. -/
abbrev Reg.GX_AT_ACTIVE : Nat := 0xc0004
/-- GX_AT_DONE_CNT, offset 0xc0008. -/
abbrev Reg.GX_AT_DONE_CNT : Nat := 0xc0008
/-- GX_AT_FAIL_CNT, offset 0xc000c. -/
abbrev Reg.GX_AT_FAIL_CNT : Nat := 0xc000c
/-- GX_AT_TOKENS_LO, offset 0xc0010. -/
abbrev Reg.GX_AT_TOKENS_LO : Nat := 0xc0010
/-- GX_AT_TOKENS_HI, offset 0xc0014. -/
abbrev Reg.GX_AT_TOKENS_HI : Nat := 0xc0014
/-- GX_AT_STAGED_CNT, offset 0xc0018. -/
abbrev Reg.GX_AT_STAGED_CNT : Nat := 0xc0018
/-- GX_PC_PORT_INDEX, offset 0xd0000. -/
abbrev Reg.GX_PC_PORT_INDEX : Nat := 0xd0000
/-- GX_PC_PORT_STATUS, offset 0xd0004. -/
abbrev Reg.GX_PC_PORT_STATUS : Nat := 0xd0004
/-- GX_PC_PORT_CTRL, offset 0xd0008. -/
abbrev Reg.GX_PC_PORT_CTRL : Nat := 0xd0008
/-- GX_PC_CPL_TIMEOUT, offset 0xd000c. -/
abbrev Reg.GX_PC_CPL_TIMEOUT : Nat := 0xd000c
/-- GX_PC_ACC_ID, offset 0xd0010. -/
abbrev Reg.GX_PC_ACC_ID : Nat := 0xd0010
/-- GX_PC_WIN_CFG, offset 0xd0014. -/
abbrev Reg.GX_PC_WIN_CFG : Nat := 0xd0014
/-- GX_PC_BAR_INDEX, offset 0xd0018. -/
abbrev Reg.GX_PC_BAR_INDEX : Nat := 0xd0018
/-- GX_PC_BAR_BASE_LO, offset 0xd001c. -/
abbrev Reg.GX_PC_BAR_BASE_LO : Nat := 0xd001c
/-- GX_PC_BAR_BASE_HI, offset 0xd0020. -/
abbrev Reg.GX_PC_BAR_BASE_HI : Nat := 0xd0020
/-- GX_PC_BAR_INFO, offset 0xd0024. -/
abbrev Reg.GX_PC_BAR_INFO : Nat := 0xd0024
/-- GX_PC_EVENTS, offset 0xd0028. -/
abbrev Reg.GX_PC_EVENTS : Nat := 0xd0028
/-- GX_PC_UR_CNT, offset 0xd002c. -/
abbrev Reg.GX_PC_UR_CNT : Nat := 0xd002c
/-- GX_PC_CPL_TIMEOUT_CNT, offset 0xd0030. -/
abbrev Reg.GX_PC_CPL_TIMEOUT_CNT : Nat := 0xd0030
/-- GX_PC_POISON_CNT, offset 0xd0034. -/
abbrev Reg.GX_PC_POISON_CNT : Nat := 0xd0034
/-- GX_PC_FLUSH_CNT, offset 0xd0038. -/
abbrev Reg.GX_PC_FLUSH_CNT : Nat := 0xd0038
/-- GX_PC_ERR_MSG_CNT, offset 0xd003c. -/
abbrev Reg.GX_PC_ERR_MSG_CNT : Nat := 0xd003c
/-- GX_PC_MULE_INDEX, offset 0xd0040. -/
abbrev Reg.GX_PC_MULE_INDEX : Nat := 0xd0040
/-- GX_PC_MULE_STATUS, offset 0xd0044. -/
abbrev Reg.GX_PC_MULE_STATUS : Nat := 0xd0044
/-- GX_PC_MULE_BYTES_LO, offset 0xd0048. -/
abbrev Reg.GX_PC_MULE_BYTES_LO : Nat := 0xd0048
/-- GX_PC_MULE_BYTES_HI, offset 0xd004c. -/
abbrev Reg.GX_PC_MULE_BYTES_HI : Nat := 0xd004c
/-- GX_CV_INDEX, offset 0xe0000. -/
abbrev Reg.GX_CV_INDEX : Nat := 0xe0000
/-- GX_CV_DONE, offset 0xe0004. -/
abbrev Reg.GX_CV_DONE : Nat := 0xe0004
/-- GX_CV_EVENTS, offset 0xe0008. -/
abbrev Reg.GX_CV_EVENTS : Nat := 0xe0008
/-- GX_CV_SEL, offset 0xe000c. -/
abbrev Reg.GX_CV_SEL : Nat := 0xe000c
/-- GX_CV_CFG, offset 0xe0010. -/
abbrev Reg.GX_CV_CFG : Nat := 0xe0010
/-- GX_CV_POLY_LO, offset 0xe0014. -/
abbrev Reg.GX_CV_POLY_LO : Nat := 0xe0014
/-- GX_CV_POLY_HI, offset 0xe0018. -/
abbrev Reg.GX_CV_POLY_HI : Nat := 0xe0018
/-- GX_CV_INIT_LO, offset 0xe001c. -/
abbrev Reg.GX_CV_INIT_LO : Nat := 0xe001c
/-- GX_CV_INIT_HI, offset 0xe0020. -/
abbrev Reg.GX_CV_INIT_HI : Nat := 0xe0020
/-- GX_CV_CTRL, offset 0xe0024. -/
abbrev Reg.GX_CV_CTRL : Nat := 0xe0024
/-- GX_CV_STATUS, offset 0xe0028. -/
abbrev Reg.GX_CV_STATUS : Nat := 0xe0028
/-- GX_CV_BYTES_LO, offset 0xe002c. -/
abbrev Reg.GX_CV_BYTES_LO : Nat := 0xe002c
/-- GX_CV_BYTES_HI, offset 0xe0030. -/
abbrev Reg.GX_CV_BYTES_HI : Nat := 0xe0030
/-- GX_CV_RUNNING_LO, offset 0xe0034. -/
abbrev Reg.GX_CV_RUNNING_LO : Nat := 0xe0034
/-- GX_CV_RUNNING_HI, offset 0xe0038. -/
abbrev Reg.GX_CV_RUNNING_HI : Nat := 0xe0038
/-- GX_CV_RESULT_LO, offset 0xe003c. -/
abbrev Reg.GX_CV_RESULT_LO : Nat := 0xe003c
/-- GX_CV_RESULT_HI, offset 0xe0040. -/
abbrev Reg.GX_CV_RESULT_HI : Nat := 0xe0040
/-- GX_CE_SLOT_INDEX, offset 0xf0000. -/
abbrev Reg.GX_CE_SLOT_INDEX : Nat := 0xf0000
/-- GX_CE_SLOT_STATUS, offset 0xf0004. -/
abbrev Reg.GX_CE_SLOT_STATUS : Nat := 0xf0004
/-- GX_CE_SLOT_QPN, offset 0xf0008. -/
abbrev Reg.GX_CE_SLOT_QPN : Nat := 0xf0008
/-- GX_CE_SLOT_USED_LO, offset 0xf000c. -/
abbrev Reg.GX_CE_SLOT_USED_LO : Nat := 0xf000c
/-- GX_CE_SLOT_USED_HI, offset 0xf0010. -/
abbrev Reg.GX_CE_SLOT_USED_HI : Nat := 0xf0010
/-- GX_CE_SLOT_LIMIT_LO, offset 0xf0014. -/
abbrev Reg.GX_CE_SLOT_LIMIT_LO : Nat := 0xf0014
/-- GX_CE_SLOT_LIMIT_HI, offset 0xf0018. -/
abbrev Reg.GX_CE_SLOT_LIMIT_HI : Nat := 0xf0018
/-- GX_CE_SLOTS_ACTIVE, offset 0xf001c. -/
abbrev Reg.GX_CE_SLOTS_ACTIVE : Nat := 0xf001c
/-- GX_CE_CORES, offset 0xf0020. -/
abbrev Reg.GX_CE_CORES : Nat := 0xf0020
/-- GX_CE_EVENTS, offset 0xf0024. -/
abbrev Reg.GX_CE_EVENTS : Nat := 0xf0024
/-- GX_CE_AUTH_FAIL_CNT, offset 0xf0028. -/
abbrev Reg.GX_CE_AUTH_FAIL_CNT : Nat := 0xf0028
/-- GX_CE_EXHAUSTED_CNT, offset 0xf002c. -/
abbrev Reg.GX_CE_EXHAUSTED_CNT : Nat := 0xf002c
/-- GX_CE_BYTES_LO, offset 0xf0030. -/
abbrev Reg.GX_CE_BYTES_LO : Nat := 0xf0030
/-- GX_CE_BYTES_HI, offset 0xf0034. -/
abbrev Reg.GX_CE_BYTES_HI : Nat := 0xf0034
/-- GX_INST_STATE, page offset 0x8. -/
abbrev Reg.GX_INST_STATE : Nat := 0x4000008
/-- GX_INST_MBX_STATUS, page offset 0xc. -/
abbrev Reg.GX_INST_MBX_STATUS : Nat := 0x400000c
/-- GX_INST_MBX_CTRL, page offset 0x10. -/
abbrev Reg.GX_INST_MBX_CTRL : Nat := 0x4000010
/-- GX_VI_INDEX, offset 0x100000. -/
abbrev Reg.GX_VI_INDEX : Nat := 0x100000
/-- GX_VI_STATE, offset 0x100004. -/
abbrev Reg.GX_VI_STATE : Nat := 0x100004
/-- GX_VI_QUOTA_RINGS, offset 0x100008. -/
abbrev Reg.GX_VI_QUOTA_RINGS : Nat := 0x100008
/-- GX_VI_QUOTA_QPS, offset 0x10000c. -/
abbrev Reg.GX_VI_QUOTA_QPS : Nat := 0x10000c
/-- GX_VI_QUOTA_HERDS, offset 0x100010. -/
abbrev Reg.GX_VI_QUOTA_HERDS : Nat := 0x100010
/-- GX_VI_QUOTA_SLOTS, offset 0x100014. -/
abbrev Reg.GX_VI_QUOTA_SLOTS : Nat := 0x100014
/-- GX_VI_USE_RINGS, offset 0x100018. -/
abbrev Reg.GX_VI_USE_RINGS : Nat := 0x100018
/-- GX_VI_USE_QPS, offset 0x10001c. -/
abbrev Reg.GX_VI_USE_QPS : Nat := 0x10001c
/-- GX_VI_USE_HERDS, offset 0x100020. -/
abbrev Reg.GX_VI_USE_HERDS : Nat := 0x100020
/-- GX_VI_USE_SLOTS, offset 0x100024. -/
abbrev Reg.GX_VI_USE_SLOTS : Nat := 0x100024
/-- GX_VI_MBX_STATUS, offset 0x100028. -/
abbrev Reg.GX_VI_MBX_STATUS : Nat := 0x100028
/-- GX_VI_MBX_CTRL, offset 0x10002c. -/
abbrev Reg.GX_VI_MBX_CTRL : Nat := 0x10002c
/-- GX_VI_MBX_PENDING, offset 0x100030. -/
abbrev Reg.GX_VI_MBX_PENDING : Nat := 0x100030
/-- GX_VI_EVENTS, offset 0x100070. -/
abbrev Reg.GX_VI_EVENTS : Nat := 0x100070
/-- GX_VI_MIGRATION_ID_LO, offset 0x100074. -/
abbrev Reg.GX_VI_MIGRATION_ID_LO : Nat := 0x100074
/-- GX_VI_MIGRATION_ID_HI, offset 0x100078. -/
abbrev Reg.GX_VI_MIGRATION_ID_HI : Nat := 0x100078
/-- GX_VI_FREEZE_EDGE_LO, offset 0x10007c. -/
abbrev Reg.GX_VI_FREEZE_EDGE_LO : Nat := 0x10007c
/-- GX_VI_FREEZE_EDGE_HI, offset 0x100080. -/
abbrev Reg.GX_VI_FREEZE_EDGE_HI : Nat := 0x100080
/-- GX_FW_STAGE_LO, offset 0x110000. -/
abbrev Reg.GX_FW_STAGE_LO : Nat := 0x110000
/-- GX_FW_STAGE_HI, offset 0x110004. -/
abbrev Reg.GX_FW_STAGE_HI : Nat := 0x110004
/-- GX_FW_STAGE_LEN, offset 0x110008. -/
abbrev Reg.GX_FW_STAGE_LEN : Nat := 0x110008
/-- GX_FW_CONTROL, offset 0x11000c. -/
abbrev Reg.GX_FW_CONTROL : Nat := 0x11000c
/-- GX_FW_STATUS, offset 0x110010. -/
abbrev Reg.GX_FW_STATUS : Nat := 0x110010
/-- GX_FW_BANKS, offset 0x110014. -/
abbrev Reg.GX_FW_BANKS : Nat := 0x110014
/-- GX_FW_RELEASE, offset 0x110018. -/
abbrev Reg.GX_FW_RELEASE : Nat := 0x110018
/-- GX_FW_IFACE, offset 0x11001c. -/
abbrev Reg.GX_FW_IFACE : Nat := 0x11001c
/-- GX_FW_FEATURES_LO, offset 0x110020. -/
abbrev Reg.GX_FW_FEATURES_LO : Nat := 0x110020
/-- GX_FW_FEATURES_HI, offset 0x110024. -/
abbrev Reg.GX_FW_FEATURES_HI : Nat := 0x110024
/-- GX_FW_LC, offset 0x110028. -/
abbrev Reg.GX_FW_LC : Nat := 0x110028
/-- GX_FW_NONCE, offset 0x11002c. -/
abbrev Reg.GX_FW_NONCE : Nat := 0x11002c
/-- GX_FW_DOMAIN_NODES, offset 0x11003c. -/
abbrev Reg.GX_FW_DOMAIN_NODES : Nat := 0x11003c
/-- GX_FW_REQUIRED_RELEASE, offset 0x110040. -/
abbrev Reg.GX_FW_REQUIRED_RELEASE : Nat := 0x110040
/-- GX_FW_JOIN, offset 0x110044. -/
abbrev Reg.GX_FW_JOIN : Nat := 0x110044
/-- GX_FW_HEARTBEAT, offset 0x110048. -/
abbrev Reg.GX_FW_HEARTBEAT : Nat := 0x110048
/-- GX_FW_BANTAM, offset 0x11004c. -/
abbrev Reg.GX_FW_BANTAM : Nat := 0x11004c
/-- GX_FW_RESTART_CNT, offset 0x110050. -/
abbrev Reg.GX_FW_RESTART_CNT : Nat := 0x110050
/-- GX_FW_EVENTS, offset 0x110054. -/
abbrev Reg.GX_FW_EVENTS : Nat := 0x110054
/-- GX_PW_TARGET, offset 0x120000. -/
abbrev Reg.GX_PW_TARGET : Nat := 0x120000
/-- GX_PW_THROTTLE, offset 0x120004. -/
abbrev Reg.GX_PW_THROTTLE : Nat := 0x120004
/-- GX_PW_LIMIT, offset 0x120008. -/
abbrev Reg.GX_PW_LIMIT : Nat := 0x120008
/-- GX_PW_COMMIT, offset 0x12000c. -/
abbrev Reg.GX_PW_COMMIT : Nat := 0x12000c
/-- GX_PW_STATUS, offset 0x120010. -/
abbrev Reg.GX_PW_STATUS : Nat := 0x120010
/-- GX_PW_INPUT, offset 0x120014. -/
abbrev Reg.GX_PW_INPUT : Nat := 0x120014
/-- GX_PW_TEMP, offset 0x120018. -/
abbrev Reg.GX_PW_TEMP : Nat := 0x120018
/-- GX_PW_DOMAIN_INDEX, offset 0x12001c. -/
abbrev Reg.GX_PW_DOMAIN_INDEX : Nat := 0x12001c
/-- GX_PW_DOMAIN_STATUS, offset 0x120020. -/
abbrev Reg.GX_PW_DOMAIN_STATUS : Nat := 0x120020
/-- GX_PW_FLOCK, offset 0x120024. -/
abbrev Reg.GX_PW_FLOCK : Nat := 0x120024
/-- GX_PW_EVENTS, offset 0x120028. -/
abbrev Reg.GX_PW_EVENTS : Nat := 0x120028
/-- GX_PW_THROTTLE_CNT, offset 0x12002c. -/
abbrev Reg.GX_PW_THROTTLE_CNT : Nat := 0x12002c
/-- GX_PW_WAKE_CNT, offset 0x120030. -/
abbrev Reg.GX_PW_WAKE_CNT : Nat := 0x120030
/-- GX_PW_CLAMP_CNT, offset 0x120034. -/
abbrev Reg.GX_PW_CLAMP_CNT : Nat := 0x120034
/-- GX_PW_ASLEEP_CNT, offset 0x120038. -/
abbrev Reg.GX_PW_ASLEEP_CNT : Nat := 0x120038
/-- GX_RE_EVENTS, offset 0x130000. -/
abbrev Reg.GX_RE_EVENTS : Nat := 0x130000
/-- GX_RE_TRANSIENT_CNT, offset 0x130004. -/
abbrev Reg.GX_RE_TRANSIENT_CNT : Nat := 0x130004
/-- GX_RE_LASTING_CNT, offset 0x130008. -/
abbrev Reg.GX_RE_LASTING_CNT : Nat := 0x130008
/-- GX_RE_FATAL_CNT, offset 0x13000c. -/
abbrev Reg.GX_RE_FATAL_CNT : Nat := 0x13000c
/-- GX_RE_STALE_CNT, offset 0x130010. -/
abbrev Reg.GX_RE_STALE_CNT : Nat := 0x130010
/-- GX_RE_CORES, offset 0x130014. -/
abbrev Reg.GX_RE_CORES : Nat := 0x130014
/-- GX_RE_CORE_FENCED, offset 0x130018. -/
abbrev Reg.GX_RE_CORE_FENCED : Nat := 0x130018
/-- GX_RE_MULES, offset 0x13001c. -/
abbrev Reg.GX_RE_MULES : Nat := 0x13001c
/-- GX_RE_CVU, offset 0x130020. -/
abbrev Reg.GX_RE_CVU : Nat := 0x130020
/-- GX_RE_DEGRADED, offset 0x130024. -/
abbrev Reg.GX_RE_DEGRADED : Nat := 0x130024
/-- GX_RE_LOG_STATUS, offset 0x130028. -/
abbrev Reg.GX_RE_LOG_STATUS : Nat := 0x130028
/-- GX_RE_LOG_INDEX, offset 0x13002c. -/
abbrev Reg.GX_RE_LOG_INDEX : Nat := 0x13002c
/-- GX_RE_LOG_DATA, offset 0x130030. -/
abbrev Reg.GX_RE_LOG_DATA : Nat := 0x130030
/-- GX_RE_DUMP_STATUS, offset 0x130050. -/
abbrev Reg.GX_RE_DUMP_STATUS : Nat := 0x130050
/-- GX_RE_REPAIR_STATUS, offset 0x130054. -/
abbrev Reg.GX_RE_REPAIR_STATUS : Nat := 0x130054
/-- GX_ID, offset 0x0. -/
abbrev Reg.GX_ID : Nat := 0x0
/-- GX_CTRL, offset 0x4. -/
abbrev Reg.GX_CTRL : Nat := 0x4
/-- GX_STATUS, offset 0x8. -/
abbrev Reg.GX_STATUS : Nat := 0x8
/-- GX_SCRATCH, offset 0xc. -/
abbrev Reg.GX_SCRATCH : Nat := 0xc
/-- GX_COMMIT_MULTI_SEQ, offset 0x10. -/
abbrev Reg.GX_COMMIT_MULTI_SEQ : Nat := 0x10
/-- GX_COMMIT_MULTI, offset 0x14. -/
abbrev Reg.GX_COMMIT_MULTI : Nat := 0x14
/-- GX_COMMIT_MULTI_STATUS, offset 0x18. -/
abbrev Reg.GX_COMMIT_MULTI_STATUS : Nat := 0x18
/-- GX_INT_STATUS, offset 0x100. -/
abbrev Reg.GX_INT_STATUS : Nat := 0x100
/-- GX_INT_ENABLE, offset 0x104. -/
abbrev Reg.GX_INT_ENABLE : Nat := 0x104
/-- GX_INT_VECTOR, offset 0x200. -/
abbrev Reg.GX_INT_VECTOR : Nat := 0x200
/-- GX_INST_INT_STATUS, page offset 0x20. -/
abbrev Reg.GX_INST_INT_STATUS : Nat := 0x4000020
/-- GX_INST_INT_ENABLE, page offset 0x24. -/
abbrev Reg.GX_INST_INT_ENABLE : Nat := 0x4000024
/-- GX_INST_INT_VECTOR, page offset 0x28. -/
abbrev Reg.GX_INST_INT_VECTOR : Nat := 0x4000028
/-- GX_INST_ID, page offset 0x2c. -/
abbrev Reg.GX_INST_ID : Nat := 0x400002c
/-- GX_INST_SELF, page offset 0x30. -/
abbrev Reg.GX_INST_SELF : Nat := 0x4000030
/-- GX_INST_TICK_LO, page offset 0x34. -/
abbrev Reg.GX_INST_TICK_LO : Nat := 0x4000034
/-- GX_INST_TICK_HI, page offset 0x38. -/
abbrev Reg.GX_INST_TICK_HI : Nat := 0x4000038

def regsTick0 : List RegInfo := [
  { off := 0x10000, reset := 0x10, cmt := 0x7f },
  { off := 0x10004, reset := 0x96, cmt := 0xfff },
  { off := 0x10008, cmt := 0xffffffff },
  { off := 0x1000c, cmt := 0xffffffff },
  { off := 0x10010, rw := 0xffffffff },
  { off := 0x10014, rw := 0xffffffff },
  { off := 0x10018, rw := 0xffffffff },
  { off := 0x1001c },
  { off := 0x10020 },
  { off := 0x10024 },
  { off := 0x10028 },
  { off := 0x1002c, w1c := 0x3f },
  { off := 0x10030 }]

/-- The Tick block (01_architecture.md). -/
def regsTick : List RegInfo := regsTick0

def regsLanzil0 : List RegInfo := [
  { off := 0x20000, rw := 0xffffffff },
  { off := 0x20004, rw := 0xffffffff },
  { off := 0x20008, rw := 0x1fffff },
  { off := 0x2000c, wo := 0x3 },
  { off := 0x20010 },
  { off := 0x20014 },
  { off := 0x20018 },
  { off := 0x2001c, w1c := 0x7 }]

/-- The Lanzil block (02_lanzil_image_and_flocks.md). -/
def regsLanzil : List RegInfo := regsLanzil0

def regsTranslation0 : List RegInfo := [
  { off := 0x30000, cmt := 0xfffff000 },
  { off := 0x30004, cmt := 0xffffffff },
  { off := 0x30008, cmt := 0x7fffff },
  { off := 0x30010, cmt := 0x807fffff },
  { off := 0x30014, cmt := 0x807fffff },
  { off := 0x30018, cmt := 0x807fffff },
  { off := 0x3001c, cmt := 0x807fffff },
  { off := 0x30020, cmt := 0x807fffff },
  { off := 0x30024, cmt := 0x807fffff },
  { off := 0x30028, cmt := 0x807fffff },
  { off := 0x3002c, cmt := 0x807fffff },
  { off := 0x30030, rw := 0xffffffff },
  { off := 0x30034, w1c := 0x7 },
  { off := 0x30038 },
  { off := 0x3003c },
  { off := 0x30040 },
  { off := 0x30044 },
  { off := 0x30048 },
  { off := 0x3004c }]

/-- The Translation block (03_addressing_and_translation.md). -/
def regsTranslation : List RegInfo := regsTranslation0

def regsMemory0 : List RegInfo := [
  { off := 0x40000 },
  { off := 0x40004, reset := 0x1000 },
  { off := 0x40008, reset := 0x4000 },
  { off := 0x4000c, rw := 0x13fff },
  { off := 0x40010, ix := [0x4000c] },
  { off := 0x40014, reset := 0x18, cmt := 0xff },
  { off := 0x40018, rw := 0xffffffff },
  { off := 0x4001c, w1c := 0x7f },
  { off := 0x40020 },
  { off := 0x40024 },
  { off := 0x40028 }]

/-- The Memory block (04_memory_tiers.md). -/
def regsMemory : List RegInfo := regsMemory0

def regsQueue0 : List RegInfo := [
  { off := 0x50000, rws := 0xfffff000 },
  { off := 0x50004, rws := 0xffffffff },
  { off := 0x50008, rws := 0xfffff000 },
  { off := 0x5000c, rws := 0xffffffff },
  { off := 0x50010, rws := 0x1fe1 },
  { off := 0x50014, reset := 0x400, cmt := 0xffff },
  { off := 0x50018, rw := 0xffffffff },
  { off := 0x5001c, w1c := 0x1f },
  { off := 0x50020, rws := 0x8f0001ff },
  { off := 0x50024, rws := 0x7fffffff },
  { off := 0x50028 },
  { off := 0x5002c },
  { off := 0x50030 },
  { off := 0x50034 }]

/-- The Queue block (05_queues_and_rings.md). -/
def regsQueue : List RegInfo := regsQueue0

def regsPage0 : List RegInfo := [
  { off := 0x4000000, wo := 0x7fff },
  { off := 0x4000004 },
  { off := 0x4000008, reset := 0x1 },
  { off := 0x400000c },
  { off := 0x4000010, wo := 0x3 },
  { off := 0x4000020, w1c := 0xf },
  { off := 0x4000024, rw := 0xf },
  { off := 0x4000028, rw := 0x3f3f3f3f },
  { off := 0x400002c, reset := 0x64000100 },
  { off := 0x4000030 },
  { off := 0x4000034 },
  { off := 0x4000038 }]

/-- The Page block (05_queues_and_rings.md). -/
def regsPage : List RegInfo := regsPage0

def regsTransport0 : List RegInfo := [
  { off := 0x60000, reset := 0x704708, cmt := 0xfffffff },
  { off := 0x60004, reset := 0x2000002, cmt := 0xffff000f },
  { off := 0x60008, rw := 0xffffffff },
  { off := 0x6000c, w1c := 0x1f },
  { off := 0x60010 },
  { off := 0x60014, rw := 0xffff },
  { off := 0x60018, ix := [0x60014] },
  { off := 0x6001c },
  { off := 0x60020 },
  { off := 0x60024 },
  { off := 0x60028 },
  { off := 0x6002c },
  { off := 0x60030 },
  { off := 0x60034 }]

/-- The Transport block (06_transport.md). -/
def regsTransport : List RegInfo := regsTransport0

def regsCellFabric0 : List RegInfo := [
  { off := 0x70000, rw := 0x1f },
  { off := 0x70004, ix := [0x70000] },
  { off := 0x70008, rw := 0x1, wo := 0x2, ix := [0x70000] },
  { off := 0x7000c, ix := [0x70000] },
  { off := 0x70010, ix := [0x70000] },
  { off := 0x70014, reset := 0x10040, cmt := 0x1ffff },
  { off := 0x70018, cmt := 0xfffff000 },
  { off := 0x7001c, cmt := 0xffffffff },
  { off := 0x70020, cmt := 0x80000f03 },
  { off := 0x70024, cmt := 0xfffff000 },
  { off := 0x70028, cmt := 0xffffffff },
  { off := 0x7002c, cmt := 0x80000003 },
  { off := 0x70030 },
  { off := 0x70034, rw := 0x1ff },
  { off := 0x70038, cmt := 0x3f, ix := [0x70034] },
  { off := 0x7003c, rw := 0xffffffff },
  { off := 0x70040, rw := 0x3fff },
  { off := 0x70044, rw := 0x1fffffff },
  { off := 0x70048, rw := 0xff, ix := [0x70040] },
  { off := 0x7004c, w1c := 0x3ff }]

def regsCellFabric1 : List RegInfo := [
  { off := 0x70050 },
  { off := 0x70054 },
  { off := 0x70058 },
  { off := 0x7005c },
  { off := 0x70060 },
  { off := 0x70064 },
  { off := 0x70068 },
  { off := 0x7006c, ix := [0x70040] }]

/-- The CellFabric block (07_cell_fabric.md). -/
def regsCellFabric : List RegInfo := regsCellFabric0 ++ regsCellFabric1

def regsEthernet0 : List RegInfo := [
  { off := 0x80000, rw := 0x1f },
  { off := 0x80004, cmt := 0xffffffff, ix := [0x80000] },
  { off := 0x80008, cmt := 0xffff, ix := [0x80000] },
  { off := 0x8000c, cmt := 0xffffffff, ix := [0x80000] },
  { off := 0x80010, cmt := 0xffffffff, ix := [0x80000] },
  { off := 0x80014, cmt := 0xffffffff, ix := [0x80000] },
  { off := 0x80018, cmt := 0xffffffff, ix := [0x80000] },
  { off := 0x8001c, cmt := 0xffffffff, ix := [0x80000] },
  { off := 0x80020, reset := 0x2, cmt := 0x7, ix := [0x80000] },
  { off := 0x80024, cmt := 0xff03, ix := [0x80000] },
  { off := 0x80028, rw := 0x7 },
  { off := 0x8002c, reset := 0x800100, cmt := 0xffffffff, ix := [0x80000, 0x80028] },
  { off := 0x80030, reset := 0xda, cmt := 0xffff, ix := [0x80000, 0x80028] },
  { off := 0x80034, reset := 0x200, cmt := 0xffff, ix := [0x80000] },
  { off := 0x80038, reset := 0x11932, cmt := 0x1ffff, ix := [0x80000] },
  { off := 0x8003c, ix := [0x80000] },
  { off := 0x80040, rw := 0x7f },
  { off := 0x80044, cmt := 0xffffffff, ix := [0x80000, 0x80040] },
  { off := 0x80048, reset := 0xbd3c, cmt := 0xfffff },
  { off := 0x8004c, cmt := 0xfffff000 }]

def regsEthernet1 : List RegInfo := [
  { off := 0x80050, cmt := 0xffffffff },
  { off := 0x80054, cmt := 0x601fff },
  { off := 0x80058, rw := 0xff },
  { off := 0x8005c, rw := 0x807fffff, ix := [0x80058] },
  { off := 0x80060, rw := 0xffffffff, ix := [0x80058] },
  { off := 0x80064, rw := 0xffffffff },
  { off := 0x80068, w1c := 0xff },
  { off := 0x8006c },
  { off := 0x80070, ix := [0x80000] },
  { off := 0x80074, ix := [0x80000] }]

/-- The Ethernet block (08_ethernet_ports.md). -/
def regsEthernet : List RegInfo := regsEthernet0 ++ regsEthernet1

def regsScheduling0 : List RegInfo := [
  { off := 0x90000, reset := 0xda100004, cmt := 0xffffffff },
  { off := 0x90004, reset := 0x10020500, cmt := 0xffffff00 },
  { off := 0x90008, reset := 0x1f40064, cmt := 0xffffffff },
  { off := 0x9000c, rw := 0x7 },
  { off := 0x90010, reset := 0x4000, cmt := 0x8000ffff, ix := [0x9000c] },
  { off := 0x90014, rw := 0x1ff },
  { off := 0x90018, reset := 0x100000, cmt := 0xe0ff0000, ix := [0x90014] },
  { off := 0x9001c, rw := 0x3ff },
  { off := 0x90020, cmt := 0x800fffff, ix := [0x9001c] },
  { off := 0x90024, reset := 0x10000, cmt := 0xffffff, ix := [0x9001c] },
  { off := 0x90028, ix := [0x9001c] },
  { off := 0x9002c, rw := 0x1f },
  { off := 0x90030, cmt := 0x7f, ix := [0x9002c] },
  { off := 0x90034, reset := 0x200001, cmt := 0xffe0ffff, ix := [0x9002c] },
  { off := 0x90038, cmt := 0xffff, ix := [0x9002c] },
  { off := 0x9003c, cmt := 0xffffffff, ix := [0x9002c] },
  { off := 0x90040, cmt := 0xffffffff, ix := [0x9002c] },
  { off := 0x90044, cmt := 0xffffffff, ix := [0x9002c] },
  { off := 0x90048, rw := 0x3f },
  { off := 0x9004c, reset := 0xff000000, cmt := 0xffffffff, ix := [0x9002c, 0x90048] }]

def regsScheduling1 : List RegInfo := [
  { off := 0x90050, reset := 0xff00, ix := [0x9002c] },
  { off := 0x90054, rw := 0x3f },
  { off := 0x90058, cmt := 0xe01f0107, ix := [0x90054] },
  { off := 0x9005c, cmt := 0xfffff, ix := [0x90054] },
  { off := 0x90060, cmt := 0xfffff, ix := [0x90054] },
  { off := 0x90064, reset := 0x10000, cmt := 0xffffff, ix := [0x90054] },
  { off := 0x90068, reset := 0x10000, cmt := 0xffffff, ix := [0x90054] },
  { off := 0x9006c, ix := [0x90054] },
  { off := 0x90070, ix := [0x90054] },
  { off := 0x90074, ix := [0x90054] },
  { off := 0x90078, rw := 0xffffffff },
  { off := 0x9007c, w1c := 0xf },
  { off := 0x90080 },
  { off := 0x90084 },
  { off := 0x90088 },
  { off := 0x9008c }]

/-- The Scheduling block (09_congestion_and_scheduling.md). -/
def regsScheduling : List RegInfo := regsScheduling0 ++ regsScheduling1

def regsCollective0 : List RegInfo := [
  { off := 0xa0000, rw := 0xffff },
  { off := 0xa0004, ix := [0xa0000] },
  { off := 0xa0008, ix := [0xa0000] },
  { off := 0xa000c },
  { off := 0xa0010 },
  { off := 0xa0014, w1c := 0xf },
  { off := 0xa0018 },
  { off := 0xa001c },
  { off := 0xa0020 },
  { off := 0xa0024 },
  { off := 0xa0028 }]

/-- The Collective block (10_collectives.md). -/
def regsCollective : List RegInfo := regsCollective0

def regsArithmetic0 : List RegInfo := [
  { off := 0xb0000, w1c := 0x7 },
  { off := 0xb0004 },
  { off := 0xb0008 },
  { off := 0xb000c },
  { off := 0xb0010 }]

/-- The Arithmetic block (11_reduction_arithmetic.md). -/
def regsArithmetic : List RegInfo := regsArithmetic0

def regsAttention0 : List RegInfo := [
  { off := 0xc0000, w1c := 0x3 },
  { off := 0xc0004 },
  { off := 0xc0008 },
  { off := 0xc000c },
  { off := 0xc0010 },
  { off := 0xc0014 },
  { off := 0xc0018 }]

/-- The Attention block (12_attention_offload.md). -/
def regsAttention : List RegInfo := regsAttention0

def regsPcie0 : List RegInfo := [
  { off := 0xd0000, rw := 0x7 },
  { off := 0xd0004, ix := [0xd0000] },
  { off := 0xd0008, reset := 0x4, rws := 0xd, wo := 0x2, ix := [0xd0000] },
  { off := 0xd000c, reset := 0x2710, rws := 0xffff, ix := [0xd0000] },
  { off := 0xd0010, ix := [0xd0000] },
  { off := 0xd0014, reset := 0x7, rws := 0x7, ix := [0xd0000] },
  { off := 0xd0018, rw := 0x7 },
  { off := 0xd001c, ix := [0xd0000, 0xd0018] },
  { off := 0xd0020, ix := [0xd0000, 0xd0018] },
  { off := 0xd0024, ix := [0xd0000, 0xd0018] },
  { off := 0xd0028, w1c := 0xff },
  { off := 0xd002c },
  { off := 0xd0030 },
  { off := 0xd0034 },
  { off := 0xd0038 },
  { off := 0xd003c },
  { off := 0xd0040, rw := 0x1f },
  { off := 0xd0044, ix := [0xd0040] },
  { off := 0xd0048, ix := [0xd0040] },
  { off := 0xd004c, ix := [0xd0040] }]

/-- The Pcie block (13_host_and_accelerator_ports.md). -/
def regsPcie : List RegInfo := regsPcie0

def regsCheckValue0 : List RegInfo := [
  { off := 0xe0000, rw := 0x1f },
  { off := 0xe0004, w1c := 0xffffffff },
  { off := 0xe0008, w1c := 0x3 },
  { off := 0xe000c, rw := 0xf001f, ix := [0xe0000] },
  { off := 0xe0010, reset := 0x102, rw := 0x73ff, ix := [0xe0000] },
  { off := 0xe0014, rw := 0xffffffff, ix := [0xe0000] },
  { off := 0xe0018, rw := 0xffffffff, ix := [0xe0000] },
  { off := 0xe001c, rw := 0xffffffff, ix := [0xe0000] },
  { off := 0xe0020, rw := 0xffffffff, ix := [0xe0000] },
  { off := 0xe0024, wo := 0x7, ix := [0xe0000] },
  { off := 0xe0028, ix := [0xe0000] },
  { off := 0xe002c, ix := [0xe0000] },
  { off := 0xe0030, ix := [0xe0000] },
  { off := 0xe0034, rw := 0xffffffff, ix := [0xe0000] },
  { off := 0xe0038, rw := 0xffffffff, ix := [0xe0000] },
  { off := 0xe003c, ix := [0xe0000] },
  { off := 0xe0040, ix := [0xe0000] }]

/-- The CheckValue block (14_check_value_units.md). -/
def regsCheckValue : List RegInfo := regsCheckValue0

def regsCipher0 : List RegInfo := [
  { off := 0xf0000, rw := 0x1fff },
  { off := 0xf0004, ix := [0xf0000] },
  { off := 0xf0008, ix := [0xf0000] },
  { off := 0xf000c, ix := [0xf0000] },
  { off := 0xf0010, ix := [0xf0000] },
  { off := 0xf0014, ix := [0xf0000] },
  { off := 0xf0018, ix := [0xf0000] },
  { off := 0xf001c },
  { off := 0xf0020, reset := 0xfff },
  { off := 0xf0024, w1c := 0xf },
  { off := 0xf0028 },
  { off := 0xf002c },
  { off := 0xf0030 },
  { off := 0xf0034 }]

/-- The Cipher block (15_cipher_engine.md). -/
def regsCipher : List RegInfo := regsCipher0

def regsInstance0 : List RegInfo := [
  { off := 0x100000, rw := 0x1ff },
  { off := 0x100004, ix := [0x100000] },
  { off := 0x100008, reset := 0x7ffe, rws := 0x7fff, ix := [0x100000] },
  { off := 0x10000c, reset := 0x10000, rws := 0x1ffff, ix := [0x100000] },
  { off := 0x100010, reset := 0x400, rws := 0x7ff, ix := [0x100000] },
  { off := 0x100014, reset := 0x2000, rws := 0x3fff, ix := [0x100000] },
  { off := 0x100018, ix := [0x100000] },
  { off := 0x10001c, ix := [0x100000] },
  { off := 0x100020, ix := [0x100000] },
  { off := 0x100024, ix := [0x100000] },
  { off := 0x100028, ix := [0x100000] },
  { off := 0x10002c, wo := 0x3, ix := [0x100000] },
  { off := 0x100030 },
  { off := 0x100034 },
  { off := 0x100038 },
  { off := 0x10003c },
  { off := 0x100040 },
  { off := 0x100044 },
  { off := 0x100048 },
  { off := 0x10004c }]

def regsInstance1 : List RegInfo := [
  { off := 0x100050 },
  { off := 0x100054 },
  { off := 0x100058 },
  { off := 0x10005c },
  { off := 0x100060 },
  { off := 0x100064 },
  { off := 0x100068 },
  { off := 0x10006c },
  { off := 0x100070, w1c := 0xf },
  { off := 0x100074, ix := [0x100000] },
  { off := 0x100078, ix := [0x100000] },
  { off := 0x10007c, ix := [0x100000] },
  { off := 0x100080, ix := [0x100000] }]

/-- The Instance block (16_virtualization.md). -/
def regsInstance : List RegInfo := regsInstance0 ++ regsInstance1

def regsFirmware0 : List RegInfo := [
  { off := 0x110000, rw := 0xffffffff },
  { off := 0x110004, rw := 0xffffffff },
  { off := 0x110008, rw := 0xffffff },
  { off := 0x11000c, wo := 0x7f },
  { off := 0x110010 },
  { off := 0x110014 },
  { off := 0x110018 },
  { off := 0x11001c },
  { off := 0x110020 },
  { off := 0x110024 },
  { off := 0x110028 },
  { off := 0x11002c },
  { off := 0x110030 },
  { off := 0x110034 },
  { off := 0x110038 },
  { off := 0x11003c, rw := 0x7fffff },
  { off := 0x110040, rw := 0xffffffff },
  { off := 0x110044 },
  { off := 0x110048, rws := 0xffff0000, wo := 0xffff },
  { off := 0x11004c }]

def regsFirmware1 : List RegInfo := [
  { off := 0x110050 },
  { off := 0x110054, w1c := 0x6ff, w1s := 0x100 }]

/-- The Firmware block (17_firmware_boot_security.md). -/
def regsFirmware : List RegInfo := regsFirmware0 ++ regsFirmware1

def regsPower0 : List RegInfo := [
  { off := 0x120000, cmt := 0x7 },
  { off := 0x120004, reset := 0x808, cmt := 0xfffff },
  { off := 0x120008, reset := 0x2a8, cmt := 0x3ff },
  { off := 0x12000c, rw := 0xffffffff },
  { off := 0x120010 },
  { off := 0x120014 },
  { off := 0x120018 },
  { off := 0x12001c, rw := 0xff },
  { off := 0x120020, ix := [0x12001c] },
  { off := 0x120024, rw := 0xfff0000, wo := 0x3 },
  { off := 0x120028, w1c := 0xff },
  { off := 0x12002c },
  { off := 0x120030 },
  { off := 0x120034 },
  { off := 0x120038 }]

/-- The Power block (18_power_and_thermal.md). -/
def regsPower : List RegInfo := regsPower0

def regsReliability0 : List RegInfo := [
  { off := 0x130000, w1c := 0x3f, w1s := 0x7c0 },
  { off := 0x130004 },
  { off := 0x130008 },
  { off := 0x13000c, rws := 0xffffffff },
  { off := 0x130010 },
  { off := 0x130014 },
  { off := 0x130018 },
  { off := 0x13001c, reset := 0xffffffff },
  { off := 0x130020, reset := 0xffffffff },
  { off := 0x130024 },
  { off := 0x130028 },
  { off := 0x13002c, rw := 0xff },
  { off := 0x130030, ix := [0x13002c] },
  { off := 0x130034, ix := [0x13002c] },
  { off := 0x130038, ix := [0x13002c] },
  { off := 0x13003c, ix := [0x13002c] },
  { off := 0x130040, ix := [0x13002c] },
  { off := 0x130044, ix := [0x13002c] },
  { off := 0x130048, ix := [0x13002c] },
  { off := 0x13004c, ix := [0x13002c] }]

def regsReliability1 : List RegInfo := [
  { off := 0x130050 },
  { off := 0x130054 }]

/-- The Reliability block (19_reliability.md). -/
def regsReliability : List RegInfo := regsReliability0 ++ regsReliability1

def regsGlobal0 : List RegInfo := [
  { off := 0x0, reset := 0x64000100 },
  { off := 0x4, wo := 0xff000001 },
  { off := 0x8 },
  { off := 0xc, rws := 0xffffffff },
  { off := 0x10, rw := 0xffffffff },
  { off := 0x14, wo := 0x1ff },
  { off := 0x18 },
  { off := 0x100 },
  { off := 0x104, rw := 0x7ffff },
  { off := 0x200, rw := 0x3f },
  { off := 0x204, rw := 0x3f },
  { off := 0x208, rw := 0x3f },
  { off := 0x20c, rw := 0x3f },
  { off := 0x210, rw := 0x3f },
  { off := 0x214, rw := 0x3f },
  { off := 0x218, rw := 0x3f },
  { off := 0x21c, rw := 0x3f },
  { off := 0x220, rw := 0x3f },
  { off := 0x224, rw := 0x3f },
  { off := 0x228, rw := 0x3f }]

def regsGlobal1 : List RegInfo := [
  { off := 0x22c, rw := 0x3f },
  { off := 0x230, rw := 0x3f },
  { off := 0x234, rw := 0x3f },
  { off := 0x238, rw := 0x3f },
  { off := 0x23c, rw := 0x3f },
  { off := 0x240, rw := 0x3f },
  { off := 0x244, rw := 0x3f },
  { off := 0x248, rw := 0x3f }]

/-- The Global block (20_register_map.md). -/
def regsGlobal : List RegInfo := regsGlobal0 ++ regsGlobal1

/-- The rows of one block of Table 20.1 (block 0x400 is the instance page). -/
def regBlock (b : Nat) : List RegInfo :=
  match b with
  | 1 => regsTick
  | 2 => regsLanzil
  | 3 => regsTranslation
  | 4 => regsMemory
  | 5 => regsQueue
  | 0x400 => regsPage
  | 6 => regsTransport
  | 7 => regsCellFabric
  | 8 => regsEthernet
  | 9 => regsScheduling
  | 10 => regsCollective
  | 11 => regsArithmetic
  | 12 => regsAttention
  | 13 => regsPcie
  | 14 => regsCheckValue
  | 15 => regsCipher
  | 16 => regsInstance
  | 17 => regsFirmware
  | 18 => regsPower
  | 19 => regsReliability
  | 0 => regsGlobal
  | _ => []

/-- The row of a live register address, if any (R540: an address that names no register has none). -/
def regInfo (off : Nat) : Option RegInfo := (regBlock (off / 0x10000)).find? (fun r => r.off == off)

end Sys2Proof.Machine
end

