-- ==== Sys2Proof/Machine/Ops.lean ====
section
/-! DEFINITION. The named operations that every meaning is written with: sorted tables, bit fields,
registers, events and interrupts, the log of what is sent. -/

namespace Sys2Proof.Machine

/-! ### Sorted tables -/

/-- The entry of a key. -/
def mapGet {α : Type} (m : NMap α) (k : Nat) : Option α :=
  match m with
  | [] => none
  | (k', v) :: t => if k' = k then some v else mapGet t k

/-- Put an entry, in key order. -/
def mapSet {α : Type} (m : NMap α) (k : Nat) (v : α) : NMap α :=
  match m with
  | [] => [(k, v)]
  | (k', v') :: t =>
    if k < k' then (k, v) :: (k', v') :: t
    else if k = k' then (k, v) :: t
    else (k', v') :: mapSet t k v

/-- Remove the entry of a key. -/
def mapErase {α : Type} (m : NMap α) (k : Nat) : NMap α := m.filter (fun e => e.1 != k)

/-- Change the entry of a key, if it has one. -/
def mapModify {α : Type} (m : NMap α) (k : Nat) (f : α → α) : NMap α :=
  m.map (fun e => if e.1 = k then (e.1, f e.2) else e)

/-- Put an entry, leaving out the value that an unlisted key has. -/
def mapPut {α : Type} [DecidableEq α] (dflt : α) (m : NMap α) (k : Nat) (v : α) : NMap α :=
  if v = dflt then mapErase m k else mapSet m k v

/-- Keys strictly rise. -/
abbrev mapSorted {α : Type} (m : NMap α) : Prop := m.Pairwise (fun a b => a.1 < b.1)

/-- Add a number to a list without repeats. -/
def insertNew (l : List Nat) (n : Nat) : List Nat := if n ∈ l then l else l ++ [n]

/-! ### Bit fields -/

/-- Field [hi:lo] of a number. -/
def fld (x hi lo : Nat) : Nat := x / 2 ^ lo % 2 ^ (hi + 1 - lo)

/-- Field [hi:lo] of a register value. -/
def wfld (w : Word) (hi lo : Nat) : Nat := fld w.toNat hi lo

/-- Little-endian bytes as a number (R9). -/
def leNat (bs : List Byte) : Nat :=
  match bs with
  | [] => 0
  | b :: t => b.toNat + 256 * leNat t

/-- The low n bytes of a number, little-endian (R9). -/
def leBytes (n x : Nat) : List Byte :=
  match n with
  | 0 => []
  | k + 1 => BitVec.ofNat 8 x :: leBytes k (x / 256)

/-- n bytes of a byte string from an offset. -/
def slice (bs : List Byte) (off n : Nat) : List Byte := (bs.drop off).take n

/-- The little-endian field of n bytes at an offset of a structure in memory (R9). -/
def leAt (bs : List Byte) (off n : Nat) : Nat := leNat (slice bs off n)

/-- All bytes are zero. -/
def allZero (bs : List Byte) : Bool := bs.all (· == 0)

/-- Two's complement reading of an n-bit number. -/
def signed (n x : Nat) : Int := if x < 2 ^ (n - 1) then x else (x : Int) - 2 ^ n

/-! ### Registers -/

/-- Key of a register position: its offset, and the selected index in the bits above 32. -/
def regKey (off idx : Nat) : Nat := off + idx * 2 ^ 32

/-- Key of a register of instance n's page. -/
def pageKey (off n : Nat) : Nat := off + n * 0x10000

/-- The register row that a key belongs to. -/
def keyInfo (key : Nat) : Option RegInfo :=
  let off := key % 2 ^ 32
  if 0x04000000 ≤ off then regInfo (0x04000000 + off % 0x10000) else regInfo off

/-- The reset value of a register position (R5). -/
def keyReset (key : Nat) : Word :=
  match keyInfo key with
  | some r => r.reset
  | none => 0

/-- The live value that a register position holds. -/
def regAt (s : State) (key : Nat) : Word := (mapGet s.regs key).getD (keyReset key)

/-- The live value of an unindexed register. -/
abbrev rg (s : State) (off : Nat) : Word := regAt s off

/-- The live value of an indexed register. -/
abbrev rgi (s : State) (off idx : Nat) : Word := regAt s (regKey off idx)

/-- The shadow value of a register position (R67). -/
def shadowAt (s : State) (key : Nat) : Word := (mapGet s.shadows key).getD (keyReset key)

/-- Set the live value of a register position. -/
def putReg (key : Nat) (v : Word) (s : State) : State :=
  { s with regs := mapPut (keyReset key) s.regs key v }

/-- Set the shadow value of a register position. -/
def putShadow (key : Nat) (v : Word) (s : State) : State :=
  { s with shadows := mapPut (keyReset key) s.shadows key v }

/-- The index that selects a position of an indexed register at this moment. -/
def regIndex (s : State) (ix : List Nat) : Nat :=
  ix.foldl (fun acc off => acc * 65536 + (rg s off).toNat) 0

/-- Index of a position that two registers select (the first is the outer one). -/
def idx2 (a b : Nat) : Nat := a * 65536 + b

/-- Count one in a counter that saturates at 0xFFFF_FFFF. -/
def bump (key : Nat) (s : State) : State :=
  let v := regAt s key
  putReg key (if v = 0xFFFFFFFF then v else v + 1) s

/-- Count n in a saturating counter. -/
def bumpBy (key n : Nat) (s : State) : State :=
  putReg key (BitVec.ofNat 32 (min 0xFFFFFFFF ((regAt s key).toNat + n))) s

/-! ### What is sent -/

/-- Append to the log of what the adapter has sent. -/
def emit (o : Output) (s : State) : State := { s with out := s.out ++ [o] }

/-! ### Interrupts (R547, R548, R551) -/

/-- The event register of each interrupt source (the list before R547). -/
def sourceRegs : List (Nat × Nat) :=
  [(Reg.GX_TICK_EVENTS, 0), (Reg.GX_LZ_EVENTS, 1), (Reg.GX_XL_EVENTS, 2), (Reg.GX_MEM_EVENTS, 3),
   (Reg.GX_Q_EVENTS, 4), (Reg.GX_TP_EVENTS, 5), (Reg.GX_CF_EVENTS, 6), (Reg.GX_ETH_EVENTS, 7),
   (Reg.GX_CS_EVENTS, 8), (Reg.GX_HD_EVENTS, 9), (Reg.GX_RA_EVENTS, 10), (Reg.GX_AT_EVENTS, 11),
   (Reg.GX_PC_EVENTS, 12), (Reg.GX_CV_EVENTS, 13), (Reg.GX_CV_DONE, 13), (Reg.GX_CE_EVENTS, 14),
   (Reg.GX_VI_EVENTS, 15), (Reg.GX_FW_EVENTS, 16), (Reg.GX_PW_EVENTS, 17), (Reg.GX_RE_EVENTS, 18)]

/-- The source of an event register. -/
def sourceOf (off : Nat) : Option Nat := (sourceRegs.find? (fun e => e.1 == off)).map Prod.snd

/-- Source s is asserted while one of its event registers has a bit at 1. -/
def sourceAsserted (s : State) (src : Nat) : Bool :=
  sourceRegs.any (fun e => e.2 == src && rg s e.1 != 0)

/-- GX_INT_STATUS (R547). -/
def intStatus (s : State) : Nat :=
  (List.range 19).foldl (fun acc i => if sourceAsserted s i then acc + 2 ^ i else acc) 0

/-- Words of an MSI-X table entry: address low, address high, data, control (mask bit 0). -/
def msixWord (s : State) (fn v i : Nat) : Word :=
  (mapGet s.gl.msixTable (1024 * fn + 4 * v + i)).getD (if i = 3 then 1 else 0)

/-- The vector and its function are unmasked (R548). -/
def msixOpen (s : State) (fn v : Nat) : Bool :=
  s.gl.msixOn.contains fn && (msixWord s fn v 3).getLsbD 0 == false

/-- Number of MSI-X vectors of a function (Table 20.3). -/
def msixVectors (fn : Nat) : Nat := if fn = 0 then 64 else 4

/-- Send the message of a pending vector that is unmasked, and clear its pending bit (R548). -/
def msixSend (fn v : Nat) (s : State) : State :=
  if s.gl.msixPending.contains (64 * fn + v) && msixOpen s fn v then
    emit (.msix fn v ((msixWord s fn v 1) ++ (msixWord s fn v 0)) (msixWord s fn v 2))
      { s with gl := { s.gl with msixPending := s.gl.msixPending.filter (· != 64 * fn + v) } }
  else s

/-- Set a vector's pending bit; the message follows at once if it is unmasked (R548).  A vector at or
above the function's vector count raises none. -/
def msixRaise (fn v : Nat) (s : State) : State :=
  if v < msixVectors fn then
    msixSend fn v { s with gl := { s.gl with msixPending := insertNew s.gl.msixPending (64 * fn + v) } }
  else s

/-- Raise the vector that a source of the window is mapped to, if the source is enabled (R548). -/
def intFire (src : Nat) (s : State) : State :=
  if (rg s Reg.GX_INT_ENABLE).getLsbD src then
    msixRaise 0 (wfld (rg s (Reg.GX_INT_VECTOR + 4 * src)) 5 0) s
  else s

/-- Set an event bit; a change from 0 to 1 raises the interrupt of the block's source (R548). -/
def raise (off bit : Nat) (s : State) : State :=
  let old := rg s off
  if old.getLsbD bit then s
  else
    let s := putReg off (old ||| BitVec.ofNat 32 (2 ^ bit)) s
    match sourceOf off with
    | some src => intFire src s
    | none => s

/-- Set a bit of an instance page's GX_INST_INT_STATUS and raise its vector (R551). -/
def raisePage (n bit : Nat) (s : State) : State :=
  let key := pageKey Reg.GX_INST_INT_STATUS n
  let old := regAt s key
  if old.getLsbD bit then s
  else
    let s := putReg key (old ||| BitVec.ofNat 32 (2 ^ bit)) s
    if (regAt s (pageKey Reg.GX_INST_INT_ENABLE n)).getLsbD bit then
      msixRaise n (wfld (regAt s (pageKey Reg.GX_INST_INT_VECTOR n)) (8 * bit + 5) (8 * bit)) s
    else s

/-- The meaning ends in a next state. -/
abbrev Res := Host.Outcome State Fault Refusal

/-- A command whose moment has not come changes nothing (assumption 2). -/
def whenOk (c : Bool) (f : State → State) (s : State) : State := if c then f s else s

end Sys2Proof.Machine
end

