-- ==== Sys2Proof/Machine/Gates.lean ====
section
/-! DEFINITION. When the adapter acts at all: power, reset, boot and halts; and the small questions about
instances, Bantams, ports and time that many chapters ask. -/

namespace Sys2Proof.Machine

/-- Rails up, not held in reset, not tripped (R513, R564 to R566). -/
def powered (s : State) : Bool :=
  s.pins.pwrGood && !s.pins.coldHeld && !s.pins.hotHold && !s.pw.tripped

/-- In PS3 or PS4 (R504). -/
def asleep (s : State) : Bool := s.pw.ps == .ps3 || s.pw.ps == .ps4

/-- The adapter has booted and is awake: BOOT reads READY, PS0 to PS2, no FATAL_HALT (R469, R503, R534). -/
def running (s : State) : Bool :=
  powered s && s.fw.boot == .ready && !asleep s && !s.gl.fatalHalt

/-- Running, and no malformed management entry has halted the adapter (R155): work goes on. -/
def working (s : State) : Bool := running s && !s.gl.adapterHalt && !s.re.dumping

/-- The instance's record; an instance without one is DISABLED. -/
def inst (s : State) (n : Nat) : Instance := (mapGet s.vi.insts n).getD {}

/-- Change an instance's record. -/
def setInst (n : Nat) (i : Instance) (s : State) : State :=
  { s with vi := { s.vi with insts := mapPut {} s.vi.insts n i } }

/-- Put an instance into a state; the page's STATE source tells of READY, RESETTING, FREEZING and FROZEN,
its HALTED source of HALTED (Table 20.4). -/
def enterState (n : Nat) (st : InstState) (s : State) : State :=
  let s := setInst n { inst s n with state := st } s
  match st with
  | .disabled => s
  | .halted => raisePage n 2 s
  | _ => raisePage n 3 s

/-- The instance fetches from its rings and starts work (Table 16.1). -/
def instWorks (s : State) (n : Nat) : Bool := (inst s n).state == .ready

/-- The instance runs work that it has started: READY, FREEZING, or a DRAIN reset (Table 16.1, R441). -/
def instFinishes (s : State) (n : Nat) : Bool :=
  match (inst s n).state with
  | .ready => true
  | .freezing => true
  | .resetting =>
    match (inst s n).reset with
    | some r => r.mode == .drain
    | none => false
  | _ => false

/-- The instance's queue pairs go on sending what has begun: in a SQUASH reset too, until every cell already sent is
acknowledged (R441). -/
def instSends (s : State) (n : Nat) : Bool := instFinishes s n || (inst s n).state == .resetting

/-- Bantam b is held by a lone restart (R473, Table 17.6). -/
def bantamBusy (s : State) (b : Nat) : Bool := s.fw.restarting == some b

/-- PERIOD of the live tick (R25). -/
def period (s : State) : Nat := wfld (rg s Reg.GX_TICK_PERIOD) 6 0

/-- GUARD of the live tick, in clk. -/
def guardClk (s : State) : Nat := wfld (rg s Reg.GX_TICK_GUARD) 11 0

/-- Number of network ports of a width mode (Table 2.3). -/
def portCount (mode : Nat) : Nat :=
  match mode with
  | 0 => 8
  | 1 => 4
  | 2 => 16
  | _ => 32

/-- Lanes of each port of a width mode (Table 2.3). -/
def lanesPerPort (mode : Nat) : Nat := 32 / portCount mode

/-- The PORTS entry of a port. -/
def portCfg (s : State) (p : Nat) : Option LzPort := s.lz.run.ports[p]?

/-- The port is enabled as a cell-fabric port. -/
def isCellPort (s : State) (p : Nat) : Bool :=
  match portCfg s p with
  | some c => c.enable && !c.eth
  | none => false

/-- The port is enabled as an Ethernet port. -/
def isEthPort (s : State) (p : Nat) : Bool :=
  match portCfg s p with
  | some c => c.enable && c.eth
  | none => false

/-- The Flock record of an identifier. -/
def flockOf (st : Structure) (id : Nat) : Option Flock := st.flocks.find? (fun f => f.id == id)

/-- FLOCK_ID of an instance (R54). -/
def instFlock (st : Structure) (n : Nat) : Option Nat :=
  (st.insts.find? (fun e => e.1 == n)).map Prod.snd

/-- a is the Flock f or one of its ancestors; the walk is bounded by the record count. -/
def isAncestorOrSelf (st : Structure) (fuel a f : Nat) : Bool :=
  match fuel with
  | 0 => a == f
  | k + 1 =>
    a == f ||
      match (flockOf st f).bind (·.parent) with
      | some p => isAncestorOrSelf st k a p
      | none => false

/-- Flock f lies beneath Flock a, or is a. -/
def beneath (st : Structure) (a f : Nat) : Bool := isAncestorOrSelf st st.flocks.length a f

/-- The leaf Flocks beneath a Flock. -/
def leavesOf (st : Structure) (a : Nat) : List Flock :=
  st.flocks.filter (fun f => f.kind != .inner && beneath st a f.id)

/-- The instance whose Flock is f or an ancestor of f. -/
def flockInstance (st : Structure) (f : Nat) : Option Nat :=
  (st.insts.find? (fun e => beneath st e.2 f)).map Prod.fst

/-- The DRBG answers requests: it is not stopped, and no reseeding is due (R491). -/
def drbgReady (s : State) : Bool := !s.sec.drbgStopped && decide (s.sec.drbgSince < 2 ^ 20)

/-- Draw the next 128 bits of the CTR_DRBG (R491, assumption 5). -/
def drawDrbg (s : State) : BitVec 128 × State :=
  (Config.drbg s.sec.drbgCount,
   { s with sec := { s.sec with drbgCount := s.sec.drbgCount + 1, drbgSince := s.sec.drbgSince + 1 } })

end Sys2Proof.Machine
end

