-- ==== Sys2Proof/Machine/Mem.lean ====
section
/-! DEFINITION. Tier memory and core stores: byte access, uncorrectable and withdrawn memory, the node
offset map, granule assignment and wipes (R78 to R80, R107 to R127, R572). -/

namespace Sys2Proof.Machine

/-! ### Bytes -/

/-- A byte of a memory whose unlisted bytes read 0. -/
def byteAt (m : List Host.Cell) (a : Nat) : Byte := (mapGet m a).getD 0

/-- Write one byte. -/
def byteSet (m : List Host.Cell) (a : Nat) (b : Byte) : List Host.Cell := mapPut 0 m a b

/-- The canonical form of a memory: addresses rise, no listed byte is 0. -/
abbrev memWf (m : List Host.Cell) : Prop := mapSorted m ∧ ∀ c ∈ m, c.2 ≠ 0

/-- n bytes from an address. -/
def bytesAt (m : List Host.Cell) (a n : Nat) : List Byte := (List.range n).map (fun i => byteAt m (a + i))

/-- Write bytes at an address, those whose address passes a test. -/
def bytesSet (m : List Host.Cell) (a : Nat) (bs : List Byte) (ok : Nat → Bool) : List Host.Cell :=
  match bs with
  | [] => m
  | b :: t => bytesSet (if ok a then byteSet m a b else m) (a + 1) t ok

/-- Remove a range from a memory: the range reads 0. -/
def bytesWipe (m : List Host.Cell) (a n : Nat) : List Host.Cell :=
  m.filter (fun c => c.1 < a || a + n ≤ c.1)

/-! ### The node offset map (Table 3.2) -/

/-- Size of a granule (R55). -/
def granuleBytes : Nat := 0x4000000

/-- First offset of tier 2, end of tier 2, first offset of the apertures, end of the node space. -/
def tier2Base : Nat := 0x4000000000
def tier2End : Nat := 0x14000000000
def apertureBase : Nat := 0x18000000000
def nodeEnd : Nat := 0x20000000000

/-- Granule key of an offset in a tier: tier-1 granule g is g, tier-2 granule h is 4,096 + h. -/
def granuleOf (off : Nat) : Option Nat := if off < tier2End then some (off / granuleBytes) else none

/-- First node offset of a granule. -/
def granuleStart (g : Nat) : Nat := g * granuleBytes

/-- Aperture of an offset: port and offset within the port's 128 GiB (Table 3.2). -/
def apertureOf (off : Nat) : Option (Nat × Nat) :=
  if apertureBase ≤ off ∧ off < nodeEnd then
    some ((off - apertureBase) / 0x2000000000, (off - apertureBase) % 0x2000000000)
  else none

/-- Frame number of a tier-2 offset: 4 KiB frames counted from the start of tier 2. -/
def frameOf (off : Nat) : Nat := (off - tier2Base) / 4096

/-- Logical core whose slice holds a granule (R108). -/
def sliceOf (g : Nat) : Nat := if g < 4096 then g / 256 else (g - 4096) / 1024

/-- The byte lies in withdrawn memory (R124). -/
def withdrawnAt (s : State) (off : Nat) : Bool :=
  match granuleOf off with
  | none => false
  | some g =>
    s.re.now.withdrawn.contains (if g < 4096 then (0, g) else (1, g - 4096))
      || tier2Base ≤ off && s.re.now.withdrawnFrames.contains (frameOf off)

/-- The codeword of an offset is uncorrectable (R120). -/
def badAt (s : State) (off : Nat) : Bool := s.mem.bad.contains (off / 32)

/-! ### Tier reads and writes -/

/-- Read tier bytes; true when an uncorrectable codeword or withdrawn memory was met, whose bytes are
free values (R120, R124). -/
def tierRead (s : State) (off n : Nat) : List Byte × Bool :=
  ((List.range n).map (fun i =>
      let a := off + i
      if badAt s a || withdrawnAt s a then Config.badByte s.freeCount a else byteAt s.mem.bytes a),
   (List.range n).any (fun i => badAt s (off + i) || withdrawnAt s (off + i)))

/-- The write [off, off + n) covers the whole codeword of an address. -/
def coversCodeword (off n a : Nat) : Bool := off ≤ a / 32 * 32 && a / 32 * 32 + 32 ≤ off + n

/-- Write tier bytes (R120, R124): a partly covered uncorrectable codeword and withdrawn memory take none
of their bytes, which the flag tells; a wholly covered codeword becomes good. -/
def tierWrite (off : Nat) (bs : List Byte) (s : State) : State × Bool :=
  let n := bs.length
  let ok := fun a => !(withdrawnAt s a) && (!(badAt s a) || coversCodeword off n a)
  let bytes := bytesSet s.mem.bytes off bs ok
  let bad := s.mem.bad.filter (fun c => !(coversCodeword off n (32 * c) && !(withdrawnAt s (32 * c))
    && off ≤ 32 * c && 32 * c < off + n))
  ({ s with mem := { s.mem with bytes := bytes, bad := bad } },
   (List.range n).any (fun i => !(ok (off + i))))

/-! ### Core stores (R113) -/

/-- Key of a byte of a logical core's store. -/
def storeKey (core off : Nat) : Nat := core * 0x8000000 + off

/-- CSTORE_MIB of a Flock in the MEMORY section. -/
def cstoreMib (st : Structure) (f : Nat) : Nat := ((st.mems.find? (fun m => m.flock == f)).map (·.cstore)).getD 0

/-- First byte of a leaf's region in its core's store: the regions lie end to end in FLOCK_ID order. -/
def regionStart (st : Structure) (leaf : Flock) : Nat :=
  ((st.flocks.filter (fun f => f.kind != .inner && f.core == leaf.core && f.id < leaf.id)).map
    (fun f => cstoreMib st f.id * 0x100000)).sum

/-- Size of a leaf's region. -/
def regionSize (st : Structure) (leaf : Flock) : Nat := cstoreMib st leaf.id * 0x100000

/-- Read core-store bytes; true when an uncorrectable word or a withdrawn core was met. -/
def storeRead (s : State) (core off n : Nat) : List Byte × Bool :=
  let k := storeKey core off
  let lost := s.re.now.lost.contains core
  ((List.range n).map (fun i =>
      if s.mem.badStore.contains ((k + i) / 8) || lost then Config.badByte s.freeCount (k + i)
      else byteAt s.mem.stores (k + i)),
   lost || (List.range n).any (fun i => s.mem.badStore.contains ((k + i) / 8)))

/-- Write core-store bytes; a withdrawn core takes none (R525). -/
def storeWrite (core off : Nat) (bs : List Byte) (s : State) : State × Bool :=
  if s.re.now.lost.contains core then (s, true)
  else
    let k := storeKey core off
    ({ s with mem := { s.mem with stores := bytesSet s.mem.stores k bs (fun _ => true),
                                  badStore := s.mem.badStore.filter (fun w =>
                                    !(decide (k ≤ 8 * w) && decide (8 * w + 8 ≤ k + bs.length))) } }, false)

/-! ### Capacity, assignment and windows -/

/-- GX_MEM_T1_AVAIL and GX_MEM_T2_AVAIL (R111). -/
def avail1 (s : State) : Nat := 4096 - (s.re.now.withdrawn.filter (fun w => w.1 == 0)).length
def avail2 (s : State) : Nat :=
  16384 - (s.re.now.withdrawn.filter (fun w => w.1 == 1)).length - s.mem.retire.length

/-- A granule that R110 may take: no Flock has it, it is no retirement granule and not withdrawn. -/
def freeGranule (s : State) (own : NMap Nat) (g : Nat) : Bool :=
  (mapGet own g).isNone && !((s.mem.retire.map Prod.snd).contains g)
    && !(s.re.now.withdrawn.contains (if g < 4096 then (0, g) else (1, g - 4096)))

/-- Granule keys of a tier in a core's slice, ascending (R108). -/
def sliceGranules (tier core : Nat) : List Nat :=
  if tier = 0 then (List.range 256).map (· + 256 * core)
  else (List.range 1024).map (· + 4096 + 1024 * core)

/-- The next core of a list, cyclically from a position, whose slice has a free granule: the position after
it, and that granule. -/
def nextCore (s : State) (own : NMap Nat) (tier : Nat) (cores : List Nat) (pos : Nat) : Option (Nat × Nat) :=
  ((List.range cores.length).findSome? (fun d =>
    let i := (pos + d) % cores.length
    match cores[i]? with
    | none => none
    | some c => ((sliceGranules tier c).find? (freeGranule s own)).map (fun g => (i + 1, g))))

/-- The inner loop of R110 for one Flock and tier. -/
def assignLoop (s : State) (tier flock : Nat) (home : List Nat) (need i j : Nat) (own : NMap Nat) : NMap Nat :=
  match need with
  | 0 => own
  | k + 1 =>
    match nextCore s own tier home i with
    | some (i', g) => assignLoop s tier flock home k i' j (mapSet own g flock)
    | none =>
      match nextCore s own tier (List.range 16) j with
      | some (j', g) => assignLoop s tier flock home k i j' (mapSet own g flock)
      | none => own

/-- Logical cores of the leaves beneath a Flock, ascending, without repeats. -/
def homeCores (st : Structure) (f : Nat) : List Nat :=
  (List.range 16).filter (fun c => (leavesOf st f).any (fun l => l.core == c))

/-- The assignment of R110 for a structure. -/
def assignGranules (s : State) (st : Structure) : NMap Nat :=
  let flocks := (List.range 4096).filterMap (fun id => st.flocks.find? (fun f => f.id == id && f.exported))
  flocks.foldl (fun own f =>
    let m := (st.mems.find? (fun m => m.flock == f.id)).getD ⟨f.id, 0, 0, 0⟩
    let home := homeCores st f.id
    let own := assignLoop s 0 f.id home m.t1 0 0 own
    assignLoop s 1 f.id home m.t2 0 0 own) []

/-- Granule keys of an instance's window in a tier, ascending (R572). -/
def instWindow (s : State) (n tier : Nat) : List Nat :=
  match instFlock s.lz.run n with
  | none => []
  | some root =>
    (s.mem.owner.filter (fun e => (decide (e.1 < 4096) == (tier == 0)) && beneath s.lz.run root e.2)).map Prod.fst

/-- An offset's granule belongs to an instance (its Flock or one beneath it). -/
def inInstance (s : State) (n off : Nat) : Bool :=
  match granuleOf off with
  | none => false
  | some g =>
    match mapGet s.mem.owner g, instFlock s.lz.run n with
    | some f, some root => beneath s.lz.run root f
    | _, _ => false

/-- Every byte of [off, off + n) lies in granules of an instance. -/
def rangeInInstance (s : State) (n off len : Nat) : Bool :=
  len == 0 || (List.range ((off + len - 1) / granuleBytes + 1 - off / granuleBytes)).all (fun i =>
    inInstance s n ((off / granuleBytes + i) * granuleBytes))

/-- The exported Flock that owns an offset. -/
def offsetFlock (s : State) (off : Nat) : Option Nat := (granuleOf off).bind (mapGet s.mem.owner)

/-- Number of granules of each package, in ascending order, that are clean; 1,024 when the wipe is over. -/
def granuleClean (s : State) (g : Nat) : Bool :=
  if g < 4096 then s.mem.phase != 1 && s.mem.phase != 2
  else s.mem.phase == 0 || (g - 4096) % 1024 < s.mem.t2Clean

/-- A logical core's store is being copied to the spare: nothing is dispatched to the core, and its store and tier
slice stall (R521). -/
def swapHolds (s : State) (core : Nat) : Bool := s.re.swap.any (fun w => w.copying && w.lk == core)

/-- An access to the offset stalls: its granule is not yet clean, its wipe runs, or its core is being swapped
(R112, R126, R521). -/
def memStalls (s : State) (off : Nat) : Bool :=
  match granuleOf off with
  | none => false
  | some g => !(granuleClean s g) || s.mem.wiping.contains g || swapHolds s (sliceOf g)

/-- Wipe a granule to zero. -/
def wipeGranule (g : Nat) (s : State) : State :=
  { s with mem := { s.mem with bytes := bytesWipe s.mem.bytes (granuleStart g) granuleBytes,
                               bad := s.mem.bad.filter (fun c => 32 * c / granuleBytes != g) } }

/-- Start the wipe of granules (R112): they read zero and stall every access until it ends. -/
def startWipe (gs : List Nat) (s : State) : State :=
  let s := gs.foldl (fun s g => wipeGranule g s) s
  { s with mem := { s.mem with wiping := gs.foldl insertNew s.mem.wiping } }

/-- Wipe the core-store regions of the leaves beneath a Flock. -/
def wipeRegions (st : Structure) (f : Nat) (s : State) : State :=
  (leavesOf st f).foldl (fun s l =>
    let k := storeKey l.core (regionStart st l)
    let n := regionSize st l
    { s with mem := { s.mem with
        stores := bytesWipe s.mem.stores k n
        badStore := s.mem.badStore.filter (fun w => !(decide (k ≤ 8 * w) && decide (8 * w < k + n))) } }) s

/-! ### Commands -/

/-- WIPE_DONE (R126): the cold-reset wipe of tier 2 ends. -/
def execWipeDone (s : State) : Res :=
  .next (whenOk (powered s && s.mem.phase != 0) (fun s =>
    raise Reg.GX_MEM_EVENTS 0 { s with mem := { s.mem with phase := 0, t2Clean := 1024 } }) s)

/-- GRANULE_WIPE_DONE (R112): a granule's wipe ends, and the accesses stalled on it proceed. -/
def execGranuleWipeDone (g : Nat) (s : State) : Res :=
  .next (whenOk (powered s && s.mem.wiping.contains g) (fun s =>
    { s with mem := { s.mem with wiping := s.mem.wiping.filter (· != g) } }) s)

/-- SCRUB_PASS (R119): the patrol scrub has read and corrected every tier codeword; HOURS 0 stops it. -/
def execScrubPass (corrected : Nat) (s : State) : Res :=
  .next (whenOk (running s && rg s Reg.GX_MEM_SCRUB != 0) (fun s =>
    if corrected = 0 then s
    else raise Reg.GX_MEM_EVENTS 1 (bumpBy Reg.GX_MEM_CE_CNT corrected s)) s)

/-- ROW_REPAIR_DONE (R121): the row's contents are back and accesses to the bank resume. -/
def execRowRepairDone (bank : Nat) (s : State) : Res :=
  .next (whenOk (running s && s.mem.rowBusy.contains bank) (fun s =>
    raise Reg.GX_MEM_EVENTS 3 { s with mem := { s.mem with rowBusy := s.mem.rowBusy.filter (· != bank) } }) s)

/-- PC_SWAP_COMPLETE (R122): the spare takes the old pseudo-channel's place at the first edge after the copy. -/
def execPcSwapComplete (stack pc : Nat) (s : State) : Res :=
  .next (whenOk (running s && s.mem.pcRun.contains (stack, pc)) (fun s =>
    raise Reg.GX_MEM_EVENTS 4
      { s with mem := { s.mem with pcRun := s.mem.pcRun.filter (· != (stack, pc)) },
               re := { s.re with now := { s.re.now with pcs := s.re.now.pcs ++ [(stack, pc)] },
                                 record := { s.re.record with pcs := s.re.now.pcs ++ [(stack, pc)] } } }) s)

/-- FRAME_RETIRE_REDIRECT (R123): accesses to the frame go to its place in the retirement granule. The
redirection shows in no node offset. -/
def execFrameRetireRedirect (frame : Nat) (s : State) : Res :=
  .next (whenOk (running s && s.mem.frameRun.contains frame) (fun s =>
    raise Reg.GX_MEM_EVENTS 5
      { s with mem := { s.mem with frameRun := s.mem.frameRun.filter (· != frame) },
               re := { s.re with now := { s.re.now with frames := s.re.now.frames ++ [frame] },
                                 record := { s.re.record with frames := s.re.now.frames ++ [frame] } } }) s)

end Sys2Proof.Machine
end

