-- ==== Sys2Proof/Machine/Arith.lean ====
section
/-! DEFINITION. Reduction arithmetic: formats, exact accumulators, rounding, Microscaling blocks, fixed-order
mode and packed partials (R317 to R335).  Every finite value is a whole number of units of its format's
smallest nonzero magnitude, so sums are exact integers. -/

namespace Sys2Proof.Machine

/-- An element format (Table 11.1): fraction bits, width, the exponent of its smallest nonzero magnitude, the
encodings of its largest finite value, infinity and canonical NaN, and EMAX of R328. -/
structure Fmt where
  man : Nat
  width : Nat
  lsb : Int
  top : Nat
  inf : Option Nat
  nan : Option Nat
  emax : Int := 0
  deriving DecidableEq, Repr

def fmtFp32 : Fmt := ⟨23, 32, -149, 0x7F7FFFFF, some 0x7F800000, some 0x7FC00000, 0⟩
def fmtBf16 : Fmt := ⟨7, 16, -133, 0x7F7F, some 0x7F80, some 0x7FC0, 0⟩
def fmtFp16 : Fmt := ⟨10, 16, -24, 0x7BFF, some 0x7C00, some 0x7E00, 0⟩
def fmtE4m3 : Fmt := ⟨3, 8, -9, 0x7E, none, some 0x7F, 8⟩
def fmtE5m2 : Fmt := ⟨2, 8, -16, 0x7B, some 0x7C, some 0x7E, 15⟩
def fmtFp64 : Fmt := ⟨52, 64, -1074, 0x7FEFFFFFFFFFFFFF, some 0x7FF0000000000000, some 0x7FF8000000000000, 0⟩
def fmtE2m3 : Fmt := ⟨3, 6, -3, 0x1F, none, none, 2⟩
def fmtE3m2 : Fmt := ⟨2, 6, -4, 0x1F, none, none, 4⟩
def fmtE2m1 : Fmt := ⟨1, 4, -1, 0x7, none, none, 2⟩

/-- The element format of a FORMAT code, and whether the code is a Microscaling one (Table 11.1). -/
def fmtOf (code : Nat) : Option (Fmt × Bool) :=
  match code with
  | 0x00 => some (fmtFp32, false)
  | 0x01 => some (fmtBf16, false)
  | 0x02 => some (fmtFp16, false)
  | 0x03 => some (fmtE4m3, false)
  | 0x04 => some (fmtE5m2, false)
  | 0x05 => some (fmtFp64, false)
  | 0x10 => some (fmtE4m3, true)
  | 0x11 => some (fmtE5m2, true)
  | 0x12 => some (fmtE2m3, true)
  | 0x13 => some (fmtE3m2, true)
  | 0x14 => some (fmtE2m1, true)
  | _ => none

/-- Bytes of a unit of a FORMAT: an element, or a block of 32 (Table 11.1). -/
def unitBytes (code : Nat) : Nat :=
  match fmtOf code with
  | none => 1
  | some (f, mx) => if mx then 1 + 4 * f.width else f.width / 8

/-- Elements of a unit. -/
def unitElems (code : Nat) : Nat := if 0x10 ≤ code then 32 else 1

/-- Exponent of the LSB weight of a FORMAT (Table 11.5). -/
def lsbWeight (code : Nat) : Int :=
  match fmtOf code with
  | none => 0
  | some (f, mx) => if mx then f.lsb - 127 else f.lsb

/-! ### Values -/

/-- A decoded element: NaN, an infinity, or a sign and a whole number of units. -/
inductive FVal where
  | nan
  | inf (neg : Bool)
  | fin (neg : Bool) (units : Nat)
  deriving DecidableEq, Repr

/-- Units of a magnitude encoding. -/
def magUnits (f : Fmt) (mag : Nat) : Nat :=
  let e := mag / 2 ^ f.man
  if e = 0 then mag else (mag % 2 ^ f.man + 2 ^ f.man) * 2 ^ (e - 1)

/-- Decode an element (R319). -/
def decodeElem (f : Fmt) (bits : Nat) : FVal :=
  let neg := bits / 2 ^ (f.width - 1) % 2 == 1
  let mag := bits % 2 ^ (f.width - 1)
  if mag ≤ f.top then .fin neg (magUnits f mag)
  else if f.inf = some mag then .inf neg
  else .nan

/-- Round num / den to a whole number, nearest, ties to even. -/
def roundEven (num den : Nat) : Nat :=
  let q := num / den
  let r := num % den
  if 2 * r < den then q else if den < 2 * r then q + 1 else q + q % 2

/-- The magnitude encoding of num / den units, rounded once; it may pass `top` (an overflow). -/
def encodeMag (f : Fmt) (num den : Nat) : Nat :=
  let fl := num / den
  let shift := if fl < 2 ^ (f.man + 1) then 0 else Nat.log2 fl - f.man
  shift * 2 ^ f.man + roundEven num (den * 2 ^ shift)

/-- What the counters of R339 learn of a result. -/
inductive ResFlag where
  | plain | nan | ovf | ovfNan | sat
  deriving DecidableEq, Repr

/-- Sign bit of a format. -/
def signBit (f : Fmt) (neg : Bool) : Nat := if neg then 2 ^ (f.width - 1) else 0

/-- An overflow of an element format (Table 11.6). -/
def overflowElem (f : Fmt) (neg sat : Bool) : Nat × ResFlag :=
  if sat then (signBit f neg + f.top, .sat)
  else
    match f.inf with
    | some i => (signBit f neg + i, .ovf)
    | none => (f.nan.getD f.top, .ovfNan)

/-- Encode ±num / den units into an element format (R325, R329, R330). -/
def encodeElem (f : Fmt) (neg : Bool) (num den : Nat) (sat : Bool) : Nat × ResFlag :=
  let m := encodeMag f num den
  if m ≤ f.top then (signBit f neg + m, .plain) else overflowElem f neg sat

/-- The canonical NaN of an element format. -/
def nanElem (f : Fmt) : Nat × ResFlag := (f.nan.getD 0, .nan)

/-- An infinite result (rule 2 of R325). -/
def infElem (f : Fmt) (neg sat : Bool) : Nat × ResFlag :=
  match f.inf with
  | some i => (signBit f neg + i, .plain)
  | none => overflowElem f neg sat

/-! ### Accumulators (R322 to R326) -/

/-- An accumulator: Table 11.4, and whether it has taken a contribution. -/
structure Acc where
  value : Int := 0
  nan : Bool := false
  pinf : Bool := false
  ninf : Bool := false
  negZero : Bool := true
  has : Bool := false
  deriving DecidableEq, Repr

/-- A contribution as an accumulator. -/
def accOf (v : FVal) : Acc :=
  match v with
  | .nan => { nan := true, negZero := false, has := true }
  | .inf neg => { pinf := !neg, ninf := neg, negZero := false, has := true }
  | .fin neg u => { value := if neg then -(u : Int) else u, negZero := neg && u == 0, has := true }

/-- a lies below b in the order of R324: -inf, finite values, -0, +0, +inf. -/
def accBelow (a b : Acc) : Bool :=
  if a.ninf then !b.ninf
  else if b.ninf then false
  else if a.pinf then false
  else if b.pinf then true
  else decide (a.value < b.value) || decide (a.value = b.value) && a.negZero && !b.negZero

/-- Combine two accumulators of an element (R324): OP 2 is MAX, 3 MIN, otherwise SUM or AVG. -/
def accCombine (op : Nat) (a b : Acc) : Acc :=
  if !a.has then b
  else if !b.has then a
  else if op = 2 ∨ op = 3 then
    let pick := if op = 2 then (if accBelow a b then b else a) else (if accBelow b a then b else a)
    { pick with nan := a.nan || b.nan }
  else
    { value := a.value + b.value, nan := a.nan || b.nan, pinf := a.pinf || b.pinf, ninf := a.ninf || b.ninf,
      negZero := a.negZero && b.negZero, has := true }

/-- The exact result of rules 1 to 3 of R325, before rounding. -/
def accResult (op : Nat) (a : Acc) : FVal :=
  if a.nan || a.pinf && a.ninf && op != 2 && op != 3 then .nan
  else if a.pinf then .inf false
  else if a.ninf then .inf true
  else if a.value = 0 then .fin a.negZero 0
  else .fin (decide (a.value < 0)) a.value.natAbs

/-- The element of an accumulator, AVG dividing by n (R325, R326). -/
def accElem (f : Fmt) (op n : Nat) (sat : Bool) (a : Acc) : Nat × ResFlag :=
  match accResult op a with
  | .nan => nanElem f
  | .inf neg => infElem f neg sat
  | .fin neg u => encodeElem f neg u (if op = 1 then n else 1) sat

/-! ### Microscaling blocks (R318, R319, R328) -/

/-- Elements of a block's bit string. -/
def blockElems (w : Nat) (bs : List Byte) : List Nat :=
  let x := leNat bs
  (List.range 32).map (fun i => x / 2 ^ (w * i) % 2 ^ w)

/-- Decode a block into values in units of the FORMAT's LSB weight. -/
def decodeBlock (f : Fmt) (bs : List Byte) : List FVal :=
  let scale := leAt bs 0 1
  (blockElems f.width (bs.drop 1)).map (fun e =>
    if scale = 0xFF then .nan
    else
      match decodeElem f e with
      | .fin neg u => .fin neg (u * 2 ^ scale)
      | v => v)

/-- Bytes of a block. -/
def blockBytes (f : Fmt) (scale : Nat) (elems : List Nat) : List Byte :=
  leBytes 1 scale ++ leBytes (4 * f.width) (elems.foldr (fun e acc => e + 2 ^ f.width * acc) 0)

/-- Element of a block under scale s: value divided by 2^X, clamped (step 5 of R328). -/
def blockElem (f : Fmt) (s den : Nat) (v : FVal) : Nat :=
  match v with
  | .nan => 0
  | .inf neg => signBit f neg + f.top
  | .fin neg u => signBit f neg + min f.top (encodeMag f u (den * 2 ^ s))

/-- Magnitude in units. -/
def fvalMag (v : FVal) : Nat :=
  match v with
  | .fin _ u => u
  | _ => 0

/-- Floor of the base-2 logarithm of num / den, for num above 0. -/
def floorLog2 (num den : Nat) : Int :=
  let g : Int := (Nat.log2 num : Int) - Nat.log2 den
  let up := if 0 ≤ g then den * 2 ^ g.toNat else den
  let nm := if 0 ≤ g then num else num * 2 ^ (-g).toNat
  if up ≤ nm then g else g - 1

/-- Encode one result block from its 32 exact results, each divided by `den` (R328, R330). -/
def encodeBlock (f : Fmt) (vs : List FVal) (den : Nat) (sat : Bool) : List Byte × ResFlag :=
  let nanBlock := blockBytes f 0xFF (List.replicate 32 0)
  let overflow : List Byte × ResFlag :=
    if sat then (blockBytes f 0xFE (vs.map (blockElem f 254 den)), .sat) else (nanBlock, .ovfNan)
  if vs.any (· == .nan) then (nanBlock, .nan)
  else if vs.any (fun v => v == .inf true || v == .inf false) then overflow
  else
    let amax := vs.foldl (fun m v => max m (fvalMag v)) 0
    if amax = 0 then (blockBytes f 0 (vs.map (blockElem f 0 1)), .plain)
    else
      let x := floorLog2 amax den + (f.lsb - 127) - f.emax
      if 127 < x then overflow
      else
        let s := (max x (-127) + 127).toNat
        (blockBytes f s (vs.map (blockElem f s den)), .plain)

/-! ### Units of a FORMAT as values -/

/-- Decode one unit. -/
def decodeUnit (code : Nat) (bs : List Byte) : List FVal :=
  match fmtOf code with
  | none => []
  | some (f, mx) => if mx then decodeBlock f bs else [decodeElem f (leNat bs)]

/-- Encode one unit from its accumulators. -/
def encodeUnit (code op n : Nat) (sat : Bool) (accs : List Acc) : List Byte × ResFlag :=
  match fmtOf code with
  | none => ([], .plain)
  | some (f, mx) =>
    if mx then encodeBlock f (accs.map (accResult op)) (if op = 1 then n else 1) sat
    else
      match accs with
      | a :: _ => let (b, r) := accElem f op n sat a; (leBytes (f.width / 8) b, r)
      | [] => ([], .plain)

/-- Cut bytes into units of n bytes. -/
def chunks (fuel n : Nat) (bs : List Byte) : List (List Byte) :=
  match fuel with
  | 0 => []
  | k + 1 => if bs.isEmpty then [] else bs.take n :: chunks k n (bs.drop n)

/-- Units of a byte string in a FORMAT. -/
def unitsOf (code : Nat) (bs : List Byte) : List (List Byte) := chunks bs.length (unitBytes code) bs

/-- Enter contributions into accumulators, element by element. -/
def accEnter (op : Nat) (accs : List Acc) (vs : List FVal) : List Acc :=
  List.zipWith (fun a v => accCombine op a (accOf v)) accs vs

/-! ### REDUCE at the target (R335) -/

/-- Combine the target's bytes with a cell's; the flags are one per element. -/
def reduceBytes (code op : Nat) (sat : Bool) (target cell : List Byte) : List Byte × List ResFlag :=
  let parts := List.zipWith (fun t c =>
      encodeUnit code op 1 sat (accEnter op ((decodeUnit code t).map accOf) (decodeUnit code c)))
    (unitsOf code target) (unitsOf code cell)
  ((parts.map Prod.fst).flatten, parts.map Prod.snd)

/-- Count results in the arithmetic block (R339). -/
def countResults (fs : List ResFlag) (s : State) : State :=
  let nans := (fs.filter (fun f => f == .nan || f == .ovfNan)).length
  let ovfs := (fs.filter (fun f => f == .ovf || f == .ovfNan)).length
  let sats := (fs.filter (fun f => f == .sat)).length
  let s := if nans = 0 then s else raise Reg.GX_RA_EVENTS 2 (bumpBy Reg.GX_RA_NAN_CNT nans s)
  let s := if ovfs = 0 then s else raise Reg.GX_RA_EVENTS 1 (bumpBy Reg.GX_RA_OVF_CNT ovfs s)
  if sats = 0 then s else raise Reg.GX_RA_EVENTS 0 (bumpBy Reg.GX_RA_SAT_CNT sats s)

/-- REDOP and FORMAT that a WRITE_REDUCE allows (R334). -/
def reduceAllowed (redop code : Nat) : Bool :=
  (fld redop 3 0 == 0 || fld redop 3 0 == 2 || fld redop 3 0 == 3) && fld redop 5 4 == 0
    && fld redop 7 7 == 0 && decide (code ≤ 5)

/-! ### Fixed-order mode (R331) -/

/-- W of a FORMAT: FP64 for FP64 and the Microscaling formats, FP32 for the others. -/
def workFmt (code : Nat) : Fmt := if code = 5 ∨ 0x10 ≤ code then fmtFp64 else fmtFp32

/-- A value of a FORMAT in units of W. -/
def toWork (code : Nat) (v : FVal) : FVal :=
  match v with
  | .fin neg u => .fin neg (u * 2 ^ (lsbWeight code - (workFmt code).lsb).toNat)
  | v => v

/-- Round ±num / den units of W into W. -/
def roundWork (w : Fmt) (neg : Bool) (num den : Nat) : FVal :=
  let m := encodeMag w num den
  if m ≤ w.top then .fin neg (magUnits w m) else .inf neg

/-- One operation of W (OP 0 and 1 add, 2 maximum, 3 minimum, 4 multiply). -/
def workOp (w : Fmt) (op : Nat) (a b : FVal) : FVal :=
  if op = 4 then
    match a, b with
    | .nan, _ => .nan
    | _, .nan => .nan
    | .inf n, .inf m => .inf (n != m)
    | .inf n, .fin m u => if u = 0 then .nan else .inf (n != m)
    | .fin m u, .inf n => if u = 0 then .nan else .inf (n != m)
    | .fin n u, .fin m v => roundWork w (n != m) (u * v) (2 ^ (-w.lsb).toNat)
  else
    match accResult op (accCombine op (accOf a) (accOf b)) with
    | .fin neg u => roundWork w neg u 1
    | v => v

/-- The fixed-order result of one element from the members' contributions, before encoding; the flag tells
that an infinity came from an overflow in W. -/
def fixedValue (code op n : Nat) (vs : List FVal) : FVal × Bool :=
  let w := workFmt code
  match vs.map (toWork code) with
  | [] => (.fin false 0, false)
  | v :: t =>
    let r := t.foldl (workOp w op) v
    let r := if op = 1 then (match r with
      | .fin neg u => roundWork w neg u n
      | x => x) else r
    let hadInf := (v :: t).any (fun x => x == .inf true || x == .inf false)
    (r, (r == .inf true || r == .inf false) && !hadInf)

/-- Encode one unit of a fixed-order result. -/
def fixedUnit (code op n : Nat) (sat : Bool) (contribs : List (List Byte)) : List Byte × ResFlag :=
  let rows := contribs.map (decodeUnit code)
  let vals := (List.range (unitElems code)).map (fun i =>
    fixedValue code op n (rows.map (fun r => (r[i]?).getD .nan)))
  let den := 2 ^ (lsbWeight code - (workFmt code).lsb).toNat
  match fmtOf code with
  | none => ([], .plain)
  | some (f, mx) =>
    if mx then encodeBlock f (vals.map Prod.fst) den sat
    else
      match vals with
      | (.nan, _) :: _ => let (b, r) := nanElem f; (leBytes (f.width / 8) b, r)
      | (.inf neg, ovf) :: _ =>
        let (b, r) := if ovf then overflowElem f neg sat else infElem f neg sat
        (leBytes (f.width / 8) b, r)
      | (.fin neg u, _) :: _ => let (b, r) := encodeElem f neg u den sat; (leBytes (f.width / 8) b, r)
      | [] => ([], .plain)

/-! ### Partials (R322, R332, R333) -/

/-- Bytes of a packed partial of a FORMAT (Table 11.5). -/
def partialBytes (code : Nat) : Nat := if code = 2 ∨ code = 3 ∨ code = 4 then 8 else 40

/-- Two's complement of n bits. -/
def toBits (n : Nat) (x : Int) : Nat := (x % (2 ^ n : Nat)).toNat

/-- The packed form of an accumulator (R332). -/
def packPartial (code op : Nat) (a : Acc) : List Byte :=
  let b := fun (x : Bool) (p : Nat) => if x then 2 ^ p else 0
  if partialBytes code = 8 then
    leBytes 8 (toBits 56 a.value + b a.nan 56 + b a.pinf 57 + b a.ninf 58 + b a.negZero 59)
  else
    leBytes 40 (toBits 304 a.value + b a.nan 304 + b a.pinf 305 + b a.ninf 306 + b a.negZero 307
      + code * 2 ^ 308 + op * 2 ^ 316)

/-- Read a packed partial; none where R333 calls it a mismatch. -/
def unpackPartial (code op : Nat) (bs : List Byte) : Option Acc :=
  let x := leNat bs
  if partialBytes code = 8 then
    if fld x 63 60 ≠ 0 then none
    else some ⟨signed 56 (fld x 55 0), fld x 56 56 == 1, fld x 57 57 == 1, fld x 58 58 == 1, fld x 59 59 == 1, true⟩
  else if fld x 315 308 ≠ code ∨ fld x 319 316 ≠ op then none
  else some ⟨signed 304 (fld x 303 0), fld x 304 304 == 1, fld x 305 305 == 1, fld x 306 306 == 1,
    fld x 307 307 == 1, true⟩

/-- Units and pad bytes of a 64-byte line of reduction data (Table 11.7): unit bytes and units per line;
none for data that fills its lines back to back. -/
def lineLayout (code : Nat) (partial_ : Bool) : Option (Nat × Nat) :=
  if partial_ then (if partialBytes code = 40 then some (40, 1) else none)
  else if 0x10 ≤ code then some (unitBytes code, 64 / unitBytes code) else none

/-- Lay units out in the wire form of Table 11.7. -/
def wireForm (code : Nat) (partial_ : Bool) (units : List (List Byte)) : List Byte :=
  match lineLayout code partial_ with
  | none => units.flatten
  | some (_, per) =>
    let data := units.flatten
    let ub := (units.head?.map List.length).getD 1
    ((chunks data.length (ub * per) data).map (fun l => l ++ List.replicate (64 - l.length) 0)).flatten

/-- Units of a wire form; none where a pad byte is not 0 (R333). -/
def unwire (code : Nat) (partial_ : Bool) (count : Nat) (bs : List Byte) : Option (List (List Byte)) :=
  let ub := if partial_ then partialBytes code else unitBytes code
  match lineLayout code partial_ with
  | none => some (chunks count ub bs)
  | some (_, per) =>
    let lines := chunks bs.length 64 bs
    let ok := (List.range lines.length).all (fun i =>
      let used := min per (count - i * per)
      (((lines[i]?).getD []).drop (used * ub)).all (· == 0))
    if ok then some ((lines.map (fun l => chunks per ub (l.take (per * ub)))).flatten.take count) else none

end Sys2Proof.Machine
end

