-- ==== Sys2Proof/Machine/Fp32.lean ====
section
/-! DEFINITION. The attention kernels' arithmetic: binary32 operations, exact dot products by groups of 16, score
hooks, conversions and tuples (R344, R351 to R358).  A binary32 value is kept in units of 2^-149. -/

namespace Sys2Proof.Machine

/-! ### Binary32 operations (R352) -/

def f32Zero : FVal := .fin false 0
def f32Add (a b : FVal) : FVal := workOp fmtFp32 0 a b
def f32Mul (a b : FVal) : FVal := workOp fmtFp32 4 a b
def f32Max (a b : FVal) : FVal := workOp fmtFp32 2 a b
def f32Min (a b : FVal) : FVal := workOp fmtFp32 3 a b

/-- Negation and magnitude. -/
def f32Neg (a : FVal) : FVal :=
  match a with
  | .nan => .nan
  | .inf n => .inf (!n)
  | .fin n u => .fin (!n) u
def f32Abs (a : FVal) : FVal :=
  match a with
  | .nan => .nan
  | .inf _ => .inf false
  | .fin _ u => .fin false u

def f32Sub (a b : FVal) : FVal := f32Add a (f32Neg b)

/-- A signed whole number of units. -/
def fvInt (neg : Bool) (u : Nat) : Int := if neg then -(u : Int) else u

/-- a × b + c with one rounding. -/
def f32Fma (a b c : FVal) : FVal :=
  match a, b with
  | .fin n u, .fin m v =>
    match c with
    | .fin k w =>
      let sum := fvInt (n != m) (u * v) + fvInt k (w * 2 ^ 149)
      if sum = 0 then .fin ((n != m) && k) 0 else roundWork fmtFp32 (decide (sum < 0)) sum.natAbs (2 ^ 149)
    | x => x
  | _, _ => f32Add (f32Mul a b) c

/-- 1 / a, correctly rounded. -/
def f32Rcp (a : FVal) : FVal :=
  match a with
  | .nan => .nan
  | .inf n => .fin n 0
  | .fin n u => if u = 0 then .inf n else roundWork fmtFp32 n (2 ^ 298) u

/-- Largest whole number not above a finite value. -/
def floorInt (neg : Bool) (u : Nat) : Int := (fvInt neg u).fdiv (2 ^ 149)

/-- Floor. -/
def f32Floor (a : FVal) : FVal :=
  match a with
  | .fin n u => .fin n ((floorInt n u).natAbs * 2 ^ 149)
  | x => x

/-- a below b; false with a NaN. -/
def f32Lt (a b : FVal) : Bool :=
  match a, b with
  | .nan, _ => false
  | _, .nan => false
  | .inf n, .inf m => n && !m
  | .inf n, .fin _ _ => n
  | .fin _ _, .inf m => !m
  | .fin n u, .fin m v => decide (fvInt n u < fvInt m v)

/-- a at or above b; false with a NaN. -/
def f32Ge (a b : FVal) : Bool := a != .nan && b != .nan && !(f32Lt a b)

/-- Whole square root by Newton's steps from above. -/
def isqrtFrom (fuel x n : Nat) : Nat :=
  match fuel with
  | 0 => x
  | k + 1 =>
    let y := (x + n / x) / 2
    if x ≤ y then x else isqrtFrom k y n

/-- Whole square root. -/
def isqrt (n : Nat) : Nat := if n = 0 then 0 else isqrtFrom 600 (2 ^ (Nat.log2 n / 2 + 1)) n

/-- 2^(2^-i) for i = 1, 2, …, in units of 2^-128, each the root of the one before. -/
def rootsFrom (fuel r : Nat) : List Nat :=
  match fuel with
  | 0 => []
  | k + 1 => let q := isqrt (r * 2 ^ 128); q :: rootsFrom k q
def exp2Roots : List Nat := rootsFrom 64 (2 ^ 129)

/-- 2^f for f = frac / 2^64 below 1, in units of 2^-128. -/
def exp2Frac (frac : Nat) : Nat :=
  exp2Roots.zipIdx.foldl (fun m r => if frac / 2 ^ (63 - r.2) % 2 = 1 then m * r.1 / 2 ^ 128 else m) (2 ^ 128)

/-- 2^a, correctly rounded: the 128 bits of 2^f are far more than a binary32 argument needs, and a half unit
stands for what they leave out. -/
def f32Exp2 (a : FVal) : FVal :=
  match a with
  | .nan => .nan
  | .inf n => if n then f32Zero else .inf false
  | .fin n u =>
    let fl := floorInt n u
    if 128 ≤ fl then .inf false
    else if fl < -150 then f32Zero
    else
      let frac := (fvInt n u - fl * 2 ^ 149).toNat
      let m := if frac = 0 then 2 * 2 ^ 128 else 2 * exp2Frac (frac / 2 ^ 85) + 1
      let e := fl + 149
      if 0 ≤ e then roundWork fmtFp32 false (m * 2 ^ e.toNat) (2 ^ 129)
      else roundWork fmtFp32 false m (2 ^ (129 + (-e).toNat))

/-- e^z for z below 2^-5, in units of 2^-256. -/
def expSmall (z : Nat) : Nat :=
  ((List.range 60).foldl (fun (acc : Nat × Nat) k =>
    let term := acc.1 * z / 2 ^ 256 / (k + 1)
    (term, acc.2 + term)) (2 ^ 256, 2 ^ 256)).2

/-- tanh, correctly rounded: below 2^-13 the argument itself, from 16 on 1. -/
def f32Tanh (a : FVal) : FVal :=
  match a with
  | .nan => .nan
  | .inf n => .fin n (2 ^ 149)
  | .fin n u =>
    if u < 2 ^ 136 then .fin n u
    else if 2 ^ 153 ≤ u then .fin n (2 ^ 149)
    else
      let e := (List.range 10).foldl (fun e _ => e * e / 2 ^ 256) (expSmall (u * 2 ^ 98))
      roundWork fmtFp32 n (2 * (e - 2 ^ 256) * 2 ^ 149 + 1) (2 * (e + 2 ^ 256))

/-- Bits of a binary32 value, and a value of bits. -/
def f32Bits (a : FVal) : Nat :=
  match a with
  | .nan => 0x7FC00000
  | .inf n => (if n then 0xFF800000 else 0x7F800000)
  | .fin n u => (encodeElem fmtFp32 n u 1 false).1
def f32Of (bits : Nat) : FVal := decodeElem fmtFp32 bits

/-- A whole number as binary32. -/
def f32Nat (x : Nat) : FVal := roundWork fmtFp32 false (x * 2 ^ 149) 1

/-! ### Conversions (R351) -/

/-- A binary32 value in an element format, saturating. -/
def satElem (f : Fmt) (a : FVal) : Nat :=
  match a with
  | .nan => (nanElem f).1
  | .inf n => (infElem f n true).1
  | .fin n u => (encodeElem f n u (2 ^ (f.lsb + 149).toNat) true).1

/-- A value of an element format, or of a FORMAT's units, as binary32 (exact, or rounded once). -/
def toF32 (lsb : Int) (v : FVal) : FVal :=
  match v with
  | .fin n u =>
    if -149 ≤ lsb then roundWork fmtFp32 n (u * 2 ^ (lsb + 149).toNat) 1
    else roundWork fmtFp32 n u (2 ^ (-149 - lsb).toNat)
  | x => x

/-- To an element format and back. -/
def viaElem (f : Fmt) (a : FVal) : FVal := toF32 f.lsb (decodeElem f (satElem f a))

/-- A row of binary32 values in a cache FORMAT (R344, R351). -/
def encodeRow (code : Nat) (vs : List FVal) : List Byte :=
  match fmtOf code with
  | none => []
  | some (f, mx) =>
    if mx then
      ((List.range (vs.length / 32)).map (fun i =>
        (encodeBlock f ((vs.drop (32 * i)).take 32) (2 ^ (f.lsb + 22).toNat) true).1)).flatten
    else (vs.map (fun v => leBytes (f.width / 8) (satElem f v))).flatten

/-- A row of a FORMAT as exact values in units of its LSB weight. -/
def decodeRow (code : Nat) (bs : List Byte) : List FVal := ((unitsOf code bs).map (decodeUnit code)).flatten

/-! ### Dot products (R352) -/

/-- The exact product of two values, in units of the product of their units. -/
def exactMul (a b : FVal) : FVal :=
  match a, b with
  | .nan, _ => .nan
  | _, .nan => .nan
  | .inf n, .inf m => .inf (n != m)
  | .inf n, .fin m u => if u = 0 then .nan else .inf (n != m)
  | .fin m u, .inf n => if u = 0 then .nan else .inf (n != m)
  | .fin n u, .fin m v => .fin (n != m) (u * v)

/-- Dot product of two rows whose units have the given exponents: groups of 16 summed exactly and rounded once,
the group sums added in order. -/
def dotGroups (fuel : Nat) (lsb : Int) (acc : FVal) (ps : List FVal) : FVal :=
  match fuel with
  | 0 => acc
  | k + 1 =>
    if ps.isEmpty then acc
    else
      let sum := (ps.take 16).foldl (fun a p => accCombine 0 a (accOf p)) {}
      dotGroups k lsb (f32Add acc (toF32 lsb (accResult 0 sum))) (ps.drop 16)
def dot32 (la lb : Int) (a b : List FVal) : FVal :=
  let ps := List.zipWith exactMul a b
  dotGroups (ps.length + 1) (la + lb) f32Zero ps

/-! ### Score hooks (R356 to R358) -/

/-- Operand fields that an operation uses: D, A, B, C. -/
def hookUses (op : Nat) : Bool × Bool × Bool × Bool :=
  if op = 0 then (false, false, false, false)
  else if op = 1 ∨ 8 ≤ op ∧ op ≤ 0x0D ∨ op = 0x11 then (true, true, false, false)
  else if op = 5 ∨ op = 0x0E ∨ op = 0x0F then (true, true, true, true)
  else (true, true, true, false)

/-- A hook instruction is invalid (R358). -/
def hookBad (tableLen w : Nat) : Bool :=
  let op := fld w 31 26
  let (d, a, b, c) := hookUses op
  decide (0x11 < op) || fld w 6 0 != 0 || !d && fld w 25 22 != 0 || !a && fld w 21 17 != 0 || !b && fld w 16 12 != 0
    || !c && fld w 11 7 != 0 || op == 0x10 && decide (4 < fld w 16 12) || op == 0x11 && tableLen == 0

/-- Element format of a CVT. -/
def cvtFmt (code : Nat) : Fmt :=
  match code with
  | 0 => fmtFp32
  | 1 => fmtBf16
  | 2 => fmtFp16
  | 3 => fmtE4m3
  | _ => fmtE5m2

/-- One hook instruction on F0 to F15 (Table 12.7). -/
def hookStep (ks table : List FVal) (fs : List FVal) (w : Nat) : List FVal :=
  let get := fun (i : Nat) => if i < 16 then (fs[i]?).getD f32Zero else (ks[i - 16]?).getD f32Zero
  let d := fld w 25 22
  let a := get (fld w 21 17)
  let b := get (fld w 16 12)
  let c := get (fld w 11 7)
  match fld w 31 26 with
  | 0x01 => fs.set d a
  | 0x02 => fs.set d (f32Add a b)
  | 0x03 => fs.set d (f32Sub a b)
  | 0x04 => fs.set d (f32Mul a b)
  | 0x05 => fs.set d (f32Fma a b c)
  | 0x06 => fs.set d (f32Max a b)
  | 0x07 => fs.set d (f32Min a b)
  | 0x08 => fs.set d (f32Abs a)
  | 0x09 => fs.set d (f32Neg a)
  | 0x0A => fs.set d (f32Floor a)
  | 0x0B => fs.set d (f32Rcp a)
  | 0x0C => fs.set d (f32Exp2 a)
  | 0x0D => fs.set d (f32Tanh a)
  | 0x0E => if f32Lt a b then fs.set d c else fs
  | 0x0F => if f32Ge a b then fs.set d c else fs
  | 0x10 => fs.set d (viaElem (cvtFmt (fld w 16 12)) a)
  | 0x11 =>
    match a with
    | .fin n u => fs.set d ((table[((floorInt n u) % 64).toNat]?).getD .nan)
    | _ => fs.set d .nan
  | _ => fs

/-- The score after a hook: key position, QPOS, query head, KV head. -/
def runHook (prog : List Nat) (ks table : List FVal) (score : FVal) (pos qpos qhead head : Nat) : FVal :=
  let fs := [score, f32Nat pos, f32Nat qpos, f32Nat qhead, f32Nat head] ++ List.replicate 11 f32Zero
  (prog.foldl (hookStep ks table) fs).headD .nan

/-! ### Tuples (R353 to R355) -/

/-- A tuple: M, L and O. -/
structure Tuple where
  m : FVal
  l : FVal
  o : List FVal
  deriving DecidableEq, Repr

/-- The neutral tuple, and the tuple of a query head with a NaN score. -/
def neutral (d : Nat) : Tuple := ⟨.inf true, f32Zero, List.replicate d f32Zero⟩
def nanTuple (d : Nat) : Tuple := ⟨.nan, .nan, List.replicate d .nan⟩

/-- merge(a, b) of R355. -/
def mergeTuple (a b : Tuple) : Tuple :=
  if a.m = .inf true then b
  else if b.m = .inf true then a
  else
    let m := f32Max a.m b.m
    let ca := f32Exp2 (f32Sub a.m m)
    let cb := f32Exp2 (f32Sub b.m m)
    ⟨m, f32Fma a.l ca (f32Mul b.l cb), List.zipWith (fun x y => f32Fma x ca (f32Mul y cb)) a.o b.o⟩

/-- Bytes of a tuple, and a tuple of bytes. -/
def tupleBytes (t : Tuple) : List Byte := ((t.m :: t.l :: t.o).map (fun v => leBytes 4 (f32Bits v))).flatten
def tupleOf (bs : List Byte) : Tuple :=
  match (chunks bs.length 4 bs).map (fun w => f32Of (leNat w)) with
  | m :: l :: o => ⟨m, l, o⟩
  | _ => neutral 0

/-- The P operand of a cache FORMAT: its value as binary32, and in units of 2^lsb for the dot product. -/
def pconv (code : Nat) (p : FVal) : FVal × FVal × Int :=
  if code = 1 then
    let e := decodeElem fmtBf16 (satElem fmtBf16 p)
    (toF32 fmtBf16.lsb e, e, fmtBf16.lsb)
  else
    let e := decodeElem fmtE4m3 (satElem fmtE4m3 (f32Mul p (.fin false (2 ^ 157))))
    (toF32 (fmtE4m3.lsb - 8) e, e, fmtE4m3.lsb - 8)

/-- One block of the loop of R353 for one query head: the scores of its tokens, and the value rows. -/
def blockStep (code : Nat) (t : Tuple) (ss : List FVal) (vs : List (List FVal)) : Tuple :=
  let mb := ss.foldl f32Max t.m
  if mb = .inf true then t
  else
    let c := f32Exp2 (f32Sub t.m mb)
    let ps := ss.map (fun x => pconv code (f32Exp2 (f32Sub x mb)))
    let sum := ps.foldl (fun a p => f32Add a p.1) f32Zero
    let lsb := (ps.head?.map (fun p => p.2.2)).getD 0
    let o := t.o.zipIdx.map (fun x =>
      f32Fma x.1 c (dot32 lsb (lsbWeight code) (ps.map (fun p => p.2.1)) (vs.map (fun r => (r[x.2]?).getD .nan))))
    ⟨mb, f32Fma t.l c sum, o⟩

end Sys2Proof.Machine
end

