-- ==== Sys2Proof/Machine/Check.lean ====
section
/-! DEFINITION. The check-value units: the streams they watch, the computation, and their control (R396 to
R406, R518). -/

namespace Sys2Proof.Machine

/-- Sources of Table 14.1. -/
abbrev cvEgress : Nat := 0
abbrev cvIngress : Nat := 1
abbrev cvPortTx : Nat := 2
abbrev cvPortRx : Nat := 3
abbrev cvTier1 : Nat := 4
abbrev cvTier2 : Nat := 5

/-- A unit's record. -/
def cvUnit (s : State) (u : Nat) : CvUnit := (mapGet s.cv u).getD {}

/-- Change a unit's record. -/
def setCv (u : Nat) (c : CvUnit) (s : State) : State := { s with cv := mapPut {} s.cv u c }

/-- The parameters in force (R397, R398). -/
structure CvParams where
  width : Nat
  poly : Nat
  init : Nat
  refin : Bool
  refout : Bool
  invert : Bool
  deriving DecidableEq, Repr

/-- A parameter set of Table 14.2. -/
def cvPreset (p : Nat) : Option CvParams :=
  match p with
  | 1 => some ⟨32, 0x04C11DB7, 0xFFFFFFFF, true, true, true⟩
  | 2 => some ⟨32, 0x1EDC6F41, 0xFFFFFFFF, true, true, true⟩
  | 3 => some ⟨64, 0x42F0E1EBA9EA3693, 0xFFFFFFFFFFFFFFFF, true, true, true⟩
  | 4 => some ⟨16, 0x1021, 0, true, true, false⟩
  | _ => none

/-- A unit's 64-bit register pair. -/
def cvPair (s : State) (lo hi u : Nat) : Nat := (rgi s lo u).toNat + (rgi s hi u).toNat * 2 ^ 32

/-- A unit's parameters: those of its preset, else the fields as written. -/
def cvParams (s : State) (u : Nat) : CvParams :=
  let c := rgi s Reg.GX_CV_CFG u
  match cvPreset (wfld c 2 0) with
  | some p => p
  | none => ⟨wfld c 9 3, cvPair s Reg.GX_CV_POLY_LO Reg.GX_CV_POLY_HI u,
      cvPair s Reg.GX_CV_INIT_LO Reg.GX_CV_INIT_HI u, c.getLsbD 12, c.getLsbD 13, c.getLsbD 14⟩

/-- Reverse the low n bits of a number. -/
def revBits (n x : Nat) : Nat := (List.range n).foldl (fun acc i => 2 * acc + x / 2 ^ i % 2) 0

/-- One byte enters RUNNING (R397). -/
def cvByte (p : CvParams) (r : Nat) (b : Byte) : Nat :=
  let b := if p.refin then revBits 8 b.toNat else b.toNat
  (List.range 8).foldl (fun r k =>
    let top := (r / 2 ^ (p.width - 1) % 2 + b / 2 ^ (7 - k) % 2) % 2
    let r2 := 2 * r % 2 ^ p.width
    if top = 1 then Nat.xor r2 p.poly else r2) r

/-- RESULT of a RUNNING value (R397). -/
def cvResult (p : CvParams) (r : Nat) : Nat :=
  let x := if p.refout then revBits p.width r else r
  if p.invert then Nat.xor x (2 ^ p.width - 1) else x

/-- Take a snapshot of a unit (R402). -/
def cvSnap (p : CvParams) (c : CvUnit) : CvUnit :=
  { c with snapRunning := c.running, snapBytes := c.bytes,
           snapResult := BitVec.ofNat 64 (cvResult p c.running.toNat) }

/-- A unit enters STOPPED from another state: snapshot and DONE (R402, R405). -/
def cvStopped (u : Nat) (s : State) : State :=
  raise Reg.GX_CV_DONE u (setCv u { cvSnap (cvParams s u) (cvUnit s u) with state := .stopped } s)

/-- The unit watches a source; SKIP_RETX leaves out retransmission reads. -/
def cvWatches (s : State) (u src idx : Nat) (retx : Bool) : Bool :=
  let v := rgi s Reg.GX_CV_SEL u
  wfld v 18 16 == src && wfld v 4 0 == idx && !(retx && v.getLsbD 19)

/-- A boundary of a unit's source passes (R399). -/
def cvBoundary (u : Nat) (s : State) : State :=
  match (cvUnit s u).state with
  | .armed => setCv u { cvUnit s u with state := .running } s
  | .stopping => cvStopped u s
  | _ => s

/-- Units that are not stopped. -/
def cvActive (s : State) : List Nat := (s.cv.filter (fun e => e.2.state != .stopped)).map Prod.fst

/-- Bytes of a tile, frame, slot, train or write request pass on a stream; `begins` tells that they begin it,
so that its boundary passes first. -/
def stream (src idx : Nat) (retx begins : Bool) (bs : List Byte) (s : State) : State :=
  (cvActive s).foldl (fun s u =>
    if cvWatches s u src idx retx then
      let s := if begins then cvBoundary u s else s
      let c := cvUnit s u
      if c.state = .running then
        let p := cvParams s u
        setCv u { c with running := BitVec.ofNat 64 (bs.foldl (cvByte p) c.running.toNat),
                         bytes := c.bytes + BitVec.ofNat 64 bs.length } s
      else s
    else s) s

/-- A granule's slice takes a write request (Table 14.1). -/
def tierStream (off : Nat) (bs : List Byte) (s : State) : State :=
  match granuleOf off with
  | some g => stream (if g < 4096 then cvTier1 else cvTier2) (sliceOf g) false true bs s
  | none => s

/-- Write tier bytes as the core's channel performs the write: the units that watch the channel take them
(Table 14.1). -/
def tierPut (off : Nat) (bs : List Byte) (s : State) : State × Bool :=
  let (s, bad) := tierWrite off bs s
  (tierStream off bs s, bad)

/-- A port ceases to be a source: the units that watch it are stopped at once (R404). -/
def cvLost (port : Nat) (s : State) : State :=
  (cvActive s).foldl (fun s u =>
    if cvWatches s u cvPortTx port false || cvWatches s u cvPortRx port false then
      raise Reg.GX_CV_EVENTS 1 (cvStopped u s)
    else s) s

/-- The unit that GX_CV_INDEX selects. -/
def cvSel (s : State) : Nat := wfld (rg s Reg.GX_CV_INDEX) 4 0

/-- A control or configuration write that is ignored. -/
def cvReject (s : State) : State := raise Reg.GX_CV_EVENTS 0 s

/-- The unit is fenced (R518). -/
def cvFenced (s : State) (u : Nat) : Bool := s.re.now.fencedCvu.contains u

/-- START may not act on the unit's selection and parameters (R400). -/
def cvStartBad (s : State) (u : Nat) : Bool :=
  let sel := rgi s Reg.GX_CV_SEL u
  let src := wfld sel 18 16
  let idx := wfld sel 4 0
  let cfg := rgi s Reg.GX_CV_CFG u
  let w := wfld cfg 9 3
  decide (5 < src)
    || ((src == cvPortTx || src == cvPortRx) && decide (portCount s.lz.run.widthMode ≤ idx))
    || (src != cvPortTx && src != cvPortRx && decide (15 < idx))
    || (sel.getLsbD 19 && src != cvEgress)
    || decide (4 < wfld cfg 2 0)
    || (wfld cfg 2 0 == 0 && (w == 0 || decide (64 < w)
        || decide (2 ^ w ≤ cvPair s Reg.GX_CV_POLY_LO Reg.GX_CV_POLY_HI u)
        || decide (2 ^ w ≤ cvPair s Reg.GX_CV_INIT_LO Reg.GX_CV_INIT_HI u)))

/-- A write of GX_CV_CTRL (R400): bit 2 CLEAR, bit 1 STOP, bit 0 START. -/
def cvControl (v : Nat) (s : State) : State :=
  let u := cvSel s
  let c := cvUnit s u
  if cvFenced s u || c.testing then cvReject s
  else
    match v with
    | 0 => s
    | 4 =>
      if c.state != .stopped then cvReject s
      else
        let p := cvParams s u
        setCv u (cvSnap p { c with running := BitVec.ofNat 64 p.init, bytes := 0 }) s
    | 1 => if c.state != .stopped || cvStartBad s u then cvReject s else setCv u { c with state := .armed } s
    | 2 =>
      match c.state with
      | .armed => cvStopped u s
      | .running => setCv u { c with state := .stopping } s
      | _ => cvReject s
    | _ => cvReject s

/-- CV_CLEAR (R400). -/
def execCvClear (s : State) : Res := .next (whenOk (running s) (cvControl 4) s)

/-- CV_START (R400). -/
def execCvStart (s : State) : Res := .next (whenOk (running s) (cvControl 1) s)

/-- CV_STOP (R400). -/
def execCvStop (s : State) : Res := .next (whenOk (running s) (cvControl 2) s)

/-- CV_STREAM_BOUNDARY (R399): a boundary of a source passes. -/
def execCvStreamBoundary (source index : Nat) (s : State) : Res :=
  .next (whenOk (running s) (fun s => (cvActive s).foldl (fun s u =>
    if cvWatches s u source index false then cvBoundary u s else s) s) s)

/-- Registers that CV_CONFIG_WRITE may write (R401). -/
def cvConfigRegs : List Nat :=
  [Reg.GX_CV_SEL, Reg.GX_CV_CFG, Reg.GX_CV_POLY_LO, Reg.GX_CV_POLY_HI, Reg.GX_CV_INIT_LO, Reg.GX_CV_INIT_HI]

/-- A write of SEL, CFG, POLY, INIT or RUNNING (R401): bits of RUNNING at or above WIDTH are stored as 0. -/
def cvConfigWrite (off : Nat) (v : Word) (s : State) : State :=
  let u := cvSel s
  let c := cvUnit s u
  if c.state != .stopped || cvFenced s u then cvReject s
  else if cvConfigRegs.contains off then
    let m := ((regInfo off).map (·.rw)).getD 0
    putReg (regKey off u) (v &&& m) s
  else if off = Reg.GX_CV_RUNNING_LO ∨ off = Reg.GX_CV_RUNNING_HI then
    let p := cvParams s u
    let r := c.running.toNat
    let r := if off = Reg.GX_CV_RUNNING_LO then r / 2 ^ 32 * 2 ^ 32 + v.toNat else r % 2 ^ 32 + v.toNat * 2 ^ 32
    setCv u (cvSnap p { c with running := BitVec.ofNat 64 (r % 2 ^ p.width) }) s
  else s

/-- CV_CONFIG_WRITE (R401). -/
def execCvConfigWrite (off : Nat) (v : Word) (s : State) : Res :=
  .next (whenOk (running s) (cvConfigWrite off v) s)

/-- CV_BYTES_LO_READ (R402): a snapshot of BYTES, RUNNING and RESULT. -/
def execCvBytesLoRead (s : State) : Res :=
  .next (whenOk (running s) (fun s =>
    let u := cvSel s
    let s := setCv u (cvSnap (cvParams s u) (cvUnit s u)) s
    emit (.readData (((cvUnit s u).snapBytes.setWidth 32).setWidth 64)) s) s)

end Sys2Proof.Machine
end

