-- ==== Sys2Proof/Machine/Log.lean ====
section
/-! DEFINITION. The error log and the repair record's degraded bits (R515, R526, R528, R530, R531). -/

namespace Sys2Proof.Machine

/-- An error as it is classified now (Table 19.4). -/
def mkLog (s : State) (cls kind idx outcome action : Nat) (instn : Nat) (detail epoch : Nat) : LogEntry :=
  ⟨s.tick.count, cls, kind, idx, outcome, action, instn, BitVec.ofNat 64 detail, epoch⟩

/-- INSTANCE of an entry that concerns no instance. -/
def noInst : Nat := 0xFFFF

/-- Write the next entry of the log; when all 256 are full the oldest goes (R530). -/
def logWrite (e : LogEntry) (s : State) : State :=
  let full := s.re.logCount == 256
  let s := { s with re := { s.re with log := mapSet s.re.log s.re.logHead e,
                                      logHead := (s.re.logHead + 1) % 256,
                                      logCount := min 256 (s.re.logCount + 1) } }
  if full then raise Reg.GX_RE_EVENTS 5 s else s

/-- Count and log a classified transient or lasting fault (R515). -/
def logClassified (e : LogEntry) (s : State) : State :=
  let s := logWrite e s
  if e.outcome = 0 then raise Reg.GX_RE_EVENTS 0 (bump Reg.GX_RE_TRANSIENT_CNT s)
  else if e.outcome = 1 then raise Reg.GX_RE_EVENTS 1 (bump Reg.GX_RE_LASTING_CNT s)
  else s

/-- Classify an error, or capture it while Bantam 5 restarts (R528). -/
def classify (e : LogEntry) (s : State) : State :=
  if bantamBusy s 5 then { s with re := { s.re with captured := s.re.captured ++ [.handled e] } }
  else logClassified e s

/-- Change the repair state and append it to both copies of the record (R531). -/
def repair (f : RepairRecord → RepairRecord) (s : State) : State :=
  { s with re := { s.re with now := f s.re.now, record := f s.re.now } }

/-- Capacity fell: DEGRADED (R525, R526). -/
def degraded (s : State) : State := raise Reg.GX_RE_EVENTS 3 s

/-- Part epoch of a part (R519). -/
def partEpoch (s : State) (key : Nat) : Nat := (mapGet s.re.epochs key).getD 0

/-- Raise a part's 4-bit epoch (R519). -/
def bumpEpoch (key : Nat) (s : State) : State :=
  { s with re := { s.re with epochs := mapPut 0 s.re.epochs key ((partEpoch s key + 1) % 16) } }

end Sys2Proof.Machine
end

