-- ==== Sys2Proof/Machine/Tick.lean ====
section
/-! DEFINITION. The fabric tick's counter, its length and its alignment (R25 to R40). Offsets are kept in
units of one third of a nanosecond, so that a clk (2 units) and a tick period are whole. -/

namespace Sys2Proof.Machine

/-- The tick period in offset units: PERIOD times 125 ns (R25). -/
def periodUnits (s : State) : Int := 375 * (period s : Int)

/-- Length in clk of a tick that nothing corrects (R26); `long` picks the longer tick of an odd PERIOD. -/
def plainTickClk (p : Nat) (long : Bool) : Nat :=
  if p % 2 = 0 then p * 375 / 2 else if long then (p * 375 + 1) / 2 else (p * 375 - 1) / 2

/-- Insert into a rising list. -/
def insertInt (x : Int) (l : List Int) : List Int :=
  match l with
  | [] => [x]
  | y :: t => if x ≤ y then x :: y :: t else y :: insertInt x t

/-- The median of R35; none for no value.  For an even number of values the specification fixes none
between the two middle ones: the free value takes its place (assumption 6). -/
def median (l : List Int) : Option Int :=
  let sorted := l.foldl (fun acc x => insertInt x acc) []
  let n := sorted.length
  if n = 0 then none
  else if n % 2 = 1 then sorted[n / 2]?
  else
    match sorted[n / 2 - 1]?, sorted[n / 2]? with
    | some a, some b => some (if a = b then a else Config.midpoint a b)
    | _, _ => none

/-- The values that enter this tick's estimate (R35). -/
def offsetInputs (t : TickState) : List Int :=
  (if t.ptpLocked then t.ptpOffset.toList.map (3 * ·) else []) ++ t.nbrOffsets.map Prod.snd

/-- Enter an alignment state: the events of Table 1.14 and fresh tick counts. -/
def enterAlign (st : AlignState) (s : State) : State :=
  let old := s.tick.align
  let s := { s with tick := { s.tick with align := st, inTol := 0, outTol := 0, noInput := 0, noNbr := 0 } }
  let s := if st = .aligned then raise Reg.GX_TICK_EVENTS 1 s else s
  if (old = .aligned ∨ old = .holdover) ∧ (st = .acquire ∨ st = .free)
  then raise Reg.GX_TICK_EVENTS 0 s else s

/-- 16 consecutive ticks within 40 ns end ACQUIRE (Table 1.4). -/
def acquiredDue (s : State) : Bool := s.tick.align == .acquire && 16 ≤ s.tick.inTol

/-- 4 consecutive ticks beyond 250 ns end ALIGNED and HOLDOVER (Table 1.4). -/
def alignLostDue (s : State) : Bool :=
  (s.tick.align == .aligned || s.tick.align == .holdover) && 4 ≤ s.tick.outTol

/-- 16 consecutive ticks without input end ACQUIRE (Table 1.4). -/
def inputTimeoutDue (s : State) : Bool := s.tick.align == .acquire && 16 ≤ s.tick.noInput

/-- 512 ticks without a neighbour's alignment cell end HOLDOVER (Table 1.4). -/
def holdoverDue (s : State) : Bool := s.tick.align == .holdover && 512 ≤ s.tick.noNbr

/-- The tick's transition of Table 1.4, if one is due. -/
def alignMove (s : State) : State :=
  if acquiredDue s then enterAlign .aligned s
  else if alignLostDue s then enterAlign .acquire s
  else if inputTimeoutDue s then enterAlign .free s
  else if holdoverDue s then enterAlign .free s
  else s

/-- A slew of at most 6 clk toward the domain edge (R38): clk to take off the tick. -/
def slewClk (off : Int) : Int := max (-6) (min 6 (off.tdiv 2))

/-- Take the tick's inputs into the estimate and the counts of Table 1.4 (R35). -/
def takeEstimate (t : TickState) : TickState :=
  let est := median (offsetInputs t)
  let quiet := t.nbrCounts.isEmpty
  let t := { t with nbrCount := t.nbrOffsets.length, noNbr := if quiet then t.noNbr + 1 else 0,
                    nbrOffsets := [], nbrCounts := [] }
  match est with
  | none => { t with noInput := t.noInput + 1, inTol := 0, outTol := 0 }
  | some o =>
    { t with offset := o, noInput := 0,
             inTol := if -120 ≤ o ∧ o ≤ 120 then t.inTol + 1 else 0,
             outTol := if o < -750 ∨ 750 < o then t.outTol + 1 else 0 }

/-- Set the counter and the length of the tick that begins: the plain length, less `cut` clk. -/
def beginTick (count : BitVec 64) (cut : Int) (s : State) : State :=
  let p := period s
  let len := (plainTickClk p s.tick.longNext : Int) - cut
  { s with tick := { s.tick with count := count, lengthClk := len.toNat,
                                 longNext := if p % 2 = 1 then !s.tick.longNext else false } }

/-- Step 2 of R29 with the correction of R37 and R38: the counter rises by one, or to the domain's count
in an alignment step, and the new tick's length is set. -/
def alignEdge (s : State) : State :=
  let hadInput := !(offsetInputs s.tick).isEmpty
  let s := { s with tick := takeEstimate s.tick }
  let o := s.tick.offset
  let next := s.tick.count + 1
  match s.tick.align with
  | .free => beginTick next 0 s
  | .aligned => alignMove (beginTick next (if hadInput then slewClk o else 0) s)
  | .holdover => alignMove (beginTick next (if hadInput then slewClk o else 0) s)
  | .acquire =>
    if !hadInput then alignMove (beginTick next 0 s)
    else if -120 ≤ o ∧ o ≤ 120 then alignMove (beginTick next (slewClk o) s)
    else if 120 < o then
      beginTick (next + BitVec.ofNat 64 (o / periodUnits s).toNat) ((o % periodUnits s) / 2) s
    else if o ≤ -(periodUnits s) then
      let s := beginTick next 0 { s with tick := { s.tick with behind := true } }
      enterAlign .free (raise Reg.GX_TICK_EVENTS 2 s)
    else beginTick next (-(min (-o / 2) (periodUnits s / 16))) s

/-- The PTP client's lock changes nothing while the adapter sleeps or Bantam 2 restarts (R503, R475). -/
def ptpServed (s : State) : Bool := running s && !bantamBusy s 2

/-- The client locks (R36): FREE leaves for ACQUIRE unless EPOCH_BEHIND bars it (R37), HOLDOVER for ALIGNED. -/
def ptpLock (s : State) : State :=
  let s := { s with tick := { s.tick with ptpLocked := true } }
  match s.tick.align with
  | .free => if s.tick.behind then s else enterAlign .acquire s
  | .holdover => enterAlign .aligned s
  | _ => s

/-- The client loses lock (R36). -/
def ptpLoseLock (s : State) : State :=
  if s.tick.ptpLocked then
    let s := { s with tick := { s.tick with ptpLocked := false, ptpOffset := none } }
    let s := raise Reg.GX_TICK_EVENTS 5 s
    if s.tick.align = .aligned then enterAlign .holdover s else s
  else s

/-- PTP_LOCK (R36). -/
def execPtpLock (s : State) : Res := .next (whenOk (ptpServed s) ptpLock s)

/-- PTP_LOCK_LOST (R36). -/
def execPtpLockLost (s : State) : Res := .next (whenOk (powered s) ptpLoseLock s)

/-- ALIGN_ACQUIRED (R36). -/
def execAlignAcquired (s : State) : Res :=
  .next (whenOk (powered s && acquiredDue s) (enterAlign .aligned) s)

/-- ALIGN_LOST (R36). -/
def execAlignLost (s : State) : Res :=
  .next (whenOk (powered s && alignLostDue s) (enterAlign .acquire) s)

/-- ALIGN_INPUT_TIMEOUT (R37). -/
def execAlignInputTimeout (s : State) : Res :=
  .next (whenOk (powered s && inputTimeoutDue s) (enterAlign .free) s)

/-- HOLDOVER_TIMEOUT (R36). -/
def execHoldoverTimeout (s : State) : Res :=
  .next (whenOk (powered s && holdoverDue s) (enterAlign .free) s)

/-- TICK_COUNT_LO_READ (R28): the low word is returned and the high word latched. -/
def execTickCountLoRead (s : State) : Res :=
  .next (whenOk (powered s && s.fw.boot != .recovery) (fun s =>
    emit (.readData ((s.tick.count.setWidth 32).setWidth 64))
      { s with tick := { s.tick with hiLatch := (s.tick.count >>> 32).setWidth 32 } }) s)

/-- INST_TICK_LO_READ (R550): the latch is the page's own. -/
def execInstTickLoRead (n : Nat) (s : State) : Res :=
  .next (whenOk (running s && (inst s n).state != .disabled) (fun s =>
    emit (.readData ((s.tick.count.setWidth 32).setWidth 64))
      { s with tick := { s.tick with
          pageLatch := mapPut 0 s.tick.pageLatch n ((s.tick.count >>> 32).setWidth 32) } }) s)

/-- PPS_PULSE (R559): PPS_OUT rises at each whole second of PTP time while PTP is locked. -/
def execPpsPulse (s : State) : Res :=
  .next (whenOk (powered s && s.tick.ptpLocked) (fun s =>
    emit .ppsOut { s with pins := { s.pins with ppsCount := s.pins.ppsCount + 1 } }) s)

end Sys2Proof.Machine
end

