-- ==== Sys2Proof/Machine/Xlate.lean ====
section
/-! DEFINITION. Fabric addresses and the shared page table: space table, walks, L2, L1, walk and space
caches, uses, invalidation (R74 to R106). -/

namespace Sys2Proof.Machine

/-! ### Coordinates and fabric addresses -/

/-- The node identity of a slot, if the slot is VALID (R76). -/
def slotNode (s : State) (k : Nat) : Option Nat :=
  let v := rg s (Reg.GX_XL_NODE_ID + 4 * k)
  if k < s.lz.run.nodeIds ∧ v.getLsbD 31 then some (wfld v 22 0) else none

/-- The node slot that holds an identity (R77). -/
def nodeSlot (s : State) (node : Nat) : Option Nat :=
  (List.range 8).find? (fun k => slotNode s k == some node)

/-- Some node slot is VALID (R483). -/
def anySlot (s : State) : Bool := (List.range 8).any (fun k => (slotNode s k).isSome)

/-- A fabric address from node identity and node offset (R78). -/
def fabricAddr (node off : Nat) : Nat := node * 2 ^ 41 + off

/-- The exported Flock at a slot and UNIT (R52). -/
def exportedAt (s : State) (slot unit : Nat) : Option Flock :=
  s.lz.run.flocks.find? (fun f => f.exported && f.slot == slot && f.unit == unit)

/-- The Flock counts as halted for R80: halted, resetting or disabled instance, or fenced by a unit action. -/
def unitHalted (s : State) (flock : Nat) : Bool :=
  (match flockInstance s.lz.run flock with
    | none => false
    | some n => match (inst s n).state with
      | .disabled => true
      | .halted => true
      | .resetting => true
      | _ => false)
    || s.lz.fenced.any (fun f => beneath s.lz.run f flock)

/-- The frozen instance behind a Flock (R448). -/
def unitFrozen (s : State) (flock : Nat) : Bool :=
  match flockInstance s.lz.run flock with
  | none => false
  | some n => (inst s n).state == .frozen

/-- R80 on one access: `window` is the size of the exposed window behind each aperture.  True: rejected. -/
def accessRejected (s : State) (slot off : Nat) (window : Nat → Nat) : Bool :=
  if off < tier2End then
    match offsetFlock s off with
    | none => true
    | some f =>
      match flockOf s.lz.run f with
      | none => true
      | some fl => !(fl.exported && fl.slot == slot) || unitHalted s f
  else
    match apertureOf off with
    | none => true
    | some (p, o) => slot != 0 || window p ≤ o

/-! ### Caches -/

/-- Base of the page of a size that holds an address. -/
def pageBase (va size : Nat) : Nat := va / 2 ^ size * 2 ^ size

/-- The L2 entry that translates an address: not dying (R99). -/
def l2Find (s : State) (space va : Nat) : Option XlEntry :=
  s.xl.l2.find? (fun e => e.space == space && !e.dying && e.vbase ≤ va && va < e.vbase + 2 ^ e.size)

/-- A cached translation of a SPACE was read under another OWNER (R83). -/
def ownedElse (s : State) (space instn : Nat) : Bool := (mapGet s.xl.owners space).any (· != instn)

/-- What an operation's overtaken walks found for an address (R99). -/
def heldFind (s : State) (owner va : Nat) : Option XlEntry :=
  (s.xl.held.find? (fun h => h.1 == owner && h.2.vbase ≤ va && va < h.2.vbase + 2 ^ h.2.size)).map Prod.snd

/-- Forget what an operation's overtaken walks found. -/
def heldDrop (owner : Nat) (s : State) : State :=
  { s with xl := { s.xl with held := s.xl.held.filter (fun h => h.1 != owner) } }

/-- Take one use on an entry (R95). -/
def l2Take (id : Nat) (s : State) : State :=
  { s with xl := { s.xl with l2 := s.xl.l2.map (fun e => if e.id = id then { e with uses := e.uses + 1 } else e) } }

/-- End one use of an entry (R100). -/
def l2Release (id : Nat) (s : State) : State :=
  { s with xl := { s.xl with l2 := s.xl.l2.map (fun e => if e.id = id then { e with uses := e.uses - 1 } else e) } }

/-- Fill the L2 (R90): an entry in use is never replaced; if every way of the set is in use, the request
stalls and nothing is filled.  Below 16 entries no set can be full. -/
def l2Fill (e : XlEntry) (s : State) : State :=
  let same := s.xl.l2.any (fun x => x.space == e.space && x.vbase == e.vbase && !x.dying)
  if same then
    { s with xl := { s.xl with l2 := s.xl.l2.map (fun x =>
        if x.space == e.space && x.vbase == e.vbase && !x.dying then { e with uses := x.uses, id := x.id } else x) } }
  else
    let e := { e with id := s.xl.nextId }
    let s := { s with xl := { s.xl with nextId := s.xl.nextId + 1 } }
    if s.xl.l2.length < 16 then { s with xl := { s.xl with l2 := s.xl.l2 ++ [e] } } else
    let set := Config.l2Set e.space (e.vbase / 4096)
    let members := s.xl.l2.filter (fun x => Config.l2Set x.space (x.vbase / 4096) % 4096 == set % 4096)
    if members.length < 16 then { s with xl := { s.xl with l2 := s.xl.l2 ++ [e] } }
    else
      let cands := members.filter (fun x => x.uses == 0)
      match cands[Config.l2Victim s.freeCount % cands.length]? with
      | none => s
      | some v =>
        { s with freeCount := s.freeCount + 1,
                 xl := { s.xl with l2 := s.xl.l2.filter (· != v) ++ [e],
                                   l1 := s.xl.l1.filter (fun x => !(x.2.1 == v.space && x.2.2 == v.vbase)) } }

/-- An L1 takes a copy of an L2 entry (R89). -/
def l1Fill (core space vbase : Nat) (s : State) : State :=
  if s.xl.l1.contains (core, space, vbase) then s
  else { s with xl := { s.xl with l1 := ((core, space, vbase) ::
      (s.xl.l1.filter (fun x => x.1 == core)).take 4095) ++ s.xl.l1.filter (fun x => x.1 != core) } }

/-- Hold a space-table entry, most recently used first, 1,024 at most (R83). -/
def holdSpace (space : Nat) (e : BitVec 128) (s : State) : State :=
  { s with xl := { s.xl with spaceCache :=
      ((space, e) :: s.xl.spaceCache.filter (fun x => x.1 != space)).take 1024 } }

/-- Drop every cached translation of the spaces that an instance owns (R104). -/
def dropSpaces (n : Nat) (s : State) : State :=
  let p := fun sp => mapGet s.xl.owners sp == some n
  { s with xl := { s.xl with owners := s.xl.owners.filter (fun e => e.2 != n), l2 := s.xl.l2.filter (fun e => !(p e.space)),
                             l1 := s.xl.l1.filter (fun e => !(p e.2.1)),
                             walkCache := s.xl.walkCache.filter (fun e => !(p e.1)),
                             spaceCache := s.xl.spaceCache.filter (fun e => !(p e.1)) } }

/-! ### The walk -/

/-- A table read at a node offset of this adapter: of its tiers, or of an aperture, whose read returned what is given
under the offset; a read of the reserved range fails. -/
def tierTableRead (s : State) (off n : Nat) (reads : NMap (BitVec 128)) : Option Nat :=
  if off < tier2End then
    let (bs, badRead) := tierRead s off n
    if badRead then none else some (leNat bs)
  else if (apertureOf off).isSome then (mapGet reads off).map (fun v => v.toNat % 2 ^ (8 * n))
  else none

/-- A table read (R82, R84): LOC LOCAL and an own identity of LOC FABRIC (R77) read this adapter's memory, every other
read takes what it returned, by address.  None: the read failed. -/
def tableRead (s : State) (loc addr n : Nat) (reads : NMap (BitVec 128)) : Option Nat :=
  if loc = 1 then
    tierTableRead s addr n reads
  else if loc = 2 && (nodeSlot s (addr / 2 ^ 41)).isSome then
    if accessRejected s ((nodeSlot s (addr / 2 ^ 41)).getD 0) (addr % 2 ^ 41) (fun _ => 2 ^ 37) then none
    else tierTableRead s (addr % 2 ^ 41) n reads
  else (mapGet reads addr).map (fun v => v.toNat % 2 ^ (8 * n))

/-- A leaf of level 2, 1 or 0 as a cache entry (Table 3.5). -/
def leafEntry (space va size e : Nat) : XlEntry :=
  { space := space, vbase := pageBase va size, size := size, node := fld e 63 41,
    offset := fld e 40 12 * 4096, read := fld e 3 3 == 1, write := fld e 4 4 == 1, atomic := fld e 5 5 == 1 }

/-- Size of a leaf by level and TYPE, if allowed there (R86). -/
def leafSize (level ty : Nat) : Option Nat :=
  match level, ty with
  | 2, 1 => some 30
  | 1, 1 => some 21
  | 0, 1 => some 12
  | 0, 2 => some 16
  | _, _ => none

/-- Low bit of a level's index (Table 3.4). -/
def levelShift (level : Nat) : Nat := 12 + 9 * level

/-- The outcome of a walk: a fault cause of Table 3.9, or the leaf, with the TABLE entries it passed; a fault tells
whether the level-0 line was read. -/
inductive WalkResult where
  | fault (cause : Nat) (tables : List (Nat × Nat × BitVec 64)) (line : Bool)
  | leaf (e : XlEntry) (tables : List (Nat × Nat × BitVec 64))
  deriving DecidableEq, Repr

/-- Walk from a table at a level downward (R84 to R86); `seen` gathers TABLE entries by level and region. -/
def walkFrom (s : State) (space loc va : Nat) (reads : NMap (BitVec 128)) (level table : Nat)
    (seen : List (Nat × Nat × BitVec 64)) : WalkResult :=
  let region := pageBase va (levelShift level)
  let addr := table + 8 * (va / 2 ^ levelShift level % 512)
  let cached := (s.xl.walkCache.find? (fun c => c.1 == space && c.2.1 == level && c.2.2.1 == region)).map
    (fun c => c.2.2.2.toNat)
  match cached.or (tableRead s loc addr 8 reads) with
  | none => .fault 5 seen false
  | some e =>
    let line := level == 0
    if e % 2 = 0 then .fault 1 seen line
    else
      let ty := fld e 2 1
      if fld e 11 6 ≠ 0 ∨ ty = 3 then .fault 4 seen line
      else
        match level with
        | 0 =>
          if ty = 1 then .leaf (leafEntry space va 12 e) seen
          else if ty = 2 then
            match tableRead s loc (table + 8 * (va / 2 ^ 12 % 512 / 16 * 16)) 8 reads with
            | none => .fault 5 seen false
            | some g =>
              if g % 2 = 0 ∨ fld g 2 1 ≠ 2 ∨ fld g 11 6 ≠ 0 ∨ fld g 15 12 ≠ 0 then .fault 4 seen line
              else .leaf (leafEntry space va 16 g) seen
          else .fault 4 seen line
        | l + 1 =>
          if ty = 0 then
            if fld e 5 3 ≠ 0 then .fault 4 seen line
            else walkFrom s space loc va reads l (fld e 63 12 * 4096)
              (seen ++ [(l + 1, region, BitVec.ofNat 64 e)])
          else
            match leafSize (l + 1) ty with
            | none => .fault 4 seen line
            | some size =>
              if fld e (size - 1) 12 ≠ 0 then .fault 4 seen line else .leaf (leafEntry space va size e) seen

/-- Address of a space-table entry and its LOC (R82). -/
def spaceTabAddr (s : State) (space : Nat) : Nat :=
  (rg s Reg.GX_XL_SPTAB_HI).toNat * 2 ^ 32 + (rg s Reg.GX_XL_SPTAB_LO).toNat + 16 * space

/-- The space-table entry, from the space cache or its read. -/
def spaceEntry (s : State) (space : Nat) (reads : NMap (BitVec 128)) : Option (BitVec 128) :=
  (mapGet s.xl.spaceCache space).or
    ((tableRead s (wfld (rg s Reg.GX_XL_SPTAB_CFG) 22 21) (spaceTabAddr s space) 16 reads).map (BitVec.ofNat 128))

/-- A SPACE that R83 calls invalid for an instance, by its entry. -/
def spaceBad (s : State) (space instn : Nat) (e : BitVec 128) : Bool :=
  wfld (rg s Reg.GX_XL_SPTAB_CFG) 20 0 ≤ space || fld e.toNat 0 0 == 0 || fld e.toNat 2 1 == 3
    || fld e.toNat 72 64 != instn

/-- A whole walk of an address under a SPACE for an instance (R83, R91). -/
def walkVa (s : State) (space instn va : Nat) (reads : NMap (BitVec 128)) : WalkResult :=
  if wfld (rg s Reg.GX_XL_SPTAB_CFG) 20 0 ≤ space then .fault 3 [] false
  else
    match spaceEntry s space reads with
    | none => .fault 5 [] false
    | some e =>
      if spaceBad s space instn e then .fault 3 [] false
      else walkFrom s space (fld e.toNat 2 1) va reads 3 (fld e.toNat 63 12 * 4096) []

/-- Record a translation fault in the GX_XL registers (R96, R106). -/
def recordFault (cause instn space va : Nat) (s : State) : State :=
  let s := putReg Reg.GX_XL_LAST_FAULT_INFO (BitVec.ofNat 32 (cause * 2 ^ 29 + instn * 2 ^ 20 + space)) s
  let s := putReg Reg.GX_XL_LAST_FAULT_VA_LO (BitVec.ofNat 32 va) s
  let s := putReg Reg.GX_XL_LAST_FAULT_VA_HI (BitVec.ofNat 32 (va / 2 ^ 32)) s
  let s := bump Reg.GX_XL_FAULT_CNT (raise Reg.GX_XL_EVENTS 0 s)
  if cause = 5 then raise Reg.GX_XL_EVENTS 1 s else s

/-- The level-0 line of an address fills the L2 with every leaf in it (R91). -/
def fillLine (space instn va : Nat) (reads : NMap (BitVec 128)) (s : State) : State :=
  (List.range 16).foldl (fun s i =>
    match walkVa s space instn (pageBase va 16 + 4096 * i) reads with
    | .leaf e _ => l2Fill e s
    | .fault _ _ _ => s) s

/-- Fill the caches with what a walk read, whether it found a leaf or a fault (R83, R91): the space entry, the TABLE
entries, its leaf, and every other leaf of the level-0 line.  A walk that an INVALIDATE overtook fills none (R99). -/
def fillFromWalk (w : Walk) (reads : NMap (BitVec 128)) (r : WalkResult) (s : State) : State :=
  if w.stale || wfld (rg s Reg.GX_XL_SPTAB_CFG) 20 0 ≤ w.space then s
  else
    match spaceEntry s w.space reads with
    | none => s
    | some se =>
      let s := holdSpace w.space se s
      let s := { s with xl := { s.xl with owners := mapSet s.xl.owners w.space (fld se.toNat 72 64) } }
      let tables := match r with
        | .leaf _ ts => ts
        | .fault _ ts _ => ts
      let fresh := tables.filter (fun t => !(s.xl.walkCache.any (fun c =>
        c.1 == w.space && c.2.1 == t.1 && c.2.2.1 == t.2.1)))
      let s := { s with xl := { s.xl with walkCache :=
        (fresh.map (fun t => (w.space, t.1, t.2.1, t.2.2)) ++ s.xl.walkCache).take 1024 } }
      match r with
      | .leaf e _ =>
        let s := l2Fill e s
        if e.size = 12 ∨ e.size = 16 then fillLine w.space w.inst w.va reads s else s
      | .fault _ _ line => if line then fillLine w.space w.inst w.va reads s else s

/-! ### Invalidation (R98 to R103) -/

/-- An entry lies in the scope of an INVALIDATE (R99). -/
def inScope (scope space va pages : Nat) (e : XlEntry) : Bool :=
  match scope with
  | 0 => e.space == space && pages != 0 && e.vbase < va + 4096 * pages && va < e.vbase + 2 ^ e.size
  | 1 => e.space == space
  | _ => true

/-- Accept an INVALIDATE: mark the entries of its scope dying, drop walk-cache and space-cache entries and what
overtaken walks of the scope found, and keep every running walk out of the caches (R95, R99). -/
def invalidateStart (slot scope space va pages : Nat) (s : State) : State :=
  let marked := (s.xl.l2.filter (inScope scope space va pages)).map (·.id)
  let hits := fun sp => scope == 2 || sp == space
  { s with xl := { s.xl with
      l2 := s.xl.l2.map (fun e => if inScope scope space va pages e then { e with dying := true } else e)
      walkCache := s.xl.walkCache.filter (fun e => !(hits e.1))
      spaceCache := if scope = 0 then s.xl.spaceCache else s.xl.spaceCache.filter (fun e => !(hits e.1))
      walks := s.xl.walks.map (fun w => (w.1, { w.2 with stale := true, missed := w.2.missed ++ [(scope, space, va, pages)] }))
      held := s.xl.held.filter (fun h => !(inScope scope space va pages h.2))
      invals := s.xl.invals ++ [⟨slot, scope, marked, scope == 0 && pages == 0⟩] } }

/-- Every entry that the INVALIDATE marked has a use count of 0 (R101). -/
def invalDone (s : State) (v : Inval) : Bool :=
  v.marked.all (fun m => !(s.xl.l2.any (fun e => e.id == m && e.uses != 0)))

/-- Remove the dying entries of a finished INVALIDATE, in the L2 and the L1s (R101). -/
def invalRemove (v : Inval) (s : State) : State :=
  let gone := s.xl.l2.filter (fun e => v.marked.contains e.id && e.uses == 0)
  { s with xl := { s.xl with
      l2 := s.xl.l2.filter (fun e => !(gone.contains e))
      l1 := s.xl.l1.filter (fun e => !(gone.any (fun g => g.space == e.2.1 && g.vbase == e.2.2)))
      invals := s.xl.invals.filter (fun x => x.slot != v.slot) } }

end Sys2Proof.Machine
end

