-- ==== Sys2Proof/Machine/Wire.lean ====
section
/-! DEFINITION. Slots on the wire: the check code, the cell header, the train header and the fields that a
train's cells derive from it (R174, R196 to R202), and the fence table (R221 to R223). -/

namespace Sys2Proof.Machine

/-! ### CRC-32C (R198) -/

/-- One bit step of a reflected CRC. -/
def crcBit (poly : Word) (c : Word) : Word := if c.getLsbD 0 then (c >>> 1) ^^^ poly else c >>> 1

/-- One byte of the reflected CRC-32C (polynomial 0x1EDC6F41, reflected 0x82F63B78). -/
def crcByte (c : Word) (b : Byte) : Word :=
  (List.range 8).foldl (fun c _ => crcBit 0x82F63B78 c) (c ^^^ b.setWidth 32)

/-- The CRC-32C of R198. -/
def crc32c (bs : List Byte) : Word := (bs.foldl crcByte 0xFFFFFFFF) ^^^ 0xFFFFFFFF

/-- Bytes of a header, byte 0 first, which holds bits [95:88] (R197). -/
def hdrBytes (h : BitVec 96) : List Byte :=
  (List.range 12).map (fun i => BitVec.ofNat 8 (h.toNat / 2 ^ (88 - 8 * i)))

/-- Bytes of a payload. -/
def payBytes (p : BitVec 512) : List Byte := leBytes 64 p.toNat

/-- A payload from bytes; missing bytes are 0. -/
def mkPay (bs : List Byte) : BitVec 512 := BitVec.ofNat 512 (leNat (bs.take 64))

/-- The check code of an 80-byte slot (R198). -/
def slotCrc (h : BitVec 96) (p : BitVec 512) : Word := crc32c (hdrBytes h ++ payBytes p)

/-- The short header of train cell k (R200). -/
def trainCrc (h : BitVec 96) (k : Nat) (p : BitVec 512) : Word :=
  crc32c (hdrBytes h ++ [BitVec.ofNat 8 k] ++ payBytes p)

/-! ### The cell header (Table 7.2) -/

/-- The fields of a FORM 0, 1 or 3 header. -/
structure Hdr where
  form : Nat
  dstNode : Nat
  srcNode : Nat
  srcUnit : Nat
  epoch : Nat
  kind : Nat
  dqpn : Nat
  msn : Nat
  deriving DecidableEq, Repr

/-- Read a header. -/
def readHdr (h : BitVec 96) : Hdr :=
  let x := h.toNat
  ⟨fld x 95 94, fld x 93 71, fld x 70 48, fld x 47 42, fld x 41 36, fld x 35 32, fld x 31 16, fld x 15 0⟩

/-- Write a header. -/
def mkHdr (h : Hdr) : BitVec 96 :=
  BitVec.ofNat 96 (h.form * 2 ^ 94 + h.dstNode * 2 ^ 71 + h.srcNode * 2 ^ 48 + h.srcUnit * 2 ^ 42
    + h.epoch * 2 ^ 36 + h.kind * 2 ^ 32 + h.dqpn * 2 ^ 16 + h.msn % 65536)

/-- CTL_TYPE of a FORM 2 slot (R197). -/
def ctlType (h : BitVec 96) : Nat := fld h.toNat 93 88

/-! ### The train header (Table 7.3) -/

/-- The fields of a train header. -/
structure TrainHdr where
  first : Nat
  cnt : Nat
  countM1 : Nat
  firstFill : Nat
  lastFill : Nat
  tail : Bool
  addr : Nat
  deriving DecidableEq, Repr

/-- Read a train header. -/
def readTrain (p : BitVec 512) : TrainHdr :=
  let x := p.toNat
  ⟨fld x 11 0, fld x 27 16, fld x 37 32, fld x 45 40, fld x 53 48, fld x 56 56 == 1, fld x 127 64⟩

/-- A reserved bit of the train header is set. -/
def trainReserved (p : BitVec 512) : Bool :=
  let x := p.toNat
  fld x 15 12 != 0 || fld x 31 28 != 0 || fld x 39 38 != 0 || fld x 47 46 != 0 || fld x 55 54 != 0
    || fld x 63 57 != 0 || fld x 511 128 != 0

/-- Write a train header. -/
def mkTrain (t : TrainHdr) : BitVec 512 :=
  BitVec.ofNat 512 (t.first + t.cnt * 2 ^ 16 + t.countM1 * 2 ^ 32 + t.firstFill * 2 ^ 40 + t.lastFill * 2 ^ 48
    + (if t.tail then 2 ^ 56 else 0) + t.addr * 2 ^ 64)

/-- Kinds that travel in trains (R201, R202): DATA, REDUCE, SEND, READ_REQ and ATTN_REQ of several cells,
READ_RESP, ATTN_RESP. -/
def kindMayTrain (kind : Nat) : Bool := [0, 1, 2, 3, 4, 7, 8].contains kind

/-- R202: the train is discarded whole. -/
def trainBad (h : Hdr) (p : BitVec 512) : Bool :=
  let t := readTrain p
  trainReserved p || t.cnt < t.first + t.countM1
    || t.countM1 == 0 && t.firstFill != t.lastFill
    || t.tail && ((h.kind != 2 && h.kind != 8) || t.first + t.countM1 != t.cnt)
    || h.kind == 0 && fld t.addr 63 41 != h.dstNode
    || !(kindMayTrain h.kind)
    || (h.kind == 3 || h.kind == 7) && t.cnt == 0

/-! ### A transport cell with its fields (Table 6.5) -/

/-- A transport cell as the responder or requester takes it. -/
structure CellIn where
  srcNode : Nat
  srcUnit : Nat
  dstNode : Nat
  epoch : Nat
  kind : Nat
  dqpn : Nat
  msn : Nat
  idx : Nat
  cnt : Nat
  /-- Payload bytes of the cell. -/
  fill : Nat
  addr : Nat
  tail : Bool
  /-- The first train cell of its train, or a standalone cell. -/
  begins : Bool := true
  pay : BitVec 512
  deriving DecidableEq, Repr

/-- The transport fields of a standalone cell (R197). -/
def cellOf (h : Hdr) (pay : BitVec 512) : CellIn :=
  { srcNode := h.srcNode, srcUnit := h.srcUnit, dstNode := h.dstNode, epoch := h.epoch, kind := h.kind
    dqpn := h.dqpn, msn := h.msn, idx := 0, cnt := 0, fill := 64, addr := 0, tail := h.kind == 8, pay := pay }

/-- The transport fields of train cell k (R200). -/
def trainCell (h : Hdr) (t : TrainHdr) (k : Nat) (pay : BitVec 512) : CellIn :=
  let isTail := t.tail && k == t.countM1
  let fill := if isTail then 63 else if k = 0 then t.firstFill else if k = t.countM1 then t.lastFill else 63
  let adv := if k = 0 then 0 else t.firstFill + 1 + 64 * (k - 1)
  let addr :=
    match h.kind with
    | 1 => t.addr / 2 ^ 41 * 2 ^ 41 + (t.addr + adv) % 2 ^ 41
    | 2 => t.addr % 2 ^ 16 + (t.addr / 2 ^ 16 + adv) % 2 ^ 32 * 2 ^ 16
    | 4 => (t.addr + adv) % 2 ^ 32
    | 8 => (t.addr + adv) % 2 ^ 32
    | _ => (t.addr + adv) % 2 ^ 64
  { srcNode := h.srcNode, srcUnit := h.srcUnit, dstNode := h.dstNode, epoch := h.epoch, kind := h.kind
    dqpn := h.dqpn, msn := h.msn, idx := t.first + k, cnt := t.cnt, fill := fill + 1, addr := addr
    tail := isTail, begins := k == 0, pay := pay }

/-! ### Source checks (R223) -/

/-- The fence-table entry of a coordinate (R222). -/
def fenceOf (s : State) (node unit : Nat) : Option FenceEntry :=
  (s.cf.fences.find? (fun e => e.2.node == node && e.2.unit == unit && e.2.state != 0)).map Prod.snd

/-- The first check of R223 that a slot fails: 1 destination, 2 fenced source, 3 stale source. -/
def slotCheck (s : State) (h : Hdr) : Nat :=
  if (nodeSlot s h.dstNode).isNone then 1
  else
    match fenceOf s h.srcNode h.srcUnit with
    | some e => if e.state = 2 then 2 else if e.epoch ≠ h.epoch then 3 else 0
    | none => if h.epoch ≠ 0 then 3 else 0

/-- Count a slot that R223 discards. -/
def slotCount (why : Nat) (s : State) : State :=
  match why with
  | 1 => bump Reg.GX_CF_MISROUTE_CNT s
  | 2 => bump Reg.GX_CF_FENCED_DROP_CNT s
  | 3 => bump Reg.GX_CF_STALE_EPOCH_CNT s
  | _ => s

/-- Count bad cells (R176 to R178, R202). -/
def badCells (n : Nat) (s : State) : State := raise Reg.GX_TP_EVENTS 3 (bumpBy Reg.GX_TP_BAD_CELL_CNT n s)

/-- Live epoch of an exported unit: entry 64 · slot + UNIT (R221). -/
def ownEpoch (s : State) (slot unit : Nat) : Nat :=
  wfld (rgi s Reg.GX_CF_OWN_EPOCH (64 * slot + unit)) 5 0

end Sys2Proof.Machine
end

