-- ==== Sys2Proof/Machine/Links.lean ====
section
/-! DEFINITION. Cell links: the link layer and its retry, bring-up, lane spares, the choice of a route, the
consolidated map, the fence table and tick-alignment cells (R196 to R226, R34, R210). -/

namespace Sys2Proof.Machine

/-! ### Ports -/

/-- A cell port's record. -/
def cport (s : State) (p : Nat) : CellPort := (mapGet s.cf.ports p).getD {}

/-- Change a cell port's record. -/
def setCport (p : Nat) (c : CellPort) (s : State) : State :=
  { s with cf := { s.cf with ports := mapPut {} s.cf.ports p c } }

/-- Change a cell port's record by a function. -/
def updCport (p : Nat) (f : CellPort → CellPort) (s : State) : State := setCport p (f (cport s p)) s

/-- Lanes of a port by the width mode (Table 2.3). -/
def portLanes (s : State) : Nat := lanesPerPort s.lz.run.widthMode

/-- Active lanes of a cell port (R212, R213). -/
def activeLanes (s : State) (p : Nat) : Nat :=
  let c := cport s p
  portLanes s - c.fencedLanes.length + (if c.spareUsed then 1 else 0)

/-- Half of the lanes that a port belongs to (Figure of R43: 16 lanes each). -/
def portHalf (s : State) (p : Nat) : Nat := p * portLanes s / 16

/-- The port is a cell port in state UP. -/
def linkUp (s : State) (p : Nat) : Bool := isCellPort s p && (cport s p).state == .up

/-- Cell ports in state UP. -/
def upPorts (s : State) : List Nat := (List.range 32).filter (linkUp s)

/-- ADMIN_DOWN of a port. -/
def adminDown (s : State) (p : Nat) : Bool := (rgi s Reg.GX_CF_PORT_CTRL p).getLsbD 0

/-- Slots of an item that the link layer counts (Table 7.1), and its bytes (Table 7.1). -/
def itemSlots (i : WireItem) : Nat := 1 + i.cells.length
def itemBytes (i : WireItem) : Nat := 80 + 68 * i.cells.length

/-- Bytes queued on a port (R215). -/
def queuedBytes (s : State) (p : Nat) : Nat := ((cport s p).queue.map itemBytes).sum

/-- Slots in the retry buffer of a port. -/
def retrySlots (c : CellPort) : Nat := (c.retry.map (fun e => itemSlots e.2)).sum

/-- Slots that the retry buffer of a port holds (R206). -/
def retryRoom (s : State) : Nat := 128 * portLanes s

/-- The item may start: hop credit and the retry buffer cover it (R205, R206). -/
def mayStart (s : State) (c : CellPort) (i : WireItem) : Bool :=
  itemSlots i ≤ c.credit && retrySlots c + itemSlots i ≤ retryRoom s

/-- The header with the live epoch of its source unit (R221). -/
def freshEpoch (s : State) (hdr : BitVec 96) : BitVec 96 :=
  let h := readHdr hdr
  match nodeSlot s h.srcNode with
  | some slot => mkHdr { h with epoch := ownEpoch s slot h.srcUnit }
  | none => hdr

/-- Bytes of a standalone cell, a train head or a scheduling cell, and of train cell k (Table 7.1). -/
def slotBytes (hdr : BitVec 96) (pay : BitVec 512) : List Byte :=
  hdrBytes hdr ++ payBytes pay ++ leBytes 4 (slotCrc hdr pay).toNat
def trainSlotBytes (hdr : BitVec 96) (k : Nat) (pay : BitVec 512) : List Byte :=
  leBytes 4 (trainCrc hdr k pay).toNat ++ payBytes pay

/-- The counted slots of an item, in order. -/
def itemBytesList (i : WireItem) : List (List Byte) :=
  slotBytes i.hdr i.pay :: i.cells.zipIdx.map (fun c => trainSlotBytes i.hdr c.2 c.1)

/-- Put an item on the wire with the live epoch (R221): it takes the next LSNs, stays in the retry buffer (R204)
and passes on the port's transmit stream (Table 14.1); GRANTED of a grant counts in the tick (R271). -/
def wireOut (p : Nat) (i : WireItem) (s : State) : State :=
  let i := { i with hdr := freshEpoch s i.hdr }
  let c := cport s p
  let s := (itemBytesList i).foldl (fun s bs => stream 2 p false true bs s) (emit (.slot p c.txLsn i) s)
  let s := { s with cf := { s.cf with txBytes := mapSet s.cf.txBytes p
                                        ((mapGet s.cf.txBytes p).getD 0 + itemBytes i) } }
  let h := readHdr i.hdr
  let s := if h.form = 3 ∧ h.kind = 1 then
      { s with cs := { s.cs with grantedSum := s.cs.grantedSum + leAt (payBytes i.pay) 0 8 } } else s
  setCport p { c with txLsn := (c.txLsn + itemSlots i) % 2048, credit := c.credit - itemSlots i,
                      retry := c.retry ++ [(c.txLsn, i)] } s

/-- Send from the front of a port's queue while the adapter has joined (R211) and credit and the retry buffer allow
(R205). -/
def drainQueue (fuel p : Nat) (s : State) : State :=
  match fuel with
  | 0 => s
  | k + 1 =>
    let c := cport s p
    match c.queue with
    | [] => s
    | i :: t =>
      if linkUp s p && s.fw.joined && mayStart s c i then drainQueue k p (wireOut p i (setCport p { c with queue := t } s))
      else s

/-- Queue an item on a port and send what may go. -/
def enqueueOn (p : Nat) (i : WireItem) (s : State) : State :=
  let s := updCport p (fun c => { c with queue := c.queue ++ [i] }) s
  drainQueue (cport s p).queue.length p s

/-! ### Choosing a route (R215, R219, R220) -/

/-- ROW and RACK of a node identity (Table 3.1). -/
def rowOf (node : Nat) : Nat := fld node 22 17
def rackOf (node : Nat) : Nat := fld node 16 11

/-- Level of the live map for a plane and node: 0 outside PLANE_MASK or without a map (R220). -/
def mapLevel (s : State) (plane node : Nat) : Nat :=
  if s.cf.mapLoaded && fld s.cf.planeMask plane plane == 1
  then (mapGet s.cf.levels (plane * 4096 + rowOf node * 64 + rackOf node)).getD 0 else 0

/-- Links that reach a node: the peer is a switch, or the adapter that holds it. -/
def reaches (s : State) (node p : Nat) : Bool :=
  let c := cport s p
  linkUp s p && (c.peerSwitch || c.peerKnown && c.peerId == node)

/-- Score of a link (R215). -/
def linkScore (s : State) (node p : Nat) : Nat :=
  queuedBytes s p + mapLevel s (cport s p).plane node * wfld (rg s Reg.GX_CF_SPRAY) 15 0 * 1024

/-- Candidates of R215: links that reach the node, none at level 3, and for a retransmission the first
path avoided. -/
def routeCands (s : State) (node : Nat) (retx : Bool) (avoid : Option Nat) : List Nat :=
  let cands := (upPorts s).filter (fun p => reaches s node p && mapLevel s (cport s p).plane node != 3)
  match retx && (rg s Reg.GX_CF_SPRAY).getLsbD 16, avoid with
  | true, some a =>
    let others := cands.filter (fun p => (cport s p).plane != (cport s a).plane)
    if others.isEmpty then
      let others := cands.filter (· != a)
      if others.isEmpty then cands else others
    else others
  | _, _ => cands

/-- The link of R215: the lowest score, ties rotating from the link after the last pick. -/
def chooseLink (s : State) (node : Nat) (retx : Bool) (avoid : Option Nat) : Option Nat :=
  let cands := routeCands s node retx avoid
  let order := (List.range 32).map (fun d => (s.cf.rotor + d) % 32) |>.filter (fun p => cands.contains p)
  order.foldl (fun best p =>
    match best with
    | none => some p
    | some b => if linkScore s node p < linkScore s node b then some p else some b) none

/-! ### What a slot is charged (R265, R269, R275, R276) -/

/-- Traffic that goes ahead of data on a link: scheduling cells, ACK, NACK, RESP_ACK. -/
def isControl (i : WireItem) : Bool :=
  let h := readHdr i.hdr
  h.form == 3 || h.form == 0 && decide (9 ≤ h.kind)

/-- OVERHEAD of a port (R276). -/
def portOverhead (s : State) (p : Nat) : Int := signed 7 (wfld (rgi s Reg.GX_CS_PORT_OVERHEAD p) 6 0)

/-- UNSOL in bytes. -/
def unsol (s : State) : Int := (1024 * wfld (rg s Reg.GX_CS_GRANT) 15 0 : Nat)

/-- Allowance toward a destination: UNSOL for one that is not listed. -/
def allowance (s : State) (node : Nat) : Int := (mapGet s.cs.allow node).getD (unsol s)

/-- Charge a destination; beyond 4,096 destinations SEND_OVERFLOW tells. -/
def chargeAllow (node n : Nat) (s : State) : State :=
  let a := allowance s node
  let full := (mapGet s.cs.allow node).isNone && decide (4096 ≤ s.cs.allow.length)
  let s := { s with cs := { s.cs with allow := mapSet s.cs.allow node (a - n) } }
  if full then raise Reg.GX_CS_EVENTS 1 s else s

/-- Shaper i is enabled; its tokens in eighths of a byte. -/
def shaperOn (s : State) (i : Nat) : Bool := (rgi s Reg.GX_CS_SHAPER_RATE i).getLsbD 31
def shaperTokens (s : State) (i : Nat) : Int := (mapGet s.cs.shapers i).getD 0

/-- The shaper lets traffic pass. -/
def shaperOk (s : State) (i : Nat) : Bool := !(shaperOn s i) || decide (0 < shaperTokens s i)

/-- Charge n bytes to a shaper. -/
def chargeShaper (i : Nat) (n : Int) (s : State) : State :=
  if shaperOn s i then { s with cs := { s.cs with shapers := mapPut 0 s.cs.shapers i (shaperTokens s i - 8 * n) } } else s

/-- Charge an item that leaves on a link, control traffic excepted: its destination's allowance and its instance's
shaper. -/
def chargeItem (p : Nat) (i : WireItem) (s : State) : State :=
  if isControl i then s
  else chargeShaper (256 + i.inst) ((itemBytes i : Nat) + portOverhead s p) (chargeAllow i.node (itemBytes i) s)

/-- Items may leave for a unit: the adapter has joined (R211), and the unit is not fenced (R224). -/
def mayLeave (s : State) (i : WireItem) : Bool :=
  s.fw.joined && !((fenceOf s i.node i.unit).any (fun e => e.state == 2))

/-- Hold an item (R216).  One that may leave is held for want of a candidate link, which counts once (R215). -/
def holdItem (i : WireItem) (s : State) : State :=
  let want := mayLeave s i
  let s := { s with cf := { s.cf with held := s.cf.held ++ [{ i with counted := i.counted || want }] } }
  if want && !i.counted then bump Reg.GX_CF_NO_ROUTE_CNT s else s

/-- Send an item toward its node, or hold it (R215, R216). -/
def routeItem (i : WireItem) (s : State) : State :=
  match if mayLeave s i then chooseLink s i.node i.retx i.avoid else none with
  | some p => enqueueOn p i (chargeItem p i { s with cf := { s.cf with rotor := (p + 1) % 32 } })
  | none => holdItem i s

/-- Route again what is held for a link: what still has none stays held. -/
def retryHeld (s : State) : State :=
  let held := s.cf.held
  held.foldl (fun s i => if i.udp then { s with cf := { s.cf with held := s.cf.held ++ [i] } } else routeItem i s)
    { s with cf := { s.cf with held := [] } }

/-! ### Link states (R207, R208) -/

/-- Forget what a link that left UP held (R207). -/
def dropLink (c : CellPort) : CellPort :=
  { c with retry := [], queue := [], train := none, credit := 0, waitResync := false, suspect := none,
           txLsn := 0, ackedLsn := 0, rxLsn := 0 }

/-- Forget the peer's IDENT and the delay exchange. -/
def clearIdent (c : CellPort) : CellPort :=
  { c with rounds := 0, rtt := 0, sentDone := false, gotDone := false, identTicks := 0 }

/-- Leave UP, if there; PORT_DOWN tells (Table 7.9). -/
def leftUp (p : Nat) (s : State) : State :=
  if (cport s p).state = .up then raise Reg.GX_CF_EVENTS 1 s else s

/-- Enter TRAINING; a receiver that is still there begins an attempt at once (R208). -/
def toTraining (p : Nat) (s : State) : State :=
  let s := leftUp p s
  updCport p (fun c => { clearIdent (dropLink c) with state := .training, attempts := 0, retrain := false }) s

/-- Enter FENCED (R207). -/
def toFenced (p : Nat) (s : State) : State :=
  let s := leftUp p s
  let s := updCport p (fun c => { clearIdent (dropLink c) with state := .fenced, retrain := false,
                                                               spareWait := none }) s
  degraded (raise Reg.GX_CF_EVENTS 4 { s with re := { s.re with portDegraded := true } })

/-- Enter DISABLED. -/
def toDisabled (p : Nat) (s : State) : State :=
  let s := leftUp p s
  updCport p (fun c => { clearIdent (dropLink c) with state := .disabled, detected := false, attempts := 0,
                                                      retrain := false, peerKnown := false }) s

/-- A PORTS section or ADMIN_DOWN 0 lets an enabled cell port train (Table 7.5). -/
def openPort (p : Nat) (s : State) : State :=
  if isCellPort s p && !(adminDown s p) && (cport s p).state == .disabled then toTraining p s else s

/-- RECEIVER_DETECT (R208). -/
def execReceiverDetect (port : Nat) (s : State) : Res :=
  .next (whenOk (powered s && isCellPort s port && (cport s port).state == .training)
    (updCport port (fun c => { c with detected := true })) s)

/-- TRAINING_SUCCESS (R208). -/
def execTrainingSuccess (port : Nat) (s : State) : Res :=
  let c := cport s port
  .next (whenOk (powered s && c.state == .training && c.detected)
    (setCport port { c with state := .fecLock, attempts := 0 }) s)

/-- TRAINING_ATTEMPT_TIMEOUT (R208): three failed attempts fence the port, and end a retrain (R207). -/
def execTrainingAttemptTimeout (port : Nat) (s : State) : Res :=
  let c := cport s port
  .next (whenOk (powered s && c.state == .training && c.detected) (fun s =>
    if 3 ≤ c.attempts + 1 then
      let s := toFenced port s
      classify (mkLog s 1 4 port 1 8 noInst 0 0) s
    else setCport port { c with attempts := c.attempts + 1 } s) s)

/-! ### IDENTIFY (R209) -/

/-- Header of a link control cell (R197). -/
def ctlHdr (ty : Nat) : BitVec 96 := BitVec.ofNat 96 (2 * 2 ^ 94 + ty * 2 ^ 88)

/-- The adapter's IDENT payload (Table 7.6). `delays` is T1, T2, T3. -/
def identPay (s : State) (p : Nat) (reply done : Bool) (round : Nat) (delays : Nat × Nat × Nat) : BitVec 512 :=
  let spare := !(s.cf.spareUsed.contains (portHalf s p))
  let flags := 1 + (if spare then 2 else 0) + (if reply then 4 else 0) + (if done then 8 else 0)
  mkPay ([0, 0] ++ leBytes 1 (activeLanes s p) ++ leBytes 1 flags
    ++ leBytes 4 ((slotNode s 0).getD 0) ++ leBytes 2 Config.initCredit ++ leBytes 1 round
    ++ leBytes 1 (Config.spareGroup (portHalf s p)) ++ leBytes 4 0
    ++ leBytes 8 delays.1 ++ leBytes 8 delays.2.1 ++ leBytes 8 delays.2.2)

/-- Send an IDENT cell. -/
def sendIdent (p : Nat) (reply done : Bool) (round : Nat) (delays : Nat × Nat × Nat) (s : State) : State :=
  emit (.control p (ctlHdr 2) (identPay s p reply done round delays)) s

/-- Start the port's next round, or send DONE after the eighth. -/
def nextRound (p now : Nat) (s : State) : State :=
  let c := cport s p
  if c.rounds < 8 then sendIdent p false false c.rounds (now, 0, 0) s
  else sendIdent p false true 7 (0, 0, 0) (setCport p { c with sentDone := true } s)

/-- Enter UP once both ends have sent and received DONE; after a retrain the counts and the retry buffer
stand and what is not acknowledged goes again (R207). -/
def maybeUp (p : Nat) (credit : Nat) (s : State) : State :=
  let c := cport s p
  if c.sentDone && c.gotDone then
    let c := { c with state := .up, delay := c.rtt / 2, credit := credit, rttLong := 348 < c.rtt,
                      waitResync := false }
    let s := setCport p { c with retrain := false } s
    let s := raise Reg.GX_CF_EVENTS 0 s
    let s := if c.rttLong then raise Reg.GX_CF_EVENTS 5 s else s
    let s := if c.retrain then c.retry.foldl (fun s e => emit (.slot p e.1 e.2) s) s else s
    retryHeld (drainQueue c.queue.length p s)
  else s

/-- What an IDENT says of its peer. -/
def takeIdent (pay : BitVec 512) (c : CellPort) : CellPort :=
  let bs := payBytes pay
  let flags := leAt bs 3 1
  { c with peerSwitch := leAt bs 0 1 == 1, plane := leAt bs 1 1 % 8, peerId := leAt bs 4 4 % 2 ^ 23,
           peerKnown := true, peerAlign := fld flags 0 0 == 1, peerSpareCap := fld flags 1 1 == 1,
           peerSpareGroup := leAt bs 11 1, gotDone := c.gotDone || fld flags 3 3 == 1 }

/-- FEC_LOCK (R208): IDENTIFY begins with round 0. -/
def execFecLock (port now : Nat) (s : State) : Res :=
  let c := cport s port
  .next (whenOk (powered s && c.state == .fecLock) (fun s =>
    nextRound port now (setCport port { clearIdent c with state := .identify } s)) s)

/-- FEC_LOCK_TIMEOUT (R208). -/
def execFecLockTimeout (port : Nat) (s : State) : Res :=
  let c := cport s port
  .next (whenOk (powered s && c.state == .fecLock) (setCport port { c with state := .training }) s)

/-- IDENT_RECEIVE (R209): an initiated round is answered, an answered one is measured; ports 32 and 33 are
the spare lanes of the two halves (R212). -/
def execIdentReceive (port : Nat) (pay : BitVec 512) (now : Nat) (s : State) : Res :=
  let bs := payBytes pay
  let flags := leAt bs 3 1
  if 32 ≤ port then
    .next (whenOk (powered s && port < 34) (fun s => { s with cf := { s.cf with
      spareId := mapSet s.cf.spareId (port - 32) (leAt bs 4 4 % 2 ^ 23, leAt bs 11 1) } }) s)
  else
    .next (whenOk (powered s && (cport s port).state == .identify) (fun s =>
      let s := updCport port (takeIdent pay) s
      let c := cport s port
      let s :=
        if fld flags 2 2 = 1 then
          if leAt bs 10 1 = c.rounds ∧ c.rounds < 8 then
            let rtt := (now - leAt bs 16 8) - (leAt bs 32 8 - leAt bs 24 8)
            let best := if c.rtt = 0 then rtt else min c.rtt rtt
            nextRound port now (setCport port { c with rtt := best, rounds := c.rounds + 1 } s)
          else s
        else if fld flags 3 3 = 1 then s
        else sendIdent port true false (leAt bs 10 1) (leAt bs 16 8, now, now) s
      maybeUp port (8 * leAt bs 8 2) s) s)

/-- IDENT_ROUND_TIMEOUT (R209): 8 tk without a reply. -/
def execIdentRoundTimeout (port now : Nat) (s : State) : Res :=
  let c := cport s port
  .next (whenOk (powered s && c.state == .identify && decide (c.rounds < 8))
    (fun s => nextRound port now (setCport port { c with rounds := c.rounds + 1 } s)) s)

/-- IDENTIFY has lasted 64 tk (Table 7.5). -/
def identExpired (c : CellPort) : Bool := c.state == .identify && 64 ≤ c.identTicks

/-- A port's IDENTIFY ends without DONE; a retrain keeps what R207 keeps. -/
def identExpire (p : Nat) (s : State) : State :=
  let c := cport s p
  if identExpired c then setCport p { clearIdent c with state := .training, attempts := 0 } s else s

/-- IDENT_TIMEOUT (R208). -/
def execIdentTimeout (port : Nat) (s : State) : Res := .next (whenOk (powered s) (identExpire port) s)

/-- CODEWORD_LOCK_LOSS (R208). -/
def execCodewordLockLoss (port : Nat) (s : State) : Res :=
  .next (whenOk (powered s && (cport s port).state == .up) (toTraining port) s)

/-- PORT_ADMIN_DOWN (R208): bit 0 of GX_CF_PORT_CTRL of the indexed port. -/
def execPortAdminDown (down : Bool) (s : State) : Res :=
  let p := wfld (rg s Reg.GX_CF_PORT_INDEX) 4 0
  .next (whenOk (running s) (fun s =>
    let s := putReg (regKey Reg.GX_CF_PORT_CTRL p) (if down then 1 else 0) s
    if isCellPort s p then
      if down then (if (cport s p).state = .fenced then s else toDisabled p s) else openPort p s
    else s) s)

/-- PORT_RESTART (R208): bit 1 of GX_CF_PORT_CTRL of the indexed port. -/
def execPortRestart (s : State) : Res :=
  let p := wfld (rg s Reg.GX_CF_PORT_INDEX) 4 0
  .next (whenOk (running s && isCellPort s p && (cport s p).state == .fenced)
    (fun s => updCport p (fun c => { c with detected := false }) (toTraining p s)) s)

/-! ### The link layer (R203 to R207, R212 to R214) -/

/-- Fence lane l of a port (R207, R212 to R214): the parked spare is retuned if it serves the same peer,
else the port narrows, and without a lane left it is fenced. -/
def fenceLane (p l : Nat) (s : State) : State :=
  let c := cport s p
  let half := portHalf s p
  let usable := !(s.cf.spareUsed.contains half) && c.peerSpareCap
    && mapGet s.cf.spareId half == some (c.peerId, c.peerSpareGroup)
  let lane := if portLanes s ≤ l then 32 + half else p * portLanes s + l
  let s := repair (fun r => { r with fencedLanes := insertNew r.fencedLanes lane }) s
  if c.spareUsed && decide (portLanes s ≤ l) then
    -- The half's spare itself: it is not used again (R214).
    let s := setCport p { c with spareUsed := false, narrowed := true } s
    let s := degraded (raise Reg.GX_CF_EVENTS 3 { s with re := { s.re with portDegraded := true } })
    if activeLanes s p = 0 then toFenced p s else s
  else
    let c := { c with fencedLanes := insertNew c.fencedLanes l }
    if usable then
      setCport p { c with spareWait := some l } { s with cf := { s.cf with spareUsed := s.cf.spareUsed ++ [half] } }
    else
      let s := setCport p { c with narrowed := true } s
      let s := degraded (raise Reg.GX_CF_EVENTS 3 { s with re := { s.re with portDegraded := true } })
      if activeLanes s p = 0 then toFenced p s else s

/-- A lasting fault of a link (R207): on one lane the lane is fenced; else the port retrains once, and a
second such fault within 1,024 tk fences it. -/
def lastingFault (p lsn : Nat) (lane : Option Nat) (s : State) : State :=
  match lane with
  | some l =>
    let s := fenceLane p l s
    classify (mkLog s 0 8 (p * portLanes s + l) 1 (if (cport s p).spareWait.isSome then 5 else 6) noInst lsn 0) s
  | none =>
    let c := cport s p
    let now := s.tick.count.toNat
    match c.lastLasting with
    | some t =>
      if now < t + 1024 then
        let s := toFenced p s
        classify (mkLog s 1 8 p 1 8 noInst lsn 0) s
      else
        classify (mkLog s 1 8 p 1 0 noInst lsn 0)
          (setCport p { clearIdent c with state := .training, attempts := 0, retrain := true, suspect := none,
                                          lastLasting := some now } (raise Reg.GX_CF_EVENTS 1 s))
    | none =>
      classify (mkLog s 1 8 p 1 0 noInst lsn 0)
        (setCport p { clearIdent c with state := .training, attempts := 0, retrain := true, suspect := none,
                                        lastLasting := some now } (raise Reg.GX_CF_EVENTS 1 s))

/-- Acknowledged slots leave the retry buffer: the oldest whose slots the count covers; and how many slots of the
first one that stays are acknowledged. -/
def dropAcked (n : Nat) (l : List (Nat × WireItem)) : List (Nat × WireItem) × Nat :=
  match l with
  | [] => ([], 0)
  | e :: t => if itemSlots e.2 ≤ n then dropAcked (n - itemSlots e.2) t else (e :: t, n)

/-- Go back (R204): everything from the named LSN on goes again, a train from its slot of that LSN on. -/
def resendFrom (p skip : Nat) (retry : List (Nat × WireItem)) (s : State) : State :=
  match retry with
  | [] => s
  | e :: t =>
    let n := (retry.map (fun e => itemSlots e.2)).sum - skip
    let s := { s with cf := { s.cf with retries := mapSet s.cf.retries p ((mapGet s.cf.retries p).getD 0 + n) } }
    t.foldl (fun s e => emit (.slot p e.1 e.2) s) (emit (.slot p ((e.1 + skip) % 2048) e.2) s)

/-- Take the link control word (Table 7.4). -/
def takeLcw (p : Nat) (lcw : BitVec 20) (s : State) : State :=
  let x := lcw.toNat
  let c := cport s p
  let n := (fld x 17 7 + 1 + 2048 - c.ackedLsn) % 2048
  let covered := if c.retry.isEmpty then 0 else n
  let (retry, skip) := dropAcked covered c.retry
  let acked := match retry with
    | e :: _ => e.1
    | [] => c.txLsn
  let s := setCport p { c with retry := retry, ackedLsn := acked, credit := c.credit + 8 * fld x 5 0,
                               waitResync := c.waitResync && fld x 19 18 != 1 } s
  let s := if fld x 6 6 = 1 then resendFrom p skip retry s else s
  drainQueue (cport s p).queue.length p s

/-- Take the slots of a codeword in order (R204). -/
def takeSlots (p : Nat) (lane : Option Nat) (slots : List LinkSlot) (s : State) : State :=
  match slots with
  | [] => s
  | .good counted bytes :: t =>
    let s := { s with cf := { s.cf with rxBytes := mapSet s.cf.rxBytes p ((mapGet s.cf.rxBytes p).getD 0 + bytes) } }
    if counted then
      let c := cport s p
      let lsn := c.rxLsn
      let s := setCport p { c with rxLsn := (lsn + 1) % 2048, suspect := none } s
      let s := if c.suspect = some lsn then
          bump Reg.GX_CF_LINK_RETRY_CNT (classify (mkLog s 1 8 p 0 0 noInst lsn 0) s)
        else s
      takeSlots p lane t s
    else takeSlots p lane t s
  | .bad :: _ =>
    let s := bump Reg.GX_CF_CRC_ERR_CNT s
    let c := cport s p
    let lsn := c.rxLsn
    let s := emit (.nak p ((lsn + 2047) % 2048)) (setCport p { c with waitResync := true, suspect := some lsn } s)
    if c.suspect = some lsn then lastingFault p lsn lane s else s

/-- CODEWORD_RECEIVE (R203, R204, R207): the link control word, then the slots, unless the port waits for
RESYNC.  The accepted slots' own contents arrive as the commands of their kinds. -/
def execCodewordReceive (port : Nat) (lcw : BitVec 20) (slots : List LinkSlot) (corrected : Bool)
    (lane : Option Nat) (s : State) : Res :=
  .next (whenOk (powered s && ((cport s port).state == .up || (cport s port).state == .identify)) (fun s =>
    let s := if corrected then bump Reg.GX_CF_FEC_CORR_CNT s else s
    let s := takeLcw port lcw s
    if (cport s port).waitResync then s else takeSlots port lane slots s) s)

/-- SPARE_LANE_SWAP (R212): the retuned spare takes the fenced lane's place. -/
def execSpareLaneSwap (port : Nat) (s : State) : Res :=
  let c := cport s port
  .next (whenOk (powered s && c.state == .up && c.spareWait.isSome)
    (fun s => raise Reg.GX_CF_EVENTS 2 (setCport port { c with spareWait := none, spareUsed := true } s)) s)

/-! ### Maps, fences, alignment cells -/

/-- The levels of a consolidated map that are not 0 (R219). -/
def readLevels (bs : List Byte) : NMap Nat :=
  (List.range (4 * bs.length)).filterMap (fun i =>
    let v := fld ((bs[i / 4]?).getD 0).toNat (2 * (i % 4) + 1) (2 * (i % 4))
    if v = 0 then none else some (i, v))

/-- A header or the levels of the consolidated map: at LOC LOCAL they are read from the tiers (Table 7.9). -/
def cmapBytes (s : State) (off n : Nat) (given : List Byte) (failed : Bool) : List Byte × Bool :=
  if wfld (rg s Reg.GX_CF_CMAP_CFG) 1 0 = 1 then
    let base := (rg s Reg.GX_CF_CMAP_HI).toNat * 2 ^ 32 + (rg s Reg.GX_CF_CMAP_LO).toNat
    let (bs, bad) := tierRead s (base + off) n
    (bs, bad || !(rangeInInstance s 0 (base + off) n))
  else (given, failed || !s.pc.hstUp)

/-- CMAP_LOAD (R220): the header, the levels and the header again; for a map in host memory as their reads returned
them. -/
def cmapLoad (header levels headerAgain : List Byte) (failed : Bool) (s : State) : State :=
  let (h, bad1) := cmapBytes s 0 64 header failed
  let gen := leAt h 0 4
  if bad1 then raise Reg.GX_CF_EVENTS 7 s
  else if gen % 2 = 1 ∨ gen = s.cf.mapGen then s
  else
    let (l, bad2) := cmapBytes s 64 8192 levels failed
    let (h2, bad3) := cmapBytes s 0 64 headerAgain failed
    if bad2 || bad3 then raise Reg.GX_CF_EVENTS 7 s
    else if leAt h2 0 4 = gen then
      raise Reg.GX_CF_EVENTS 6 { s with cf := { s.cf with mapNext := some (gen, leAt h 4 1, readLevels (l.take 8192)) } }
    else s

/-- CMAP_LOAD (R220). -/
def execCmapLoad (header levels headerAgain : List Byte) (failed : Bool) (s : State) : Res :=
  .next (whenOk (working s && (rg s Reg.GX_CF_CMAP_CFG).getLsbD 31) (cmapLoad header levels headerAgain failed) s)

/-- FENCE_TABLE_WRITE (R222). -/
def execFenceTableWrite (value : Word) (s : State) : Res :=
  let idx := wfld (rg s Reg.GX_CF_FENCE_INDEX) 13 0
  let coord := rg s Reg.GX_CF_FENCE_COORD
  let e : FenceEntry := ⟨wfld coord 28 6, wfld coord 5 0, wfld value 7 6, wfld value 5 0⟩
  let clash := s.cf.fences.any (fun x =>
    x.1 != idx && x.2.node == e.node && x.2.unit == e.unit && x.2.state != 0)
  .next (whenOk (running s) (fun s =>
    if e.state = 3 ∨ (e.state ≠ 0 ∧ clash) then raise Reg.GX_CF_EVENTS 8 s
    else retryHeld { s with cf := { s.cf with
      fences := mapPut ⟨0, 0, 0, 0⟩ s.cf.fences idx e
      fencedAt := if e.state = 2 then s.tick.count.toNat else s.cf.fencedAt } }) s)

/-- The neighbour's offset (R210): `late` is the local edge of tick TICK minus the cell's arrival, in
thirds of a nanosecond, and `delay` the link delay in ns. -/
def takeAlignCell (key : Nat) (pay : BitVec 512) (late : Int) (delay : Nat) (s : State) : State :=
  let bs := payBytes pay
  let state := leAt bs 8 1 % 4
  let off := late + 3 * (delay : Int) + 2 * ((leAt bs 9 1 % 64 : Nat) : Int)
  let s := { s with tick := { s.tick with
    nbrCounts := mapSet s.tick.nbrCounts key (BitVec.ofNat 64 (leAt bs 0 8))
    nbrOffsets := if state = 2 ∨ state = 3 then mapSet s.tick.nbrOffsets key off else s.tick.nbrOffsets } }
  if (state = 2 ∨ state = 3) ∧ s.tick.align = .free ∧ s.tick.behind = false then enterAlign .acquire s else s

/-- The UDP node entry's DELAY_NS, if the entry is VALID (R256). -/
def unodeDelay (s : State) (e : Nat) : Nat :=
  match mapGet s.eth.unodes e with
  | some u => if u.valid then u.delay else 0
  | none => 0

/-- TICK_ALIGN_CELL_RECEIVE (R34, R210): from cell port `port`, or for 32 and above from UDP node entry
port - 32, whose DELAY_NS is the link delay; an entry whose DELAY_NS is 0 gives none (R256). -/
def execTickAlignCellReceive (port : Nat) (pay : BitVec 512) (late : Int) (s : State) : Res :=
  if port < 32 then
    .next (whenOk (running s && linkUp s port) (takeAlignCell port pay late (cport s port).delay) s)
  else
    .next (whenOk (running s && unodeDelay s (port - 32) != 0)
      (takeAlignCell port pay late (unodeDelay s (port - 32))) s)

end Sys2Proof.Machine
end

