-- ==== Sys2Proof/Machine/Cipher.lean ====
section
/-! DEFINITION. AES, GHASH, the modes of Table 15.1, RFC 3394 unwrapping, and the charges of key slots
(R407 to R428). Blocks are lists of 16 bytes. -/

namespace Sys2Proof.Machine

/-! ### AES (FIPS 197) -/

/-- Multiply by x in GF(2^8). -/
def xtime (b : Byte) : Byte := if b.getLsbD 7 then (b <<< 1) ^^^ 0x1B else b <<< 1

/-- Multiply in GF(2^8). -/
def gfMul (a b : Byte) : Byte :=
  ((List.range 8).foldl (fun (st : Byte × Byte) i =>
    (if b.getLsbD i then st.1 ^^^ st.2 else st.1, xtime st.2)) (0, a)).1

/-- The inverse in GF(2^8): the 254th power. -/
def gfInv (a : Byte) : Byte :=
  let a2 := gfMul a a
  let a4 := gfMul a2 a2
  let a8 := gfMul a4 a4
  let a16 := gfMul a8 a8
  let a32 := gfMul a16 a16
  let a64 := gfMul a32 a32
  let a128 := gfMul a64 a64
  gfMul a128 (gfMul a64 (gfMul a32 (gfMul a16 (gfMul a8 (gfMul a4 a2)))))

/-- The S-box and its inverse. -/
def sbox (a : Byte) : Byte :=
  let b := gfInv a
  b ^^^ b.rotateLeft 1 ^^^ b.rotateLeft 2 ^^^ b.rotateLeft 3 ^^^ b.rotateLeft 4 ^^^ 0x63
def invSbox (a : Byte) : Byte := gfInv (a.rotateLeft 1 ^^^ a.rotateLeft 3 ^^^ a.rotateLeft 6 ^^^ 0x05)

/-- Byte i of a list. -/
def nth (l : List Byte) (i : Nat) : Byte := (l[i]?).getD 0

/-- XOR of two byte strings, as long as the shorter. -/
def xorBytes (a b : List Byte) : List Byte := List.zipWith (· ^^^ ·) a b

/-- The key schedule as a list of 4-byte words, newest first. -/
def expandKey (nk total : Nat) (fuel : Nat) (ws : List (List Byte)) (rcon : Byte) : List (List Byte) :=
  match fuel with
  | 0 => ws
  | k + 1 =>
    let i := ws.length
    if total ≤ i then ws
    else
      let prev := (ws.head?).getD []
      let back := (ws[nk - 1]?).getD []
      if i % nk = 0 then
        let t := [sbox (nth prev 1) ^^^ rcon, sbox (nth prev 2), sbox (nth prev 3), sbox (nth prev 0)]
        expandKey nk total k (xorBytes back t :: ws) (xtime rcon)
      else if nk = 8 ∧ i % nk = 4 then expandKey nk total k (xorBytes back (prev.map sbox) :: ws) rcon
      else expandKey nk total k (xorBytes back prev :: ws) rcon

/-- Words of a byte string. -/
def wordsOf (n : Nat) (bs : List Byte) : List (List Byte) := (List.range n).map (fun i => slice bs (4 * i) 4)

/-- Round keys of a key of 16 or 32 bytes, first round first. -/
def roundKeys (key : List Byte) : List (List Byte) :=
  let nk := key.length / 4
  let rounds := nk + 6
  let ws := (expandKey nk (4 * (rounds + 1)) (4 * (rounds + 1)) (wordsOf nk key).reverse 1).reverse
  (List.range (rounds + 1)).map (fun r => ((ws.drop (4 * r)).take 4).flatten)

/-- ShiftRows and its inverse, on the column-major state. -/
def shiftRows (b : List Byte) : List Byte := (List.range 16).map (fun i => nth b ((i + 4 * (i % 4)) % 16))
def invShiftRows (b : List Byte) : List Byte := (List.range 16).map (fun i => nth b ((i + 16 - 4 * (i % 4)) % 16))

/-- One column times a circulant matrix. -/
def mixWith (m : List Byte) (b : List Byte) : List Byte :=
  (List.range 16).map (fun i =>
    let c := i / 4 * 4
    (List.range 4).foldl (fun acc j => acc ^^^ gfMul (nth m ((j + 4 - i % 4) % 4)) (nth b (c + j))) 0)

/-- AES encryption of one block under round keys. -/
def aesEnc (rks : List (List Byte)) (blk : List Byte) : List Byte :=
  match rks with
  | [] => blk
  | rk0 :: rest =>
    let mid := rest.dropLast
    let last := rest.getLast?.getD []
    let b := mid.foldl (fun b rk => xorBytes (mixWith [2, 3, 1, 1] (shiftRows (b.map sbox))) rk) (xorBytes blk rk0)
    xorBytes (shiftRows (b.map sbox)) last

/-- AES decryption of one block under round keys. -/
def aesDec (rks : List (List Byte)) (blk : List Byte) : List Byte :=
  match rks with
  | [] => blk
  | rk0 :: rest =>
    let mid := rest.dropLast
    let last := rest.getLast?.getD []
    let b := (invShiftRows (xorBytes blk last)).map invSbox
    let b := mid.reverse.foldl (fun b rk => (invShiftRows (mixWith [14, 11, 13, 9] (xorBytes b rk))).map invSbox) b
    xorBytes b rk0

/-! ### GHASH and the modes -/

/-- A 16-byte block as a number, byte 0 first. -/
def beNat (bs : List Byte) : Nat := bs.foldl (fun acc b => acc * 256 + b.toNat) 0

/-- The low n bytes of a number, most significant first. -/
def beBytes (n x : Nat) : List Byte := (leBytes n x).reverse

/-- Multiplication in the field of GCM. -/
def ghMul (x y : Nat) : Nat :=
  ((List.range 128).foldl (fun (st : Nat × Nat) i =>
    let z := if x / 2 ^ (127 - i) % 2 = 1 then Nat.xor st.1 st.2 else st.1
    (z, if st.2 % 2 = 1 then Nat.xor (st.2 / 2) (0xE1 * 2 ^ 120) else st.2 / 2)) (0, y)).1

/-- Zero-pad to whole blocks and cut. -/
def blocksOf (bs : List Byte) : List (List Byte) :=
  (List.range ((bs.length + 15) / 16)).map (fun i =>
    let b := slice bs (16 * i) 16
    b ++ List.replicate (16 - b.length) 0)

/-- GHASH over additional data and ciphertext (SP 800-38D). -/
def ghash (h : Nat) (aad c : List Byte) : Nat :=
  let step := fun (y : Nat) (b : List Byte) => ghMul (Nat.xor y (beNat b)) h
  let y := (blocksOf aad ++ blocksOf c).foldl step 0
  ghMul (Nat.xor y (8 * aad.length * 2 ^ 64 + 8 * c.length)) h

/-- Key bytes of a slot. -/
def slotKey (k : KeySlot) : List Byte := leBytes (if k.aes256 then 32 else 16) k.key.toNat

/-- Counter block: a 12-byte IV and a counter. -/
def ctrBlock (iv : List Byte) (n : Nat) : List Byte := iv ++ beBytes 4 n

/-- Key stream of n blocks from a counter. -/
def ctrStream (rks : List (List Byte)) (iv : List Byte) (from_ n : Nat) : List Byte :=
  ((List.range n).map (fun i => aesEnc rks (ctrBlock iv (from_ + i)))).flatten

/-- CTR encryption or decryption from a counter. -/
def ctrCrypt (rks : List (List Byte)) (iv : List Byte) (from_ : Nat) (bs : List Byte) : List Byte :=
  xorBytes bs (ctrStream rks iv from_ ((bs.length + 15) / 16))

/-- GCM tag of additional data and ciphertext under an IV (R418). -/
def gcmTag (rks : List (List Byte)) (iv aad c : List Byte) : List Byte :=
  let h := beNat (aesEnc rks (List.replicate 16 0))
  xorBytes (beBytes 16 (ghash h aad c)) (aesEnc rks (ctrBlock iv 1))

/-- CBC encryption of whole blocks. -/
def cbcEnc (rks : List (List Byte)) (iv : List Byte) (blocks : List (List Byte)) : List Byte :=
  (blocks.foldl (fun (st : List Byte × List Byte) b =>
    let c := aesEnc rks (xorBytes b st.2)
    (st.1 ++ c, c)) ([], iv)).1

/-- CBC decryption of whole blocks. -/
def cbcDec (rks : List (List Byte)) (iv : List Byte) (blocks : List (List Byte)) : List Byte :=
  (blocks.foldl (fun (st : List Byte × List Byte) b => (st.1 ++ xorBytes (aesDec rks b) st.2, b)) ([], iv)).1

/-- CFB-128 in either direction; the last segment uses the leading bytes of its cipher output. -/
def cfbCrypt (rks : List (List Byte)) (iv : List Byte) (dec : Bool) (bs : List Byte) : List Byte :=
  ((List.range ((bs.length + 15) / 16)).foldl (fun (st : List Byte × List Byte) i =>
    let b := slice bs (16 * i) 16
    let o := xorBytes b (aesEnc rks st.2)
    (st.1 ++ o, if dec then b else o)) ([], iv)).1

/-- OFB in either direction. -/
def ofbCrypt (rks : List (List Byte)) (iv : List Byte) (bs : List Byte) : List Byte :=
  ((List.range ((bs.length + 15) / 16)).foldl (fun (st : List Byte × List Byte) i =>
    let o := aesEnc rks st.2
    (st.1 ++ xorBytes (slice bs (16 * i) 16) o, o)) ([], iv)).1

/-! ### Sealed blobs (R422, R423) -/

/-- The blob of a plaintext under a slot: `rand` is the IV drawn for CBC, CFB-128 and OFB. -/
def sealBlob (k : KeySlot) (rand : BitVec 128) (p : List Byte) : List Byte :=
  let rks := roundKeys (slotKey k)
  let iv := leBytes 16 rand.toNat
  match k.mode with
  | 0 =>
    let pad := 16 - p.length % 16
    iv ++ cbcEnc rks iv (blocksOf (p ++ List.replicate pad (BitVec.ofNat 8 pad)))
  | 1 => iv ++ cfbCrypt rks iv false p
  | 2 => iv ++ ofbCrypt rks iv p
  | _ =>
    let head := leBytes 4 k.salt.toNat ++ beBytes 8 k.invocation ++ List.replicate 4 0
    let iv12 := head.take 12
    if k.mode = 3 then head ++ ctrCrypt rks iv12 1 p
    else
      let c := ctrCrypt rks iv12 2 p
      head ++ c ++ gcmTag rks iv12 head c

/-- Plaintext bytes that an open of a blob writes (R423). -/
def openLen (mode len : Nat) : Nat := len - 16 - (if mode = 4 then 16 else 0)

/-- Open a blob: the C plaintext bytes, the pad, and whether the tag or the pad is good (R423). -/
def openBlob (k : KeySlot) (blob : List Byte) : List Byte × Nat × Bool :=
  let rks := roundKeys (slotKey k)
  let iv := blob.take 16
  let c := slice blob 16 (openLen k.mode blob.length)
  match k.mode with
  | 0 =>
    let p := cbcDec rks iv (blocksOf c)
    let pad := ((p.getLast?).getD 0).toNat
    let good := 1 ≤ pad && pad ≤ 16 && ((p.drop (p.length - pad)).all (fun b => b.toNat == pad))
    (p, if good then pad else 0, good)
  | 1 => (cfbCrypt rks iv true c, 0, true)
  | 2 => (ofbCrypt rks iv c, 0, true)
  | 3 => (ctrCrypt rks (iv.take 12) 1 c, 0, true)
  | _ =>
    let tag := blob.drop (16 + c.length)
    (ctrCrypt rks (iv.take 12) 2 c, 0, gcmTag rks (iv.take 12) iv c == tag)

/-! ### RFC 3394 -/

/-- Unwrap n 64-bit blocks under a key-encryption key; none when the integrity check fails. -/
def unwrapKey (kek : List Byte) (wrapped : List Byte) : Option (List Byte) :=
  let rks := roundKeys kek
  let n := wrapped.length / 8 - 1
  let step := fun (st : List Byte × List (List Byte)) (t : Nat) =>
    let i := (t - 1) % n
    let b := aesDec rks (xorBytes st.1 (beBytes 8 t) ++ (st.2[i]?).getD [])
    (b.take 8, st.2.set i (b.drop 8))
  let r0 := (List.range n).map (fun i => slice wrapped (8 * (i + 1)) 8)
  let (a, r) := ((List.range (6 * n)).map (fun j => 6 * n - j)).foldl step (wrapped.take 8, r0)
  if a = List.replicate 8 0xA6 then some r.flatten else none

/-! ### Slots and charges (R410, R416, R417, R425) -/

/-- A key slot. -/
def keySlot (s : State) (n : Nat) : KeySlot := (mapGet s.ce.slots n).getD {}

/-- Change a key slot; an EMPTY one leaves the table. -/
def setKeySlot (n : Nat) (k : KeySlot) (s : State) : State :=
  { s with ce := { s.ce with slots := mapPut {} s.ce.slots n k } }

/-- The slot that a queue pair has with a binding. -/
def qpSlot (s : State) (qpn binding : Nat) : Option Nat :=
  (s.ce.slots.find? (fun e => e.2.state != 0 && e.2.binding == binding && e.2.qpn == qpn)).map Prod.fst

/-- The mode of a queue pair's slot of a binding. -/
def qpMode (s : State) (qpn binding : Nat) : Option Nat :=
  (qpSlot s qpn binding).map (fun n => (keySlot s n).mode)

/-- A slot becomes EXHAUSTED (R425). -/
def exhaust (n : Nat) (s : State) : State :=
  bump Reg.GX_CE_EXHAUSTED_CNT (raise Reg.GX_CE_EVENTS 1 (setKeySlot n { keySlot s n with state := 2 } s))

/-- Charge a slot whole; false when the charge is not taken (R425, R426).  A waiting REKEY or ERASE admits no
new charge (R415): its work waits, which `chargeWaits` tells.  The 2^31st message of a queue-pair slot exhausts it
(R417). -/
def charge (n blocks : Nat) (s : State) : State × Bool :=
  let k := keySlot s n
  if k.state != 1 then (s, false)
  else if k.limit < k.used + blocks then (exhaust n s, false)
  else
    let s := setKeySlot n { k with used := k.used + blocks, messages := k.messages + 1 } s
    (if k.binding ≤ 1 ∧ k.messages + 1 = 2 ^ 31 then exhaust n s else s, true)

/-- New charges of the slot wait (R415). -/
def chargeWaits (s : State) (n : Nat) : Bool := (keySlot s n).change.isSome

/-- Blocks that a network message is charged (R425): its data cells' fills, and 1 under GCM. -/
def msgBlocks (mode : Nat) (fills : List Nat) : Nat :=
  (fills.map (fun f => (f + 15) / 16)).sum + (if mode = 4 then 1 else 0)

/-- IV of a network message, in network byte order (R417). -/
def msgIv (k : KeySlot) (msn : Nat) : List Byte := beBytes 4 k.salt.toNat ++ List.replicate 4 0 ++ beBytes 4 msn

/-- Encrypt or decrypt the bytes of data cell `idx` (R417). -/
def cellCrypt (k : KeySlot) (msn idx : Nat) (bs : List Byte) : List Byte :=
  ctrCrypt (roundKeys (slotKey k)) (msgIv k msn) (2 + 4 * idx) bs

/-- The tag of a message (R418) from its cells' ciphertext in order. -/
def msgTag (k : KeySlot) (msn dqpn kind len imm : Nat) (cells : List (List Byte)) : List Byte :=
  let aad := beBytes 4 msn ++ beBytes 2 dqpn ++ beBytes 1 kind ++ [0] ++ beBytes 4 len ++ beBytes 4 imm
  let c := (cells.map (fun x => x ++ List.replicate (64 - x.length) 0)).flatten
  gcmTag (roundKeys (slotKey k)) (msgIv k msn) aad c

/-- Count bytes encrypted or decrypted (Table 15.8). -/
def cryptCount (n : Nat) (s : State) : State := { s with ce := { s.ce with bytes := s.ce.bytes + n } }

end Sys2Proof.Machine
end

