-- ==== Sys2Proof/Machine/Bond.lean ====
section
/-! DEFINITION. Bonded Flocks and the unit actions that their home adapter sends to the members (R58, R70 to
R72). -/

namespace Sys2Proof.Machine

/-- The BONDS entry of a bonded Flock. -/
def bondOf (s : State) (f : Flock) : Option LzBond :=
  if f.bonded then s.lz.run.bonds.find? (fun b => b.id == f.bond) else none

/-- Bonded Flocks at or beneath a Flock. -/
def bondedBeneath (s : State) (a : Nat) : List Flock :=
  s.lz.run.flocks.filter (fun f => f.bonded && beneath s.lz.run a f.id)

/-- An instance is or holds a bonded Flock (Table 16.10). -/
def instBonded (s : State) (n : Nat) : Bool :=
  match instFlock s.lz.run n with
  | none => false
  | some a => !(bondedBeneath s a).isEmpty

/-- An instance lies in a bonded Flock that is not formed yet, which accepts no work (R58). -/
def bondWaits (s : State) (n : Nat) : Bool :=
  match instFlock s.lz.run n with
  | none => false
  | some a => s.lz.run.flocks.any (fun f => f.bonded && beneath s.lz.run f.id a && !(s.lz.formed.contains f.id))

/-- Members of a bond that a home adapter sends an action to: those that it has not fenced (R71). -/
def bondMembers (s : State) (b : LzBond) : List Nat :=
  ((List.range b.members).drop 1).filter (fun m => !(s.lz.fencedMembers.contains (b.id, m)))

/-- Start a unit action on every formed bonded Flock at or beneath a Flock whose home this adapter is: it goes
to each member over the cell fabric (R70).  An action of a kind that runs there already takes the new one in, and
a stronger one takes over a weaker (R72). -/
def startUnits (a : Nat) (kind : UnitActionKind) (s : State) : State :=
  (bondedBeneath s a).foldl (fun s f =>
    match bondOf s f with
    | none => s
    | some b =>
      let ms := bondMembers s b
      if b.index != 0 || !(s.lz.formed.contains f.id) || ms.isEmpty
          || s.lz.unitActions.any (fun u => u.flock == f.id && u.kind == kind) then s
      else
        ms.foldl (fun s m => { s with out := s.out ++ [.unitAction f.id m kind] })
          { s with lz := { s.lz with unitActions :=
              s.lz.unitActions.filter (fun u => u.flock != f.id) ++ [⟨f.id, kind, ms, s.tick.count, false⟩] } }) s

/-- Unit actions of a kind at or beneath a Flock. -/
def unitActionsOf (s : State) (a : Nat) (kind : UnitActionKind) : List UnitAction :=
  s.lz.unitActions.filter (fun u => u.kind == kind && beneath s.lz.run a u.flock)

/-- Every member has acknowledged, or has been fenced (R70, R71). -/
def unitsDone (s : State) (a : Nat) (kind : UnitActionKind) : Bool := (unitActionsOf s a kind).all (fun u => u.waiting.isEmpty)

/-- A member was fenced while the action ran: it completes DEGRADED (R71). -/
def unitsDegraded (s : State) (a : Nat) (kind : UnitActionKind) : Bool := (unitActionsOf s a kind).any (fun u => u.degraded)

/-- The unit actions of a kind at or beneath a Flock are over. -/
def endUnits (a : Nat) (kind : UnitActionKind) (s : State) : State :=
  { s with lz := { s.lz with unitActions :=
      s.lz.unitActions.filter (fun u => !(u.kind == kind && beneath s.lz.run a u.flock)) } }

/-- A member's acknowledgement; a halt or fence, which nothing waits for, ends with the last one. -/
def unitAcked (flock member : Nat) (s : State) : State :=
  let take := fun (u : UnitAction) =>
    if u.flock = flock then { u with waiting := u.waiting.filter (· != member) } else u
  { s with lz := { s.lz with unitActions := (s.lz.unitActions.map take).filter (fun u =>
      !(u.waiting.isEmpty && (u.kind == .halt || u.kind == .fence))) } }

end Sys2Proof.Machine
end

