-- ==== Sys2Proof/Machine/Rings.lean ====
section
/-! DEFINITION. Rings: registration, polling, the reservation of completion slots, completions and halts
(R128 to R160). -/

namespace Sys2Proof.Machine

/-- Status codes (Table 5.12). -/
abbrev stOk : Nat := 0
abbrev stAborted : Nat := 1
abbrev stAbortedReset : Nat := 2
abbrev stXlateFault : Nat := 3
abbrev stRemoteAccess : Nat := 4
abbrev stAuthFail : Nat := 5
abbrev stMemberTimeout : Nat := 6
abbrev stMemberFenced : Nat := 7
abbrev stKeyExhausted : Nat := 8
abbrev stMalformed : Nat := 9
abbrev stRetryExceeded : Nat := 10
abbrev stMemUncorrectable : Nat := 11
abbrev stMoved : Nat := 12
abbrev stDegraded : Nat := 13

/-! ### Records -/

/-- The record of a ring. -/
def ringOf (s : State) (r : Nat) : Option Ring := mapGet s.q.rings r

/-- Change a ring's record. -/
def updRing (r : Nat) (f : Ring → Ring) (s : State) : State :=
  { s with q := { s.q with rings := mapModify s.q.rings r f } }

/-- Slots of a ring. -/
def ringSize (g : Ring) : Nat := 2 ^ g.log2

/-- Key of an operation: its ring and the slot of its FIRST entry. -/
def opKey (ring slot : Nat) : Nat := ring * 65536 + slot

/-- The accepted entry at a slot of a ring. -/
def opAt (s : State) (ring slot : Nat) : Option Op :=
  (ringOf s ring).bind (fun g => g.ops.find? (fun o => o.slot == slot))

/-- Bytes of an entry. -/
def entryBytes (e : BitVec 512) : List Byte := leBytes 64 e.toNat

/-- A field of an entry: n bytes at an offset. -/
def ef (e : BitVec 512) (off n : Nat) : Nat := e.toNat / 2 ^ (8 * off) % 2 ^ (8 * n)

/-- OPCODE and QPN of an entry (Table 5.4). -/
def entryOpcode (e : BitVec 512) : Nat := ef e 1 1
def entryQpn (e : BitVec 512) : Nat := ef e 2 2
def entryLength (e : BitVec 512) : Nat := ef e 4 4

/-- Change the entries of an operation's chain. -/
def updChain (ring head : Nat) (f : Op → Op) (s : State) : State :=
  updRing ring (fun g => { g with ops := g.ops.map (fun o => if o.head = head then f o else o) }) s

/-- An operation ends: every accepted entry of its chain gets its completion (R146).  A second end changes
nothing: an entry yields exactly one completion (R138). -/
def finishOp (ring head : Nat) (c : Completion) (s : State) : State :=
  updRing ring (fun g =>
    let chain := g.ops.filter (fun o => o.head == head)
    let tag := (chain.head?.map (fun o => ef o.entry 8 8)).getD 0
    let last := (chain.getLast?.map (·.slot)).getD head
    { g with ops := g.ops.map (fun o =>
        if o.head = head ∧ o.done = none then
          { o with done := some (if o.slot = last then { c with tag := tag }
              else { status := c.status, detail := c.detail, cont := true, recv := c.recv, tag := tag }) }
        else o) }) s

/-- A management operation ends with a status. -/
def mgmtDone (slot status : Nat) (s : State) : State := finishOp 0 slot { status := status } s

/-- An accepted management operation that has not ended, with its OPCODE. -/
def mgmtOp (s : State) (slot opcode : Nat) : Option Op :=
  (opAt s 0 slot).bind (fun o =>
    if o.done.isNone && o.whole && o.malformed.isNone && entryOpcode o.entry == opcode then some o else none)

/-! ### Ring memory (R129, R137) -/

/-- The accelerator port's record. -/
def accPort (s : State) (p : Nat) : AccPort := (mapGet s.pc.acc p).getD {}

/-- Write bytes where a ring lies; true when the write failed. -/
def placeWrite (loc addr : Nat) (bs : List Byte) (s : State) : State × Bool :=
  if loc = 5 then tierPut addr bs s
  else if loc = 0 then (emit (.busWrite 0 (BitVec.ofNat 64 addr) bs) s, !s.pc.hstUp)
  else if (accPort s (loc - 1)).state = .ready then (emit (.busWrite loc (BitVec.ofNat 64 addr) bs) s, false)
  else (s, true)

/-- Read 64 bytes of a slot: tier memory as it stands, another place as its read returned. -/
def slotRead (s : State) (g : Ring) (slot : Nat) (given : BitVec 512) : BitVec 512 :=
  if g.loc = 5 then BitVec.ofNat 512 (leNat (tierRead s (g.base.toNat + 64 * slot) 64).1) else given

/-- The read of a slot of n bytes failed: an uncorrectable or withdrawn byte, a port that is not READY, or
as its read returned. -/
def slotReadFails (s : State) (g : Ring) (slot n : Nat) (failed : Bool) : Bool :=
  if g.loc = 5 then (tierRead s (g.base.toNat + n * slot) n).2
  else if g.loc = 0 then failed || !s.pc.hstUp
  else failed || (accPort s (g.loc - 1)).state != .ready

/-- OWN of a CQ slot, read the same way. -/
def cqOwn (s : State) (g : Ring) (slot : Nat) (own : Bool) : Bool :=
  if g.loc = 5 then ((tierRead s (g.base.toNat + 32 * slot) 1).1.headD 0).getLsbD 0 else own

/-- The 32 bytes of a completion, with OWN 0 (Table 5.7). -/
def completionBytes (ring : Nat) (o : Op) (c : Completion) : List Byte :=
  leBytes 1 ((if c.cont then 2 else 0) + (if c.recv then 4 else 0)) ++ leBytes 1 c.status
    ++ leBytes 2 ring ++ leBytes 2 o.slot ++ leBytes 1 c.detail ++ leBytes 1 (entryOpcode o.entry)
    ++ leBytes 8 c.tag ++ leBytes 4 c.bytes ++ leBytes 4 c.imm ++ leBytes 8 c.aux

/-! ### Halts (R154, R155) -/

/-- Record a halt in the sticky registers, if they hold none. -/
def recordHalt (n ring slot reason : Nat) (s : State) : State :=
  if (rg s Reg.GX_Q_HALT_INFO).getLsbD 31 then s
  else
    putReg Reg.GX_Q_HALT_WHERE (BitVec.ofNat 32 (ring * 65536 + slot))
      (putReg Reg.GX_Q_HALT_INFO (BitVec.ofNat 32 (2 ^ 31 + reason * 2 ^ 24 + n)) s)

/-- Stop a management operation that may have cells under way: it ends with the status once they are
acknowledged (Table 16.5), at once when none are. -/
def stopMgmt (slot status : Nat) (s : State) : State :=
  match mapGet s.tp.runs (opKey 0 slot) with
  | some _ => { s with tp := { s.tp with runs := mapModify s.tp.runs (opKey 0 slot) (fun r =>
      { r with stopped := some status }) } }
  | none => mgmtDone slot status s

/-- Management operations of an OPCODE that name an instance and run: started, and not ended (Table 16.5). -/
def instOps (s : State) (n opcode : Nat) : List Nat :=
  match ringOf s 0 with
  | none => []
  | some g => (g.ops.filter (fun o => o.started && o.done.isNone && o.malformed.isNone
      && entryOpcode o.entry == opcode && ef o.entry 16 2 % 512 == n)).map (·.slot)

/-- SAVE and RESTORE operations that run on an instance stop and end with a status (Table 16.5). -/
def stopMoves (n status : Nat) (s : State) : State :=
  (instOps s n 0x1B ++ instOps s n 0x1C).foldl (fun s slot => stopMgmt slot status s) s

/-- An accepted FREEZE or THAW of an instance that has not completed ends ABORTED (Table 16.5). -/
def dropFreeze (n : Nat) (s : State) : State :=
  let i := inst s n
  let s := (i.freeze.map Prod.fst).elim s (fun slot => mgmtDone slot stAborted s)
  let s := (i.thaw.map Prod.fst).elim s (fun slot => mgmtDone slot stAborted s)
  setInst n { inst s n with freeze := none, thaw := none } s

/-- An instance enters HALTED; a FREEZE in progress and a running SAVE or RESTORE of it end ABORTED. -/
def enterHalted (n reason : Nat) (s : State) : State :=
  let i := inst s n
  if i.state == .ready || i.state == .freezing || i.state == .frozen then
    let s := stopMoves n stAborted (dropFreeze n s)
    let s := setInst n { inst s n with reason := reason } s
    let s := (instFlock s.lz.run n).elim s (fun a => startUnits a .halt s)
    raise Reg.GX_Q_EVENTS 0 (enterState n .halted s)
  else s

/-- Halt an instance for a malformed entry or a ring access failure (R154). -/
def haltInstance (n ring slot reason : Nat) (s : State) : State :=
  let i := inst s n
  if i.state == .ready || i.state == .freezing || i.state == .frozen then
    enterHalted n reason (recordHalt n ring slot reason s)
  else s

/-- Halt the whole adapter for a malformed management entry (R155). -/
def haltAdapter (ring slot reason : Nat) (s : State) : State :=
  let s := recordHalt 0 ring slot reason s
  let s := (s.vi.insts.map Prod.fst).foldl (fun s n => enterHalted n reason s) s
  raise Reg.GX_Q_EVENTS 1 { s with gl := { s.gl with adapterHalt := true } }

/-- A failure that a ring's owner answers for: the management rings halt the adapter. -/
def haltFor (ring slot reason : Nat) (s : State) : State :=
  match ringOf s ring with
  | none => s
  | some g => if ring < 2 then haltAdapter ring slot reason s else haltInstance g.inst ring slot reason s

/-! ### Reservation, polling, doorbells (R138, R139, R148 to R151) -/

/-- The adapter serves a submission ring: registered, not stopping, its instance READY, its polling begun,
the queue-scheduling Bantam up (R131, R157, R158). -/
def sqServed (s : State) (r : Nat) (g : Ring) : Bool :=
  g.kind == .sq && g.shutting.isNone && !bantamBusy s 1
    && !(s.q.scanning.any (fun x => (ringOf s x).any (fun y => y.inst == g.inst)))
    && (if r < 2 then s.q.mgmtActive else g.polled && instWorks s g.inst)

/-- What the budget says of a poll or check of a ring (R150). -/
inductive Serve where
  | now (s : State)
  | later (s : State)

/-- Charge a poll or check of an SQ to the budget; the polls that waited come first. -/
def chargePoll (r : Nat) (doorbell : Bool) (s : State) : Serve :=
  if r < 2 then .now s
  else if s.q.issued.contains r then
    .now { s with q := { s.q with issued := s.q.issued.filter (· != r), budget := s.q.budget - 1 } }
  else if s.q.issued.length < s.q.budget then .now { s with q := { s.q with budget := s.q.budget - 1 } }
  else if s.q.deferred.any (fun d => d.1 == r) then
    .later { s with q := { s.q with deferred := s.q.deferred.map (fun d =>
      if d.1 = r then (r, d.2 || doorbell) else d) } }
  else
    .later (raise Reg.GX_Q_EVENTS 2 (bump Reg.GX_Q_POLL_DEFER_CNT
      { s with q := { s.q with deferred := s.q.deferred ++ [(r, doorbell)] } }))

/-- Back-off after a poll that found OWN 0 (R149); a doorbell's poll changes nothing (R151). -/
def backOff (g : Ring) : Ring :=
  if g.doorbell then { g with doorbell := false }
  else { g with interval := min g.maxInt (if g.interval = 0 then 1 else 2 * g.interval) }

/-- SQ_POLL (R148 to R150): the next slot is read; `entry` is what the read returned for a ring that does not
lie in tier memory. -/
def pollSq (ring : Nat) (entry : BitVec 512) (failed : Bool) (s : State) : State :=
  match ringOf s ring with
  | none => s
  | some g =>
    if !(sqServed s ring g && g.reserved && g.fetched.isNone) then s else
    match chargePoll ring g.doorbell s with
    | .later s => s
    | .now s =>
      let s := bump Reg.GX_Q_POLL_CNT s
      let slot := g.nextFetch % ringSize g
      if slotReadFails s g slot 64 failed then haltFor ring slot 9 s
      else
        let e := slotRead s g slot entry
        if e.getLsbD 0 then
          updRing ring (fun g => { g with interval := g.pollInt, doorbell := false, fetched := some e }) s
        else updRing ring backOff s

/-- SQ_POLL (R148). -/
def execSqPoll (ring : Nat) (entry : BitVec 512) (failed : Bool) (s : State) : Res :=
  .next (whenOk (working s) (pollSq ring entry failed) s)

/-- Take the reservation of the next CQ slot for a ring. -/
def reserveSlot (ring cq : Nat) (s : State) : State :=
  updRing cq (fun c => { c with resNext := c.resNext + 1 })
    (updRing ring (fun g => { g with reserved := true }) s)

/-- CQ_RESERVATION_CHECK of an SQ (R139): the slot after every slot written or reserved. -/
def checkCq (ring : Nat) (own failed : Bool) (s : State) : State :=
  match ringOf s ring with
  | none => s
  | some g =>
    if !(sqServed s ring g && !g.reserved) then s else
    match ringOf s g.cq with
    | none => s
    | some c =>
      match chargePoll ring g.doorbell s with
      | .later s => s
      | .now s =>
        let s := bump Reg.GX_Q_POLL_CNT s
        let slot := c.resNext % ringSize c
        if slotReadFails s c slot 32 failed then haltFor g.cq slot 9 s
        else if cqOwn s c slot own then reserveSlot ring g.cq s
        else updRing ring (fun g => { g with doorbell := false }) s

/-- CQ_RESERVATION_CHECK (R139). -/
def execCqReservationCheck (ring : Nat) (own failed : Bool) (s : State) : Res :=
  .next (whenOk (working s) (checkCq ring own failed) s)

/-- DOORBELL (R151): a write of GX_INST_DOORBELL in the page of instance n.  A CQ's doorbell lets the first
ring that waits for its slot check it at once. -/
def doorbell (n ring : Nat) (s : State) : State :=
  let bad := raise Reg.GX_Q_EVENTS 3 (bump Reg.GX_Q_DOORBELL_BAD_CNT s)
  match ringOf s ring with
  | none => bad
  | some g =>
    if g.inst ≠ n then bad
    else
      match g.kind with
      | .rq => bad
      | .sq =>
        { (updRing ring (fun g => { g with doorbell := true }) s) with
          q := { (updRing ring (fun g => { g with doorbell := true }) s).q with
            deferred := s.q.deferred.map (fun d => if d.1 = ring then (ring, true) else d) } }
      | .cq =>
        match s.q.rings.find? (fun e => e.2.kind == .sq && e.2.cq == ring && !e.2.reserved) with
        | some e => updRing e.1 (fun g => { g with doorbell := true }) s
        | none => s

/-- DOORBELL (R151). -/
def execDoorbell (n ring : Nat) (s : State) : Res :=
  .next (whenOk (running s && (inst s n).state != .disabled) (doorbell n (ring % 32768)) s)

/-! ### Release of completions (R137, R140, R142) -/

/-- The completion at the head of a ring is ready. -/
def headReady (g : Ring) : Option (Op × Completion) :=
  match g.ops with
  | o :: _ => if o.flush.isEmpty then o.done.map (fun c => (o, c)) else none
  | [] => none

/-- Write the completion at the head of a ring, and return its slot; true when a write failed. -/
def releaseHead (r : Nat) (s : State) : State × Bool :=
  match ringOf s r with
  | none => (s, false)
  | some g =>
    match headReady g, ringOf s g.cq with
    | some (o, c), some q =>
      let cqSlot := q.wrNext % ringSize q
      let bs := completionBytes r o c
      let at_ := q.base.toNat + 32 * cqSlot
      let (s, f1) := placeWrite q.loc (at_ + 1) (bs.drop 1) s
      let (s, f2) := placeWrite q.loc at_ (bs.take 1) s
      let (s, f3) := placeWrite g.loc (g.base.toNat + 64 * o.slot) (leBytes 1 (ef o.entry 0 1 / 2 * 2)) s
      if f1 || f2 || f3 then (s, true)
      else
        let s := updRing g.cq (fun q => { q with wrNext := q.wrNext + 1 }) s
        (updRing r (fun g => { g with ops := g.ops.drop 1, nextDone := g.nextDone + 1,
                                      last := some (o.slot, cqSlot, bs, ef o.entry 0 1 / 2 * 2) }) s, false)
    | _, _ => (s, false)

/-- Write completions from the head of a ring while they are ready. -/
def releaseAll (fuel r : Nat) (s : State) : State :=
  match fuel with
  | 0 => s
  | k + 1 =>
    match (ringOf s r).bind headReady with
    | none => s
    | some (o, _) =>
      let (s, bad) := releaseHead r s
      if bad then haltFor r o.slot 9 s else releaseAll k r s

/-- Completions of an instance are written while no halt or hard reset holds them (R154, R441). -/
def mayRelease (s : State) (r : Nat) (g : Ring) : Bool :=
  r < 2 || (inst s g.inst).state != .halted

/-- COMPLETION_RELEASE (R140): `failed` tells that a write over PCIe failed (R153). -/
def execCompletionRelease (ring : Nat) (failed : Bool) (s : State) : Res :=
  .next (whenOk (working s) (fun s =>
    match ringOf s ring with
    | none => s
    | some g =>
      match headReady g with
      | none => s
      | some (o, _) =>
        if !(mayRelease s ring g) then s
        else if failed && g.loc != 5 then haltFor ring o.slot 9 s
        else
          let (s', bad) := releaseHead ring s
          if bad then haltFor ring o.slot 9 s' else s') s)

/-! ### Registration (R131 to R133) -/

/-- Number of instances' rings that the quota counts. -/
def ringCount (s : State) (n : Nat) : Nat := (s.q.rings.filter (fun e => e.2.inst == n && 2 ≤ e.1)).length

/-- The instance exists (R430). -/
def instExists (s : State) (n : Nat) : Bool := (inst s n).state != .disabled

/-- A ring as a RING_REGISTER body gives it (Table 5.2). -/
def ringFromEntry (slot : Nat) (e : BitVec 512) : Nat × Ring :=
  let kind := match ef e 26 1 with
    | 0 => RingKind.sq
    | 1 => RingKind.cq
    | _ => RingKind.rq
  (ef e 24 2 % 32768,
   { kind := kind, base := BitVec.ofNat 64 (ef e 16 8), loc := ef e 27 1, log2 := ef e 28 1
     inst := ef e 30 2 % 512, cq := ef e 32 2 % 32768
     pollInt := if kind = .sq then ef e 34 2 else 0
     maxInt := if kind = .sq then ef e 36 2 else 0
     interval := if kind = .sq then ef e 34 2 else 0
     space := ef e 38 4 % 2 ^ 20, regBy := some slot })

/-- R132: RING_REGISTER is refused. -/
def registerRefused (s : State) (r : Nat) (g : Ring) : Bool :=
  (ringOf s r).isSome || !(instExists s g.inst)
    || (g.kind != .cq && (match ringOf s g.cq with
      | some c => c.kind != .cq || c.inst != g.inst || decide (g.cq < 2)
      | none => true))
    || (g.loc == 5 && !(rangeInInstance s g.inst g.base.toNat
        (ringSize g * (if g.kind = .cq then 32 else 64)) && decide (g.base.toNat < tier2End)))
    || decide (32768 ≤ s.q.rings.length)

/-- A command that would pass a quota is refused (R433). -/
def quotaRefused (slot : Nat) (s : State) : State := raise Reg.GX_VI_EVENTS 2 (mgmtDone slot stAborted s)

/-- RING_REGISTER (R131, R132): an accepted management entry. -/
def execRingRegister (slot : Nat) (s : State) : Res :=
  .next (whenOk (working s) (fun s =>
    match mgmtOp s slot 0x10 with
    | none => s
    | some o =>
      let (r, g) := ringFromEntry slot o.entry
      if registerRefused s r g then mgmtDone slot stAborted s
      else if wfld (rgi s Reg.GX_VI_QUOTA_RINGS g.inst) 14 0 ≤ ringCount s g.inst then quotaRefused slot s
      else
        let s := setInst g.inst { inst s g.inst with ringed := true } s
        mgmtDone slot stOk { s with q := { s.q with rings := mapSet s.q.rings r g } }) s)

/-! ### Scans (R157, R188, R443) -/

/-- Accept one scanned slot: it is completed with a status and never started. -/
def scanSlot (r : Nat) (status : Nat) (e : BitVec 512) (s : State) : State :=
  match ringOf s r with
  | none => s
  | some g =>
    let slot := g.nextFetch % ringSize g
    let chain := if e.getLsbD 1 then none else g.openChain
    let head := chain.getD slot
    let tag := match g.ops.find? (fun o => o.slot == head) with
      | some o => ef o.entry 8 8
      | none => ef e 8 8
    let last := e.getLsbD 2
    let o : Op := { slot := slot, entry := e, head := head,
                    done := some { status := status, cont := !last, tag := tag, recv := g.kind == .rq } }
    let s := updRing r (fun g =>
      { g with
        nextFetch := g.nextFetch + 1, reserved := false, fetched := none
        ops := g.ops ++ [o], openChain := if last then none else some head }) s
    if g.reserved then s else updRing g.cq (fun c => { c with resNext := c.resNext + 1 }) s

/-- The slots that a scan finds with OWN 1, from the next fetch on: tier memory as it stands, another place
as its reads returned; whether the scan met a failing read. -/
def scanReads (s : State) (g : Ring) (given : List (BitVec 512)) (failed : Bool) : List (BitVec 512) × Bool :=
  if g.loc = 5 then
    let slots := (List.range (ringSize g)).map (fun i => (g.nextFetch + i) % ringSize g)
    let good := slots.takeWhile (fun i =>
      let r := tierRead s (g.base.toNat + 64 * i) 64
      !r.2 && (r.1.headD 0).getLsbD 0)
    let stop := slots[good.length]?
    (good.map (fun i => slotRead s g i 0),
     stop.any (fun i => (tierRead s (g.base.toNat + 64 * i) 64).2))
  else ((given.takeWhile (fun e => e.getLsbD 0)).take (ringSize g), failed)

/-- Scan a ring: every entry that the adapter holds without a completion, then every slot that software
handed over, gets the status, in ring order, and the completions are written (R157 step 3).  True: a read or a
write of the scan failed (R153). -/
def scanRing (r status : Nat) (given : List (BitVec 512)) (failed : Bool) (s : State) : State × Bool :=
  match ringOf s r with
  | none => (s, false)
  | some g =>
    let extra := match g.fetched with
      | some e => [e]
      | none => []
    let s := (g.ops.map (·.head)).foldl (fun s h => finishOp r h { status := status, recv := g.kind == .rq } s) s
    let (es, bad) := scanReads s g given failed
    let s := (if extra.isEmpty then es else extra ++ es.drop (if g.loc = 5 then 1 else 0)).foldl
      (fun s e => scanSlot r status e s) s
    let n := (ringOf s r).elim 0 (fun g => g.ops.length)
    let s := (List.range n).foldl (fun (acc : State × Bool) _ =>
      if acc.2 then acc else releaseHead r acc.1) (s, bad)
    s

/-- Give back a reservation that no completion will use (R139). -/
def dropReservation (r : Nat) (s : State) : State :=
  match ringOf s r with
  | none => s
  | some g => if g.reserved then updRing g.cq (fun c => { c with resNext := c.resNext - 1 }) s else s

/-- Remove a ring's registration. -/
def removeRing (r : Nat) (s : State) : State :=
  let s := dropReservation r s
  { s with q := { s.q with rings := mapErase s.q.rings r, deferred := s.q.deferred.filter (fun d => d.1 != r),
                           issued := s.q.issued.filter (· != r) } }

/-! ### The management rings (R133) -/

/-- GX_Q_MGMT_CTRL and the bases register rings 0 and 1, or set MGMT_INVALID. -/
def mgmtEnable (value : Word) (s : State) : State :=
  let old := rg s Reg.GX_Q_MGMT_CTRL
  if s.q.mgmtActive || old.getLsbD 0 || !(value.getLsbD 0) then s
  else
    let s := putReg Reg.GX_Q_MGMT_CTRL (BitVec.ofNat 32
      (wfld value 12 9 * 2 ^ 9 + wfld value 8 5 * 2 ^ 5 + 1)) s
    let sq := wfld value 8 5
    let cq := wfld value 12 9
    if sq < 3 || 12 < sq || cq < 3 || 12 < cq then raise Reg.GX_Q_EVENTS 4 s
    else
      let base := fun (lo hi : Nat) => (rg s hi) ++ (rg s lo)
      let sqr : Ring := { kind := .sq, base := base Reg.GX_Q_MGMT_SQ_LO Reg.GX_Q_MGMT_SQ_HI, loc := 0, log2 := sq,
                          inst := 0, cq := 1, pollInt := 64, maxInt := 64, interval := 64, polled := true }
      let cqr : Ring := { kind := .cq, base := base Reg.GX_Q_MGMT_CQ_LO Reg.GX_Q_MGMT_CQ_HI, loc := 0, log2 := cq,
                          inst := 0 }
      { s with q := { s.q with mgmtActive := true, rings := mapSet (mapSet s.q.rings 0 sqr) 1 cqr } }

/-- MGMT_ENABLE (R133): a write of GX_Q_MGMT_CTRL that sets ENABLE. -/
def execMgmtEnable (value : Word) (s : State) : Res := .next (whenOk (running s) (mgmtEnable value) s)

/-- MGMT_DISABLE (R133): a write that clears ENABLE; `entries` are the slots handed over and not fetched. -/
def execMgmtDisable (entries : List (BitVec 512)) (s : State) : Res :=
  .next (whenOk (running s && (rg s Reg.GX_Q_MGMT_CTRL).getLsbD 0) (fun s =>
    let s := if s.q.mgmtActive then
        let s := (scanRing 0 stAborted entries false s).1
        removeRing 1 (removeRing 0 s)
      else s
    putReg Reg.GX_Q_MGMT_CTRL (rg s Reg.GX_Q_MGMT_CTRL &&& 0xFFFFFFFE)
      { s with q := { s.q with mgmtActive := false } }) s)

end Sys2Proof.Machine
end

