-- ==== Sys2Proof/Machine/Data.lean ====
section
/-! DEFINITION. Data accesses by fabric address: the checks of R80, tier memory, apertures, the Mules that
carry the bytes, and the flushes of accelerator ports (R77 to R80, R384, R387 to R391). -/

namespace Sys2Proof.Machine

/-- Change an accelerator port's record. -/
def updAcc (p : Nat) (f : AccPort → AccPort) (s : State) : State :=
  { s with pc := { s.pc with acc := mapPut {} s.pc.acc p (f (accPort s p)) } }

/-- Bytes of a port's exposed window that the aperture reaches (R384). -/
def windowOf (s : State) (p : Nat) : Nat :=
  if (accPort s p).state = .ready then min (accPort s p).winSize (2 ^ 37) else 0

/-- The status that an access gives before it moves a byte: REMOTE_ACCESS where R80 rejects it, MOVED where
the owning unit is frozen (R448). -/
def accessStatus (s : State) (node off : Nat) : Nat :=
  match nodeSlot s node with
  | none => stRemoteAccess
  | some k =>
    if accessRejected s k off (windowOf s) then stRemoteAccess
    else
      match offsetFlock s off with
      | some f => if unitFrozen s f then stMoved else stOk
      | none => stOk

/-- The first Mule in service from a base (R387, R526): egress 0, ingress 16. -/
def muleFrom (s : State) (base : Nat) : Nat :=
  ((List.range 16).find? (fun i => !(s.re.now.fencedMules.contains (base + i)))).getD 0

/-- A Mule moves bytes, which its stream carries. -/
def muleMove (ingress retx begins : Bool) (bs : List Byte) (s : State) : State :=
  let base := if ingress then 16 else 0
  let m := muleFrom s base
  let s := { s with pc := { s.pc with mules :=
    (mapSet s.pc.mules (base + m) ((mapGet s.pc.mules (base + m)).getD 0 + bs.length)) } }
  stream (if ingress then cvIngress else cvEgress) m retx begins bs s

/-! ### Reads -/

/-- The outcome of a data read: it waits, it is refused with a status, or it yields bytes and whether they
were met as uncorrectable or failed. -/
inductive ReadRes where
  | wait
  | refused (status : Nat)
  | got (bytes : List Byte) (bad : Bool)
  deriving DecidableEq, Repr

/-- What a read through a port returned for a work's key. -/
def accBytes (s : State) (owner a n : Nat) : Option (List Byte × Bool) :=
  (s.pc.got.find? (fun g => g.owner == owner && g.addr ≤ a && a + n ≤ g.addr + g.bytes.length)).map
    (fun g => (slice g.bytes (a - g.addr) n, g.failed))

/-- Forget what reads returned for a work. -/
def dropGot (owner : Nat) (s : State) : State :=
  { s with pc := { s.pc with got := s.pc.got.filter (fun g => g.owner != owner) } }

/-- Read n bytes at a node offset for a work; what a port has returned already is taken as it came. -/
def dataRead (s : State) (owner node off n : Nat) : ReadRes :=
  let st := accessStatus s node off
  match apertureOf off with
  | some (p, o) =>
    match accBytes s owner (p * 2 ^ 37 + o) n with
    | some (bs, f) => .got bs f
    | none => if st ≠ 0 then .refused st else .wait
  | none =>
    if st ≠ 0 then .refused st
    else if memStalls s off then .wait
    else
      let (bs, bad) := tierRead s off n
      .got bs bad

/-! ### Writes -/

/-- A port has accepted a data write of a work (R390). -/
def portWrote (p : Nat) (w : Waiter) (s : State) : State :=
  updAcc p (fun a => if a.dirty.contains w then a else { a with dirty := a.dirty ++ [w] }) s

/-- The write of bytes at a node offset would stall (R112, R126). -/
def writeStalls (s : State) (off : Nat) : Bool := (apertureOf off).isNone && memStalls s off

/-- Write bytes at a node offset for a work (an aperture with relaxed ordering while RO_EN is 1, R388): the state, the status that the write gives, and the port written
through. -/
def dataWrite (w : Waiter) (node off : Nat) (bs : List Byte) (s : State) : State × Nat × Option Nat :=
  let st := accessStatus s node off
  if st ≠ 0 then (s, st, none)
  else
    match apertureOf off with
    | some (p, o) =>
      let at_ := BitVec.ofNat 64 ((accPort s p).winBase + o)
      let relaxed := (rgi s Reg.GX_PC_PORT_CTRL (p + 1)).getLsbD 2
      let s := emit (if relaxed then .relaxedWrite (p + 1) at_ bs else .busWrite (p + 1) at_ bs) s
      (portWrote p w s, stOk, some p)
    | none =>
      let (s, bad) := tierPut off bs s
      (s, if bad then stMemUncorrectable else stOk, none)

/-! ### Flushes (R389, R390) -/

/-- Issue a flush of a port when one is due. -/
def tryFlush (p : Nat) (s : State) : State :=
  let a := accPort s p
  if a.flush.isNone && a.waiting.any (fun w => a.dirty.contains w) then
    emit (.flushRead (p + 1)) (bump Reg.GX_PC_FLUSH_CNT <| updAcc p (fun a => { a with flush := some a.dirty, dirty := [] }) s)
  else s

/-- Ports that a work has written through and no flush has covered yet. -/
def unflushed (s : State) (w : Waiter) : List Nat :=
  (s.pc.acc.filter (fun e => e.2.dirty.contains w || (e.2.flush.getD []).contains w)).map Prod.fst

/-- A work's completion waits for its ports' flushes; the list is empty when none is needed. -/
def awaitFlush (w : Waiter) (s : State) : State × List Nat :=
  let ps := unflushed s w
  (ps.foldl (fun s p => tryFlush p (updAcc p (fun a =>
    if a.waiting.contains w then a else { a with waiting := a.waiting ++ [w] }) s)) s, ps)

/-! ### Translated ranges -/

/-- Node and node offset of a virtual address under a side's pages. -/
def locate (pages : List PageMap) (va : Nat) : Option (Nat × Nat) :=
  (pages.find? (fun p => p.va ≤ va && va < p.va + p.len)).map (fun p => (p.node, p.off + (va - p.va)))

/-- Cut [va, va + n) at the pages of a side: virtual address, length, node, node offset. -/
def pieces (pages : List PageMap) (va n : Nat) : List (Nat × Nat × Nat × Nat) :=
  pages.filterMap (fun p =>
    let a := max va p.va
    let b := min (va + n) (p.va + p.len)
    if a < b then some (a, b - a, p.node, p.off + (a - p.va)) else none)

/-- Read [va, va + n) through a side's pages. -/
def readRange (s : State) (owner : Nat) (pages : List PageMap) (va n : Nat) : ReadRes :=
  (pieces pages va n).foldl (fun acc x =>
    match acc with
    | .got bs bad =>
      match dataRead s owner x.2.2.1 x.2.2.2 x.2.1 with
      | .got bs' bad' => .got (bs ++ bs') (bad || bad')
      | r => r
    | r => r) (.got [] false)

/-- Write bytes at [va, …) through a side's pages: the state and the first status other than OK. -/
def writeRange (w : Waiter) (pages : List PageMap) (va : Nat) (bs : List Byte) (s : State) : State × Nat :=
  (pieces pages va bs.length).foldl (fun (acc : State × Nat) x =>
    let (s, st, _) := dataWrite w x.2.2.1 x.2.2.2 (slice bs (x.1 - va) x.2.1) acc.1
    (s, if acc.2 = 0 then st else acc.2)) (s, 0)

/-- Some byte of [va, va + n) lies where a write would stall. -/
def rangeStalls (s : State) (pages : List PageMap) (va n : Nat) : Bool :=
  (pieces pages va n).any (fun x => writeStalls s x.2.2.2)

end Sys2Proof.Machine
end

