-- ==== Sys2Proof/Machine/Tp.lean ====
section
/-! DEFINITION. Transport: what requester and responder share. Message numbers, queue pair states, control
cells, acknowledgements, the layout of a message in cells, and the end of operations (R161 to R195).

MSNs are kept as numbers that do not wrap: the 32-bit value of the specification plus a multiple of 2^32. -/

namespace Sys2Proof.Machine

/-! ### Numbers -/

/-- The value with the given low bits that lies nearest a value: from near - 2^(bits-1) on (R177). -/
def extend (bits near x : Nat) : Nat :=
  let lo := near - 2 ^ (bits - 1)
  lo + (x + 2 ^ bits - lo % 2 ^ bits) % 2 ^ bits

/-- An MSN base as it is kept. -/
def msnBase (x : Nat) : Nat := x + 2 ^ 32

/-- Key of a message: queue pair and MSN. -/
def msgKey (qpn msn : Nat) : Nat := qpn * 2 ^ 64 + msn

/-- Key of a responder's data accesses. -/
def rxOwner (qpn msn : Nat) : Nat := 2 ^ 90 + msgKey qpn msn

/-! ### Contexts -/

/-- The context of a queue pair. -/
def qpOf (s : State) (n : Nat) : Option Qp := mapGet s.tp.qps n

/-- Change a context. -/
def updQp (n : Nat) (f : Qp → Qp) (s : State) : State :=
  { s with tp := { s.tp with qps := mapModify s.tp.qps n f } }

/-- Live timers of a queue pair, 0 taking the block default (Table 6.2); R248 bounds those of ROCE_RC. -/
def qpRto (s : State) (q : Qp) : Nat := if q.rto = 0 then wfld (rg s Reg.GX_TP_DEFAULTS) 7 0 else q.rto
def qpRetry (s : State) (q : Qp) : Nat :=
  let n := if q.retry = 0 then wfld (rg s Reg.GX_TP_DEFAULTS) 11 8 else q.retry
  if q.typ = 2 then min n 7 else n
def qpRnrDelay (s : State) (q : Qp) : Nat :=
  if q.rnrDelay = 0 then wfld (rg s Reg.GX_TP_DEFAULTS) 19 12 else q.rnrDelay
def qpRnrLimit (s : State) (q : Qp) : Nat :=
  let n := if q.rnrLimit = 0 then wfld (rg s Reg.GX_TP_DEFAULTS) 27 20 else q.rnrLimit
  if q.typ = 2 && n != 255 then min n 6 else n
def qpWindow (q : Qp) : Nat := if q.window = 0 then 4096 else q.window

/-- Instance whose unit a queue pair speaks for, as node, slot and UNIT; none without a coordinate (R76). -/
def instUnit (s : State) (n : Nat) : Option (Nat × Nat × Nat) :=
  match (instFlock s.lz.run n).bind (flockOf s.lz.run) with
  | none => none
  | some f => (slotNode s f.slot).map (fun node => (node, f.slot, f.unit))

/-- Bytes of the reorder and retry pool, and free message records (R56, R161, R176). -/
def retryPool (s : State) : Nat := s.lz.run.sram.2.1 * 0x100000

/-- Messages that have been sent and are not complete. -/
def outstanding (s : State) : List Msg := (s.tp.msgs.map Prod.snd).filter (fun m => m.next != 0)

/-- Free message records. -/
def recordsFree (s : State) : Nat :=
  (retryPool s - 896 * s.tp.qps.length) / 576 - s.tp.recs.length - (outstanding s).length

/-! ### The layout of a data message in cells (R173) -/

/-- Data cells of n bytes that start at an address. -/
def lineCount (start n : Nat) : Nat := if n = 0 then 0 else (start % 64 + n + 63) / 64

/-- Data cell k: its offset in the message and its bytes. -/
def cellSpan (start n k : Nat) : Nat × Nat :=
  let off := 64 * k - (if k = 0 then 0 else start % 64)
  (off, min (if k = 0 then 64 - start % 64 else 64) (n - off))

/-! ### Control cells (R174, R175) -/

/-- Queue a control cell of a queue pair toward its peer. -/
def sendCtl (qpn : Nat) (q : Qp) (kind msn : Nat) (pay : List Byte) (s : State) : State :=
  match instUnit s q.inst with
  | none => s
  | some (node, slot, unit) =>
    let h := mkHdr ⟨0, q.peerNode, node, unit, ownEpoch s slot unit, kind, q.peerQpn, msn % 65536⟩
    { s with tp := { s.tp with control := s.tp.control ++ [⟨q.peerNode, q.peerUnit, h, mkPay pay, some qpn⟩] } }

/-- Insert into a list in rising order of the first component. -/
def insertStatus (x : Nat × Nat) (l : List (Nat × Nat)) : List (Nat × Nat) :=
  match l with
  | [] => [x]
  | y :: t => if x.1 ≤ y.1 then x :: y :: t else y :: insertStatus x t

/-- Payload of an ACK (Table 6.7). -/
def ackPay (cum clean : Nat) (sack : List Nat) (sts : List (Nat × Nat)) : List Byte :=
  let bits := sack.foldl (fun acc i => acc + 2 ^ i) 0
  let entry := fun (e : Nat × Nat) => leBytes 4 (e.1 % 2 ^ 32) ++ leBytes 1 (e.2 + 128) ++ [0, 0, 0]
  leBytes 4 (cum % 2 ^ 32) ++ leBytes 4 (clean % 2 ^ 32) ++ leBytes 32 bits ++ (sts.map entry).flatten

/-- The ACKs of R181 for a trigger. -/
def buildAcks (fuel : Nat) (q : Qp) (t : Nat) : List (List Byte) :=
  match fuel with
  | 0 => []
  | k + 1 =>
    let pending := (q.statuses.foldl (fun acc x => insertStatus x acc) []).filter (fun e => t ≤ e.1)
    let limit := (pending[3]?).map (fun e => e.1 - 1)
    let cum := limit.elim (q.expected - 1) (min (q.expected - 1))
    let inLimit := fun m => limit.elim true (fun l => decide (m ≤ l))
    let sack := (List.range 256).filter (fun i => q.winBits.contains (cum + 1 + i) && inLimit (cum + 1 + i))
    let pay := ackPay cum t sack ((pending.filter (fun e => inLimit e.1)).take 3)
    match pending[3]? with
    | some e => pay :: buildAcks k q e.1
    | none => [pay]

/-- Send the ACKs of a trigger MSN (R180, R181). -/
def sendAck (qpn t : Nat) (s : State) : State :=
  match qpOf s qpn with
  | none => s
  | some q => (buildAcks 8 q t).foldl (fun s p => sendCtl qpn q 9 t p s) s

/-- Send a NACK: its kind, and for MISSING the chunk, RESP and the received cells of the chunk. -/
def sendNack (qpn msn nackKind chunk : Nat) (resp : Bool) (received : List Nat) (s : State) : State :=
  match qpOf s qpn with
  | none => s
  | some q =>
    let bits := received.foldl (fun acc j => acc + 2 ^ j) 0
    let pay := leBytes 4 (msn % 2 ^ 32) ++ leBytes 1 nackKind ++ leBytes 1 chunk
      ++ leBytes 1 (if resp then 1 else 0) ++ [0] ++ leBytes 32 bits
    let s := bump Reg.GX_TP_NACK_CNT (sendCtl qpn q 10 msn pay s)
    if nackKind = 1 then bump Reg.GX_TP_RNR_CNT s else s

/-- Send a RESP_ACK (R171). -/
def sendRespAck (qpn msn : Nat) (s : State) : State :=
  match qpOf s qpn with
  | none => s
  | some q => sendCtl qpn q 11 msn (leBytes 4 (msn % 2 ^ 32)) s

/-! ### Operations at the requester -/

/-- A running operation. -/
def runOf (s : State) (key : Nat) : Option OpRun := mapGet s.tp.runs key

/-- Change a running operation. -/
def updRun (key : Nat) (f : OpRun → OpRun) (s : State) : State :=
  { s with tp := { s.tp with runs := mapModify s.tp.runs key f } }

/-- Change a tile of a running operation. -/
def updTile (key i : Nat) (f : Tile → Tile) (s : State) : State :=
  updRun key (fun r => { r with tiles := r.tiles.modify i f }) s

/-- Release uses. -/
def releaseUses (us : List Nat) (s : State) : State := us.foldl (fun s u => l2Release u s) s

/-- Settle the uses on the pages that a work is about to write: they end with the write, but where an accelerator port
takes it, with the flush that covers it (R100, R390). -/
def settleUses (w : Waiter) (pages : List PageMap) (us : List Nat) (s : State) : State :=
  if pages.any (fun p => (apertureOf p.off).isSome) then { s with pc := { s.pc with uses := s.pc.uses ++ us.map (fun u => (w, u)) } }
  else releaseUses us s

/-- A work still holds uses behind a flush: its writes are not all flushed and its operation has not completed. -/
def holdsUses (s : State) (w : Waiter) : Bool :=
  !(unflushed s w).isEmpty && (match w with
    | .run key => (opAt s (key / 65536) (key % 65536)).isSome
    | .rx _ _ => true)

/-- End the uses behind flushes that no longer wait (R100). -/
def sweepUses (s : State) : State :=
  let ended := s.pc.uses.filter (fun e => !(holdsUses s e.1))
  releaseUses (ended.map Prod.snd) { s with pc := { s.pc with uses := s.pc.uses.filter (fun e => holdsUses s e.1) } }

/-- Forget a running operation: its uses, its messages, what its reads returned (R100). -/
def removeRun (key : Nat) (s : State) : State :=
  match runOf s key with
  | none => s
  | some r =>
    let s := releaseUses (r.tiles.map (·.uses)).flatten s
    let s := dropGot key s
    { s with
      tp := { s.tp with runs := mapErase s.tp.runs key, msgs := s.tp.msgs.filter (fun e => e.2.run != key) }
      xl := { s.xl with walks := s.xl.walks.filter (fun w => w.2.owner != key)
                        held := s.xl.held.filter (fun h => h.1 != key) } }

/-- Bytes of the tiles whose messages completed with OK (R184). -/
def runBytes (r : OpRun) : Nat :=
  ((r.tiles.filter (fun t => t.state == .done && t.status == 0 && t.own == 0)).map (·.len)).sum

/-- End the operation behind a run with a completion; the run of a Herd's engine has no entry. -/
def finishRun (key : Nat) (c : Completion) (s : State) : State :=
  match runOf s key with
  | none => s
  | some r =>
    let (s, ports) := awaitFlush (.run key) s
    let s := finishOp r.ring r.slot c s
    if ports.isEmpty then removeRun key s
    else updChain r.ring r.slot (fun o => { o with flush := ports }) s

/-- Tiles that are sent before the operation is cut short. -/
def runLimit (r : OpRun) : Nat := (r.cut.map (·.tile)).getD r.tiles.length

/-- Nothing of the operation remains to be sent or acknowledged. -/
def runOver (r : OpRun) : Bool :=
  r.tiles.zipIdx.all (fun x => x.1.state == .done
    || x.1.state != .sent && (r.stopped.isSome || decide (runLimit r ≤ x.2)))

/-- The status of the lowest message that is not OK (R184): the message's, else one found at the requester. -/
def runStatus (r : OpRun) : Nat :=
  match (r.tiles.filter (fun t => t.state == .done)).find? (fun t => t.status != 0 || t.own != 0) with
  | some t => if t.status != 0 then t.status else t.own
  | none => 0

/-- The completion of an operation whose messages are complete (R96, R157, R184). -/
def runCompletion (r : OpRun) : Completion :=
  if r.force ≠ 0 then { status := r.force, bytes := runBytes r }
  else
  match r.stopped, r.cut with
  | some st, _ => { status := st }
  | none, some c =>
    let st := runStatus r
    if c.status = stXlateFault then
      { status := stXlateFault, detail := c.detail, aux := c.va, bytes := runBytes r }
    else { status := if st = 0 then c.status else st, bytes := runBytes r }
  | none, none => { status := runStatus r, bytes := runBytes r, aux := r.aux }

/-- End an operation once every one of its messages is complete. -/
def checkRun (key : Nat) (s : State) : State :=
  match runOf s key with
  | none => s
  | some r => if runOver r then finishRun key (runCompletion r) s else s

/-! ### Leaving READY (R164, R172, R185, R186) -/

/-- A collective of a Herd aborts with a CODE because of a rank, unless it has aborted or committed (R307): the
LAST_ABORT registers tell. -/
def collAbort (h seq code rank : Nat) (s : State) : State :=
  match mapGet s.hd.herds h with
  | none => s
  | some d =>
    match mapGet d.colls seq with
    | none => s
    | some c =>
      if c.abort.isSome || c.decision == some 2 then s
      else
        putReg Reg.GX_HD_LAST_ABORT (BitVec.ofNat 32 (h * 65536 + rank))
          (putReg Reg.GX_HD_LAST_ABORT_SEQ (BitVec.ofNat 32 seq)
            { s with hd := { s.hd with herds := mapSet s.hd.herds h { d with
                colls := mapSet d.colls seq { c with abort := some (code, rank) } } } })

/-- The Herd of a queue pair becomes BROKEN when its peer is an active member (R293, R449). -/
def breakHerd (qpn : Nat) (s : State) : State :=
  match (qpOf s qpn).bind (·.herd) with
  | none => s
  | some h =>
    match mapGet s.hd.herds h with
    | none => s
    | some d =>
      let j := qpn - d.qpBase
      if d.broken || !(d.active.contains j) then s
      else
        let s := { s with hd := { s.hd with herds := mapSet s.hd.herds h { d with broken := true } } }
        raise Reg.GX_HD_EVENTS 3
          ((d.colls.filter (fun e => e.2.slotAt.isSome)).foldl (fun s e => collAbort h e.1 0 j s) s)

/-- Complete every RECV entry fetched for a queue pair and not consumed, in order, with BYTES 0. -/
def dropRecvs (qpn status : Nat) (s : State) : State :=
  match qpOf s qpn with
  | none => s
  | some q =>
    let s := q.recvs.foldl (fun s e => finishOp q.rq e.slot { status := status, recv := true } s) s
    updQp qpn (fun q => { q with recvs := [] }) s

/-- Discard the records of a queue pair. -/
def dropRecords (qpn : Nat) (s : State) : State :=
  let s := (s.tp.recs.filter (fun e => e.2.qpn == qpn)).foldl (fun s e => releaseUses e.2.uses s) s
  { s with tp := { s.tp with
      msgs := s.tp.msgs.filter (fun e => e.2.qpn != qpn), recs := s.tp.recs.filter (fun e => e.2.qpn != qpn)
      resps := s.tp.resps.filter (fun e => e.2.qpn != qpn) } }

/-- Accepted operations of a queue pair on its SQ that have no completion: slots of the FIRST entries. -/
def qpOps (s : State) (qpn : Nat) : List Nat :=
  match (qpOf s qpn).bind (fun q => ringOf s q.sq) with
  | none => []
  | some g => (g.ops.filter (fun o => o.slot == o.head && o.done.isNone && entryOpcode o.entry ≤ 7
      && entryQpn o.entry == qpn)).map (·.slot)

/-- Runs of a queue pair, in the order of its SQ, then those of no entry of that SQ. -/
def qpRuns (s : State) (qpn : Nat) : List Nat :=
  let sq := ((qpOf s qpn).map (·.sq)).getD 0
  let mine := (s.tp.runs.filter (fun e => e.2.qpn == qpn && e.2.kind != .seal)).map Prod.fst
  let onRing := ((ringOf s sq).elim [] (fun g => g.ops.map (fun o => opKey sq o.slot))).filter (mine.contains ·)
  onRing ++ mine.filter (fun k => !(onRing.contains k))

/-- Complete every operation of a queue pair with a status; those that `keep` names go on (R186). -/
def completeQpOps (qpn status : Nat) (keep : Nat → Bool) (s : State) : State :=
  let sq := ((qpOf s qpn).map (·.sq)).getD 0
  let s := (qpRuns s qpn).foldl (fun s k =>
    match runOf s k with
    | none => s
    | some r => if keep k then s else removeRun k (finishOp r.ring r.slot { status := status, bytes := runBytes r } s)) s
  (qpOps s qpn).foldl (fun s slot =>
    if keep (opKey sq slot) then s else finishOp sq slot { status := status } s) s

/-- A queue pair enters ERROR (R185). -/
def qpError (qpn : Nat) (s : State) : State :=
  match qpOf s qpn with
  | none => s
  | some q =>
    if q.state = .error then s
    else
      let s := updQp qpn (fun q => { q with state := .error }) s
      let s := completeQpOps qpn stRetryExceeded (fun _ => false) s
      let s := dropRecords qpn (dropRecvs qpn stRetryExceeded s)
      breakHerd qpn (raise Reg.GX_TP_EVENTS 0 s)

/-- Every message of the run completed below an MSN. -/
def runBelow (r : OpRun) (msn : Nat) : Bool :=
  r.tiles.all (fun t => t.state == .done && t.msn < msn) && r.tiles != []

/-- A queue pair enters MOVED_WAIT: `msn` is the lowest MSN answered with MOVED (R186). -/
def qpMoved (qpn msn : Nat) (s : State) : State :=
  match qpOf s qpn with
  | none => s
  | some q =>
    if q.state != .ready then s
    else
      let s := updQp qpn (fun q => { q with state := .movedWait }) s
      let s := completeQpOps qpn stMoved (fun k => (runOf s k).any (fun r => runBelow r msn)) s
      let s := dropRecords qpn (dropRecvs qpn stMoved s)
      breakHerd qpn (raise Reg.GX_TP_EVENTS 1 s)

end Sys2Proof.Machine
end

