-- ==== Sys2Proof/Machine/Tiles.lean ====
section
/-! DEFINITION. Pre-translation: permissions, lookups in the L2, walks, and the translation of a range at once
or of a tile that may stall (R87, R90 to R97). -/

namespace Sys2Proof.Machine

/-- The permissions that a use needs (Table 3.6). -/
structure Need where
  read : Bool := false
  write : Bool := false
  atomic : Bool := false
  deriving DecidableEq, Repr

/-- Where the pages of a side must lie (R166, R422): any node, one node, or this adapter's. -/
inductive Place where
  | here
  | node (n : Nat)
  deriving DecidableEq, Repr

/-- The page lies where it must. -/
def placeOk (s : State) (p : Place) (node : Nat) : Bool :=
  match p with
  | .here => (nodeSlot s node).isSome
  | .node n => node == n

/-- A translation allows a use. -/
def allows (s : State) (n : Need) (p : Place) (e : XlEntry) : Bool :=
  (!n.read || e.read) && (!n.write || e.write) && (!n.atomic || e.atomic) && placeOk s p e.node

/-- What is known of the SPACE denies the instance (R83). -/
def spaceDenied (s : State) (space instn : Nat) : Bool :=
  wfld (rg s Reg.GX_XL_SPTAB_CFG) 20 0 ≤ space
    || (mapGet s.xl.spaceCache space).any (fun e => spaceBad s space instn e)

/-- The piece of a page from an address to an end. -/
def pagePiece (e : XlEntry) (va fin : Nat) : PageMap :=
  ⟨va, min fin (e.vbase + 2 ^ e.size) - va, e.node, e.offset + (va - e.vbase)⟩

/-- Take a use of an entry that is still in the L2. -/
def takeIf (s : State) (e : XlEntry) : State × List Nat :=
  if s.xl.l2.any (fun x => x.id == e.id && !x.dying) then (l2Take e.id s, [e.id]) else (s, [])

/-- Translate [va, fin) at once: the walks' table reads are given.  The pages with the uses taken, or the
cause and address of the first fault. -/
def xlateRange (fuel space instn va fin : Nat) (need : Need) (place : Place) (reads : NMap (BitVec 128))
    (s : State) : State × Except (Nat × Nat) (List PageMap × List Nat) :=
  match fuel with
  | 0 => (s, .ok ([], []))
  | k + 1 =>
    if fin ≤ va then (s, .ok ([], []))
    else
      let step := fun (s : State) (e : XlEntry) =>
        if allows s need place e then
          let (s, us) := takeIf s e
          let p := pagePiece e va fin
          match xlateRange k space instn (va + p.len) fin need place reads s with
          | (s, .ok (ps, us')) => (s, Except.ok (p :: ps, us ++ us'))
          | (s, .error x) => (releaseUses us s, Except.error x)
        else (s, Except.error (2, va))
      if spaceDenied s space instn then (s, .error (3, va))
      else
        match l2Find s space va with
        | some e => if ownedElse s space instn then (s, .error (3, va)) else step s e
        | none =>
          let s := bump Reg.GX_XL_L2_MISS_CNT s
          let r := walkVa s space instn va reads
          let s := fillFromWalk { space := space, inst := instn, va := va, owner := 0 } reads r s
          match r with
          | .fault c _ _ => (s, .error (c, va))
          | .leaf e _ => step s ((l2Find s space va).getD { e with id := s.xl.nextId })

/-- Pages of 4 KiB that a range touches, and one. -/
def pageFuel (va n : Nat) : Nat := (va % 4096 + n) / 4096 + 2

/-! ### Tiles that may stall (R93 to R96) -/

/-- The side of a tile to translate: its address, bytes, need and place; none where the side is no memory of
this operation. -/
structure Side where
  va : Nat
  len : Nat
  need : Need
  place : Place
  deriving DecidableEq, Repr

/-- Look up one side in the L2, and among what the operation's overtaken walks found: the entries of its pages in
order, the addresses that miss, the faults. -/
def lookSide (fuel : Nat) (s : State) (owner space instn : Nat) (sd : Side) (va : Nat) :
    List (XlEntry × PageMap) × List Nat × List (Nat × Nat) :=
  match fuel with
  | 0 => ([], [], [])
  | k + 1 =>
    if sd.va + sd.len ≤ va then ([], [], [])
    else if spaceDenied s space instn then ([], [], [(va, 3)])
    else
      match (l2Find s space va).or (heldFind s owner va) with
      | none =>
        let nxt := (va / 4096 + 1) * 4096
        let (es, ms, fs) := lookSide k s owner space instn sd nxt
        (es, va :: ms, fs)
      | some e =>
        let p := pagePiece e va (sd.va + sd.len)
        let (es, ms, fs) := lookSide k s owner space instn sd (va + p.len)
        if ownedElse s space instn then (es, ms, (va, 3) :: fs)
        else if allows s sd.need sd.place e then ((e, p) :: es, ms, fs) else (es, ms, (va, 2) :: fs)

/-- Sides of a tile of a run (Table 6.4, R88, R166): source, destination. -/
def tileSides (s : State) (r : OpRun) (t : Tile) : Option Side × Option Side :=
  let peer := Place.node (((qpOf s r.qpn).map (·.peerNode)).getD 0)
  let typ := ((qpOf s r.qpn).map (·.typ)).getD 0
  let remote := fun (sd : Side) => if typ = 2 ∨ typ = 3 then none else some sd
  match r.kind with
  | .write =>
    (if r.data.isSome then none else some ⟨t.src, t.len, { read := true }, .here⟩,
     remote ⟨t.dst, t.len, { write := true }, peer⟩)
  | .writeReduce =>
    (some ⟨t.src, t.len, { read := true }, .here⟩, remote ⟨t.dst, t.len, { write := true, atomic := true }, peer⟩)
  | .read => (remote ⟨t.src, t.len, { read := true }, peer⟩, some ⟨t.dst, t.len, { write := true }, .here⟩)
  | .send => (if r.data.isSome then none else some ⟨t.src, t.len, { read := true }, .here⟩, none)
  | .atomic =>
    (remote ⟨t.src, t.len, { read := true, write := true, atomic := true }, peer⟩,
     some ⟨t.dst, t.len, { write := true }, .here⟩)
  | .attn => (none, some ⟨t.dst, t.len, { write := true }, .here⟩)
  | .seal =>
    -- Source tiles and destination tiles stand apart: the other address of each is at or above 2^60.
    if t.src < 2 ^ 60 then (some ⟨t.src, t.len, { read := true }, .here⟩, none)
    else (none, some ⟨t.dst, t.len, { write := true }, .here⟩)

/-- A walk of an operation on a page is running. -/
def walkRuns (s : State) (owner va : Nat) : Bool :=
  s.xl.walks.any (fun w => w.2.owner == owner && w.2.va == va)

/-- Start a walk for a page unless one runs or 32 run (R91). -/
def startWalk (space instn owner va : Nat) (s : State) : State :=
  if walkRuns s owner va || decide (32 ≤ s.xl.walks.length) then s
  else
    let s := bump Reg.GX_XL_L2_MISS_CNT s
    { s with xl := { s.xl with walks := mapSet s.xl.walks s.xl.nextWalk { space := space, inst := instn, va := va, owner := owner },
                               nextWalk := s.xl.nextWalk + 1 } }

/-- The lowest faulting address of a side (R96). -/
def lowestFault (side : Nat) (fs : List (Nat × Nat × Nat)) : Option (Nat × Nat) :=
  (fs.filter (fun f => f.1 == side)).foldl (fun best f =>
    match best with
    | none => some (f.2.1, f.2.2)
    | some b => if f.2.1 < b.1 then some (f.2.1, f.2.2) else some b) none

/-- Cut an operation short at a tile. -/
def cutRun (key i status detail va : Nat) (s : State) : State :=
  updRun key (fun r =>
    match r.cut with
    | some c => if i < c.tile then { r with cut := some ⟨i, status, detail, va⟩ } else r
    | none => { r with cut := some ⟨i, status, detail, va⟩ }) s

/-- Translate a waiting tile (R95): with every page in the L2 it takes its uses and is ready; a page that
misses starts a walk; a fault cuts the operation at the tile (R96). -/
def translateTile (key i : Nat) (s : State) : State :=
  match runOf s key with
  | none => s
  | some r =>
    match r.tiles[i]? with
    | none => s
    | some t =>
      if t.state != .waiting then s
      else
        let (sd0, sd1) := tileSides s r t
        let look := fun (sd : Option Side) => match sd with
          | none => ([], [], [])
          | some x => lookSide (pageFuel x.va x.len) s key r.space r.inst x x.va
        let (e0, m0, f0) := look sd0
        let (e1, m1, f1) := look sd1
        let known := fun (side va : Nat) => t.faults.any (fun f => f.1 == side && f.2.1 == va)
        let m0 := m0.filter (fun va => !(known 0 va))
        let m1 := m1.filter (fun va => !(known 1 va))
        let faults := t.faults ++ f0.map (fun f => (0, f.1, f.2)) ++ f1.map (fun f => (1, f.1, f.2))
        if !(m0.isEmpty && m1.isEmpty) then
          (m0 ++ m1).foldl (fun s va => startWalk r.space r.inst key va s) s
        else
          match (lowestFault 0 faults).or (lowestFault 1 faults) with
          | some (va, cause) => heldDrop key (cutRun key i stXlateFault cause va (recordFault cause r.inst r.space va s))
          | none =>
            -- A counter at 65,535 stalls the new use (R90).
            if (e0 ++ e1).any (fun x => 65535 ≤ x.1.uses) then s else
            let s := heldDrop key s
            let ids := ((e0 ++ e1).map (fun x => x.1.id)).filter (fun u => s.xl.l2.any (fun e => e.id == u))
            let s := ids.foldl (fun s u => l2Take u s) s
            updTile key i (fun t => { t with state := .ready, uses := ids, faults := []
                                             srcPages := e0.map Prod.snd, dstPages := e1.map Prod.snd }) s

/-- Translate the tiles of an operation that wait, in order, until one stalls or faults. -/
def translateRun (key : Nat) (s : State) : State :=
  match runOf s key with
  | none => s
  | some r =>
    (List.range (runLimit r)).foldl (fun s i =>
      match runOf s key with
      | none => s
      | some r => if i < runLimit r && r.stopped.isNone then translateTile key i s else s) s

end Sys2Proof.Machine
end

