-- ==== Sys2Proof/Machine/TpRx.lean ====
section
/-! DEFINITION. The responder: checks, records and windows, data, reductions, SENDs, requests and their
execution, acknowledgements and MISSING NACKs (R168, R171, R172, R176 to R182, R335, R336, R419, R420). -/

namespace Sys2Proof.Machine

/-! ### Records -/

/-- The record of an incoming message. -/
def recOf (s : State) (qpn msn : Nat) : Option RxRec := mapGet s.tp.recs (msgKey qpn msn)

/-- Put a record. -/
def putRec (r : RxRec) (s : State) : State :=
  { s with tp := { s.tp with recs := mapSet s.tp.recs (msgKey r.qpn r.msn) r } }

/-- Change a record. -/
def updRec (qpn msn : Nat) (f : RxRec → RxRec) (s : State) : State :=
  { s with tp := { s.tp with recs := mapModify s.tp.recs (msgKey qpn msn) f } }

/-- A message keeps the status found first (R178, R420). -/
def rxStatus (qpn msn st : Nat) (s : State) : State :=
  if st = 0 then s else updRec qpn msn (fun r => if r.status = 0 then { r with status := st } else r) s

/-- The response record of an MSN. -/
def respOf (s : State) (qpn msn : Nat) : Option RespRec := mapGet s.tp.resps (msgKey qpn msn)

/-- Put a response record. -/
def putResp (r : RespRec) (s : State) : State :=
  { s with tp := { s.tp with resps := mapSet s.tp.resps (msgKey r.qpn r.msn) r } }

/-- Remove a response record. -/
def dropResp (qpn msn : Nat) (s : State) : State :=
  { s with tp := { s.tp with resps := mapErase s.tp.resps (msgKey qpn msn) } }

/-- Results that a cell of an MSN at least 8 higher frees (R171). -/
def freeResults (qpn msn : Nat) (s : State) : State :=
  { s with tp := { s.tp with resps := s.tp.resps.filter (fun e =>
      !(e.2.qpn == qpn && e.2.kind != 4 && e.2.msn + 8 ≤ msn)) } }

/-- The queue pair is a Herd's: its pieces travel in clear (R293, R416). -/
def ofHerd (s : State) (qpn : Nat) : Bool := (qpOf s qpn).any (fun q => q.herd.isSome)

/-- The tail cell of a SEND, or the seal cell of a message under GCM, is the last one (R167, R418). -/
def rxGcm (s : State) (qpn : Nat) : Bool := !(ofHerd s qpn) && qpMode s qpn 1 == some 4

/-- The slot under which a queue pair decrypts DATA, REDUCE and SEND. -/
def rxSlot (s : State) (qpn kind : Nat) : Option Nat := if kind ≤ 2 ∧ !(ofHerd s qpn) then qpSlot s qpn 1 else none

/-! ### The window (R177) and completion (R176, R179 to R181) -/

/-- Advance EXPECTED past the completed MSNs. -/
def advance (fuel : Nat) (q : Qp) : Qp :=
  match fuel with
  | 0 => q
  | k + 1 =>
    if q.winBits.contains q.expected then
      advance k { q with winBits := q.winBits.filter (· != q.expected), expected := q.expected + 1 }
    else q

/-- Free status entries that EXPECTED has passed by more than 4,096 (R179). -/
def trimStatuses (q : Qp) : Qp := { q with statuses := q.statuses.filter (fun e => q.expected ≤ e.1 + 4096) }

/-- Mark an MSN complete with a status, and acknowledge it. -/
def msnDone (qpn msn st : Nat) (s : State) : State :=
  let s := updQp qpn (fun q =>
    let q := { q with winBits := insertNew q.winBits msn
                      statuses := if st = 0 then q.statuses else q.statuses ++ [(msn, st)] }
    trimStatuses (advance (q.winBits.length + 1) q)) s
  sendAck qpn msn s

/-- The tag of a received message agrees (R419); true where no tag is due. -/
def rxTagOk (s : State) (r : RxRec) : Bool :=
  match rxSlot s r.qpn r.kind with
  | none => true
  | some n =>
    let k := keySlot s n
    if k.mode != 4 || r.refused then true
    else if r.kind = 2 && r.tag.isNone then true
    else
      let cells := r.data.map Prod.snd
      let len := (cells.map List.length).sum
      !r.sealBad && r.tag == some (msgTag k (r.msn % 2 ^ 32) r.qpn r.kind len r.imm cells)

/-- Every cell has arrived, and a READ or ATOMIC has been executed or refused (R176). -/
def recWhole (r : RxRec) : Bool :=
  r.got.length == r.cnt + 1 && ((r.kind != 3 && r.kind != 5) || r.executed || r.status != 0)

/-- Change the fetched RECV entry of an SSN. -/
def updRecv (qpn ssn : Nat) (f : RecvEntry → RecvEntry) (s : State) : State :=
  updQp qpn (fun q => { q with recvs := q.recvs.map (fun e => if e.ssn = ssn then f e else e) }) s

/-- A finished SEND on a Herd queue pair goes to the collective engine, in SSN order (R304). -/
def herdTake (fuel qpn : Nat) (s : State) : State :=
  match fuel with
  | 0 => s
  | k + 1 =>
    match qpOf s qpn with
    | none => s
    | some q =>
      match q.recvs with
      | [] => s
      | e :: rest =>
        match e.total with
        | none => s
        | some total =>
          if q.expected ≤ e.lastMsn || e.ssn != q.recvSsn then s
          else
            let bytes := (e.data.foldl (fun acc (x : Nat × List Byte) =>
              bytesSet acc x.1 x.2 (fun _ => true)) ([] : List Host.Cell))
            let m : HerdMsg := ⟨qpn, e.ssn, e.imm, total, bytesAt bytes 0 total, e.status⟩
            let s := updQp qpn (fun q => { q with recvs := rest, recvSsn := q.recvSsn + 1 }) s
            herdTake k qpn { s with hd := { s.hd with inbox := s.hd.inbox ++ [m] } }

/-- An ATTN_REQ message's parameter block: KIND, PARAM_LEN, LENGTH and the bytes (Table 6.7). -/
def attnParams (r : RxRec) : Nat × Nat × Nat × List Byte :=
  let c0 := payBytes ((mapGet r.pays 0).getD 0)
  let rest := ((r.pays.filter (fun e => e.1 != 0)).map (fun e => payBytes e.2)).flatten
  let n := leAt c0 2 2
  (leAt c0 0 1, n, leAt c0 4 4, (c0.drop 8 ++ rest).take n)

/-- Complete a message at the responder when nothing is missing: the flushes of its aperture writes come
first (R391), then the tag, the status, the window and the ACK. -/
def rxFinish (qpn msn : Nat) (s : State) : State :=
  match recOf s qpn msn with
  | none => s
  | some r =>
    if !(recWhole r) then s
    else
      let (s, ports) := awaitFlush (.rx qpn msn) s
      if !ports.isEmpty then updRec qpn msn (fun r => { r with flush := ports }) s
      else
        let ok := rxTagOk s r
        let s := if ok then s else raise Reg.GX_CE_EVENTS 0 (bump Reg.GX_CE_AUTH_FAIL_CNT s)
        let st := if r.status != 0 then r.status else if ok then 0 else stAuthFail
        let s := releaseUses r.uses s
        let s := { s with tp := { s.tp with recs := mapErase s.tp.recs (msgKey qpn msn) } }
        let s := dropGot (rxOwner qpn msn) s
        let s :=
          if r.kind = 2 then
            updRecv qpn r.ssn (fun e => if e.status = 0 then { e with status := st } else e) s
          else if r.kind = 7 && st == 0 then
            let p := attnParams r
            putResp { qpn := qpn, msn := msn, kind := 8, cells := 0, ready := false
                      lineOff := 0, data := p.2.2.2, runs := [(p.1, p.2.1, p.2.2.1)]
                      lastTick := s.tick.count.toNat } s
          else s
        let s := msnDone qpn msn st s
        if ((qpOf s qpn).bind (·.herd)).isSome then
          herdTake (((qpOf s qpn).map (fun q => q.recvs.length)).getD 0) qpn s
        else s

/-! ### SEND: receive entries (R172) -/

/-- Table 5.10 on a RECV entry. -/
def recvMalformed (e : BitVec 512) : Option Nat :=
  if entryOpcode e ≠ 0x0A then some 1
  else if ef e 0 1 / 16 ≠ 0 || entryQpn e ≠ 0 || ef e 24 40 ≠ 0 then some 2
  else if !(e.getLsbD 1 && e.getLsbD 2) then some 3
  else if 2 ^ 48 ≤ ef e 16 8 then some 5
  else none

/-- Fetch RECV entries of a queue pair up to an SSN: false when one is missing (an RNR case), or when the
ring fails or its entry is malformed, which halts the instance. -/
def fetchRecvs (fuel qpn ssn : Nat) (x : RecvReads) (s : State) : State × Bool :=
  match fuel with
  | 0 => (s, false)
  | k + 1 =>
    match qpOf s qpn with
    | none => (s, false)
    | some q =>
      let next := q.recvSsn + q.recvs.length
      if ssn < next then (s, true)
      else
        match ringOf s q.rq with
        | none => (s, false)
        | some g =>
          match ringOf s g.cq with
          | none => (s, false)
          | some c =>
            if g.shutting.isSome || !(instWorks s g.inst) then (s, false)
            else
              let cslot := c.resNext % ringSize c
              let slot := g.nextFetch % ringSize g
              let s := if g.reserved then s else bump Reg.GX_Q_POLL_CNT s
              if !g.reserved && slotReadFails s c cslot 32 x.failed then (haltFor g.cq cslot 9 s, false)
              else if !g.reserved && !(cqOwn s c cslot (x.owns.headD false)) then (s, false)
              else
                let x := if g.reserved then x else { x with owns := x.owns.drop 1 }
                let s := if g.reserved then s else reserveSlot q.rq g.cq s
                if slotReadFails s g slot 64 x.failed then (haltFor q.rq slot 9 s, false)
                else
                  let e := slotRead s g slot (x.slots.headD 0)
                  if !(e.getLsbD 0) then (s, false)
                  else
                    let bad := recvMalformed e
                    let op : Op := { slot := slot, entry := e, head := slot, started := true, malformed := bad }
                    let s := updRing q.rq (fun g => { g with ops := g.ops ++ [op], nextFetch := g.nextFetch + 1
                                                             reserved := false }) s
                    match bad with
                    | some why => (haltFor q.rq slot why s, false)
                    | none =>
                      let r : RecvEntry := { ssn := next, slot := slot, buf := ef e 16 8, len := entryLength e
                                             space := g.space }
                      let s := updQp qpn (fun q => { q with recvs := q.recvs ++ [r] }) s
                      fetchRecvs k qpn ssn { x with slots := x.slots.drop 1 } s

/-- The Herd engine takes an SSN: its position is known, open and within the 64 ahead (R301, R304). -/
def herdOpen (s : State) (qpn ssn : Nat) : Bool :=
  ((mapGet s.hd.pos qpn).getD []).any (fun p => p.ssn == ssn && p.opened)

/-- Make the Herd's stand-in entries up to an SSN. -/
def herdEntries (fuel qpn ssn : Nat) (s : State) : State :=
  match fuel with
  | 0 => s
  | k + 1 =>
    match qpOf s qpn with
    | none => s
    | some q =>
      let next := q.recvSsn + q.recvs.length
      if ssn < next then s
      else herdEntries k qpn ssn (updQp qpn (fun q => { q with recvs := q.recvs ++
        [{ ssn := next, slot := 0, buf := 0, len := 2 ^ 32, space := 0 }] }) s)

/-- Answer a message with RNR, once per message and tick (R172). -/
def answerRnr (qpn msn : Nat) (s : State) : State :=
  if s.tp.rnrSent.contains (msgKey qpn msn) then s
  else sendNack qpn msn 1 0 false [] { s with tp := { s.tp with rnrSent := s.tp.rnrSent ++ [msgKey qpn msn] } }

/-- The range of the SEND's bytes that the lines of a message cover, from one of its cells (R173). -/
def sendRange (c : CellIn) : Nat × Nat :=
  let off := c.addr / 2 ^ 16
  let first := off / 64 - c.idx
  (64 * first, 64 * (first + c.cnt + 1))

/-- Place a new message of a SEND: the record it gets, or none when the cell is discarded. -/
def placeSend (q : Qp) (c : CellIn) (msn : Nat) (r : RxRec) (x : RecvReads) (s : State) : State × Option RxRec :=
  let ssn := extend 16 q.recvSsn (c.addr % 2 ^ 16)
  let r := { r with ssn := ssn }
  if ssn < q.recvSsn || q.recvSsn + 64 < ssn then (s, none)
  else if q.herd.isSome then
    if herdOpen s c.dqpn ssn then (herdEntries 66 c.dqpn ssn s, some r) else (answerRnr c.dqpn msn s, none)
  else if q.rq = 0 then (s, some { r with refused := true, status := stRemoteAccess })
  else
    let (s, got) := fetchRecvs 66 c.dqpn ssn x s
    if !got then (answerRnr c.dqpn msn s, none)
    else
      match (qpOf s c.dqpn).bind (fun q => q.recvs.find? (fun e => e.ssn == ssn)) with
      | none => (s, none)
      | some e =>
        if e.fault.any (fun f => f.2.2 ≤ msn) then (s, some { r with refused := true, status := stRemoteAccess })
        else if c.tail && c.cnt == 0 then (s, some r)
        else
          let (lo, hi) := sendRange c
          let fin := e.buf + min hi e.len
          let (s, res) := xlateRange (pageFuel lo (hi - lo)) e.space q.inst (e.buf + lo) fin { write := true } .here
            x.tables s
          match res with
          | .ok (ps, us) => (s, some { r with pages := ps, uses := us })
          | .error (cause, va) =>
            let s := recordFault cause q.inst e.space va s
            let s := updRecv c.dqpn ssn (fun e => if e.fault.isNone then { e with fault := some (cause, va, msn) } else e) s
            (s, some { r with refused := true, status := stRemoteAccess })

/-! ### Applying cells -/

/-- ACCESS bit of a kind (Table 6.2); SEND needs none. -/
def accessBit (kind : Nat) : Option Nat :=
  match kind with
  | 0 => some 0
  | 1 => some 3
  | 3 => some 1
  | 5 => some 2
  | 7 => some 4
  | _ => none

/-- Check 4 of R178 that needs no address: the ACCESS bit, and the target unit halted or fenced (R80). -/
def rxDenied (s : State) (q : Qp) (kind : Nat) : Bool :=
  (accessBit kind).any (fun b => fld q.access b b == 0)
    || (match instFlock s.lz.run q.inst with
        | some f => unitHalted s f
        | none => true)

/-- Blocks charged for a message from its first applied cell: the cells whose FILL is not known yet count as
full ones (R425). -/
def rxBlocks (mode kind : Nat) (c : CellIn) : Nat :=
  let extra := if kind = 2 then (if c.tail then 1 else 0) else (if mode = 4 then 1 else 0)
  let cells := c.cnt + 1 - extra
  (if c.tail || (mode == 4 && kind ≤ 1 && c.idx == c.cnt) then 4 * cells else 4 * (cells - 1) + (c.fill + 15) / 16)
    + (if mode = 4 then 1 else 0)

/-- Charge the receiving slot at a message's first applied cell (R425, R426). -/
def rxCharge (qpn msn : Nat) (c : CellIn) (s : State) : State :=
  match rxSlot s qpn c.kind with
  | none => s
  | some n =>
    let (s, ok) := charge n (rxBlocks (keySlot s n).mode c.kind c) s
    if ok then s else updRec qpn msn (fun r => { r with refused := true, status := stKeyExhausted }) s

/-- The plaintext of a data cell's bytes; under GCM the ciphertext is kept for the tag (R417, R419). -/
def rxPlain (qpn msn : Nat) (c : CellIn) (bs : List Byte) (s : State) : State × List Byte :=
  match rxSlot s qpn c.kind with
  | none => (s, bs)
  | some n =>
    let k := keySlot s n
    let s := if k.mode = 4 then updRec qpn msn (fun r => { r with data := mapSet r.data c.idx bs }) s else s
    (cryptCount bs.length s, cellCrypt k (msn % 2 ^ 32) c.idx bs)

/-- Apply a DATA cell. -/
def applyData (qpn msn : Nat) (c : CellIn) (s : State) : State :=
  let pay := payBytes c.pay
  if rxGcm s qpn && c.idx == c.cnt then
    updRec qpn msn (fun r => { r with tag := some (pay.take 16), sealBad := !((pay.drop 16).all (· == 0)) }) s
  else
    let node := c.addr / 2 ^ 41
    let off := c.addr % 2 ^ 41
    let st := accessStatus s node off
    if st ≠ 0 then rxStatus qpn msn stRemoteAccess s
    else
      let (s, bs) := rxPlain qpn msn c (pay.take c.fill) s
      let s := muleMove true false c.begins bs s
      let (s, st, _) := dataWrite (.rx qpn msn) node off bs s
      updRec qpn msn (fun r => { r with bytes := r.bytes + bs.length }) (rxStatus qpn msn st s)

/-- REDOP and FORMAT of a REDUCE address, and what R336 refuses. -/
def reduceBad (c : CellIn) : Bool :=
  let redop := fld c.addr 48 41
  let code := fld c.addr 56 49
  !(reduceAllowed redop code) || c.addr % 2 ^ 41 % unitBytes code != 0 || fld c.addr 63 57 != 0
    || c.fill % unitBytes code != 0

/-- Apply a REDUCE cell (R335, R336). -/
def applyReduce (qpn msn : Nat) (c : CellIn) (s : State) : State :=
  let pay := payBytes c.pay
  if rxGcm s qpn && c.idx == c.cnt then
    updRec qpn msn (fun r => { r with tag := some (pay.take 16), sealBad := !((pay.drop 16).all (· == 0)) }) s
  else
    let node := c.dstNode
    let off := c.addr % 2 ^ 41
    if accessStatus s node off ≠ 0 || (apertureOf off).isSome then rxStatus qpn msn stRemoteAccess s
    else
      let (s, bs) := rxPlain qpn msn c (pay.take c.fill) s
      let s := muleMove true false c.begins bs s
      let redop := fld c.addr 48 41
      let (old, badRead) := tierRead s off bs.length
      let (new, flags) := reduceBytes (fld c.addr 56 49) (fld redop 3 0) (fld redop 6 6 == 1) old bs
      let s := countResults flags s
      let (s, st, _) := dataWrite (.rx qpn msn) node off new s
      let s := rxStatus qpn msn (if badRead then stMemUncorrectable else st) s
      updRec qpn msn (fun r => { r with bytes := r.bytes + bs.length }) s

/-- A reserved byte of a SEND tail is set (Table 6.7). -/
def tailReserved (gcm : Bool) (pay : List Byte) : Bool :=
  !((slice pay 8 8).all (· == 0)) || !((pay.drop 32).all (· == 0)) || (!gcm && !((slice pay 16 16).all (· == 0)))

/-- Apply a SEND cell (R172). -/
def applySend (qpn msn : Nat) (c : CellIn) (s : State) : State :=
  match qpOf s qpn, recOf s qpn msn with
  | some q, some r =>
    let pay := payBytes c.pay
    if c.tail then
      let total := leAt pay 0 4
      let imm := leAt pay 4 4
      let s := updRecv qpn r.ssn (fun e =>
        { e with total := some total, imm := imm, lastMsn := msn
                 status := if e.status = 0 && e.len < total then stRemoteAccess else e.status }) s
      let s := updRec qpn msn (fun r => { r with imm := imm, tag := some (slice pay 16 16) }) s
      match q.recvs.find? (fun e => e.ssn == r.ssn) with
      | some e => if q.herd.isNone && e.len < total then rxStatus qpn msn stRemoteAccess s else s
      | none => s
    else
      match q.recvs.find? (fun e => e.ssn == r.ssn) with
      | none => s
      | some e =>
        let off := c.addr / 2 ^ 16 % 2 ^ 32
        let (s, bs) := rxPlain qpn msn c (pay.take c.fill) s
        if q.herd.isSome then
          updRecv qpn r.ssn (fun e => { e with data := e.data ++ [(off, bs)] }) s
        else
          let room := e.len - off
          let bs := bs.take room
          let s := muleMove true false c.begins bs s
          let (s, st) := writeRange (.rx qpn msn) r.pages (e.buf + off) bs s
          let s := rxStatus qpn msn (if room < c.fill then stRemoteAccess else st) s
          let s := updRecv qpn r.ssn (fun e => { e with bytes := e.bytes + bs.length }) s
          updRec qpn msn (fun r => { r with bytes := r.bytes + bs.length }) s
  | _, _ => s

/-- A run of a READ_REQ cell: fabric address, bytes, offset in the tile, LINE_OFFSET. -/
def readRun (p : BitVec 512) : Nat × Nat × Nat × Nat :=
  let b := payBytes p
  (leAt b 0 8, leAt b 8 4, leAt b 12 4, leAt b 16 1)

/-- Control payload of a request cell with a reserved byte set or a field out of range (R175). -/
def requestBad (c : CellIn) : Bool :=
  let b := payBytes c.pay
  match c.kind with
  | 3 => !((b.drop 17).all (· == 0)) || leAt b 8 4 == 0 || decide (262144 < leAt b 8 4) || decide (63 < leAt b 16 1)
      || decide (63 < c.cnt)
  | 5 => !((slice b 10 6).all (· == 0)) || !((b.drop 48).all (· == 0))
      || (leAt b 8 1 != 8 && leAt b 8 1 != 16) || decide (2 < leAt b 9 1) || leAt b 0 8 % leAt b 8 1 != 0
  | 7 => decide (55 < c.cnt) || (c.idx == 0 && leAt b 1 1 != 0)
  | _ => false

/-- Some byte of a run is rejected (R80), granule by granule. -/
def runRejected (s : State) (fa n : Nat) : Bool :=
  let node := fa / 2 ^ 41
  let off := fa % 2 ^ 41
  accessStatus s node off != 0 || accessStatus s node (off + n - 1) != 0
    || (List.range ((off + n - 1) / granuleBytes - off / granuleBytes)).any (fun i =>
        accessStatus s node ((off / granuleBytes + i + 1) * granuleBytes) != 0)

/-- Apply a request cell: its payload is kept, and R178 may refuse it. -/
def applyRequest (qpn msn : Nat) (c : CellIn) (s : State) : State :=
  let s := updRec qpn msn (fun r => { r with pays := mapSet r.pays c.idx c.pay }) s
  let b := payBytes c.pay
  let rejected :=
    match c.kind with
    | 3 => runRejected s (leAt b 0 8) (leAt b 8 4)
    | 5 => accessStatus s (leAt b 0 8 / 2 ^ 41) (leAt b 0 8 % 2 ^ 41) != 0
    | _ => false
  if rejected then rxStatus qpn msn stRemoteAccess s else s

/-- Apply a cell that has passed every check. -/
def applyCell (qpn msn : Nat) (c : CellIn) (s : State) : State :=
  match c.kind with
  | 0 => applyData qpn msn c s
  | 1 => applyReduce qpn msn c s
  | 2 => applySend qpn msn c s
  | _ => applyRequest qpn msn c s

/-- The cell cannot be taken now: its write would stall, or its slot admits no new charge (R112, R415). -/
def rxWaits (s : State) (c : CellIn) (isNew : Bool) : Bool :=
  (c.kind ≤ 1 && !(rxGcm s c.dqpn && c.idx == c.cnt) && writeStalls s (c.addr % 2 ^ 41))
    || (isNew && (rxSlot s c.dqpn c.kind).any (chargeWaits s))

/-- An unstable duplicate request: the response goes again (R171, R177). -/
def answerDuplicate (qpn msn kind : Nat) (s : State) : State :=
  match respOf s qpn msn with
  | none => s
  | some p =>
    if (kind = 3 && p.kind == 4 || kind = 7 && p.kind == 8 && p.ready || kind = 5 && p.kind == 6) then
      putResp { p with resend := ((List.range p.cells).filter (fun i => i < p.next && !(p.marks.contains i)))
                       lastTick := s.tick.count.toNat } s
    else s

/-- A cell of an incoming message (R176 to R178): the checks in order, the record, and its application. -/
def respCell (c : CellIn) (x : RecvReads) (s : State) : State :=
  match qpOf s c.dqpn with
  | none => badCells 1 s
  | some q =>
    if q.peerNode != c.srcNode || q.peerUnit != c.srcUnit || (q.typ != 0 && q.typ != 1) then badCells 1 s
    else if q.state != .ready then sendNack c.dqpn (extend 16 q.expected c.msn) 3 0 false [] s
    else
      let msn := extend 16 q.expected c.msn
      let frozen := (inst s q.inst).state == .frozen
      if frozen then sendNack c.dqpn msn 2 0 false [] s
      else
        let s := freeResults c.dqpn msn s
        if msn < q.expected || q.winBits.contains msn then
          answerDuplicate c.dqpn msn c.kind (sendAck c.dqpn msn (bump Reg.GX_TP_DUP_CNT s))
        else if q.expected + 4096 ≤ msn then badCells 1 s
        else if requestBad c || (c.kind == 1 && !(rxGcm s c.dqpn && c.idx == c.cnt) && reduceBad c)
            || (c.kind == 2 && c.tail && tailReserved (rxGcm s c.dqpn) (payBytes c.pay)) then badCells 1 s
        else
          let old := recOf s c.dqpn msn
          if rxWaits s c old.isNone then s
          else
            let made : State × Option RxRec :=
              match old with
              | some r => (s, some r)
              | none =>
                if (inst s q.inst).state == .freezing then (sendNack c.dqpn msn 2 0 false [] s, none)
                else if 16 ≤ q.statuses.length then (s, none)
                else if recordsFree s = 0 then
                  (raise Reg.GX_TP_EVENTS 2 (bump Reg.GX_TP_NO_RECORD_CNT s), none)
                else
                  let r : RxRec := { qpn := c.dqpn, msn := msn, kind := c.kind, cnt := c.cnt }
                  if c.kind = 2 && !(rxDenied s q 2) then placeSend q c msn r x s else (s, some r)
            match made with
            | (s, none) => s
            | (s, some r) =>
              if r.cnt != c.cnt || r.kind != c.kind then badCells 1 s
              else if r.got.contains c.idx then bump Reg.GX_TP_DUP_CNT s
              else
                let fresh := old.isNone
                let s := putRec { r with got := r.got ++ [c.idx], lastTick := s.tick.count.toNat } s
                let s :=
                  if rxDenied s q c.kind then rxStatus c.dqpn msn stRemoteAccess s
                  else
                    let s := if fresh && !r.refused then rxCharge c.dqpn msn c s else s
                    if ((recOf s c.dqpn msn).map (·.refused)).getD true then
                      -- The tail of a refused SEND still tells its length (R172).
                      if c.kind = 2 && c.tail then applySend c.dqpn msn c s else s
                    else applyCell c.dqpn msn c s
                rxFinish c.dqpn msn s

/-! ### Execution in MSN order (R168) -/

/-- The lower MSNs are complete and every request cell has arrived. -/
def mayExecute (s : State) (qpn msn kind : Nat) : Option RxRec :=
  match qpOf s qpn, recOf s qpn msn with
  | some q, some r =>
    if q.state == .ready && q.expected == msn && r.kind == kind && !r.executed && r.status == 0
      && r.got.length == r.cnt + 1 then some r else none
  | _, _ => none

/-- Read the runs of a READ for its response: nothing while a read waits. -/
def readRuns (s : State) (owner : Nat) (runs : List (Nat × Nat × Nat × Nat)) : Option (List Byte × Nat) :=
  runs.foldl (fun acc x =>
    match acc with
    | none => none
    | some (bs, st) =>
      if runRejected s x.1 x.2.1 then some (bs ++ List.replicate x.2.1 0, if st = 0 then stRemoteAccess else st)
      else
        match dataRead s owner (x.1 / 2 ^ 41) (x.1 % 2 ^ 41) x.2.1 with
        | .wait => none
        | .refused _ => some (bs ++ List.replicate x.2.1 0, if st = 0 then stRemoteAccess else st)
        | .got b bad =>
          let bst := if !bad then 0 else if (apertureOf (x.1 % 2 ^ 41)).isSome then stRemoteAccess
            else stMemUncorrectable
          some (bs ++ b, if st = 0 then bst else st)) (some ([], 0))

/-- READ_EXECUTE (R168, R176): every run is read, the response record made, the message complete. -/
def readExecute (qpn msn : Nat) (s : State) : State :=
  match mayExecute s qpn msn 3 with
  | none => s
  | some r =>
    let runs := r.pays.map (fun e => readRun e.2)
    let order := runs.foldl (fun acc x => acc.takeWhile (fun y => y.2.2.1 ≤ x.2.2.1) ++ [x]
      ++ acc.dropWhile (fun y => y.2.2.1 ≤ x.2.2.1)) []
    match readRuns s (rxOwner qpn msn) order with
    | none => s
    | some (bs, st) =>
      let s := muleMove false false true bs s
      let lineOff := (order.head?.map (fun x => x.2.2.2)).getD 0
      let tx := qpSlot s qpn 0
      let gcm := tx.any (fun n => (keySlot s n).mode == 4)
      let data := lineCount lineOff bs.length
      let cells := data + (if gcm then 1 else 0)
      let fills := (List.range data).map (fun k => (cellSpan lineOff bs.length k).2)
      if tx.any (chargeWaits s) then s
      else
        let (s, ok) := match tx with
          | none => (s, true)
          | some n => if st = stRemoteAccess then (s, true) else charge n (msgBlocks (keySlot s n).mode fills) s
        let st := if ok then st else stKeyExhausted
        let s := updRec qpn msn (fun r => { r with executed := true, status := st }) s
        let s := if st = stRemoteAccess || !ok then s
          else putResp { qpn := qpn, msn := msn, kind := 4, data := bs, lineOff := lineOff, cells := cells
                         runs := order.map (fun x => (x.1, x.2.1, x.2.2.1)), status := st
                         lastTick := s.tick.count.toNat } s
        rxFinish qpn msn s

/-- READ_EXECUTE (R168). -/
def execReadExecute (qpn msn : Nat) (s : State) : Res := .next (whenOk (working s) (readExecute qpn msn) s)

/-- The value that an ATOMIC writes (R144). -/
def atomicNew (aop size prior a b : Nat) : Nat :=
  match aop with
  | 0 => (prior + a) % 2 ^ (8 * size)
  | 1 => a % 2 ^ (8 * size)
  | _ => if prior = a % 2 ^ (8 * size) then b % 2 ^ (8 * size) else prior

/-- Send the ATOMIC_RESP of a result. -/
def sendAtomicResp (qpn msn : Nat) (prior : List Byte) (s : State) : State :=
  match qpOf s qpn with
  | none => s
  | some q => sendCtl qpn q 6 msn (prior ++ List.replicate (16 - prior.length) 0) s

/-- Perform an ATOMIC once (R168, R171). -/
def atomicPerform (qpn msn : Nat) (s : State) : State :=
  match mayExecute s qpn msn 5 with
  | none => s
  | some r =>
    let b := payBytes ((mapGet r.pays 0).getD 0)
    let fa := leAt b 0 8
    let size := leAt b 8 1
    match dataRead s (rxOwner qpn msn) (fa / 2 ^ 41) (fa % 2 ^ 41) size with
    | .wait => s
    | .refused _ => rxFinish qpn msn (updRec qpn msn (fun r => { r with executed := true, status := stRemoteAccess }) s)
    | .got old bad =>
      if bad then
        let st := if (apertureOf (fa % 2 ^ 41)).isSome then stRemoteAccess else stMemUncorrectable
        rxFinish qpn msn (updRec qpn msn (fun r => { r with executed := true, status := st }) s)
      else
        let new := atomicNew (leAt b 9 1) size (leNat old) (leAt b 16 16) (leAt b 32 16)
        let (s, st, _) := dataWrite (.rx qpn msn) (fa / 2 ^ 41) (fa % 2 ^ 41) (leBytes size new) s
        let s := updRec qpn msn (fun r => { r with executed := true, status := st }) s
        let s := if st ≠ 0 then s
          else sendAtomicResp qpn msn old
            (putResp { qpn := qpn, msn := msn, kind := 6, data := old, cells := 1, next := 1
                       lastTick := s.tick.count.toNat } s)
        rxFinish qpn msn s

/-- ATOMIC_PERFORM (R168). -/
def execAtomicPerform (qpn msn : Nat) (s : State) : Res := .next (whenOk (working s) (atomicPerform qpn msn) s)

/-- The RECV of the oldest finished SEND completes once every lower MSN is complete (R168, R172). -/
def recvComplete (qpn : Nat) (s : State) : State :=
  match qpOf s qpn with
  | none => s
  | some q =>
    match q.recvs with
    | [] => s
    | e :: rest =>
      match e.total with
      | none => s
      | some total =>
        if q.state != .ready || q.herd.isSome || q.expected ≤ e.lastMsn || !(unflushed s (.rx qpn 0)).isEmpty then s
        else
          let aux := e.aux.getD (q.peerNode * 64 + q.peerUnit + q.peerQpn * 2 ^ 32)
          let c : Completion :=
            match e.fault with
            | some (cause, va, _) =>
              { status := stXlateFault, recv := true, detail := cause, bytes := e.bytes, aux := va, imm := e.imm }
            | none =>
              { status := e.status, recv := true, imm := e.imm, aux := aux
                bytes := if e.len < total then e.len else if e.status = 0 then total else e.bytes }
          let s := finishOp q.rq e.slot c s
          updQp qpn (fun q => { q with recvs := rest, recvSsn := q.recvSsn + 1 }) s

/-- RECV_COMPLETE (R168). -/
def execRecvComplete (qpn : Nat) (s : State) : Res := .next (whenOk (working s) (recvComplete qpn) s)

/-- RECV (R172): the entry that the receive ring of a queue pair supplies next is fetched. -/
def execRecv (qpn : Nat) (x : RecvReads) (s : State) : Res :=
  .next (whenOk (working s) (fun s =>
    match qpOf s qpn with
    | none => s
    | some q =>
      if q.rq = 0 || q.state != .ready || 64 ≤ q.recvs.length then s
      else (fetchRecvs 2 qpn (q.recvSsn + q.recvs.length) x s).1) s)

/-! ### Time at the responder (R182) -/

/-- Chunks of a record with a cell that has not arrived. -/
def missingChunks (cnt : Nat) (got : List Nat) : List Nat :=
  (List.range (cnt / 256 + 1)).filter (fun ch =>
    (List.range 256).any (fun j => ch * 256 + j ≤ cnt && !(got.contains (ch * 256 + j))))

/-- Received bits of a chunk. -/
def chunkBits (got : List Nat) (ch : Nat) : List Nat :=
  (got.filter (fun i => i / 256 == ch)).map (· % 256)

/-- The record has been quiet for a multiple of NACK_DELAY (R182). -/
def nackDue (s : State) (last : Nat) : Bool :=
  let d := wfld (rg s Reg.GX_TP_TIMERS) 3 0
  let quiet := s.tick.count.toNat - last
  d ≤ quiet && quiet % d == 0

/-- MISSING NACKs of one record. -/
def missingNack (qpn msn : Nat) (s : State) : State :=
  match recOf s qpn msn with
  | some r =>
    if r.got.length ≤ r.cnt && nackDue s r.lastTick then
      (missingChunks r.cnt r.got).foldl (fun s ch => sendNack qpn msn 0 ch false (chunkBits r.got ch) s) s
    else s
  | none => s

/-- REC_TIMEOUT has passed since a tick. -/
def recExpired (s : State) (last : Nat) : Bool :=
  wfld (rg s Reg.GX_TP_TIMERS) 31 16 ≤ s.tick.count.toNat - last

/-- Free an incomplete record, or the response record of a READ, that has been quiet (R182). -/
def recordTimeout (qpn msn : Nat) (s : State) : State :=
  let s := match recOf s qpn msn with
    | some r =>
      if r.got.length ≤ r.cnt && recExpired s r.lastTick then
        let s := releaseUses r.uses s
        { s with tp := { s.tp with recs := mapErase s.tp.recs (msgKey qpn msn) } }
      else s
    | none => s
  match respOf s qpn msn with
  | some p => if p.kind == 4 && recExpired s p.lastTick then dropResp qpn msn s else s
  | none => s

/-- A RESP_ACK frees the result-cache entry of its MSN (R171). -/
def respAck (c : CellIn) (s : State) : State :=
  match qpOf s c.dqpn with
  | none => badCells 1 s
  | some q =>
    if q.peerNode != c.srcNode || q.peerUnit != c.srcUnit || !((payBytes c.pay).drop 4).all (· == 0) then badCells 1 s
    else
      let msn := extend 32 q.expected (leAt (payBytes c.pay) 0 4)
      match respOf s c.dqpn msn with
      | some p => if p.kind == 4 then s else dropResp c.dqpn msn s
      | none => s

end Sys2Proof.Machine
end

