-- ==== Sys2Proof/Machine/TpReq.lean ====
section
/-! DEFINITION. The requester: starting operations, cutting them into tiles, the cells of a message,
acknowledgements, NACKs, responses and retransmission (R94, R166 to R173, R183 to R187, R422 to R426). -/

namespace Sys2Proof.Machine

/-! ### Cutting an operation into tiles (R94, R167) -/

/-- Tiles of one contiguous transfer: both addresses advance together; `fine` is the address whose 128 KiB
boundaries end a tile as well. -/
def cutTransfer (fuel src dst len : Nat) (dstVa : Bool) (fine : Option Nat) : List Tile :=
  match fuel with
  | 0 => []
  | k + 1 =>
    if len = 0 then []
    else
      let big := 0x40000
      let n := min len (big - src % big)
      let n := if dstVa then min n (big - dst % big) else n
      let n := match fine with
        | some a => min n (0x20000 - a % 0x20000)
        | none => n
      { src := src, dst := dst, len := n } :: cutTransfer k (src + n) (dst + n) (len - n) dstVa (fine.map (· + n))

/-- Enough fuel for a transfer. -/
def cutFuel (len : Nat) : Nat := 2 * (len / 0x20000) + 4

/-- The segments of an entry's local side (R145): address and length. -/
def segments (o : Op) : List (Nat × Nat) :=
  let n := ef o.entry 34 1
  if n = 0 then [(ef o.entry 16 8, entryLength o.entry)]
  else
    (List.range n).map (fun i =>
      let b := slice o.payload (56 * (i / 3) + 16 * (i % 3)) 16
      (leAt b 0 8, leAt b 8 4)) |>.filter (fun x => x.2 != 0)

/-- Each segment is a transfer of its own; the far side advances through them. -/
def cutSegments (segs : List (Nat × Nat)) (far : Nat) (localIsSrc farVa fine : Bool) : List Tile :=
  match segs with
  | [] => []
  | (va, len) :: t =>
    (if localIsSrc then cutTransfer (cutFuel len) va far len farVa (if fine then some far else none)
     else cutTransfer (cutFuel len) far va len true (if fine then some va else none))
      ++ cutSegments t (far + len) localIsSrc farVa fine

/-! ### Starting an operation (R143, R169, R170, R185, R186, R426) -/

/-- The operation may start: it is whole, unstarted, its instance runs work, its ORDER bit and the FENCEs of
its queue pair let it, and every earlier operation of its queue pair has started. -/
def mayStartOp (s : State) (ring slot : Nat) : Option Op :=
  match ringOf s ring with
  | none => none
  | some g =>
    match g.ops.find? (fun o => o.slot == slot && o.head == slot) with
    | none => none
    | some o =>
      let before := g.ops.takeWhile (fun x => x.slot != slot)
      let pending := before.filter (fun x => x.done.isNone || !x.flush.isEmpty)
      let sameQp := fun (x : Op) => entryOpcode x.entry ≤ 7 && entryQpn x.entry == entryQpn o.entry
      let st := (inst s g.inst).state
      if o.whole && !o.started && o.done.isNone && o.malformed.isNone && g.shutting.isNone
          && (st == .ready || st == .freezing)
          && (!(o.entry.getLsbD 3) || pending.isEmpty)
          && (decide (7 < entryOpcode o.entry)
            || !(pending.any (fun x => sameQp x && entryOpcode x.entry == 7))
              && pending.all (fun x => !(sameQp x) || x.started))
      then some o else none

/-- Mark an operation as started. -/
def markStarted (ring slot : Nat) (s : State) : State := updChain ring slot (fun o => { o with started := true }) s

/-- A tier slot (TIER_SEAL or TIER_OPEN) that an SA names. -/
def tierSlot (s : State) (sa : Nat) : Option Nat :=
  if sa = 0 then none
  else
    let k := keySlot s (sa - 1)
    if k.state != 0 && (k.binding == 2 || k.binding == 3) then some (sa - 1) else none

/-- SA of an entry by its OPCODE (Table 5.6). -/
def entrySa (e : BitVec 512) : Nat :=
  match entryOpcode e with
  | 1 => ef e 32 2
  | 2 => ef e 32 2
  | 3 => ef e 32 2
  | 5 => ef e 34 2
  | _ => 0

/-- The SA names an EXHAUSTED or SPENT slot (Table 15.7). -/
def saSpent (s : State) (sa : Nat) : Bool := sa != 0 && 2 ≤ (keySlot s (sa - 1)).state

/-- The kind of run that an OPCODE starts. -/
def kindOfOpcode (c : Nat) : Option RunKind :=
  match c with
  | 1 => some .write
  | 2 => some .read
  | 3 => some .send
  | 4 => some .atomic
  | 5 => some .writeReduce
  | 6 => some .attn
  | _ => none

/-- Bytes of the blob that a seal writes (R422), by mode. -/
def blobLen (mode len : Nat) : Nat :=
  if mode = 0 then 16 + (len + 16 - len % 16) else if mode = 4 then 32 + len else 16 + len

/-- The run of a started operation. -/
def makeRun (s : State) (ring : Nat) (g : Ring) (o : Op) (q : Qp) (kind : RunKind) : OpRun :=
  let e := o.entry
  let qpn := entryQpn e
  let gcm := fun b => qpMode s qpn b == some 4
  let far := ef e 24 8
  let segs := if kind = .writeReduce then [(ef e 16 8, entryLength e)] else segments o
  let base : OpRun := { kind := kind, ring := ring, slot := o.slot, qpn := qpn, inst := q.inst, space := g.space
                        tiles := [] }
  match kind with
  | .write => { base with tiles := cutSegments segs far true (q.typ != 2) (gcm 0) }
  | .writeReduce =>
    { base with tiles := cutSegments segs far true true (gcm 0), op := ef e 32 1, format := ef e 33 1 }
  | .read => { base with tiles := cutSegments segs far false true (gcm 1) }
  | .send =>
    { base with tiles := if entryLength e = 0 then [{ src := 0, dst := 0, len := 0 }]
                         else cutSegments segs 0 true false true
                imm := ef e 40 4 }
  | .atomic =>
    { base with tiles := [{ src := far, dst := ef e 16 8, len := ef e 4 1 }], op := ef e 5 1
                operA := ef e 32 16, operB := ef e 48 16 }
  | .attn =>
    let n := fld (ef e 32 8) 19 8
    { base with tiles := [{ src := 0, dst := ef e 16 8, len := entryLength e }], op := ef e 32 1
                data := some (o.payload.take n) }
  | .seal =>
    let n := entrySa e - 1
    let k := keySlot s n
    let len := entryLength e
    let out := if k.binding = 2 then blobLen k.mode len else openLen k.mode len
    { base with tiles := cutSegments segs (2 ^ 60) true false false
                  ++ (cutTransfer (cutFuel out) (2 ^ 60) far out true none), op := n }

/-- A seal's or open's tiles of the source, and of the destination. -/
def sealSrc (r : OpRun) : List Tile := r.tiles.filter (fun t => t.src < 2 ^ 60)
def sealDst (r : OpRun) : List Tile := r.tiles.filter (fun t => 2 ^ 60 ≤ t.src)

/-- Read the source of a seal or open. -/
def sealRead (s : State) (key : Nat) (r : OpRun) : ReadRes :=
  (sealSrc r).foldl (fun acc t =>
    match acc with
    | .got bs bad =>
      match readRange s key t.srcPages t.src t.len with
      | .got b bad' => .got (bs ++ b) (bad || bad')
      | x => x
    | x => x) (.got [] false)

/-- Write bytes over the destination tiles of a seal or open. -/
def sealWrite (key : Nat) (ts : List Tile) (bs : List Byte) (s : State) : State × Nat :=
  match ts with
  | [] => (s, 0)
  | t :: rest =>
    let (s, st) := writeRange (.run key) t.dstPages t.dst (bs.take t.len) s
    let (s, st') := sealWrite key rest (bs.drop t.len) s
    (s, if st = 0 then st' else st)

/-- Blocks charged for a seal or open (R425). -/
def sealBlocks (k : KeySlot) (c : Nat) : Nat :=
  (c + 15) / 16 + (if k.mode = 0 && k.binding == 2 then 1 else 0) + (if k.mode = 4 then 1 else 0)

/-- Carry out a seal or open once every page of both sides is translated and its source is read (R422 to
R427). -/
def trySeal (key : Nat) (s : State) : State :=
  match runOf s key with
  | none => s
  | some r =>
    if r.kind != .seal then s
    else if r.cut.isSome || r.stopped.isSome then checkRun key s
    else if !(r.tiles.all (fun t => t.state == .ready)) then s
    else
      let k := keySlot s r.op
      let ends := fun (c : Completion) (s : State) =>
        finishRun key c (updRun key (fun r => { r with tiles := r.tiles.map (fun t => { t with state := .done }) }) s)
      if (sealDst r).any (fun t => rangeStalls s t.dstPages t.dst t.len)
          || k.binding == 2 && decide (k.mode ≤ 2) && !(drbgReady s) then s
      else
        match sealRead s key r with
        | .wait => s
        | .refused st => ends { status := st } s
        | .got src bad =>
          if chargeWaits s r.op then s
          else
            let c := if k.binding = 2 then src.length else openLen k.mode src.length
            let (s, ok) := charge r.op (sealBlocks k c) s
            if !ok then ends { status := stKeyExhausted } s
            else
              let s := cryptCount c (muleMove false false true src s)
              if k.binding = 2 then
                let (rand, drawn) := drawDrbg s
                let s := if k.mode ≤ 2 then drawn else s
                let blob := sealBlob k rand src
                let s := if k.mode ≤ 2 then s
                else setKeySlot r.op { keySlot s r.op with invocation := (keySlot s r.op).invocation + 1 } s
                let s := muleMove true false true blob s
                let (s, st) := sealWrite key (sealDst r) blob s
                ends { status := if st != 0 then st else if bad then stMemUncorrectable else 0
                       bytes := if st = 0 then blob.length else 0 } s
              else
                let (plain, n, good) := openBlob k src
                let s := muleMove true false true plain s
                let (s, st) := sealWrite key (sealDst r) plain s
                let s := if good then s else raise Reg.GX_CE_EVENTS 0 (bump Reg.GX_CE_AUTH_FAIL_CNT s)
                ends { status := if st != 0 then st else if bad then stMemUncorrectable else if good then 0
                         else stAuthFail
                       bytes := if st = 0 && good then n else 0 } s

/-- Go on with an operation: translate what waits, seal or open what is ready, end what is over. -/
def progressRun (key : Nat) (s : State) : State :=
  let s := translateRun key s
  match runOf s key with
  | none => s
  | some r => if r.kind = .seal then trySeal key s else checkRun key s

/-- Start an accepted operation of an OPCODE (R166). -/
def startOp (opcode ring slot : Nat) (s : State) : State :=
  match mayStartOp s ring slot, ringOf s ring with
  | some o, some g =>
    if entryOpcode o.entry ≠ opcode then s
    else
      match qpOf s (entryQpn o.entry), kindOfOpcode opcode with
      | some q, some kind =>
        let s := markStarted ring slot s
        let sa := entrySa o.entry
        let tier := if opcode = 1 then tierSlot s sa else none
        if q.state = .error && tier.isNone then finishOp ring slot { status := stRetryExceeded } s
        else if q.state = .movedWait && tier.isNone then finishOp ring slot { status := stMoved } s
        else if saSpent s sa then finishOp ring slot { status := stKeyExhausted } s
        else if entryLength o.entry = 0 && (opcode == 1 || opcode == 2 || opcode == 5) then
          finishOp ring slot { status := stOk } s
        else
          let r := makeRun s ring g o q (if tier.isSome then .seal else kind)
          let r := if kind = .send then { r with ssn := q.sendSsn } else r
          let s := if kind = .send then updQp (entryQpn o.entry) (fun q => { q with sendSsn := q.sendSsn + 1 }) s else s
          let key := opKey ring slot
          progressRun key { s with tp := { s.tp with runs := mapSet s.tp.runs key r } }
      | _, _ => s
  | _, _ => s

/-- WRITE (R166, R422). -/
def execWrite (ring slot : Nat) (s : State) : Res := .next (whenOk (working s) (startOp 1 ring slot) s)

/-- READ (R166). -/
def execRead (ring slot : Nat) (s : State) : Res := .next (whenOk (working s) (startOp 2 ring slot) s)

/-- SEND (R172). -/
def execSend (ring slot : Nat) (s : State) : Res := .next (whenOk (working s) (startOp 3 ring slot) s)

/-- ATOMIC (R171). -/
def execAtomic (ring slot : Nat) (s : State) : Res := .next (whenOk (working s) (startOp 4 ring slot) s)

/-- WRITE_REDUCE (R334). -/
def execWriteReduce (ring slot : Nat) (s : State) : Res := .next (whenOk (working s) (startOp 5 ring slot) s)

/-- ATTN (R166). -/
def execAttn (ring slot : Nat) (s : State) : Res := .next (whenOk (working s) (startOp 6 ring slot) s)

/-- FENCE (R169): it ends once every earlier operation of its queue pair has completed. -/
def fenceOp (ring slot : Nat) (s : State) : State :=
  match ringOf s ring with
  | none => s
  | some g =>
    match g.ops.find? (fun o => o.slot == slot && o.head == slot) with
    | none => s
    | some o =>
      let before := g.ops.takeWhile (fun x => x.slot != slot)
      let open_ := fun (x : Op) => (x.done.isNone || !x.flush.isEmpty)
        && (o.entry.getLsbD 3 || entryOpcode x.entry ≤ 7 && entryQpn x.entry == entryQpn o.entry)
      let st : Option QpState := (qpOf s (entryQpn o.entry)).map (·.state)
      if entryOpcode o.entry != 7 || o.done.isSome || o.malformed.isSome || g.shutting.isSome
          || !(instFinishes s g.inst) then s
      else if st == some QpState.error then finishOp ring slot { status := stRetryExceeded } (markStarted ring slot s)
      else if st == some QpState.movedWait then finishOp ring slot { status := stMoved } (markStarted ring slot s)
      else if before.any open_ then s
      else finishOp ring slot { status := stOk } (markStarted ring slot s)

/-- FENCE (R169). -/
def execFence (ring slot : Nat) (s : State) : Res := .next (whenOk (working s) (fenceOp ring slot) s)

/-! ### The cells of a message (R166, R173 to R175, R417, R418) -/

/-- Contiguous runs of a range through its pages: fabric address, bytes, offset in the tile. -/
def runsOf (pages : List PageMap) (va n : Nat) : List (Nat × Nat × Nat) :=
  (pieces pages va n).foldl (fun acc x =>
    let fa := fabricAddr x.2.2.1 x.2.2.2
    match acc.getLast? with
    | some (f, m, o) =>
      if f + m = fa then acc.dropLast ++ [(f, m + x.2.1, o)] else acc ++ [(fa, x.2.1, x.1 - va)]
    | none => [(fa, x.2.1, x.1 - va)]) []

/-- The slot under which a queue pair encrypts a message of a kind. -/
def txSlot (s : State) (qpn : Nat) (kind : RunKind) : Option Nat :=
  if ofHerd s qpn then none else
  match kind with
  | .write => qpSlot s qpn 0
  | .writeReduce => qpSlot s qpn 0
  | .send => qpSlot s qpn 0
  | _ => none

/-- Under GCM. -/
def txGcm (s : State) (qpn : Nat) (kind : RunKind) : Bool :=
  (txSlot s qpn kind).any (fun n => (keySlot s n).mode == 4)

/-- Data cells of a tile's message. -/
def dataCells (r : OpRun) (t : Tile) : Nat :=
  match r.kind with
  | .write => lineCount t.dst t.len
  | .writeReduce => lineCount t.dst t.len
  | .send => lineCount t.dst t.len
  | _ => 0

/-- The tile is the last of its operation. -/
def lastTile (r : OpRun) (i : Nat) : Bool := i + 1 == r.tiles.length

/-- Cells of a tile's message (R173). -/
def msgCells (s : State) (r : OpRun) (i : Nat) (t : Tile) : Nat :=
  match r.kind with
  | .write => dataCells r t + (if txGcm s r.qpn r.kind then 1 else 0)
  | .writeReduce => dataCells r t + (if txGcm s r.qpn r.kind then 1 else 0)
  | .send => dataCells r t + (if lastTile r i then 1 else 0)
  | .read => (runsOf t.srcPages t.src t.len).length
  | .atomic => 1
  | .attn =>
    let n := (r.data.getD []).length
    1 + (n - 56 + 63) / 64
  | .seal => 0

/-- KIND of the cells (Table 6.6). -/
def cellKind (k : RunKind) : Nat :=
  match k with
  | .write => 0
  | .writeReduce => 1
  | .send => 2
  | .read => 3
  | .atomic => 5
  | .attn => 7
  | .seal => 15

/-- Bytes of the tile before encryption. -/
def tileBytes (s : State) (key : Nat) (r : OpRun) (t : Tile) (off n : Nat) : ReadRes :=
  match r.data with
  | some bs => .got (slice bs (t.src + off) n) false
  | none => readRange s key t.srcPages (t.src + off) n

/-- One cell to send: payload bytes, FILL + 1, encoded ADDR, tail. -/
structure CellOut where
  bytes : List Byte
  fill : Nat
  addr : Nat
  tail : Bool := false
  /-- A source byte was uncorrectable, or its read failed. -/
  bad : Bool := false
  deriving DecidableEq, Repr

/-- ADDR of a data cell (Table 6.6). -/
def cellAddr (r : OpRun) (t : Tile) (off : Nat) : Nat :=
  match r.kind with
  | .send => r.ssn % 65536 + (t.dst + off) % 2 ^ 32 * 2 ^ 16
  | .writeReduce =>
    match locate t.dstPages (t.dst + off) with
    | some (_, o) => o + r.op * 2 ^ 41 + r.format * 2 ^ 49
    | none => 0
  | _ =>
    match locate t.dstPages (t.dst + off) with
    | some (n, o) => fabricAddr n o
    | none => 0

/-- Ciphertext of every data cell of a message, for its tag. -/
def cipherCells (s : State) (key : Nat) (r : OpRun) (t : Tile) (k : KeySlot) (msn : Nat) : Option (List (List Byte)) :=
  match tileBytes s key r t 0 t.len with
  | .got bs _ =>
    some ((List.range (dataCells r t)).map (fun i =>
      let (off, n) := cellSpan t.dst t.len i
      cellCrypt k msn i (slice bs off n)))
  | _ => none

/-- The tag of a message that is sent (R418). -/
def sendTag (s : State) (key : Nat) (r : OpRun) (t : Tile) (msn : Nat) : Option (List Byte) :=
  match txSlot s r.qpn r.kind, qpOf s r.qpn with
  | some n, some q =>
    let k := keySlot s n
    (cipherCells s key r t k (msn % 2 ^ 32)).map (fun cs =>
      msgTag k (msn % 2 ^ 32) q.peerQpn (cellKind r.kind) t.len (if r.kind = .send then r.imm else 0) cs)
  | _, _ => none

/-- Total bytes of an operation. -/
def runTotal (r : OpRun) : Nat := (r.tiles.map (·.len)).sum

/-- Payload of a request cell (Table 6.7). -/
def requestPay (r : OpRun) (t : Tile) (k : Nat) : List Byte :=
  match r.kind with
  | .read =>
    match (runsOf t.srcPages t.src t.len)[k]? with
    | some (fa, n, off) => leBytes 8 fa ++ leBytes 4 n ++ leBytes 4 off ++ leBytes 1 (t.dst % 64)
    | none => []
  | .atomic =>
    match locate t.srcPages t.src with
    | some (n, o) => leBytes 8 (fabricAddr n o) ++ leBytes 1 t.len ++ leBytes 1 r.op ++ List.replicate 6 0
        ++ leBytes 16 r.operA ++ leBytes 16 r.operB
    | none => []
  | .attn =>
    let bs := r.data.getD []
    if k = 0 then leBytes 1 r.op ++ [0] ++ leBytes 2 bs.length ++ leBytes 4 t.len ++ bs.take 56
    else slice bs (56 + 64 * (k - 1)) 64
  | _ => []

/-- Cell k of a tile's message; none while a source read waits. The error is a status found at the requester. -/
def msgCell (s : State) (key _i : Nat) (r : OpRun) (t : Tile) (msn k : Nat) : Option (Except Nat CellOut) :=
  let nd := dataCells r t
  match r.kind with
  | .read => some (.ok { bytes := requestPay r t k, fill := 64, addr := 0 })
  | .atomic => some (.ok { bytes := requestPay r t k, fill := 64, addr := 0 })
  | .attn => some (.ok { bytes := requestPay r t k, fill := 64, addr := 0 })
  | .seal => none
  | _ =>
    if k < nd then
      let (off, n) := cellSpan t.dst t.len k
      match tileBytes s key r t off n with
      | .wait => none
      | .refused st => some (.error st)
      | .got bs bad =>
        let bs := match txSlot s r.qpn r.kind with
          | some x => cellCrypt (keySlot s x) (msn % 2 ^ 32) k bs
          | none => bs
        some (.ok { bytes := bs, fill := n, addr := cellAddr r t off, bad := bad })
    else
      let tag := if txGcm s r.qpn r.kind then sendTag s key r t msn else some (List.replicate 16 0)
      match tag with
      | none => none
      | some tg =>
        if r.kind = .send then
          some (.ok { bytes := leBytes 4 (runTotal r) ++ leBytes 4 r.imm ++ List.replicate 8 0 ++ tg, fill := 64
                      addr := r.ssn % 65536 + runTotal r * 2 ^ 16 + 2 ^ 48, tail := true })
        else
          some (.ok { bytes := tg, fill := 64, addr := cellAddr r t (t.len - 1) + 1 })

/-! ### Completing messages (R184) -/

/-- A requester's message. -/
def msgOf (s : State) (qpn msn : Nat) : Option Msg := mapGet s.tp.msgs (msgKey qpn msn)

/-- Change a message. -/
def updMsg (qpn msn : Nat) (f : Msg → Msg) (s : State) : State :=
  { s with tp := { s.tp with msgs := mapModify s.tp.msgs (msgKey qpn msn) f } }

/-- A message is complete at the requester: its tile is done, its uses end, its operation may end. -/
def msgDone (qpn msn status : Nat) (s : State) : State :=
  match msgOf s qpn msn with
  | none => s
  | some m =>
    let s := { s with tp := { s.tp with msgs := mapErase s.tp.msgs (msgKey qpn msn) } }
    let held := !(unflushed s (.run m.run)).isEmpty
    let uses := ((runOf s m.run).bind (fun r => r.tiles[m.tile]?)).elim [] (·.uses)
    let s := if held then s else releaseUses uses s
    let s := updTile m.run m.tile (fun t =>
      { t with state := .done, status := status, uses := if held then t.uses else [] }) s
    checkRun m.run s

/-- A RoCEv2 message is complete: a SEND's message covers every tile of its operation. -/
def roceDone (qpn msn status : Nat) (s : State) : State :=
  match (msgOf s qpn msn).bind (fun m => (runOf s m.run).map (fun r => (m, r))) with
  | some (m, r) =>
    if r.kind = .send then
      let rest := r.tiles.zipIdx.filter (fun t => t.2 != m.tile)
      let s := releaseUses (rest.map (fun t => t.1.uses)).flatten s
      let done := r.tiles.zipIdx.map (fun t => if t.2 = m.tile then t.1 else { t.1 with state := .done, uses := [] })
      msgDone qpn msn status (updRun m.run (fun r => { r with tiles := done }) s)
    else msgDone qpn msn status s
  | none => msgDone qpn msn status s

/-- A ROCE_RC requester goes back (R250): the messages from a PSN on are sent again from what is acknowledged of
them. -/
def goBack (qpn psn : Nat) (s : State) : State :=
  let now := s.tick.count.toNat
  let rto := ((qpOf s qpn).map (qpRto s)).getD 0
  let again := fun (m : Msg) =>
    if m.qpn = qpn ∧ psn ≤ m.msn ∧ m.next ≠ 0 then
      { m with resend := if m.kind = .read ∨ m.kind = .atomic then [0] else (List.range m.next).drop m.respCnt
               deadline := now + rto * 2 ^ min m.tries 3, rnrAt := none }
    else m
  { s with tp := { s.tp with msgs := s.tp.msgs.map (fun e => (e.1, again e.2)) } }

/-- Oldest message of a queue pair that is not complete. -/
def oldestMsg (s : State) (qpn : Nat) : Option Msg := (s.tp.msgs.find? (fun e => e.2.qpn == qpn && e.2.next != 0)).map Prod.snd

/-- The queue pair of a control or response cell: none when check 1 of R178 fails or it is not READY. -/
def reqQp (c : CellIn) (s : State) : Option Qp :=
  (qpOf s c.dqpn).bind (fun q =>
    if q.peerNode == c.srcNode && q.peerUnit == c.srcUnit && (q.typ == 0 || q.typ == 1) then some q else none)

/-- Take an ACK for one message (R180): done, or its request acknowledged. -/
def ackOne (qpn cum clean : Nat) (sack : Nat) (sts : List (Nat × Nat)) (m : Msg) (s : State) : State :=
  let covered := m.msn ≤ cum || (cum < m.msn && m.msn ≤ cum + 256 && fld sack (m.msn - cum - 1) (m.msn - cum - 1) == 1)
  let named := (sts.find? (fun e => e.1 == m.msn)).map Prod.snd
  if m.next = 0 || !(covered && (named.isSome || clean ≤ m.msn)) then s
  else
    let st := named.getD 0
    let responds := m.kind == .read || m.kind == .atomic || m.kind == .attn
    if responds && st == 0 then updMsg qpn m.msn (fun m => { m with acked := true }) s
    else msgDone qpn m.msn st s

/-- A reserved byte of an ACK is set. -/
def ackReserved (b : List Byte) : Bool :=
  (List.range 3).any (fun i => !((slice b (45 + 8 * i) 3).all (· == 0)) || fld (leAt b (44 + 8 * i) 1) 6 6 == 1)

/-- ACK (R180). -/
def takeAck (c : CellIn) (s : State) : State :=
  match reqQp c s with
  | none => badCells 1 s
  | some q =>
    let b := payBytes c.pay
    if ackReserved b then badCells 1 s
    else if q.state != .ready then s
    else
      let cum := extend 32 q.nextMsn (leAt b 0 4)
      let clean := extend 32 q.nextMsn (leAt b 4 4)
      let sts := (List.range 3).filterMap (fun i =>
        let v := leAt b (44 + 8 * i) 1
        if fld v 7 7 = 1 then some (extend 32 q.nextMsn (leAt b (40 + 8 * i) 4), v % 64) else none)
      let ms := (s.tp.msgs.filter (fun e => e.2.qpn == c.dqpn)).map Prod.snd
      ms.foldl (fun s m => ackOne c.dqpn cum clean (leAt b 8 32) sts m s) s

/-- Cells of a chunk that have been sent and are not marked. -/
def chunkUnmarked (chunk sent : Nat) (marks : List Nat) : List Nat :=
  ((List.range 256).map (· + 256 * chunk)).filter (fun i => i < sent && !(marks.contains i))

/-- Add cells to a resend list. -/
def addResend (old new : List Nat) : List Nat := new.foldl insertNew old

/-- Indices of the RECEIVED bits of a MISSING NACK. -/
def nackMarks (b : List Byte) : List Nat :=
  let bits := leAt b 8 32
  ((List.range 256).filter (fun j => bits / 2 ^ j % 2 == 1)).map (· + 256 * leAt b 5 1)

/-- MISSING NACK (R182, R183). -/
def nackMissing (qpn : Nat) (q : Qp) (b : List Byte) (s : State) : State :=
  let chunk := leAt b 5 1
  if leAt b 6 1 % 2 = 1 then
    let msn := extend 32 q.expected (leAt b 0 4)
    match respOf s qpn msn with
    | none => s
    | some p =>
      let marks := addResend p.marks (nackMarks b)
      putResp { p with marks := marks, lastTick := s.tick.count.toNat
                       resend := addResend p.resend (chunkUnmarked chunk p.next marks) } s
  else
    let msn := extend 32 q.nextMsn (leAt b 0 4)
    updMsg qpn msn (fun m =>
      let marks := addResend m.marks (nackMarks b)
      { m with marks := marks, resend := addResend m.resend (chunkUnmarked chunk m.next marks) }) s

/-- RNR NACK (R183). -/
def nackRnr (qpn : Nat) (q : Qp) (msn : Nat) (s : State) : State :=
  match msgOf s qpn msn with
  | none => s
  | some m =>
    if m.rnrAt.isSome || m.next = 0 then s
    else
      let limit := qpRnrLimit s q
      if limit != 255 && limit < m.rnr + 1 then qpError qpn s
      else
        let now := s.tick.count.toNat
        updMsg qpn msn (fun m => { m with marks := [], resend := [], rnr := m.rnr + 1
                                          deadline := now + qpRnrDelay s q + qpRto s q
                                          rnrAt := some (now + qpRnrDelay s q) }) s

/-- A reserved byte of a NACK is set, or its kind is none of the four. -/
def nackBad (b : List Byte) : Bool :=
  3 < leAt b 4 1 || leAt b 7 1 != 0 || leAt b 6 1 / 2 != 0 || !((b.drop 40).all (· == 0))
    || (leAt b 4 1 != 0 && (leAt b 5 1 != 0 || leAt b 6 1 != 0 || leAt b 8 32 != 0)) || 15 < leAt b 5 1

/-- A NACK cell (R164, R183, R186) of one of the kinds that a row takes. -/
def takeNack (kind : Nat) (c : CellIn) (s : State) : State :=
  let b := payBytes c.pay
  match reqQp c s with
  | none => badCells 1 s
  | some q =>
    if nackBad b then badCells 1 s
    else if q.state != .ready || leAt b 4 1 ≠ kind then s
    else
      let msn := extend 32 q.nextMsn (leAt b 0 4)
      match kind with
      | 0 => nackMissing c.dqpn q b s
      | 1 => nackRnr c.dqpn q msn s
      | 2 => qpMoved c.dqpn msn s
      | _ => qpError c.dqpn s

/-! ### Responses -/

/-- Mark a response cell as arrived; none when it is a duplicate or a bad cell, with the state that counts it. -/
def respArrive (c : CellIn) (msn : Nat) (m : Msg) (s : State) : State × Bool :=
  if m.respCnt != 0 && m.respCnt != c.cnt + 1 then (badCells 1 s, false)
  else if m.respGot.contains c.idx then (bump Reg.GX_TP_DUP_CNT s, false)
  else (updMsg c.dqpn msn (fun m => { m with respGot := m.respGot ++ [c.idx], respCnt := c.cnt + 1
                                             respTick := s.tick.count.toNat, acked := true }) s, true)

/-- Write response bytes into the message's local tile. -/
def respWrite (m : Msg) (off : Nat) (begins : Bool) (bs : List Byte) (s : State) : State × Nat :=
  match (runOf s m.run).bind (fun r => r.tiles[m.tile]?) with
  | none => (s, 0)
  | some t => writeRange (.run m.run) t.dstPages (t.dst + off) bs (muleMove true false begins bs s)

/-- Every response cell has arrived. -/
def respWhole (m : Msg) : Bool := m.respCnt != 0 && m.respGot.length == m.respCnt

/-- Length of a message's tile. -/
def msgTileLen (s : State) (m : Msg) : Nat := ((runOf s m.run).bind (fun r => r.tiles[m.tile]?)).elim 0 (·.len)

/-- A READ_RESP cell (R166, R419). -/
def takeReadResp (c : CellIn) (s : State) : State :=
  match reqQp c s with
  | none => badCells 1 s
  | some q =>
    let msn := extend 16 q.nextMsn c.msn
    if q.state != .ready then sendNack c.dqpn msn 3 0 false [] s
    else
      match msgOf s c.dqpn msn with
      | none => s
      | some m =>
        let gcm := qpMode s c.dqpn 1 == some 4
        let isSeal := gcm && c.idx == c.cnt
        if m.kind != .read || (!isSeal && (2 ^ 32 ≤ c.addr || msgTileLen s m < c.addr + c.fill)) then badCells 1 s
        else if !isSeal && ((runOf s m.run).bind (fun r => r.tiles[m.tile]?)).any (fun t =>
            rangeStalls s t.dstPages (t.dst + c.addr) c.fill) then s
        else
          let slot := qpSlot s c.dqpn 1
          if m.respGot.isEmpty && slot.any (chargeWaits s) then s
          else
            let (s, fresh) := respArrive c msn m s
            if !fresh then s
            else
              let (s, ok) := match slot with
                | some n => if m.respGot.isEmpty then charge n (rxBlocks (keySlot s n).mode 0 c) s else (s, true)
                | none => (s, true)
              if !ok then msgDone c.dqpn msn stKeyExhausted s
              else
                let pay := payBytes c.pay
                let s :=
                  if isSeal then
                    updMsg c.dqpn msn (fun m => { m with respTag := some pay }) s
                  else
                    let (s, bs) := match slot with
                      | some n =>
                        let k := keySlot s n
                        let s := if gcm then updMsg c.dqpn msn (fun m =>
                          { m with respData := mapSet m.respData c.idx (pay.take c.fill) }) s else s
                        (cryptCount c.fill s, cellCrypt k (msn % 2 ^ 32) c.idx (pay.take c.fill))
                      | none => (s, pay.take c.fill)
                    let (s, st) := respWrite m c.addr c.begins bs s
                    updMsg c.dqpn msn (fun m => if m.respStatus = 0 then { m with respStatus := st } else m) s
                match msgOf s c.dqpn msn with
                | none => s
                | some m =>
                  if !(respWhole m) then s
                  else
                    let good := match slot with
                      | some n =>
                        !gcm ||
                          (let cells := m.respData.map Prod.snd
                           let tag := msgTag (keySlot s n) (msn % 2 ^ 32) c.dqpn 4 (cells.map List.length).sum 0 cells
                           m.respTag == some (tag ++ List.replicate 48 0))
                      | none => true
                    let s := if good then s else raise Reg.GX_CE_EVENTS 0 (bump Reg.GX_CE_AUTH_FAIL_CNT s)
                    msgDone c.dqpn msn (if m.respStatus != 0 then m.respStatus else if good then 0 else stAuthFail) s

/-- An ATOMIC_RESP cell (R171). -/
def takeAtomicResp (c : CellIn) (s : State) : State :=
  match reqQp c s with
  | none => badCells 1 s
  | some q =>
    let msn := extend 16 q.nextMsn c.msn
    let pay := payBytes c.pay
    if q.state != .ready then sendNack c.dqpn msn 3 0 false [] s
    else if !((pay.drop 16).all (· == 0)) then badCells 1 s
    else
      match msgOf s c.dqpn msn with
      | none => sendRespAck c.dqpn msn s
      | some m =>
        if m.kind != .atomic then badCells 1 s
        else if ((runOf s m.run).bind (fun r => r.tiles[m.tile]?)).any (fun t =>
            rangeStalls s t.dstPages t.dst t.len) then s
        else
          let (s, st) := respWrite m 0 true (pay.take (msgTileLen s m)) s
          sendRespAck c.dqpn msn (msgDone c.dqpn msn st s)

/-- An ATTN_RESP cell or its tail (R166, R370). -/
def takeAttnResp (c : CellIn) (s : State) : State :=
  match reqQp c s with
  | none => badCells 1 s
  | some q =>
    let msn := extend 16 q.nextMsn c.msn
    let pay := payBytes c.pay
    if q.state != .ready then sendNack c.dqpn msn 3 0 false [] s
    else
      match msgOf s c.dqpn msn with
      | none => sendRespAck c.dqpn msn s
      | some m =>
        let tailBad := !((slice pay 1 7).all (· == 0)) || !((pay.drop 16).all (· == 0)) || 63 < leAt pay 0 1
        if m.kind != .attn || (c.tail && tailBad)
            || (!c.tail && (2 ^ 32 ≤ c.addr || msgTileLen s m < c.addr + c.fill)) then badCells 1 s
        else if !c.tail && ((runOf s m.run).bind (fun r => r.tiles[m.tile]?)).any (fun t =>
            rangeStalls s t.dstPages (t.dst + c.addr) c.fill) then s
        else
          let (s, fresh) := respArrive c msn m s
          if !fresh then s
          else
            let s :=
              if c.tail then
                let s := updRun m.run (fun r => { r with aux := leAt pay 8 8 }) s
                updMsg c.dqpn msn (fun m => { m with respStatus := leAt pay 0 1 }) s
              else
                let (s, st) := respWrite m c.addr c.begins (pay.take c.fill) s
                if st = 0 then s else updTile m.run m.tile (fun t => { t with own := st }) s
            match msgOf s c.dqpn msn with
            | none => s
            | some m =>
              if respWhole m then sendRespAck c.dqpn msn (msgDone c.dqpn msn m.respStatus s) else s

/-! ### Time at the requester (R182, R183) -/

/-- A message reaches its deadline (R183). -/
def retransmit (qpn msn : Nat) (s : State) : State :=
  match qpOf s qpn, msgOf s qpn msn with
  | some q, some m =>
    let now := s.tick.count.toNat
    if q.state != .ready || m.next = 0 || now < m.deadline || q.typ = 3 then s
    else if q.typ = 2 && (oldestMsg s qpn).any (fun o => o.msn != msn) then s
    else if m.tries = qpRetry s q then qpError qpn s
    else if q.typ = 2 then goBack qpn msn (updMsg qpn msn (fun m => { m with tries := m.tries + 1 }) s)
    else
      let responds := m.kind == .read || m.kind == .atomic || m.kind == .attn
      let unmarked := (List.range m.next).filter (fun i => !(m.marks.contains i))
      let again :=
        if responds && m.acked || unmarked.isEmpty then [m.next - 1] else unmarked
      updMsg qpn msn (fun m => { m with tries := m.tries + 1, resend := addResend m.resend again
                                        deadline := now + qpRto s q * 2 ^ min (m.tries + 1) 3 }) s
  | _, _ => s

/-- RETRANSMIT_TIMEOUT (R183). -/
def execRetransmitTimeout (qpn msn : Nat) (s : State) : Res := .next (whenOk (working s) (retransmit qpn msn) s)

/-- RNR_DELAY ticks after an RNR NACK every cell of the message goes again (R183). -/
def rnrResend (qpn msn : Nat) (s : State) : State :=
  match msgOf s qpn msn with
  | none => s
  | some m =>
    if m.rnrAt.any (fun t => t ≤ s.tick.count.toNat) then
      if (qpOf s qpn).any (fun q => q.typ == 2) then goBack qpn msn s else
      updMsg qpn msn (fun m => { m with rnrAt := none, next := m.cells, resend := List.range m.cells }) s
    else s

/-- RNR_RESEND (R183). -/
def execRnrResend (qpn msn : Nat) (s : State) : Res := .next (whenOk (working s) (rnrResend qpn msn) s)

/-- MISSING NACKs of a response record at the requester (R182). -/
def missingRespNack (qpn msn : Nat) (s : State) : State :=
  match msgOf s qpn msn with
  | some m =>
    if m.respCnt != 0 && !(respWhole m) && nackDue s m.respTick then
      (missingChunks (m.respCnt - 1) m.respGot).foldl (fun s ch =>
        sendNack qpn msn 0 ch true (chunkBits m.respGot ch) s) s
    else s
  | none => s

/-- MISSING_NACK_SEND (R182): of a message at the responder, or of a response at the requester. -/
def execMissingNackSend (qpn msn : Nat) (resp : Bool) (s : State) : Res :=
  .next (whenOk (working s) (if resp then missingRespNack qpn msn else missingNack qpn msn) s)

/-- A response record at the requester that has been quiet for REC_TIMEOUT is freed: later cells begin it
again (R182). -/
def respRecTimeout (qpn msn : Nat) (s : State) : State :=
  match msgOf s qpn msn with
  | some m =>
    if m.respCnt != 0 && !(respWhole m) && recExpired s m.respTick then
      updMsg qpn msn (fun m => { m with respCnt := 0, respGot := [], respData := [], respTag := none }) s
    else s
  | none => s

/-- RECORD_TIMEOUT (R182). -/
def execRecordTimeout (qpn msn : Nat) (resp : Bool) (s : State) : Res :=
  .next (whenOk (working s) (if resp then respRecTimeout qpn msn else recordTimeout qpn msn) s)

end Sys2Proof.Machine
end

