-- ==== Sys2Proof/Machine/Kernel.lean ====
section
/-! DEFINITION. Near-memory attention kernels: parameter blocks, work items, outputs and completion (R340 to
R371). -/

namespace Sys2Proof.Machine

/-! ### Parameter blocks (R344 to R350) -/

/-- Fields of a parameter block (Table 12.3). -/
def kpFormat (p : List Byte) : Nat := leAt p 8 1
def kpTokens (p : List Byte) : Nat := leAt p 9 1
def kpDim (p : List Byte) : Nat := leAt p 10 2
def kpHeads (p : List Byte) : Nat := leAt p 12 1
def kpSeqVa (p : List Byte) : Nat := leAt p 32 8
def kpSeqCount (p : List Byte) : Nat := leAt p 40 2
def kpGroup (p : List Byte) : Nat := leAt p 42 1
def kpHookLen (p : List Byte) : Nat := leAt p 50 2
def kpTableLen (p : List Byte) : Nat := leAt p 52 1
def kpFlock (p : List Byte) : Nat := leAt p 2 2

/-- ROW_BYTES and BLOCK_BYTES (R344). -/
def rowBytes (p : List Byte) : Nat := kpDim p / unitElems (kpFormat p) * unitBytes (kpFormat p)
def kvBlockBytes (p : List Byte) : Nat := (2 * kpHeads p * kpTokens p * rowBytes p + 255) / 256 * 256

/-- The hook's instructions, constants and table (R356, R357). -/
def kpHook (p : List Byte) : List Nat :=
  (List.range (kpHookLen p)).map (fun i => leAt p (120 + 4 * kpTableLen p + 4 * i) 4)
def kpWords (p : List Byte) (off n : Nat) : List FVal := (List.range n).map (fun i => f32Of (leAt p (off + 4 * i) 4))

/-- Bytes of a tuple, and of a source record of PREFILL_APPEND (R354, R360). -/
def tupleSize (p : List Byte) : Nat := (2 + kpDim p) * 4
def recordBytes (p : List Byte) : Nat := 2 * kpHeads p * kpDim p * (if kpGroup p = 1 then 2 else 4)

/-- PARAM_LEN that a block of a KIND must have (Table 12.1). -/
def paramLen (kind : Nat) (p : List Byte) : Nat :=
  if kind = 1 then 120 + 4 * kpTableLen p + 4 * kpHookLen p else if kind = 4 then 40 else 48

/-- A reserved byte or bit of the block is not 0 (R346). -/
def paramReserved (kind : Nat) (p : List Byte) : Bool :=
  let nz := fun off n => !(allZero (slice p off n))
  nz 1 1 || nz 4 4 ||
    if kind = 4 then nz 10 6 || nz 36 4
    else nz 13 1 || nz 24 8 || (if kind = 1 then leAt p 43 1 / 2 != 0 || nz 53 3 else nz 43 5) || kind == 3 && nz 42 1

/-- The leaf of an instance that FLOCK names. -/
def leafNamed (s : State) (n f : Nat) : Option Flock :=
  match instFlock s.lz.run n with
  | none => none
  | some a => (leavesOf s.lz.run a).find? (fun l => l.id == f)

/-- Leaves that a kernel runs on (R342). -/
def kernelLeaves (s : State) (n : Nat) (p : List Byte) : List Flock :=
  if kpFlock p = 0xFFFF then ((instFlock s.lz.run n).map (leavesOf s.lz.run)).getD []
  else (leafNamed s n (kpFlock p)).toList

/-- FLOCK is neither a leaf beneath the instance nor 0xFFFF, or a move with a core-store end names 0xFFFF. -/
def flockBadFor (s : State) (n kind : Nat) (p : List Byte) : Bool :=
  if kpFlock p = 0xFFFF then kind == 4 && (leAt p 8 1 == 1 || leAt p 9 1 == 1) else (leafNamed s n (kpFlock p)).isNone

/-- A field of the block that holds a VA has bits [63:48] set, a core-store end leaves its region (R113), or a
move's ends overlap (R116).  `fits` tells whether to hold core-store ends against the leaf's region. -/
def paramAddress (s : State) (n kind : Nat) (p : List Byte) (fits : Bool) : Bool :=
  if kind = 4 then
    let sk := leAt p 8 1
    let dk := leAt p 9 1
    let src := leAt p 16 8
    let dst := leAt p 24 8
    let len := leAt p 32 4
    let size := ((leafNamed s n (kpFlock p)).map (regionSize s.lz.run)).getD 0
    sk == 0 && decide (2 ^ 48 ≤ src) || dk == 0 && decide (2 ^ 48 ≤ dst)
      || fits && sk == 1 && decide (size < src + len) || fits && dk == 1 && decide (size < dst + len)
      || sk == dk && decide (src < dst + len) && decide (dst < src + len)
  else decide (2 ^ 48 ≤ kpSeqVa p)

/-- Output bytes of a sequence (R350). -/
def seqOut (kind : Nat) (p : List Byte) (q : KSeq) : Nat :=
  if kind = 1 then kpHeads p * kpGroup p * tupleSize p else if kind = 3 then q.b * kvBlockBytes p else 0

/-- A check of R348 fails on the block alone, FLOCK left out; `given` is PARAM_LEN. -/
def paramBad (kind : Nat) (p : List Byte) (given len out : Nat) : Bool :=
  leAt p 0 1 != 1 || given != paramLen kind p ||
    if kind = 4 then decide (1 < leAt p 8 1) || decide (1 < leAt p 9 1) || len != 0 || out != 0
    else
      !([1, 3, 4, 0x10, 0x11, 0x14].contains (kpFormat p)) || !([16, 32, 64].contains (kpTokens p))
        || !([64, 128, 192, 256].contains (kpDim p)) || kpHeads p == 0 || decide (64 < kpHeads p)
        || leAt p 16 8 % 256 != 0 || kpSeqVa p % 32 != 0 || decide (1024 < kpSeqCount p)
        || kind == 1 && (kpGroup p == 0 || decide (16 < kpGroup p) || decide (256 < kpHookLen p)
            || !([0, 64].contains (kpTableLen p)) || leAt p 44 4 / 2 ^ 23 % 256 == 255
            || (kpHook p).any (hookBad (kpTableLen p))
            || len != kpSeqCount p * seqOut 1 p ⟨0, 0, 0, 0⟩)
        || kind == 2 && (decide (1 < kpGroup p) || len != 0 || out != 0)

/-- A sequence list of bytes (R347). -/
def readSeq (bs : List Byte) : KSeq := ⟨leAt bs 0 8, leAt bs 8 4, leAt bs 12 4, leAt bs 16 8⟩

/-- The reason for which the sequence list makes its entry malformed, in the order of Table 5.10. -/
def seqsReason (kind : Nat) (p : List Byte) (len : Nat) (ds : List (List Byte)) : Option Nat :=
  let qs := ds.map readSeq
  if ds.any (fun d => !(allZero (slice d 24 8)) || kind == 3 && !(allZero (slice d 16 8))) then some 2
  else if qs.any (fun q => decide (2 ^ 48 ≤ q.bt) || decide (2 ^ 48 ≤ q.data)) then some 5
  else if qs.any (fun q => q.bt % 8 != 0 || kind == 1 && decide (2 ^ 24 < q.a) || kind == 2 && decide (2 ^ 24 < q.a + q.b))
      || kind == 3 && len != (qs.map (seqOut 3 p)).sum then some 8
  else none

/-! ### Access to memory (R343) -/

/-- What a step of a kernel ends with: it waits, it fails with a status, DETAIL and VA, or it goes on. -/
inductive KOut (α : Type) where
  | wait
  | fail (s : State) (status detail va : Nat)
  | ok (s : State) (a : α)

/-- Go on with a result. -/
def kBind {α β : Type} (x : KOut α) (f : State → α → KOut β) : KOut β :=
  match x with
  | .wait => .wait
  | .fail s st d va => .fail s st d va
  | .ok s a => f s a

/-- Do one step for each of a list, in order. -/
def kMap {α β : Type} (f : State → α → KOut β) (xs : List α) (s : State) : KOut (List β) :=
  match xs with
  | [] => .ok s []
  | x :: t => kBind (f s x) (fun s y => kBind (kMap f t s) (fun s ys => .ok s (y :: ys)))

/-- The L1 of a core takes copies of the entries that its engine has used (R89, R90). -/
def l1Take (core : Option Nat) (space : Nat) (pages : List PageMap) (s : State) : State :=
  match core with
  | none => s
  | some c => pages.foldl (fun s p => (l2Find s space p.va).elim s (fun e => l1Fill c space e.vbase s)) s

/-- Key of a kernel: its operation's, or its ATTN message's. -/
def kernelKey (k : Kernel) : Nat :=
  match k.attn with
  | some (qpn, msn) => rxOwner qpn msn
  | none => opKey k.ring k.slot

/-- Translate a range of a kernel; with `tier`, a page in an aperture faults with PERMISSION. -/
def kernelPages (k : Kernel) (va n : Nat) (need : Need) (tier : Bool) (reads : NMap (BitVec 128)) (s : State) :
    KOut (List PageMap) :=
  let (s, r) := xlateRange (pageFuel va n) k.space k.inst va (va + n) need .here reads s
  match r with
  | .error (c, v) => .fail s stXlateFault c v
  | .ok (pages, us) =>
    let s := l1Take k.core k.space pages
      (if need.write && !tier then settleUses (.run (kernelKey k)) pages us s else releaseUses us s)
    match if tier then pages.find? (fun p => decide (tier2End ≤ p.off)) else none with
    | some p => .fail s stXlateFault 2 p.va
    | none => .ok s pages

/-- Read [va, va + n) of tier memory: the pages and the bytes. -/
def kernelRead (k : Kernel) (va n : Nat) (reads : NMap (BitVec 128)) (s : State) : KOut (List PageMap × List Byte) :=
  kBind (kernelPages k va n { read := true } true reads s) (fun s pages =>
    match readRange s 0 pages va n with
    | .wait => .wait
    | .refused st => .fail s st 0 0
    | .got bs bad => if bad then .fail s stMemUncorrectable 0 0 else .ok s (pages, bs))

/-- Write bytes at a VA. -/
def kernelWrite (k : Kernel) (tier : Bool) (va : Nat) (bs : List Byte) (reads : NMap (BitVec 128)) (s : State) : KOut Unit :=
  kBind (kernelPages k va bs.length { write := true } tier reads s) (fun s pages =>
    if rangeStalls s pages va bs.length then .wait
    else
      let (s, st) := writeRange (.run (kernelKey k)) pages va bs s
      if st = 0 then .ok s () else .fail s st 0 0)

/-! ### Work items (R353, R360 to R364) -/

/-- Blocks and chunks of a DECODE_ATTN sequence (R353). -/
def decodeBlocks (p : List Byte) (q : KSeq) : Nat := (q.a + kpTokens p - 1) / kpTokens p
def chunkBlocks (p : List Byte) (q : KSeq) : Nat := let c := leAt p 48 2; if c = 0 then decodeBlocks p q else c
def decodeChunks (p : List Byte) (q : KSeq) : Nat := (decodeBlocks p q + chunkBlocks p q - 1) / max 1 (chunkBlocks p q)

/-- Tiles of a TIER_MOVE: source, destination, bytes; they end at 256 KiB boundaries of each VA end (R362). -/
def moveTiles (fuel sk dk src dst len : Nat) : List (Nat × Nat × Nat) :=
  match fuel with
  | 0 => []
  | f + 1 =>
    if len = 0 then []
    else
      let toEnd := fun (kind a : Nat) => if kind = 0 then 0x40000 - a % 0x40000 else len
      let n := min len (min (toEnd sk src) (toEnd dk dst))
      (src, dst, n) :: moveTiles f sk dk (src + n) (dst + n) (len - n)

/-- Work items in ascending order: sequence, KV head or block, chunk (R363). -/
def kernelItems (k : Kernel) : List (Nat × Nat × Nat) :=
  let p := k.params
  if k.kind = 4 then
    (List.range (moveTiles (leAt p 32 4 / 0x20000 + 4) (leAt p 8 1) (leAt p 9 1) (leAt p 16 8) (leAt p 24 8)
      (leAt p 32 4)).length).map (fun i => (0, i, 0))
  else
    (k.seqs.zipIdx.map (fun x =>
      let q := x.1
      if k.kind = 1 then
        ((List.range (kpHeads p)).map (fun h => (List.range (decodeChunks p q)).map (fun c => (x.2, h, c)))).flatten
      else
        let first := if k.kind = 2 then q.a / kpTokens p else q.a
        let fin := if k.kind = 2 then (if q.b = 0 then first else (q.a + q.b - 1) / kpTokens p + 1) else q.a + q.b
        (List.range (fin - first)).map (fun i => (x.2, first + i, 0)))).flatten

/-- VA of the layer's block b of a sequence (R345). -/
def blockVa (k : Kernel) (q : KSeq) (b : Nat) (reads : NMap (BitVec 128)) (s : State) : KOut Nat :=
  kBind (kernelRead k (q.bt + 8 * b) 8 reads s) (fun s r =>
    let e := leNat r.2
    if e % 256 ≠ 0 ∨ 2 ^ 48 ≤ e then .fail s stXlateFault 4 (q.bt + 8 * b)
    else .ok s (e + leAt k.params 14 2 * leAt k.params 16 8))

/-- The query operand of a row (Table 12.2): its values and the exponent of their units. -/
def queryOperand (code : Nat) (qprec : Bool) (row : List Byte) : List FVal × Int :=
  let v := (chunks row.length 2 row).map (fun w => decodeElem fmtBf16 (leNat w))
  if code = 1 || qprec then (v, fmtBf16.lsb)
  else
    let qc := if code = 0x14 then 0x10 else code
    (decodeRow qc (encodeRow qc (v.map (toF32 fmtBf16.lsb))), lsbWeight qc)

/-- A compute tile is staged when some page of it lies in another core's slice (R343). -/
def tileStaged (core : Nat) (pages : List PageMap) : Bool :=
  pages.any (fun p => (granuleOf p.off).any (fun g => sliceOf g != core))

/-- A DECODE_ATTN item on a core: the tuple of each query head of the group over its chunk (R353). -/
def decodeItem (k : Kernel) (q : KSeq) (h c core : Nat) (reads : NMap (BitVec 128)) (s : State) : KOut (List (Nat × List Byte)) :=
  let p := k.params
  let d := kpDim p
  let g := kpGroup p
  let code := kpFormat p
  let slice_ := kpTokens p * rowBytes p
  kBind (kernelRead k (q.data + h * g * 2 * d) (g * 2 * d) reads s) (fun s qr =>
    let queries := (List.range g).map (fun i => queryOperand code (leAt p 43 1 % 2 == 1) (slice qr.2 (2 * d * i) (2 * d)))
    let cb := chunkBlocks p q
    let blocks := (List.range (min cb (decodeBlocks p q - c * cb))).map (fun i => c * cb + i)
    let start : List (Tuple × Bool) := List.replicate g (neutral d, false)
    let step := fun (acc : KOut (List (Tuple × Bool))) (b : Nat) =>
      kBind acc (fun s ts =>
      kBind (blockVa k q b reads s) (fun s va =>
      kBind (kernelRead k (va + h * slice_) slice_ reads s) (fun s kr =>
      kBind (kernelRead k (va + (kpHeads p + h) * slice_) slice_ reads s) (fun s vr =>
        let s := if tileStaged core (kr.1 ++ vr.1) then bump Reg.GX_AT_STAGED_CNT s else s
        let n := min (kpTokens p) (q.a - b * kpTokens p)
        let rows := fun (bs : List Byte) => (List.range n).map (fun i => decodeRow code (slice bs (rowBytes p * i) (rowBytes p)))
        let ks := rows kr.2
        let vs := rows vr.2
        .ok s ((ts.zip queries).zipIdx.map (fun x =>
          let ss := ks.zipIdx.map (fun kt =>
            let raw := f32Mul (dot32 x.1.2.2 (lsbWeight code) x.1.2.1 kt.1) (f32Of (leAt p 44 4))
            runHook (kpHook p) (kpWords p 56 16) (kpWords p 120 (kpTableLen p)) raw (b * kpTokens p + kt.2) q.b
              (h * g + x.2) h)
          (blockStep code x.1.1.1 ss vs, x.1.1.2 || ss.contains .nan)))))))
    kBind (blocks.foldl step (.ok s start)) (fun s ts =>
      .ok s [(0, (ts.map (fun t => tupleBytes (if t.2 then nanTuple d else t.1))).flatten)]))

/-- A PREFILL_APPEND item: the rows of one block (R360). -/
def appendItem (k : Kernel) (q : KSeq) (b : Nat) (reads : NMap (BitVec 128)) (s : State) : KOut (List (Nat × List Byte)) :=
  let p := k.params
  let bt := kpTokens p
  let hs := kpHeads p
  let d := kpDim p
  let w := if kpGroup p = 1 then 2 else 4
  let lo := max q.a (b * bt)
  let hi := min (q.a + q.b) ((b + 1) * bt)
  kBind (blockVa k q b reads s) (fun s va =>
    let one := fun (s : State) (t : Nat) =>
      kBind (kernelRead k (q.data + (t - q.a) * recordBytes p) (recordBytes p) reads s) (fun s r =>
        let row := fun (i : Nat) => (chunks (d * w) w (slice r.2 (i * d * w) (d * w))).map (fun x =>
          if w = 2 then toF32 fmtBf16.lsb (decodeElem fmtBf16 (leNat x)) else f32Of (leNat x))
        .ok s ((List.range (2 * hs)).map (fun i =>
          (va + (i * bt + t % bt) * rowBytes p, encodeRow (kpFormat p) (row i)))))
    kBind (kMap one ((List.range (hi - lo)).map (lo + ·)) s) (fun s rows => .ok s rows.flatten))

/-- A KV_GATHER item: one block (R361). -/
def gatherItem (k : Kernel) (q : KSeq) (b : Nat) (reads : NMap (BitVec 128)) (s : State) : KOut (List (Nat × List Byte)) :=
  kBind (blockVa k q b reads s) (fun s va =>
    kBind (kernelRead k va (kvBlockBytes k.params) reads s) (fun s r => .ok s [(0, r.2)]))

/-- A tile of a TIER_MOVE (R362): it is read and written at once. -/
def moveItem (k : Kernel) (i : Nat) (reads : NMap (BitVec 128)) (s : State) : KOut Nat :=
  let p := k.params
  let sk := leAt p 8 1
  let dk := leAt p 9 1
  match (moveTiles (leAt p 32 4 / 0x20000 + 4) sk dk (leAt p 16 8) (leAt p 24 8) (leAt p 32 4))[i]? with
  | none => .wait
  | some (src, dst, n) =>
    let leaf := leafNamed s k.inst (kpFlock p)
    let core := (leaf.map (·.core)).getD 0
    let base := (leaf.map (regionStart s.lz.run)).getD 0
    -- Both sides are translated before a byte moves (R95).
    kBind (if sk = 0 then kernelPages k src n { read := true } true reads s else .ok s []) (fun s sp =>
    kBind (if dk = 0 then kernelPages k dst n { write := true } true reads s else .ok s []) (fun s dp =>
      let got : ReadRes :=
        if sk = 0 then readRange s 0 sp src n
        else let r := storeRead s core (base + src) n; .got r.1 r.2
      match got with
      | .wait => .wait
      | .refused st => .fail s st 0 0
      | .got bs bad =>
        if bad then .fail s stMemUncorrectable 0 0
        else if dk = 0 then
          if rangeStalls s dp dst n then .wait
          else
            let (s, st) := writeRange (.run (kernelKey k)) dp dst bs s
            if st = 0 then .ok s n else .fail s st 0 0
        else
          let (s, badW) := storeWrite core (base + dst) bs s
          if badW then .fail s stMemUncorrectable 0 0 else .ok s n))

/-! ### Outputs in sequence order (R364, R371) -/

/-- Items that a kernel will still carry out: those of sequences below the failed one; of a move that has failed,
none. -/
def itemWanted (k : Kernel) (seq : Nat) : Bool :=
  k.stopped.isNone && (k.fail.elim true (fun f => k.kind != 4 && decide (seq < f.1)))

/-- Record a failure of a sequence: the lowest stands. -/
def kernelFail (seq status detail va : Nat) (k : Kernel) (s : State) : Kernel × State :=
  let s := if status = stXlateFault then recordFault detail k.inst k.space va s else s
  if k.fail.elim false (fun f => decide (f.1 ≤ seq)) then (k, s)
  else ({ k with fail := some (seq, status, detail, va) }, s)

/-- Staged bytes of an item. -/
def stagedOf (k : Kernel) (item : Nat) : List (Nat × List Byte) :=
  ((k.staged.find? (fun e => e.1 == item)).map Prod.snd).getD []

/-- The rows of a sequence that a failed PREFILL_APPEND may have written hold free values (R371). -/
def loseRows (k : Kernel) (seq : Nat) (reads : NMap (BitVec 128)) (s : State) : State :=
  if k.kind ≠ 2 then s
  else
    let items := (kernelItems k).zipIdx.filter (fun x => x.1.1 == seq)
    ((items.map (fun x => stagedOf k x.2)).flatten).foldl (fun s w =>
      let bs := (List.range w.2.length).map (Config.badByte s.freeCount)
      match kernelWrite k true w.1 bs reads { s with freeCount := s.freeCount + 1 } with
      | .ok s _ => s
      | _ => s) s

/-- The output of a sequence whose items have ended. -/
def seqOutput (k : Kernel) (seq : Nat) : List Byte :=
  let p := k.params
  let items := (kernelItems k).zipIdx.filter (fun x => x.1.1 == seq)
  if k.kind = 1 then
    ((List.range (kpHeads p)).map (fun h =>
      let parts := (items.filter (fun x => x.1.2.1 == h)).map (fun x => ((stagedOf k x.2).map Prod.snd).flatten)
      ((List.range (kpGroup p)).map (fun g =>
        tupleBytes ((parts.map (fun b => tupleOf (slice b (g * tupleSize p) (tupleSize p)))).foldl mergeTuple
          (neutral (kpDim p))))).flatten)).flatten
  else if k.kind = 3 then (items.map (fun x => ((stagedOf k x.2).map Prod.snd).flatten)).flatten
  else []

/-- Write the outputs of the sequences that are next and whole; nothing when a write must wait. -/
def flushSeqs (fuel : Nat) (k : Kernel) (reads : NMap (BitVec 128)) (s : State) : Option (Kernel × State) :=
  match fuel with
  | 0 => some (k, s)
  | n + 1 =>
    match k.seqs[k.flushed]? with
    | none => some (k, s)
    | some q =>
      let items := (kernelItems k).zipIdx.filter (fun x => x.1.1 == k.flushed)
      if !(itemWanted k k.flushed) || !(items.all (fun x => k.done.contains x.2)) then some (k, s)
      else
        let p := k.params
        let off := ((k.seqs.take k.flushed).map (seqOut k.kind p)).sum
        let bs := seqOutput k k.flushed
        let res : KOut Unit :=
          if k.kind = 2 then
            kBind (kMap (fun s (w : Nat × List Byte) => kernelWrite k true w.1 w.2 reads s)
              ((items.map (fun x => stagedOf k x.2)).flatten) s) (fun s _ => .ok s ())
          else if k.attn.isSome || bs.isEmpty then .ok s ()
          else kernelWrite k false (k.out + off) bs reads s
        match res with
        | .wait => none
        | .fail s st d va => some (kernelFail k.flushed st d va k (loseRows k k.flushed reads s))
        | .ok s _ =>
          let s := if k.kind = 1 then { s with kn := { s.kn with tokens := (s.kn.tokens + q.a) % 2 ^ 64 } } else s
          flushSeqs n
            { k with flushed := k.flushed + 1, held := if k.attn.isSome then k.held ++ bs else k.held
                     staged := k.staged.filter (fun e => !(items.any (fun x => x.2 == e.1)))
                     bytes := k.bytes + (if k.kind = 2 then q.b * recordBytes p else bs.length)
                     work := k.work + (if k.kind = 1 then q.a else q.b) } reads s

/-- Put a kernel back. -/
def putKernel (k : Kernel) (s : State) : State :=
  { s with kn := { s.kn with kernels := mapSet s.kn.kernels (kernelKey k) k } }

/-! ### The packet buffer pool (R56, R171, R364) -/

/-- Bytes of the pool in use: received frames in blocks of 256 bytes, frames to send, ATTN outputs, merge staging. -/
def packetUsed (s : State) : Nat :=
  ((s.eth.ports.map (fun e => (e.2.rx.map (·.blocks)).sum * 256
      + (e.2.tx.map (fun q => (q.2.map (fun f => f.bytes.length)).sum)).sum)).sum)
    + ((s.tp.resps.map (fun e => if e.2.kind = 8 ∧ e.2.ready then e.2.data.length else 0)).sum)
    + ((s.kn.kernels.map (fun e => (if e.2.attn.isSome then e.2.len else 0)
        + (if e.2.kind = 1 then ((e.2.staged.map (fun x => (x.2.map (fun y => y.2.length)).sum)).sum) else 0))).sum)
def packetRoom (s : State) (n : Nat) : Bool := decide (packetUsed s + n ≤ s.lz.run.sram.2.2.1 * 0x100000)

/-! ### Start -/

/-- Read and check the sequence list: the list, or the reason of R348. -/
def readSeqs (k : Kernel) (reads : NMap (BitVec 128)) (s : State) : KOut (Except Nat (List KSeq)) :=
  let p := k.params
  let n := kpSeqCount p
  if k.kind = 4 ∨ n = 0 then .ok s (.ok [])
  else kBind (kernelRead k (kpSeqVa p) (32 * n) reads s) (fun s r =>
    let ds := chunks n 32 r.2
    match seqsReason k.kind p k.len ds with
    | some reason => .ok s (.error reason)
    | none => .ok s (.ok (ds.map readSeq)))

/-- A kernel as its entry gives it, before its sequences are read. -/
def newKernel (ring slot kind : Nat) (g : Ring) (o : Op) : Kernel :=
  { ring := ring, slot := slot, inst := g.inst, space := g.space, kind := kind
    params := o.payload.take (fld (ef o.entry 32 8) 19 8), len := entryLength o.entry, out := ef o.entry 16 8 }

/-- Start a KERNEL entry of a KIND (R341, R348): a fault of its sequence list ends it, a failed check makes it
malformed. -/
def startKernel (kind ring slot : Nat) (reads : NMap (BitVec 128)) (s : State) : State :=
  match mayStartOp s ring slot, ringOf s ring with
  | some o, some g =>
    let e := o.entry
    if entryOpcode e ≠ 8 ∨ ef e 32 1 ≠ kind then s
    else
      let k := newKernel ring slot kind g o
      match readSeqs k reads s with
      | .wait => s
      | .fail s st d va =>
        let (k, s) := kernelFail ((va - kpSeqVa k.params) / 32) st d va k s
        putKernel k (markStarted ring slot s)
      | .ok s (.error reason) =>
        haltFor ring slot reason (updChain ring slot (fun o => { o with malformed := some reason }) s)
      | .ok s (.ok qs) =>
        let k := { k with seqs := qs }
        match flushSeqs (qs.length + 1) k reads s with
        | none => s
        | some (k, s) => putKernel k (markStarted ring slot s)
  | _, _ => s

/-- DECODE_ATTN (R353): the table reads of the sequence list's walks are given. -/
def execDecodeAttn (ring slot : Nat) (reads : NMap (BitVec 128)) (s : State) : Res :=
  .next (whenOk (working s) (startKernel 1 ring slot reads) s)

/-- PREFILL_APPEND (R360). -/
def execPrefillAppend (ring slot : Nat) (reads : NMap (BitVec 128)) (s : State) : Res :=
  .next (whenOk (working s) (startKernel 2 ring slot reads) s)

/-- KV_GATHER (R361). -/
def execKvGather (ring slot : Nat) (reads : NMap (BitVec 128)) (s : State) : Res :=
  .next (whenOk (working s) (startKernel 3 ring slot reads) s)

/-- TIER_MOVE (R362). -/
def execTierMove (ring slot : Nat) (s : State) : Res := .next (whenOk (working s) (startKernel 4 ring slot []) s)

/-- Start the kernel of an ATTN (R168, R171, R341, R349): a failed check of FLOCK or of the list gives
REMOTE_ACCESS. -/
def startAttn (qpn msn : Nat) (reads : NMap (BitVec 128)) (s : State) : State :=
  match qpOf s qpn, respOf s qpn msn with
  | some q, some r =>
    let (kind, plen, len) := (r.runs.head?).getD (0, 0, 0)
    if q.state != .ready || q.expected < msn || r.kind != 8 || r.ready || !(instFinishes s q.inst)
        || (mapGet s.kn.kernels (rxOwner qpn msn)).isSome then s
    else if !(packetRoom s len) then raise Reg.GX_AT_EVENTS 1 s
    else
      let space := ((ringOf s q.sq).map (·.space)).getD 0
      let k : Kernel := { attn := some (qpn, msn), inst := q.inst, space := space, kind := kind
                          params := r.data.take plen, len := len, out := 0 }
      let refused := { k with fail := some (0xFFFF, stRemoteAccess, 0, 0) }
      if kind = 0 || decide (4 < kind) || paramBad kind k.params plen len 0 || paramReserved kind k.params
          || flockBadFor s q.inst kind k.params || paramAddress s q.inst kind k.params true then putKernel refused s
      else
        match readSeqs k reads s with
        | .wait => s
        | .fail s st d va =>
          let (k, s) := kernelFail ((va - kpSeqVa k.params) / 32) st d va k s
          putKernel k s
        | .ok s (.error _) => putKernel refused s
        | .ok s (.ok qs) =>
          match flushSeqs (qs.length + 1) { k with seqs := qs } reads s with
          | none => s
          | some (k, s) => putKernel k s
  | _, _ => s

/-- ATTN_KERNEL_START (R168). -/
def execAttnKernelStart (qpn msn : Nat) (reads : NMap (BitVec 128)) (s : State) : Res :=
  .next (whenOk (working s) (startAttn qpn msn reads) s)

/-! ### The end of an item and of a kernel -/

/-- A leaf has an engine: its core is not withdrawn (R525). -/
def leafRuns (s : State) (l : Flock) : Bool := l.mask != 0 && !(s.re.now.lost.contains l.core)

/-- Core and engine belong to the kernel's leaves (R342), and the core serves (R521, R525). -/
def engineOk (s : State) (k : Kernel) (engine : Nat) : Bool :=
  (kernelLeaves s k.inst k.params).any (fun l =>
    l.core == engine / 8 && l.mask.getLsbD (engine % 8) && leafRuns s l && !(swapHolds s l.core))

/-- R363: an item whose first block lies in the slice of a core with an engine of the set runs on that core. -/
def dealtOk (s : State) (k : Kernel) (q : KSeq) (b engine : Nat) (reads : NMap (BitVec 128)) : Bool :=
  let home := kBind (blockVa k q b reads s) (fun s va => kernelPages k va 1 { read := true } true reads s)
  match home with
  | .ok _ (p :: _) =>
    match granuleOf p.off with
    | some g =>
      !((kernelLeaves s k.inst k.params).any (fun l => l.core == sliceOf g && leafRuns s l)) || engine / 8 == sliceOf g
    | none => true
  | _ => true

/-- A work item of a kernel ends on an engine; the table reads of its walks are given. -/
def workItem (key item engine : Nat) (reads : NMap (BitVec 128)) (s : State) : State :=
  match mapGet s.kn.kernels key with
  | none => s
  | some k =>
    match (kernelItems k)[item]? with
    | none => s
    | some (seq, x, c) =>
      if k.done.contains item || !(itemWanted k seq) || !(instFinishes s k.inst) || !(engineOk s k engine) then s
      else if k.kind = 4 then
        if item ≠ k.done.length then s
        else
          match moveItem { k with core := some (engine / 8) } item reads s with
          | .wait => s
          | .fail s st d va => let (k, s) := kernelFail 0xFFFF st d va k s; putKernel k s
          | .ok s n => putKernel { k with done := k.done ++ [item], bytes := k.bytes + n } s
      else
        match k.seqs[seq]? with
        | none => s
        | some q =>
          let b := if k.kind = 1 then c * chunkBlocks k.params q else x
          if !(dealtOk s k q b engine reads) then s
          else if k.kind = 1 && !(packetRoom s (kpGroup k.params * tupleSize k.params)) then s
          else
            let kc := { k with core := some (engine / 8) }
            let res := if k.kind = 1 then decodeItem kc q x c (engine / 8) reads s
              else if k.kind = 2 then appendItem kc q x reads s else gatherItem kc q x reads s
            let after : Option (Kernel × State) :=
              match res with
              | .wait => none
              | .fail s st d va => some (kernelFail seq st d va k (loseRows k seq reads s))
              | .ok s w => flushSeqs (k.seqs.length + 1)
                  { k with done := k.done ++ [item], staged := k.staged ++ [(item, w)] } reads s
            match after with
            | none => s
            | some (k, s) => putKernel k s

/-- WORK_ITEM_END (R364): item `item` of the kernel with key `key`, on engine 8 · core + engine. -/
def execWorkItemEnd (key item engine : Nat) (reads : NMap (BitVec 128)) (s : State) : Res :=
  .next (whenOk (working s) (workItem key item engine reads) s)

/-- Nothing of the kernel remains to be done. -/
def kernelOver (k : Kernel) : Bool :=
  k.stopped.isSome || (kernelItems k).zipIdx.all (fun x => !(itemWanted k x.1.1) || k.done.contains x.2)

/-- A withdrawn core has left a kernel without an engine: it ends with MEM_UNCORRECTABLE at the first sequence that
it has not finished (R525). -/
def strandKernel (s : State) (k : Kernel) : Kernel :=
  let ls := kernelLeaves s k.inst k.params
  if ls.any (fun l => s.re.now.lost.contains l.core) && !(ls.any (leafRuns s)) && !(kernelOver k) then
    let left := (kernelItems k).zipIdx.filter (fun x => !(k.done.contains x.2))
    let seq := if k.kind = 4 then 0xFFFF else (left.head?.map (fun x => x.1.1)).getD 0
    { k with fail := some (seq, stMemUncorrectable, 0, 0) }
  else k

/-- The values of a kernel's completion (R370). -/
def kernelCompletion (k : Kernel) : Completion :=
  let ok := k.work + 0xFFFF * 2 ^ 32
  if k.force ≠ 0 then { status := k.force, bytes := k.bytes, aux := ok }
  else
  match k.stopped, k.fail with
  | some st, _ => { status := st, bytes := k.bytes, aux := ok }
  | none, some (f, st, d, va) =>
    if st = stXlateFault then { status := st, detail := d, bytes := k.bytes, aux := va }
    else { status := st, bytes := k.bytes, aux := k.work + f % 65536 * 2 ^ 32 }
  | none, none => { status := 0, bytes := k.bytes, aux := ok }

/-- Lines of an ATTN output and its tail. -/
def attnCells (n : Nat) : Nat := lineCount 0 n + 1

/-- A kernel completes (R370, R371): a KERNEL entry's completion waits for the flushes of what it wrote through a
port; an ATTN's output is ready to be sent, unless its queue pair has left READY meanwhile (R369). -/
def kernelComplete (key : Nat) (s : State) : State :=
  match mapGet s.kn.kernels key with
  | none => s
  | some k =>
    let k := strandKernel s k
    if !(kernelOver k) then s
    else
      let c := kernelCompletion k
      let s := { s with kn := { s.kn with kernels := mapErase s.kn.kernels key } }
      let s := if c.status = 0 then bump Reg.GX_AT_DONE_CNT s
        else raise Reg.GX_AT_EVENTS 0 (bump Reg.GX_AT_FAIL_CNT s)
      match k.attn with
      | none =>
        let (s, ports) := awaitFlush (.run key) s
        let s := finishOp k.ring k.slot c s
        if ports.isEmpty then s else updChain k.ring k.slot (fun o => { o with flush := ports }) s
      | some (qpn, msn) =>
        { s with tp := { s.tp with resps := mapModify s.tp.resps (msgKey qpn msn) (fun r =>
            { r with ready := true, data := k.held, runs := [], status := c.status, aux := c.aux
                     cells := attnCells k.held.length }) } }

/-- KERNEL_COMPLETE (R370). -/
def execKernelComplete (key : Nat) (s : State) : Res := .next (whenOk (working s) (kernelComplete key) s)

end Sys2Proof.Machine
end

