-- ==== Sys2Proof/Machine/Keys.lean ====
section
/-! DEFINITION. Loading, replacing and erasing cipher keys (R411 to R415). -/

namespace Sys2Proof.Machine

/-- A management entry is found malformed by a structure that it names (R8, R155). -/
def mgmtMalformed (slot reason : Nat) (s : State) : State :=
  haltAdapter 0 slot reason
    (updRing 0 (fun g => { g with ops := g.ops.map (fun o =>
      if o.slot = slot then { o with malformed := some reason } else o) }) s)

/-- The slots of a queue pair become SPENT when it is reconnected or destroyed (R411). -/
def spendSlots (qpn : Nat) (s : State) : State :=
  { s with ce := { s.ce with slots := s.ce.slots.map (fun e =>
      if e.2.binding ≤ 1 ∧ e.2.qpn = qpn ∧ e.2.state ≠ 0 then (e.1, { e.2 with state := 3 }) else e) } }

/-- Erase the slots that a test names (R411); a REKEY or ERASE that waits on one finds it EMPTY (R414). -/
def eraseSlots (p : KeySlot → Bool) (s : State) : State :=
  let waiting := (s.ce.slots.filter (fun e => p e.2)).filterMap (fun e => e.2.change)
  let s := waiting.foldl (fun s c => mgmtDone c.slot stAborted s) s
  { s with ce := { s.ce with slots := s.ce.slots.filter (fun e => !(p e.2)) } }

/-- A KEY_LOAD body (Table 15.3). -/
structure KeyBody where
  slot : Nat
  action : Nat
  mode : Nat
  aes256 : Bool
  binding : Nat
  wrapped : Bool
  inst : Nat
  qpn : Nat
  limit : Nat
  deriving DecidableEq, Repr

/-- Read a KEY_LOAD body. -/
def keyBody (e : BitVec 512) : KeyBody :=
  let limit := ef e 32 8 % 2 ^ 48
  ⟨ef e 16 2 % 8192, ef e 18 1, ef e 19 1, ef e 20 1 == 1, ef e 21 1, ef e 22 1 % 2 == 1, ef e 24 2 % 512, ef e 26 2,
   if limit = 0 then 2 ^ 48 - 1 else limit⟩

/-- A reserved field of the key record is not 0 (R8, Table 15.4). -/
def recordReserved (b : KeyBody) (r : List Byte) : Bool :=
  let zero := fun off n => allZero (slice r off n)
  if b.wrapped then !(zero 44 20) else !(zero 36 28)

/-- Key and SALT of a record; none when unwrapping fails its check (R413, R414). -/
def recordKey (s : State) (b : KeyBody) (r : List Byte) : Option (Nat × Nat) :=
  if b.wrapped then
    (s.sec.kek.bind (fun kek => unwrapKey (leBytes 32 kek.toNat) (r.take (if b.aes256 then 40 else 24)))).map
      (fun k => (leNat k, leAt r 40 4))
  else some (leAt r 0 (if b.aes256 then 32 else 16), leAt r 32 4)

/-- R414 but for the record: the command is refused. -/
def keyRefused (s : State) (b : KeyBody) : Bool :=
  let k := keySlot s b.slot
  if b.action = 2 then k.state == 0
  else
    (if b.action = 0 then k.state != 0
     else k.state == 0 || k.mode != b.mode || k.aes256 != b.aes256 || k.binding != b.binding
       || k.inst != b.inst || (b.binding ≤ 1 && k.qpn != b.qpn))
    || !(instExists s b.inst)
    || (b.binding ≤ 1 && (match qpOf s b.qpn with
        | none => true
        | some q => q.inst != b.inst || q.typ == 2 || q.typ == 3
            || (qpSlot s b.qpn b.binding).any (· != b.slot)))

/-- Some message, response or operation holds a charge against a slot (R415). -/
def chargeHeld (s : State) (n : Nat) : Bool :=
  let k := keySlot s n
  match k.binding with
  | 0 => s.tp.msgs.any (fun m => m.2.qpn == k.qpn && m.2.charged)
      || s.tp.resps.any (fun r => r.2.qpn == k.qpn && r.2.kind == 4)
  | 1 => s.tp.recs.any (fun r => r.2.qpn == k.qpn && r.2.kind ≤ 2)
      || s.tp.msgs.any (fun m => m.2.qpn == k.qpn && m.2.respCharged)
  | _ => s.tp.runs.any (fun r => r.2.kind == .seal && r.2.op == n && r.2.tiles.all (fun t => t.state == .done))

/-- The instance owns as many key slots as its quota lets it (R432, R433). -/
def keyQuota (s : State) (n : Nat) : Bool :=
  wfld (rgi s Reg.GX_VI_QUOTA_SLOTS n) 13 0 ≤ (s.ce.slots.filter (fun e => e.2.inst == n && e.2.state != 0)).length

/-- A waiting REKEY or ERASE takes effect once nothing holds a charge against its slot (R415). -/
def keyChange (n : Nat) (s : State) : State :=
  let k := keySlot s n
  match k.change with
  | none => s
  | some c =>
    if chargeHeld s n then s
    else
      let k' : KeySlot := if c.erase then {}
        else { k with state := 1, key := c.key, salt := c.salt, limit := c.limit, used := 0, invocation := 0
                      messages := 0, change := none }
      let s := mgmtDone c.slot stOk (setKeySlot n k' s)
      let waiting := (s.tp.runs.filter (fun r => r.2.kind == .seal && r.2.op == n)).map Prod.fst
      waiting.foldl (fun s key => trySeal key s) s

/-- KEY_LOAD of an ACTION: `record` is what the read of the key record returned, `failed` that it could not be
read. -/
def keyLoad (action slot : Nat) (record : BitVec 512) (failed : Bool) (s : State) : State :=
  match mgmtOp s slot 0x18 with
  | none => s
  | some o =>
    let b := keyBody o.entry
    let r := entryBytes record
    if b.action ≠ action || o.started || (action ≠ 0 && (keySlot s b.slot).change.isSome) then s
    else if keyRefused s b then mgmtDone slot stAborted s
    else if action = 0 && keyQuota s b.inst then quotaRefused slot s
    else if action ≠ 2 && (failed || !s.pc.hstUp) then mgmtDone slot stAborted s
    else if action ≠ 2 && recordReserved b r then mgmtMalformed slot 2 s
    else
      match if action = 2 then some (0, 0) else recordKey s b r with
      | none => mgmtDone slot stAborted (raise Reg.GX_CE_EVENTS 2 s)
      | some (key, salt) =>
        if action = 0 then
          mgmtDone slot stOk (setKeySlot b.slot
            { state := 1, inst := b.inst, binding := b.binding, qpn := if b.binding ≤ 1 then b.qpn else 0
              mode := b.mode, aes256 := b.aes256, key := BitVec.ofNat 256 key, salt := BitVec.ofNat 32 salt
              limit := b.limit } s)
        else
          let c : KeyChange := { slot := slot, erase := action == 2, key := BitVec.ofNat 256 key
                                 salt := BitVec.ofNat 32 salt, limit := b.limit }
          keyChange b.slot (markStarted 0 slot
            (setKeySlot b.slot { keySlot s b.slot with change := some c } s))

/-- KEY_LOAD commands wait while the boot-and-security Bantam restarts (R411). -/
def keysServed (s : State) : Bool := working s && !bantamBusy s 0

/-- KEY_LOAD (R414). -/
def execKeyLoad (slot : Nat) (record : BitVec 512) (failed : Bool) (s : State) : Res :=
  .next (whenOk (keysServed s) (keyLoad 0 slot record failed) s)

/-- KEY_REKEY (R414). -/
def execKeyRekey (slot : Nat) (record : BitVec 512) (failed : Bool) (s : State) : Res :=
  .next (whenOk (keysServed s) (keyLoad 1 slot record failed) s)

/-- KEY_ERASE (R415). -/
def execKeyErase (slot : Nat) (s : State) : Res := .next (whenOk (keysServed s) (keyLoad 2 slot 0 false) s)

/-- KEY_CHANGE_APPLY (R415): of a key slot. -/
def execKeyChangeApply (n : Nat) (s : State) : Res := .next (whenOk (keysServed s) (keyChange n) s)

end Sys2Proof.Machine
end

