-- ==== Sys2Proof/Machine/Qp.lean ====
section
/-! DEFINITION. Queue pairs: creation, change and destruction (R161 to R165, R247, R248, R252). -/

namespace Sys2Proof.Machine

/-- A QP_CREATE or QP_MODIFY body (Table 6.2) as a context; the message bases are those of the entry. -/
def qpBody (e : BitVec 512) : Qp :=
  let coord := ef e 20 4
  { typ := ef e 17 1, access := ef e 18 1, peerNode := fld coord 28 6, peerUnit := fld coord 5 0, peerQpn := ef e 24 2
    sq := ef e 26 2 % 2 ^ 15, rq := ef e 28 2 % 2 ^ 15, inst := ef e 30 2 % 512
    rto := ef e 40 1, retry := ef e 41 1 % 16, rnrDelay := ef e 42 1, rnrLimit := ef e 43 1, window := ef e 44 2
    ah := BitVec.ofNat 128 (ef e 48 16), nextMsn := msnBase (ef e 32 4), expected := msnBase (ef e 36 4)
    sendSsn := 2 ^ 32, recvSsn := 2 ^ 32 }

/-- A RoCEv2 type, and its address handle (Table 8.6): remote index, port, RAW. -/
def isRoce (q : Qp) : Bool := q.typ == 2 || q.typ == 3
def ahIndex (q : Qp) : Nat := fld q.ah.toNat 11 0
def ahPort (q : Qp) : Nat := fld q.ah.toNat 20 16
def ahRaw (q : Qp) : Bool := q.ah.getLsbD 24

/-- The remote table entry that a queue pair names (R247): none when it cannot be read.  A LOCAL table lies in
instance 0's granules; `given` is what the read of a HOST table returned. -/
def remoteEntry (s : State) (idx : Nat) (given : BitVec 256) (failed : Bool) : Option (BitVec 256) :=
  let base := (rg s Reg.GX_ETH_RTAB_HI).toNat * 2 ^ 32 + (rg s Reg.GX_ETH_RTAB_LO).toNat
  let a := base + 32 * idx
  if wfld (rg s Reg.GX_ETH_RTAB_CFG) 22 21 = 1 then
    let (bs, bad) := tierRead s a 32
    if rangeInInstance s 0 a 32 && !bad then some (BitVec.ofNat 256 (leNat bs)) else none
  else if failed || !s.pc.hstUp then none else some given

/-- VALID of a remote table entry, and its reserved bits (Table 8.7). -/
def remoteValid (r : BitVec 256) : Bool := fld r.toNat 208 208 == 1
def remoteReserved (r : BitVec 256) : Bool :=
  fld r.toNat 199 198 != 0 || fld r.toNat 215 209 != 0 || fld r.toNat 255 216 != 0

/-- Both pools have room for n contexts more (R56, R161). -/
def poolsHold (s : State) (n : Nat) : Bool :=
  decide (256 * (s.tp.qps.length + n) ≤ s.lz.run.sram.1 * 0x100000)
    && decide (896 * (s.tp.qps.length + n) + 576 * (s.tp.recs.length + (outstanding s).length) ≤ retryPool s)

/-- A registered tenant ring of a kind and an instance. -/
def tenantRing (s : State) (r : Nat) (kind : RingKind) (n : Nat) : Bool :=
  decide (2 ≤ r) && (ringOf s r).any (fun g => g.kind == kind && g.inst == n)

/-- R163: QP_CREATE is refused. -/
def qpRefused (s : State) (qpn : Nat) (q : Qp) : Bool :=
  (qpOf s qpn).isSome || !(instExists s q.inst) || !(tenantRing s q.sq .sq q.inst)
    || (q.rq != 0 && !(tenantRing s q.rq .rq q.inst)) || !(poolsHold s 1)

/-- R248 and R252 but for the remote entry: QP_CREATE of a RoCEv2 type is refused. -/
def roceRefused (s : State) (q : Qp) : Bool :=
  isRoce q && (!(isEthPort s (ahPort q)) || decide (2 ^ 24 ≤ q.nextMsn - 2 ^ 32) || decide (2 ^ 24 ≤ q.expected - 2 ^ 32)
    || (ahRaw q && (q.inst != 0 || q.typ != 3 || ((mapGet s.eth.ports (ahPort q)).bind (·.rawQp)).isSome))
    || (!(ahRaw q) && decide (wfld (rg s Reg.GX_ETH_RTAB_CFG) 12 0 ≤ ahIndex q)))

/-- Contexts of an instance (R432). -/
def qpCount (s : State) (n : Nat) : Nat := (s.tp.qps.filter (fun e => e.2.inst == n)).length

/-- Change an Ethernet port's record. -/
def updEth (p : Nat) (f : EthPort → EthPort) (s : State) : State :=
  { s with eth := { s.eth with ports := mapSet s.eth.ports p (f ((mapGet s.eth.ports p).getD {})) } }

/-- Take a RoCEv2 queue pair's remote entry, or refuse: ABORTED when it cannot be read or is not VALID (R248). -/
def withRemote (slot : Nat) (q : Qp) (given : BitVec 256) (failed : Bool) (f : BitVec 256 → State → State) (s : State) : State :=
  if isRoce q && !(ahRaw q) then
    match remoteEntry s (ahIndex q) given failed with
    | none => mgmtDone slot stAborted s
    | some r =>
      if remoteReserved r then mgmtMalformed slot 2 s
      else if remoteValid r then f r s else mgmtDone slot stAborted s
  else f 0 s

/-- QP_CREATE (R163, R248, R252, R433). -/
def qpCreate (slot : Nat) (given : BitVec 256) (failed : Bool) (s : State) : State :=
  match mgmtOp s slot 0x13 with
  | none => s
  | some o =>
    let qpn := entryQpn o.entry
    let q := qpBody o.entry
    if qpRefused s qpn q || roceRefused s q then mgmtDone slot stAborted s
    else if wfld (rgi s Reg.GX_VI_QUOTA_QPS q.inst) 16 0 ≤ qpCount s q.inst then quotaRefused slot s
    else withRemote slot q given failed (fun r s =>
      let raw := isRoce q && ahRaw q
      let q := { q with raw := raw, roce := { remote := r } }
      let s := { s with tp := { s.tp with qps := mapSet s.tp.qps qpn q } }
      let s := if raw then updEth (ahPort q) (fun e => { e with rawQp := some qpn }) s else s
      mgmtDone slot stOk s) s

/-- QP_MODIFY of an ACTION on a context that is no Herd queue pair (R293); `f` has the context and the body. -/
def qpModify (action slot : Nat) (f : Nat → Qp → Qp → State → State) (s : State) : State :=
  match mgmtOp s slot 0x14 with
  | none => s
  | some o =>
    if ef o.entry 16 1 ≠ action then s
    else
      match qpOf s (entryQpn o.entry) with
      | none => mgmtDone slot stAborted s
      | some q =>
        if q.herd.isSome then mgmtDone slot stAborted s
        else f (entryQpn o.entry) q (qpBody o.entry) s

/-- The bases of a reconnected context (R164). -/
def reconnected (q b : Qp) : Qp :=
  let roce := isRoce q
  { q with peerNode := if roce then q.peerNode else b.peerNode, peerUnit := if roce then q.peerUnit else b.peerUnit
           peerQpn := if roce then q.peerQpn else b.peerQpn
           state := .ready, nextMsn := b.nextMsn, expected := b.expected, winBits := [], sendSsn := 2 ^ 32
           recvSsn := 2 ^ 32, recvs := [], statuses := [] }

/-- RECONNECT (R164), from ERROR or MOVED_WAIT; a RoCEv2 queue pair's remote entry is read again (R247). -/
def qpReconnect (slot : Nat) (given : BitVec 256) (failed : Bool) (s : State) : State :=
  qpModify 1 slot (fun qpn q b s =>
    if q.state = .ready then mgmtDone slot stAborted s
    else withRemote slot q given failed (fun r s =>
      let s := spendSlots qpn (dropRecords qpn s)
      mgmtDone slot stOk (updQp qpn (fun q => { reconnected q b with roce := { remote := r } }) s)) s) s

/-- TIMERS (R162). -/
def qpTimers (slot : Nat) (s : State) : State :=
  qpModify 2 slot (fun qpn _ b s =>
    mgmtDone slot stOk (updQp qpn (fun q =>
      { q with rto := b.rto, retry := b.retry, rnrDelay := b.rnrDelay, rnrLimit := b.rnrLimit, window := b.window }) s)) s

/-- ERROR (R164), from READY. -/
def qpToError (slot : Nat) (s : State) : State :=
  qpModify 3 slot (fun qpn q _ s =>
    if q.state = .ready then mgmtDone slot stOk (qpError qpn s) else mgmtDone slot stAborted s) s

/-- An accepted operation of a queue pair, or a RECV that serves it, has no completion written (R165). -/
def qpBusy (s : State) (qpn : Nat) (q : Qp) : Bool :=
  (ringOf s q.sq).any (fun g => g.ops.any (fun o => entryOpcode o.entry ≤ 7 && entryQpn o.entry == qpn))
    || !q.recvs.isEmpty

/-- Free a context: its records, its key slots' use, its rate controller. -/
def freeQp (qpn : Nat) (s : State) : State :=
  match qpOf s qpn with
  | none => s
  | some q =>
    let s := spendSlots qpn (dropRecords qpn s)
    let s := if q.raw then updEth (ahPort q) (fun e => { e with rawQp := none }) s else s
    { s with tp := { s.tp with qps := mapErase s.tp.qps qpn }, cs := { s.cs with rates := mapErase s.cs.rates qpn } }

/-- QP_DESTROY (R165). -/
def qpDestroy (slot : Nat) (s : State) : State :=
  match mgmtOp s slot 0x15 with
  | none => s
  | some o =>
    let qpn := entryQpn o.entry
    match qpOf s qpn with
    | none => mgmtDone slot stAborted s
    | some q =>
      if q.herd.isSome || qpBusy s qpn q then mgmtDone slot stAborted s
      else mgmtDone slot stOk (freeQp qpn s)

/-- QP_CREATE (R163): `remote` is what the read of the remote table returned. -/
def execQpCreate (slot : Nat) (remote : BitVec 256) (failed : Bool) (s : State) : Res :=
  .next (whenOk (working s) (qpCreate slot remote failed) s)

/-- QP_MODIFY_RECONNECT (R164). -/
def execQpModifyReconnect (slot : Nat) (remote : BitVec 256) (failed : Bool) (s : State) : Res :=
  .next (whenOk (working s) (qpReconnect slot remote failed) s)

/-- QP_MODIFY_TIMERS (R162). -/
def execQpModifyTimers (slot : Nat) (s : State) : Res := .next (whenOk (working s) (qpTimers slot) s)

/-- QP_MODIFY_ERROR (R164). -/
def execQpModifyError (slot : Nat) (s : State) : Res := .next (whenOk (working s) (qpToError slot) s)

/-- QP_DESTROY (R165). -/
def execQpDestroy (slot : Nat) (s : State) : Res := .next (whenOk (working s) (qpDestroy slot) s)

end Sys2Proof.Machine
end

