-- ==== Sys2Proof/Machine/Herd.lean ====
section
/-! DEFINITION. Herds and collectives: definition and dissolution, the schedule of steps, pieces, aborts, votes
and decisions (R288 to R315). -/

namespace Sys2Proof.Machine

/-! ### The schedule (R297 to R302) -/

/-- Change a Herd. -/
def updHerd (h : Nat) (f : Herd → Herd) (s : State) : State :=
  { s with hd := { s.hd with herds := mapModify s.hd.herds h f } }

/-- A collective of a Herd. -/
def collOf (s : State) (h seq : Nat) : Option Coll := (mapGet s.hd.herds h).bind (fun d => mapGet d.colls seq)

/-- Change a collective. -/
def updColl (h seq : Nat) (f : Coll → Coll) (s : State) : State :=
  updHerd h (fun d => { d with colls := mapModify d.colls seq f }) s

/-- Bytes of a unit, OP and SAT (R297, Table 11.2). -/
def collUnit (c : Coll) : Nat := if c.kind ≤ 1 then unitBytes c.format else 1
def collOp (c : Coll) : Nat := c.redop % 16
def collSat (c : Coll) : Bool := c.redop / 64 % 2 == 1

/-- The collective runs on two trees (R302), and it runs no step (R314). -/
def collTree (d : Herd) (c : Coll) : Bool :=
  d.priv && (c.kind == 0 || c.kind == 3) && !c.fixed && decide (3 ≤ c.active.length)
def collIdle (c : Coll) : Bool := c.len == 0 || c.kind == 4

/-- Index of a rank in the active list. -/
def rankIndex (c : Coll) (r : Nat) : Nat := (c.active.takeWhile (· != r)).length

/-- The coordinator (R298). -/
def coordinator (c : Coll) : Nat := if c.kind = 3 then c.root else (c.active.head?).getD 0

/-- Units of the whole buffer, and of shard x: of a member by its index, of a tree, or the whole for a BROADCAST
by direct exchange (R297, R302). -/
def collUnits (c : Coll) : Nat := c.len / collUnit c
def shard (d : Herd) (c : Coll) (x : Nat) : Nat × Nat :=
  let u := collUnits c
  if collTree d c then (if x = 0 then (0, u / 2) else (u / 2, u))
  else if c.kind = 3 then (0, u)
  else (x * u / c.active.length, (x + 1) * u / c.active.length)

/-- Units of a round (R299); `region` is the size of the core-store region of FLOCK. -/
def perRound (region : Nat) (d : Herd) (c : Coll) : Nat :=
  let e := if c.kind ≤ 1 then unitElems c.format else 1
  max 1 <|
    if 2 ≤ c.kind then d.slotKib * 1024
    else if c.fixed then region / (c.active.length * collUnit c)
    else if collTree d c then d.slotKib * 1024 / (160 * e)
    else d.slotKib * 1024 / (40 * e)

/-- Core-store region of a Herd's FLOCK. -/
def herdRegion (s : State) (d : Herd) : Nat :=
  match flockOf s.lz.run d.flock with
  | some f => regionSize s.lz.run f
  | none => 0

/-- Rounds of a collective: the largest shard's units by the units of a round, at least 1 (R299). -/
def collRounds (region : Nat) (d : Herd) (c : Coll) : Nat :=
  let sizes := (List.range (max 2 c.active.length)).map (fun x => let r := shard d c x; r.2 - r.1)
  max 1 ((sizes.foldl max 0 + perRound region d c - 1) / perRound region d c)

/-- What a step of the schedule does: S scatters contributions, G gathers results, B broadcasts, U and D go up
and down a tree. -/
inductive StepKind where
  | s | g | b | u | d
  deriving DecidableEq, Repr

/-- A step: its kind, round and tree. -/
structure StepAt where
  kind : StepKind
  round : Nat
  tree : Nat := 0
  deriving DecidableEq, Repr

/-- Steps of a collective by number: by direct exchange in the order of Table 10.4; on trees by round, up before
down, tree A before tree B (assumption 11). -/
def stepAt (d : Herd) (c : Coll) (n : Nat) : StepAt :=
  if collTree d c then ⟨if n / 2 % 2 = 0 then .u else .d, n / 4, n % 2⟩
  else
    match c.kind with
    | 0 => ⟨if n % 2 = 0 then .s else .g, n / 2, 0⟩
    | 1 => ⟨.s, n, 0⟩
    | 2 => ⟨.g, n, 0⟩
    | _ => ⟨.b, n, 0⟩

/-- Number of steps (R301, R302, R314). -/
def stepCount (region : Nat) (d : Herd) (c : Coll) : Nat :=
  if collIdle c then 0
  else collRounds region d c * (if collTree d c then 4 else if c.kind = 0 then 2 else 1)

/-- The list over which the trees are built, a rank's position in a tree, and the rank at a position (R302). -/
def treeList (c : Coll) : List Nat :=
  if c.kind = 3 then (c.active.dropWhile (· != c.root)) ++ (c.active.takeWhile (· != c.root)) else c.active
def treePos (c : Coll) (t r : Nat) : Nat :=
  let p := ((treeList c).takeWhile (· != r)).length
  if t = 0 then p else c.active.length - 1 - p
def treeRank (c : Coll) (t q : Nat) : Nat :=
  ((treeList c)[if t = 0 then q else c.active.length - 1 - q]?).getD 0

/-- Parent of a rank in a tree, none at the root, and its children. -/
def treeParent (c : Coll) (t r : Nat) : Option Nat :=
  let q := treePos c t r
  if q = 0 then none else some (treeRank c t ((q - 1) / 2))
def treeKids (c : Coll) (t r : Nat) : List Nat :=
  let q := treePos c t r
  ([2 * q + 1, 2 * q + 2].filter (· < c.active.length)).map (treeRank c t)

/-- A BROADCAST's ROOT is no root of tree B: it feeds the member that is (assumption 12). -/
def feedsTree (c : Coll) (t r : Nat) : List Nat :=
  if c.kind = 3 && t == 1 && r == c.root then [treeRank c 1 0] else []

/-- Ranks to which a member sends a piece in a step. -/
def stepTo (d : Herd) (c : Coll) (r n : Nat) : List Nat :=
  let a := stepAt d c n
  let others := c.active.filter (· != r)
  match a.kind with
  | .s => others
  | .g => others
  | .b => if r = c.root then others else []
  | .u => if c.kind = 3 then [] else (treeParent c a.tree r).toList
  | .d => treeKids c a.tree r ++ (feedsTree c a.tree r).filter (fun x => !((treeKids c a.tree r).contains x))

/-- Ranks from which a member expects a piece in a step. -/
def stepFrom (d : Herd) (c : Coll) (r n : Nat) : List Nat := c.active.filter (fun j => j != r && (stepTo d c j n).contains r)

/-- Units of the piece that one rank sends another in a step. -/
def pieceUnits (region : Nat) (d : Herd) (c : Coll) (src dst n : Nat) : Nat × Nat :=
  let a := stepAt d c n
  let x := match a.kind with
    | .s => rankIndex c dst
    | .g => rankIndex c src
    | .b => 0
    | .u => a.tree
    | .d => a.tree
  let (lo, hi) := shard d c x
  let per := perRound region d c
  (min hi (lo + a.round * per), min hi (lo + (a.round + 1) * per))

/-- Bytes of the wire form of reduction data (Table 11.7): `n` units, or partials. -/
def wireLen (code : Nat) (partial_ : Bool) (n : Nat) : Nat :=
  match lineLayout code partial_ with
  | none => n * (if partial_ then partialBytes code else unitBytes code)
  | some (_, per) => (n + per - 1) / per * 64

/-- Bytes of a piece (R304, R333). -/
def pieceLen (region : Nat) (d : Herd) (c : Coll) (src dst n : Nat) : Nat :=
  let (lo, hi) := pieceUnits region d c src dst n
  match (stepAt d c n).kind with
  | .s => wireLen c.format false (hi - lo)
  | .u => wireLen c.format true ((hi - lo) * unitElems c.format)
  | _ => (hi - lo) * collUnit c

/-- Rank to which a member votes; none for the coordinator (R305). -/
def voteTo (d : Herd) (c : Coll) (r : Nat) : Option Nat :=
  if r = coordinator c then none else if collTree d c then treeParent c 0 r else some (coordinator c)

/-- Ranks to which a member passes the decision, which are those that vote to it. -/
def tellTo (d : Herd) (c : Coll) (r : Nat) : List Nat := c.active.filter (fun j => voteTo d c j == some r)

/-! ### Sending (R304, R305) -/

/-- IMM of a Herd SEND (Table 10.5). -/
def herdImm (msg code gen seq : Nat) : Nat := msg * 2 ^ 28 + code * 2 ^ 24 + gen % 256 * 2 ^ 16 + seq % 2 ^ 16

/-- The unit of a rank has a FENCED entry (R225). -/
def rankFenced (s : State) (d : Herd) (j : Nat) : Bool :=
  match d.members[j]? with
  | some (n, u, _) => (fenceOf s n u).any (fun e => e.state == 2)
  | none => false

/-- Start one SEND to a rank on its Herd queue pair.  A fenced rank gets nothing, and the collective aborts
(R225); on a queue pair that has left READY nothing leaves. -/
def herdSend (h seq j msg code : Nat) (bs : List Byte) (s : State) : State :=
  match mapGet s.hd.herds h, collOf s h seq with
  | some d, some c =>
    let qpn := d.qpBase + j
    if rankFenced s d j then collAbort h seq 1 j s
    else
      match qpOf s qpn with
      | none => s
      | some q =>
        if q.state != .ready then s
        else
          let key := 2 ^ 40 + s.tp.nextRun
          let tiles := if bs.isEmpty then [{ src := 0, dst := 0, len := 0 : Tile }]
            else cutSegments [(0, bs.length)] 0 true false true
          let r : OpRun := { kind := .send, ring := 2 ^ 24, slot := 0, qpn := qpn, inst := d.inst, space := 0
                             tiles := tiles, ssn := q.sendSsn, imm := herdImm msg code c.gen seq, data := some bs }
          let s := updQp qpn (fun q => { q with sendSsn := q.sendSsn + 1 }) s
          let s := { s with tp := { s.tp with runs := mapSet s.tp.runs key r, nextRun := s.tp.nextRun + 1 } }
          updColl h seq (fun c => { c with sends := c.sends ++ [key] }) (progressRun key s)
  | _, _ => s

/-- Every position of a collective toward a rank is used. -/
def outDone (region : Nat) (d : Herd) (c : Coll) (j : Nat) : Bool :=
  (List.range (stepCount region d c)).all (fun n => !((stepTo d c d.rank n).contains j) || c.sent.contains (n, j))
    && (voteTo d c d.rank != some j || c.voted)
    && (!((tellTo d c d.rank).contains j) || c.told)

/-- Earlier collectives of the Herd owe the rank nothing. -/
def earlierDone (region : Nat) (d : Herd) (c : Coll) (j : Nat) : Bool :=
  d.colls.all (fun e => decide (c.seq ≤ e.1) || !e.2.begun || outDone region d e.2 j)

/-- The piece of a step may leave for a rank: every earlier position of the pair is used. -/
def mayPiece (region : Nat) (d : Herd) (c : Coll) (n j : Nat) : Bool :=
  earlierDone region d c j
    && (List.range n).all (fun m => !((stepTo d c d.rank m).contains j) || c.sent.contains (m, j))

/-- All pieces to a rank are sent, so that the vote and then the decision may leave. -/
def piecesSent (region : Nat) (d : Herd) (c : Coll) (j : Nat) : Bool :=
  mayPiece region d c (stepCount region d c) j

/-! ### Memory of a collective (R304) -/

/-- SPACE of a collective's ring. -/
def collSpace (s : State) (c : Coll) : Nat := ((ringOf s c.ring).map (·.space)).getD 0

/-- Translate a range of a collective's buffers. -/
def collPages (d : Herd) (c : Coll) (va n : Nat) (need : Need) (reads : NMap (BitVec 128)) (s : State) :
    KOut (List PageMap) :=
  let (s, r) := xlateRange (pageFuel va n) (collSpace s c) d.inst va (va + n) need .here reads s
  match r with
  | .error (cause, v) => .fail (recordFault cause d.inst (collSpace s c) v s) stXlateFault cause v
  | .ok (pages, us) =>
    .ok (if need.write then settleUses (.run (opKey c.ring c.slot)) pages us s else releaseUses us s) pages

/-- Read bytes of a collective's buffers. -/
def collRead (d : Herd) (c : Coll) (va n : Nat) (reads : NMap (BitVec 128)) (s : State) : KOut (List Byte) :=
  kBind (collPages d c va n { read := true } reads s) (fun s pages =>
    match readRange s (opKey c.ring c.slot) pages va n with
    | .wait => .wait
    | .refused st => .fail s st 0 0
    | .got bs bad => if bad then .fail s stMemUncorrectable 0 0 else .ok (muleMove false false true bs s) bs)

/-- Write bytes to a collective's DST. -/
def collWrite (d : Herd) (c : Coll) (va : Nat) (bs : List Byte) (reads : NMap (BitVec 128)) (s : State) : KOut Unit :=
  kBind (collPages d c va bs.length { write := true } reads s) (fun s pages =>
    if rangeStalls s pages va bs.length then .wait
    else
      let (s, st) := writeRange (.run (opKey c.ring c.slot)) pages va bs (muleMove true false true bs s)
      if st = 0 then .ok s () else .fail s st 0 0)

/-- VA in SRC and in DST of a unit of the whole buffer (Table 10.3). -/
def srcVa (d : Herd) (c : Coll) (u : Nat) : Nat :=
  c.src + (u - (if c.kind = 2 then (shard d c (rankIndex c d.rank)).1 else 0)) * collUnit c
def dstVa (d : Herd) (c : Coll) (u : Nat) : Nat :=
  c.dst + (u - (if c.kind = 1 then (shard d c (rankIndex c d.rank)).1 else 0)) * collUnit c

/-! ### Reduction (R301, R303, R331, R332) -/

/-- Cut a list into groups of n. -/
def groups {α : Type} (n : Nat) (xs : List α) : List (List α) :=
  (List.range ((xs.length + n - 1) / n)).map (fun i => (xs.drop (i * n)).take n)

/-- Accumulators of a run of units, empty. -/
def freshAccs (code : Nat) : List Acc := List.replicate (unitElems code) {}

/-- Exact-sum result of contributions (R325). -/
def exactResult (c : Coll) (contribs : List (List Byte)) : List Byte × List ResFlag :=
  let us := contribs.map (unitsOf c.format)
  let n := (us.head?.map List.length).getD 0
  let parts := (List.range n).map (fun i =>
    encodeUnit c.format (collOp c) c.active.length (collSat c)
      (us.foldl (fun accs x => accEnter (collOp c) accs (decodeUnit c.format ((x[i]?).getD []))) (freshAccs c.format)))
  ((parts.map Prod.fst).flatten, parts.map Prod.snd)

/-- Fixed-order result of contributions, in rank order (R331). -/
def fixedResult (c : Coll) (contribs : List (List Byte)) : List Byte × List ResFlag :=
  let us := contribs.map (unitsOf c.format)
  let n := (us.head?.map List.length).getD 0
  let parts := (List.range n).map (fun i =>
    fixedUnit c.format (collOp c) c.active.length (collSat c) (us.map (fun x => (x[i]?).getD [])))
  ((parts.map Prod.fst).flatten, parts.map Prod.snd)

/-- Accumulators of a tree node: its own contribution and its children's partials (R303). -/
def treeAccs (c : Coll) (own : List Byte) (kids : List (List Byte)) : List Acc :=
  let start := ((unitsOf c.format own).map (fun u =>
    accEnter (collOp c) (freshAccs c.format) (decodeUnit c.format u))).flatten
  kids.foldl (fun accs k => List.zipWith (accCombine (collOp c)) accs
    ((chunks k.length (partialBytes c.format) k).map (fun b => (unpackPartial c.format (collOp c) b).getD {}))) start

/-- The bytes staged for a step by a rank. -/
def stagedFor (c : Coll) (n j : Nat) : List Byte :=
  ((c.staged.find? (fun x => x.1 == n && x.2.1 == j)).map (·.2.2)).getD []

/-! ### Steps (R300) -/

/-- The step before a step in its chain has ended, and the root's Uₖ before its Dₖ. -/
def stepDue (d : Herd) (c : Coll) (n : Nat) : Bool :=
  if collTree d c then
    let a := stepAt d c n
    (decide (n < 4) || c.ended.contains (n - 4))
      && (a.kind != .d || (treeParent c a.tree d.rank).isSome || c.ended.contains (n - 2))
  else n = 0 || c.ended.contains (n - 1)

/-- The staging of a tree holds the round: Dₖ₋₂ has ended (R299, R302). -/
def stagingFree (d : Herd) (c : Coll) (n : Nat) : Bool :=
  !(collTree d c) || (stepAt d c n).kind != .u || decide (n < 8) || c.ended.contains (n - 6)

/-- Record a local failure of a collective (R307, R309). -/
def collFail (h seq status detail va : Nat) (s : State) : State :=
  let own := ((mapGet s.hd.herds h).map (·.rank)).getD 0
  let s := collAbort h seq 0 own s
  updColl h seq (fun c => { c with failure := c.failure.or (some (status, detail, va)) }) s

/-- Take the outcome of a step's memory work: a wait changes nothing, a failure aborts. -/
def collTake {α : Type} (h seq : Nat) (s0 : State) (x : KOut α) (f : State → α → State) : State :=
  match x with
  | .wait => s0
  | .fail s st detail va => collFail h seq st detail va s
  | .ok s a => f s a

/-- Open a step for receiving: its positions, and the translation of the DST of its round (R301). -/
def openStep (h seq n : Nat) (reads : NMap (BitVec 128)) (s : State) : State :=
  match mapGet s.hd.herds h, collOf s h seq with
  | some d, some c =>
    if c.opened.contains n || !(stagingFree d c n) then s
    else
      let region := herdRegion s d
      let a := stepAt d c n
      let (lo, hi) := pieceUnits region d c d.rank d.rank n
      let writes := a.kind == .s || (a.kind == .u && c.kind == 0 && (treeParent c a.tree d.rank).isNone)
      let x := if writes then collPages d c (dstVa d c lo) ((hi - lo) * collUnit c) { write := true } reads s
        else .ok s []
      collTake h seq s x (fun s _ =>
        let s := updColl h seq (fun c => { c with opened := c.opened ++ [n] }) s
        { s with hd := { s.hd with pos := s.hd.pos.map (fun e => (e.1, e.2.map (fun p =>
            if e.1 - d.qpBase < d.members.length && p.seq == seq && p.kind == 0 && p.step == n
              && ((qpOf s e.1).bind (·.herd)) == some h then { p with opened := true } else p))) } })
  | _, _ => s

/-- The member's own part of a step, once: its contribution, or the copy of its own bytes to DST. -/
def ownPart (h seq n : Nat) (reads : NMap (BitVec 128)) (s : State) : State :=
  match mapGet s.hd.herds h, collOf s h seq with
  | some d, some c =>
    if c.got.contains (n, d.rank) then s
    else
      let a := stepAt d c n
      let (lo, hi) := pieceUnits (herdRegion s d) d c d.rank d.rank n
      let len := (hi - lo) * collUnit c
      let mark := fun (c : Coll) => { c with got := c.got ++ [(n, d.rank)] }
      let contributes := a.kind == .s || (a.kind == .u && c.kind == 0)
      let root := d.rank == c.root
      let copies := a.kind == .g && c.kind == 2
        || (root && (c.dst != c.src) && (a.kind == .b || (a.kind == .d && c.kind == 3 && a.tree == 0)))
      if contributes then
        collTake h seq s (collRead d c (srcVa d c lo) len reads s) (fun s bs =>
          updColl h seq (fun c => mark { c with staged := c.staged ++ [(n, d.rank, bs)] }) s)
      else if copies then
        collTake h seq s (kBind (collRead d c (srcVa d c lo) len reads s) (fun s bs =>
          collWrite d c (dstVa d c lo) bs reads s)) (fun s _ => updColl h seq mark s)
      else updColl h seq mark s
  | _, _ => s

/-- Bytes of the piece of a step to a rank, or that they are not there yet. -/
def pieceBytes (d : Herd) (c : Coll) (n j : Nat) (reads : NMap (BitVec 128)) (s : State) : KOut (List Byte) :=
  let a := stepAt d c n
  let (lo, hi) := pieceUnits (herdRegion s d) d c d.rank j n
  let len := (hi - lo) * collUnit c
  match a.kind with
  | .s => kBind (collRead d c (srcVa d c lo) len reads s) (fun s bs =>
      .ok s (wireForm c.format false (unitsOf c.format bs)))
  | .g => if c.kind = 2 then collRead d c (srcVa d c lo) len reads s else collRead d c (dstVa d c lo) len reads s
  | .b => collRead d c (srcVa d c lo) len reads s
  | .u =>
    let kids := treeKids c a.tree d.rank
    if kids.all (fun k => c.got.contains (n, k)) && c.got.contains (n, d.rank) then
      .ok s (wireForm c.format true ((treeAccs c (stagedFor c n d.rank) (kids.map (stagedFor c n))).map
        (packPartial c.format (collOp c))))
    else .wait
  | .d =>
    if c.kind = 3 && d.rank == c.root then collRead d c (srcVa d c lo) len reads s
    else
      match c.held.find? (fun x => x.1 == n) with
      | some x => .ok s x.2
      | none => .wait

/-- Send the pieces of a step that may leave and whose bytes are there. -/
def sendPieces (h seq n : Nat) (reads : NMap (BitVec 128)) (s : State) : State :=
  match mapGet s.hd.herds h, collOf s h seq with
  | some d, some c =>
    (stepTo d c d.rank n).foldl (fun s j =>
      match mapGet s.hd.herds h, collOf s h seq with
      | some d, some c =>
        if c.sent.contains (n, j) || c.abort.isSome || !(mayPiece (herdRegion s d) d c n j) then s
        else
          collTake h seq s (pieceBytes d c n j reads s) (fun s bs =>
            updColl h seq (fun c => { c with sent := c.sent ++ [(n, j)] }) (herdSend h seq j 0 0 bs s))
      | _, _ => s) s
  | _, _ => s

/-- End a step once its pieces are sent and taken: an S step and the root's U step round and write their result,
which the root holds for the step down (R301, R302). -/
def endStep (h seq n : Nat) (reads : NMap (BitVec 128)) (s : State) : State :=
  match mapGet s.hd.herds h, collOf s h seq with
  | some d, some c =>
    let all := (stepTo d c d.rank n).all (fun j => c.sent.contains (n, j))
      && (stepFrom d c d.rank n).all (fun j => c.got.contains (n, j)) && c.got.contains (n, d.rank)
    if !all || c.ended.contains n || c.abort.isSome then s
    else
      let a := stepAt d c n
      let (lo, _) := pieceUnits (herdRegion s d) d c d.rank d.rank n
      let finish := fun (c : Coll) =>
        { c with ended := c.ended ++ [n], staged := c.staged.filter (fun x => x.1 != n)
                 held := if a.kind = .d then c.held.filter (fun x => x.1 != n) else c.held }
      let result : Option (List Byte × List ResFlag) :=
        if a.kind = .s then
          let contribs := c.active.map (stagedFor c n)
          some (if c.fixed then fixedResult c contribs else exactResult c contribs)
        else if a.kind = .u && c.kind == 0 && (treeParent c a.tree d.rank).isNone then
          let accs := treeAccs c (stagedFor c n d.rank) ((treeKids c a.tree d.rank).map (stagedFor c n))
          let parts := (groups (unitElems c.format) accs).map
            (encodeUnit c.format (collOp c) c.active.length (collSat c))
          some ((parts.map Prod.fst).flatten, parts.map Prod.snd)
        else none
      match result with
      | none => updColl h seq finish s
      | some (bs, flags) =>
        collTake h seq s (collWrite d c (dstVa d c lo) bs reads s) (fun s _ =>
          countResults flags (updColl h seq (fun c =>
            let c := finish c
            if a.kind = .u then { c with held := c.held ++ [(n + 2, bs)] } else c) s))
  | _, _ => s

/-- Work on a step that is ready. -/
def stepWork (h seq : Nat) (reads : NMap (BitVec 128)) (s : State) (n : Nat) : State :=
  match collOf s h seq with
  | some c =>
    if c.abort.isSome || c.ended.contains n || (mapGet c.ready n).isNone then s
    else
      let s := openStep h seq n reads s
      if ((collOf s h seq).map (fun c => c.opened.contains n && c.abort.isNone)).getD false then
        endStep h seq n reads (sendPieces h seq n reads (ownPart h seq n reads s))
      else s
  | none => s

/-! ### Completion (R309) -/

/-- BYTES of an OK completion (Table 10.3). -/
def collBytes (d : Herd) (c : Coll) : Nat :=
  if c.kind = 4 then 0
  else if c.kind = 1 then
    let r := shard d c (rankIndex c d.rank)
    (r.2 - r.1) * collUnit c
  else c.len

/-- Every SEND of the collective is acknowledged, or its queue pair has left READY. -/
def sendsDone (s : State) (c : Coll) : Bool := c.sends.all (fun k => (runOf s k).isNone)

/-- Every position that the member owes is used. -/
def owesNothing (region : Nat) (d : Herd) (c : Coll) : Bool :=
  !c.begun || (c.active.filter (· != d.rank)).all (outDone region d c)

/-- End a collective: its completion, the counters and events, and its staging slot (R309, R140). -/
def collEnd (h seq status detail aux : Nat) (s : State) : State :=
  match mapGet s.hd.herds h, collOf s h seq with
  | some d, some c =>
    let s := updHerd h (fun d => { d with colls := mapErase d.colls seq, doneSeq := seq }) s
    let s :=
      if status = stOk then bump Reg.GX_HD_DONE_CNT s
      else if status = stMemberTimeout then raise Reg.GX_HD_EVENTS 1 (bump Reg.GX_HD_TIMEOUT_CNT s)
      else if status = stMemberFenced then raise Reg.GX_HD_EVENTS 2 (bump Reg.GX_HD_FENCED_CNT s)
      else s
    let key := opKey c.ring c.slot
    let (s, ports) := awaitFlush (.run key) (dropGot key s)
    let s := finishOp c.ring c.slot
      { status := status, detail := detail, bytes := if status = stOk then collBytes d c else 0, aux := aux } s
    if ports.isEmpty then s else updChain c.ring c.slot (fun o => { o with flush := ports }) s
  | _, _ => s

/-- The status with which a collective may complete now (Table 10.6): status, DETAIL, AUX. -/
def collVerdict (s : State) (d : Herd) (c : Coll) : Option (Nat × Nat × Nat) :=
  let settled := sendsDone s c && owesNothing (herdRegion s d) d c
  if !c.begun then none
  else
    match c.stopped with
    | some st => if c.abort.isSome && settled then some (st, 0, 0) else none
    | none =>
      if c.decision.isNone then
        if coordinator c != d.rank && !(d.active.contains (coordinator c)) then
          some (c.failure.getD (stMemberFenced, 0, 0))
        else none
      else if !settled then none
      else
        match c.failure, c.decision with
        | some f, _ => some f
        | none, some 2 => some (stOk, 0, 0)
        | none, some 1 => some (stMemberFenced, 0, 0)
        | none, _ => some (stMemberTimeout, 0, 0)

/-- COLLECTIVE_COMPLETE (R309): collective `seq` of a Herd. -/
def collComplete (h seq : Nat) (s : State) : State :=
  match mapGet s.hd.herds h, collOf s h seq with
  | some d, some c =>
    match collVerdict s d c with
    | some (st, detail, aux) => collEnd h seq st detail aux s
    | none => s
  | _, _ => s

/-- COLLECTIVE_COMPLETE (R309). -/
def execCollectiveComplete (herd seq : Nat) (s : State) : Res := .next (whenOk (working s) (collComplete herd seq) s)

/-! ### The edge (R29 steps 4 and 6) -/

/-- The adapter makes steps ready (R312). -/
def stepsRun (s : State) : Bool := s.tick.align == .aligned || s.tick.align == .holdover

/-- A step's deadline has passed (R300): the rank whose piece is missing, or the member's own. -/
def deadlineMissed (now : Nat) (d : Herd) (c : Coll) : Option Nat :=
  if !c.begun || c.abort.isSome || c.decision.isSome then none
  else
    match c.ready.find? (fun e => !(c.ended.contains e.1) && decide (e.2 + c.deadline ≤ now)) with
    | none => none
    | some e => some (((stepFrom d c d.rank e.1).find? (fun j => !(c.got.contains (e.1, j)))).getD d.rank)

/-- STEP_DEADLINE_MISS of one collective (R300, R307). -/
def stepMiss (h seq : Nat) (s : State) : State :=
  match mapGet s.hd.herds h, collOf s h seq with
  | some d, some c =>
    match deadlineMissed s.tick.count.toNat d c with
    | some j => collAbort h seq 0 j s
    | none => s
  | _, _ => s

/-- HOLD_TIMEOUT of one collective (R309): the member takes it as DECIDE_ABORT with TIMEOUT. -/
def holdOut (h seq : Nat) (s : State) : State :=
  match mapGet s.hd.herds h, collOf s h seq with
  | some d, some c =>
    if c.voted && c.decision.isNone && coordinator c != d.rank && decide (c.voteAt + d.hold ≤ s.tick.count.toNat) then
      updColl h seq (fun c => { c with decision := some 0 }) (collAbort h seq 0 d.rank s)
    else s
  | _, _ => s

/-- STEP_DEADLINE_MISS (R300). -/
def execStepDeadlineMiss (herd seq : Nat) (s : State) : Res := .next (whenOk (working s) (stepMiss herd seq) s)

/-- HOLD_TIMEOUT (R309). -/
def execHoldTimeout (herd seq : Nat) (s : State) : Res := .next (whenOk (working s) (holdOut herd seq) s)

/-- Ranks that R298 counts as active. -/
def activeRanks (s : State) (d : Herd) (l : List Nat) : List Nat := l.filter (fun j => j == d.rank || !(rankFenced s d j))

/-- A Herd's membership follows the fence table at an edge (R298): a fenced rank leaves, GEN rises, and the
collectives in flight abort. -/
def memberChange (h : Nat) (s : State) : State :=
  match mapGet s.hd.herds h with
  | none => s
  | some d =>
    let now := activeRanks s d d.active
    match d.active.find? (fun j => !(now.contains j)) with
    | none => s
    | some gone =>
      let s := updHerd h (fun d => { d with active := now, gen := d.gen + 1 }) s
      raise Reg.GX_HD_EVENTS 0
        ((d.colls.filter (fun e => e.2.begun)).foldl (fun s e => collAbort h e.1 1 gone s) s)

/-- HERD_MEMBERSHIP_CHANGE (R298): at an edge after the fence write. -/
def execHerdMembershipChange (herd : Nat) (s : State) : Res :=
  .next (whenOk (working s && decide (s.cf.fencedAt < s.tick.count.toNat)) (memberChange herd) s)

/-- Positions that a rank's SENDs of a collective take at this member (R305). -/
def rankPositions (region : Nat) (d : Herd) (c : Coll) (j ssn : Nat) : List HerdPos :=
  let pieces := ((List.range (stepCount region d c)).filter (fun n => (stepTo d c j n).contains d.rank)).map
    (fun n => ({ ssn := 0, seq := c.seq, kind := 0, step := n, len := pieceLen region d c j d.rank n } : HerdPos))
  let vote := if voteTo d c j = some d.rank then [({ ssn := 0, seq := c.seq, kind := 1, opened := true } : HerdPos)] else []
  let tell := if voteTo d c d.rank = some j then [({ ssn := 0, seq := c.seq, kind := 2, opened := true } : HerdPos)] else []
  let all := pieces ++ vote ++ tell
  (List.zip (List.range all.length) all).map (fun x => { x.2 with ssn := ssn + x.1 })

/-- Lay out the receiving positions of a collective that begins. -/
def addPositions (h seq : Nat) (s : State) : State :=
  match mapGet s.hd.herds h, collOf s h seq with
  | some d, some c =>
    let region := herdRegion s d
    (c.active.filter (· != d.rank)).foldl (fun s j =>
      let qpn := d.qpBase + j
      let old := (mapGet s.hd.pos qpn).getD []
      let ssn := match old.getLast? with
        | some p => p.ssn + 1
        | none => ((qpOf s qpn).map (·.recvSsn)).getD 0
      { s with hd := { s.hd with pos := mapSet s.hd.pos qpn (old ++ rankPositions region d c j ssn) } }) s
  | _, _ => s

/-- A collective whose Herd's FLOCK lies on a withdrawn core fails at this member (R525). -/
def coreLoss (h seq : Nat) (s : State) : State :=
  match mapGet s.hd.herds h, collOf s h seq with
  | some d, some c =>
    if c.begun && c.failure.isNone && c.decision.isNone
        && (flockOf s.lz.run d.flock).any (fun f => s.re.now.lost.contains f.core) then
      collFail h seq stMemUncorrectable 0 0 s
    else s
  | _, _ => s

/-- Begin a collective that holds a slot (R298, R300, R314): the active set and GEN are taken; a BROADCAST
without its ROOT runs no step; on a BROKEN Herd none does (R293). -/
def collBegin (h seq : Nat) (s : State) : State :=
  match mapGet s.hd.herds h, collOf s h seq with
  | some d, some c =>
    let now := s.tick.count.toNat
    if c.begun || c.slotAt.all (fun t => decide (now ≤ t)) then s
    else if c.stopped.isSome then collEnd h seq (c.stopped.getD 0) 0 0 s
    else if d.broken then collEnd h seq stMemberTimeout 0 0 s
    else if !(stepsRun s) || !(d.colls.all (fun e => decide (seq ≤ e.1) || e.2.begun)) then s
    else if c.kind = 3 && !(d.active.contains c.root) then collEnd h seq stMemberFenced 0 0 s
    else
      let s := updColl h seq (fun c => { c with begun := true, active := d.active, gen := d.gen }) s
      coreLoss h seq <| addPositions h seq (if c.fixed && !(collIdle c) then bump Reg.GX_RA_FIXED_CNT s else s)
  | _, _ => s

/-- Make the steps ready whose predecessors have ended before this edge (R300). -/
def readySteps (h seq : Nat) (s : State) : State :=
  match mapGet s.hd.herds h, collOf s h seq with
  | some d, some c =>
    if !c.begun || c.abort.isSome || !(stepsRun s) then s
    else
      let due := (List.range (stepCount (herdRegion s d) d c)).filter (fun n => (mapGet c.ready n).isNone && stepDue d c n)
      updColl h seq (fun c => { c with ready := due.foldl (fun m n => mapSet m n s.tick.count.toNat) c.ready }) s
  | _, _ => s

/-- After an abort: SKIP for every piece not begun, and every position opens (R307). -/
def sendSkips (h seq : Nat) (s : State) : State :=
  match mapGet s.hd.herds h, collOf s h seq with
  | some d, some c =>
    let region := herdRegion s d
    let s := { s with hd := { s.hd with pos := s.hd.pos.map (fun e => (e.1, e.2.map (fun p =>
      if p.seq == seq && ((qpOf s e.1).bind (·.herd)) == some h then { p with opened := true } else p))) } }
    let all := ((List.range (stepCount region d c)).map (fun n => (stepTo d c d.rank n).map (fun j => (n, j)))).flatten
    let s := all.foldl (fun s x =>
      match mapGet s.hd.herds h, collOf s h seq with
      | some d, some c =>
        if c.sent.contains x || !(mayPiece region d c x.1 x.2) then s
        else updColl h seq (fun c => { c with sent := c.sent ++ [x] }) (herdSend h seq x.2 1 0 [] s)
      | _, _ => s) s
    updColl h seq (fun c => { c with skipped := all.all (fun x => c.sent.contains x) }) s
  | _, _ => s

/-- Send the vote or ABORT, make the coordinator's decision, and pass a decision on (R307, R308).  `ended` tells
that every step had ended, and `decided` that a decision had arrived, before this edge.  A member whose coordinator is
fenced passes DECIDE_ABORT with FENCED on, since no position stays unused (R305). -/
def sendVerdicts (h seq : Nat) (ended decided : Bool) (s : State) : State :=
  match mapGet s.hd.herds h, collOf s h seq with
  | some d, some c =>
    let region := herdRegion s d
    let heard := (tellTo d c d.rank).all (fun j => c.votes.contains j)
    let good := c.abort.isNone && ended && heard
    let s :=
      match voteTo d c d.rank with
      | some p =>
        if c.voted || !(good || c.abort.isSome) || !(piecesSent region d c p) then s
        else
          updColl h seq (fun c => { c with voted := true, voteAt := s.tick.count.toNat })
            (match c.abort with
             | none => herdSend h seq p 2 0 [] s
             | some (code, _) => herdSend h seq p 3 code [] s)
      | none =>
        if c.decision.isSome || !(good || c.abort.isSome) then s
        else updColl h seq (fun c => { c with decision := some ((c.abort.map Prod.fst).getD 2) }) s
    match collOf s h seq with
    | none => s
    | some c =>
      let mine := (voteTo d c d.rank).isNone
      let lost := c.decision.isNone && !mine && !(d.active.contains (coordinator c))
      match if lost then some 1 else c.decision with
      | none => s
      | some x =>
        if c.told || !(mine || decided || lost) || !((tellTo d c d.rank).all (fun j => piecesSent region d c j)) then s
        else
          let s := (tellTo d c d.rank).foldl (fun s j =>
            if x = 2 then herdSend h seq j 4 0 [] s else herdSend h seq j 5 x [] s) s
          updColl h seq (fun c => { c with told := true }) s
  | _, _ => s

/-- Step 4 of R29 for one collective: alignment loss (R312), the step deadline and the hold. -/
def collDeadlines (h seq : Nat) (s : State) : State :=
  let own := ((mapGet s.hd.herds h).map (·.rank)).getD 0
  let s := if !(stepsRun s) && ((collOf s h seq).map (fun c => c.begun && c.decision.isNone)).getD false then
    collAbort h seq 0 own s else s
  coreLoss h seq (holdOut h seq (stepMiss h seq s))

/-- Step 6 of R29 for one collective. -/
def collDispatch (reads : NMap (BitVec 128)) (h seq : Nat) (s : State) : State :=
  let s := readySteps h seq (collBegin h seq s)
  match mapGet s.hd.herds h, collOf s h seq with
  | some d, some c =>
    if !c.begun || !(instFinishes s d.inst) then s
    else
      let n := stepCount (herdRegion s d) d c
      let ended := (List.range n).all (fun i => c.ended.contains i)
      let s := if c.abort.isSome then s else (List.range n).foldl (fun s i => stepWork h seq reads s i) s
      let s := if ((collOf s h seq).bind (·.abort)).isSome then sendSkips h seq s else s
      sendVerdicts h seq ended c.decision.isSome s
  | _, _ => s

/-- Collectives of every Herd: Herd and SEQ, in order. -/
def allColls (s : State) : List (Nat × Nat) :=
  (s.hd.herds.map (fun h => h.2.colls.map (fun c => (h.1, c.1)))).flatten

/-- The collective engine at step 4 of an edge: membership first (R298), then the deadlines. -/
def herdsDeadlines (s : State) : State :=
  let s := s.hd.herds.foldl (fun s h => memberChange h.1 s) s
  (allColls s).foldl (fun s x => collDeadlines x.1 x.2 s) s

/-- The collective engine at step 6 of an edge. -/
def herdsDispatch (reads : NMap (BitVec 128)) (s : State) : State :=
  (allColls s).foldl (fun s x => collDispatch reads x.1 x.2 s) s

/-! ### What arrives (R304, R306) -/

/-- Write a piece that is written at once, and hold it for the step down. -/
def pieceWrite (h seq n j : Nat) (bs : List Byte) (reads : NMap (BitVec 128)) (s : State) : KOut Unit :=
  match mapGet s.hd.herds h, collOf s h seq with
  | some d, some c =>
    let (lo, _) := pieceUnits (herdRegion s d) d c j d.rank n
    if c.kind = 3 && d.rank == c.root && c.dst == c.src then .ok s ()
    else collWrite d c (dstVa d c lo) bs reads s
  | _, _ => .ok s ()

/-- Apply the data of a PIECE (R301, R302, R333): none where R333 finds a mismatch. -/
def applyPiece (h seq n j : Nat) (bs : List Byte) (reads : NMap (BitVec 128)) (s : State) : Option (KOut Unit) :=
  match mapGet s.hd.herds h, collOf s h seq with
  | some d, some c =>
    let (lo, hi) := pieceUnits (herdRegion s d) d c j d.rank n
    let stage := fun (data : List Byte) =>
      KOut.ok (updColl h seq (fun c => { c with staged := c.staged ++ [(n, j, data)] }) s) ()
    match (stepAt d c n).kind with
    | .s => (unwire c.format false (hi - lo) bs).map (fun us => stage us.flatten)
    | .u =>
      match unwire c.format true ((hi - lo) * unitElems c.format) bs with
      | none => none
      | some us => if us.all (fun u => (unpackPartial c.format (collOp c) u).isSome) then some (stage us.flatten) else none
    | .d => some (kBind (pieceWrite h seq n j bs reads s) (fun s _ =>
        .ok (updColl h seq (fun c => { c with held := c.held ++ [(n, bs)] }) s) ()))
    | _ => some (pieceWrite h seq n j bs reads s)
  | _, _ => some (.ok s ())

/-- Consume the oldest SEND that has arrived on a Herd queue pair, and its position. -/
def takeMsg (qpn : Nat) (m : HerdMsg) (s : State) : State :=
  { s with hd := { s.hd with inbox := s.hd.inbox.filter (fun x => !(x.qpn == qpn && x.ssn == m.ssn))
                             pos := mapModify s.hd.pos qpn (fun l => l.filter (fun p => p.ssn != m.ssn)) } }

/-- R306 on a SEND at its position: 0 it agrees, 1 GEN alone disagrees, 2 something else does. -/
def tailCheck (c : Coll) (p : HerdPos) (m : HerdMsg) : Nat :=
  let msg := fld m.imm 31 28
  let other := msg / 2 != p.kind || decide (5 < msg) || fld m.imm 15 0 != p.seq % 2 ^ 16
    || m.total != (if msg = 0 then p.len else 0) || m.status != 0
  if other then 2 else if fld m.imm 23 16 != c.gen % 256 then 1 else 0

/-- What a SEND that agrees with its position does: VOTE, ABORT, COMMIT, DECIDE_ABORT, SKIP (R305 to R309). -/
def takeWord (h seq j : Nat) (m : HerdMsg) (s : State) : State :=
  match fld m.imm 31 28 with
  | 2 => updColl h seq (fun c => { c with votes := insertNew c.votes j }) s
  | 3 => collAbort h seq (min 1 (fld m.imm 27 24)) j s
  | 4 => updColl h seq (fun c => { c with decision := c.decision.or (some 2) }) s
  | 5 =>
    let code := min 1 (fld m.imm 27 24)
    updColl h seq (fun c => { c with decision := c.decision.or (some code) }) (collAbort h seq code j s)
  | _ => s

/-- Take the oldest SEND on a Herd queue pair if it carries one of the given MSG codes. -/
def herdReceive (msgs : List Nat) (qpn : Nat) (reads : NMap (BitVec 128)) (s : State) : State :=
  match s.hd.inbox.find? (fun m => m.qpn == qpn), (qpOf s qpn).bind (·.herd) with
  | some m, some h =>
    if !(msgs.contains (fld m.imm 31 28)) then s
    else
      match ((mapGet s.hd.pos qpn).getD []).find? (fun p => p.ssn == m.ssn) with
      | none => takeMsg qpn m s
      | some p =>
        match mapGet s.hd.herds h, collOf s h p.seq with
        | some d, some c =>
          let j := qpn - d.qpBase
          let mismatch := fun (s : State) => updColl h p.seq (fun c =>
            { c with failure := c.failure.or (some (stRemoteAccess, 0, 0)) }) (collAbort h p.seq 0 j s)
          match tailCheck c p m with
          | 2 => takeMsg qpn m (mismatch s)
          | 1 => takeMsg qpn m (collAbort h p.seq 1 j s)
          | _ =>
            if fld m.imm 31 28 ≠ 0 then takeWord h p.seq j m (takeMsg qpn m s)
            else if c.abort.isSome then takeMsg qpn m s
            else
              match applyPiece h p.seq p.step j m.bytes reads s with
              | none => takeMsg qpn m (mismatch s)
              | some .wait => s
              | some (.fail s st detail va) => takeMsg qpn m (collFail h p.seq st detail va s)
              | some (.ok s _) =>
                endStep h p.seq p.step reads
                  (updColl h p.seq (fun c => { c with got := c.got ++ [(p.step, j)] }) (takeMsg qpn m s))
        | _, _ => takeMsg qpn m s
  | _, _ => s

/-- HERD_PIECE_RECEIVE (R301): of queue pair `qpn`; a reserved MSG is no piece, and a mismatch. -/
def execHerdPieceReceive (qpn : Nat) (reads : NMap (BitVec 128)) (s : State) : Res :=
  .next (whenOk (working s) (herdReceive [0, 6, 7, 8, 9, 10, 11, 12, 13, 14, 15] qpn reads) s)

/-- HERD_SKIP_RECEIVE (R305). -/
def execHerdSkipReceive (qpn : Nat) (s : State) : Res := .next (whenOk (working s) (herdReceive [1] qpn []) s)

/-- HERD_VOTE_RECEIVE (R308). -/
def execHerdVoteReceive (qpn : Nat) (s : State) : Res := .next (whenOk (working s) (herdReceive [2] qpn []) s)

/-- HERD_ABORT_RECEIVE (R307). -/
def execHerdAbortReceive (qpn : Nat) (s : State) : Res := .next (whenOk (working s) (herdReceive [3] qpn []) s)

/-- HERD_COMMIT_RECEIVE (R309). -/
def execHerdCommitReceive (qpn : Nat) (s : State) : Res := .next (whenOk (working s) (herdReceive [4] qpn []) s)

/-- HERD_DECIDE_ABORT_RECEIVE (R309). -/
def execHerdDecideAbortReceive (qpn : Nat) (s : State) : Res := .next (whenOk (working s) (herdReceive [5] qpn []) s)

/-! ### Entries (R289 to R296, R313) -/

/-- Free staging in KiB (Table 10.8). -/
def stageFree (s : State) : Nat :=
  s.lz.run.sram.2.2.2 * 1024 - (s.hd.herds.map (fun h => h.2.depth * h.2.slotKib)).sum

/-- A Herd takes a slot for its next waiting collective, in SEQ order (R313). -/
def slotAcquire (h : Nat) (s : State) : State :=
  match mapGet s.hd.herds h with
  | none => s
  | some d =>
    let used := (d.colls.filter (fun e => e.2.slotAt.isSome)).length
    match d.colls.find? (fun e => e.2.slotAt.isNone) with
    | some e =>
      if used < d.depth then updColl h e.1 (fun c => { c with slotAt := some s.tick.count.toNat }) s else s
    | none => s

/-- COLLECTIVE_SLOT_ACQUIRE (R313). -/
def execCollectiveSlotAcquire (herd : Nat) (s : State) : Res := .next (whenOk (working s) (slotAcquire herd) s)

/-- SEQ of an accepted entry of a Herd, as a count: the last accepted one or an earlier one. -/
def entrySeq (d : Herd) (e : BitVec 512) : Nat := d.lastSeq - (d.lastSeq % 2 ^ 32 + 2 ^ 32 - ef e 40 4) % 2 ^ 32

/-- A COLLECTIVE entry (Table 5.6). -/
def collFromEntry (ring : Nat) (o : Op) (d : Herd) : Coll :=
  let e := o.entry
  let op := ef e 35 1 % 16
  let dl := ef e 44 2
  { seq := entrySeq d e, ring := ring, slot := o.slot, kind := ef e 34 1, len := entryLength e
    deadline := if dl = 0 then 64 else dl, redop := ef e 35 1, format := ef e 36 1
    fixed := ef e 34 1 ≤ 1 && (ef e 37 1 % 2 == 1 || ef e 36 1 == 5 || op == 4)
    root := ef e 38 2, src := ef e 16 8, dst := ef e 24 8 }

/-- COLLECTIVE (R293, R295, R313): the entry starts; it takes a free slot when no earlier one waits. -/
def collective (ring slot : Nat) (s : State) : State :=
  match mayStartOp s ring slot, ringOf s ring with
  | some o, some g =>
    let h := ef o.entry 32 2
    let earlier := (g.ops.takeWhile (fun x => x.slot != slot)).any (fun x =>
      entryOpcode x.entry == 9 && ef x.entry 32 2 == h && !x.started && x.done.isNone)
    match mapGet s.hd.herds h with
    | none => s
    | some d =>
      if entryOpcode o.entry ≠ 9 || earlier then s
      else
        let c := collFromEntry ring o d
        let s := markStarted ring slot s
        let s := updHerd h (fun d => { d with colls := mapSet d.colls c.seq c }) s
        if d.broken then collEnd h c.seq stMemberTimeout 0 0 s
        else if d.colls.any (fun e => e.2.slotAt.isNone) then s
        else slotAcquire h s
  | _, _ => s

/-- COLLECTIVE (R295). -/
def execCollective (ring slot : Nat) (s : State) : Res := .next (whenOk (working s) (collective ring slot) s)

/-- A member list entry (R290): COORD, PEER_BASE; none with a reserved or PLANE bit set. -/
def memberEntry (w : BitVec 64) : Option (Nat × Nat × Nat) :=
  let x := w.toNat
  if fld x 63 48 ≠ 0 ∨ fld x 31 29 ≠ 0 then none else some (fld x 28 6, fld x 5 0, fld x 47 32)

/-- The member list, from tier memory or as its read returned (R290); none when it cannot be read or is bad. -/
def memberList (s : State) (e : BitVec 512) (list : List (BitVec 64)) (failed : Bool) : Option (List (Nat × Nat × Nat)) :=
  let n := ef e 18 2
  let a := ef e 40 8
  let ws : Option (List (BitVec 64)) :=
    if ef e 38 1 = 5 then
      let (bs, bad) := tierRead s a (8 * n)
      if rangeInInstance s (ef e 26 2 % 512) a (8 * n) && !bad then
        some ((List.range n).map (fun i => BitVec.ofNat 64 (leAt bs (8 * i) 8)))
      else none
    else if failed || !s.pc.hstUp || list.length < n then none else some (list.take n)
  ws.bind (fun ws => ws.foldr (fun w acc => match memberEntry w, acc with
    | some m, some l => some (m :: l)
    | _, _ => none) (some []))

/-- A Herd as HERD_DEFINE gives it (Table 10.1). -/
def herdBody (e : BitVec 512) (members : List (Nat × Nat × Nat)) : Herd :=
  { inst := ef e 26 2 % 512, sq := ef e 24 2 % 2 ^ 15, rank := ef e 20 2, qpBase := ef e 22 2, flock := ef e 28 2
    priv := ef e 30 1 % 2 == 1, udp := ef e 30 1 / 2 % 2 == 1, depth := ef e 31 1, slotKib := ef e 32 4
    hold := if ef e 36 2 = 0 then 512 else ef e 36 2, members := members, active := List.range members.length }

/-- R291 and R39: HERD_DEFINE is refused. -/
def herdRefused (s : State) (h : Nat) (d : Herd) : Bool :=
  let n := d.members.length
  !(stepsRun s) || (mapGet s.hd.herds h).isSome || !(instExists s d.inst) || !(tenantRing s d.sq .sq d.inst)
    || (leafNamed s d.inst d.flock).isNone || (List.range n).any (fun j => (qpOf s (d.qpBase + j)).isSome)
    || !(poolsHold s (n - 1)) || decide (stageFree s < d.depth * d.slotKib) || decide (1024 ≤ s.hd.herds.length)
    || (d.priv && decide (8 ≤ (s.hd.herds.filter (fun x => x.2.priv)).length))
    || (List.range n).any (fun j => (List.range j).any (fun i =>
        (d.members[i]?).map (fun m => (m.1, m.2.1)) == (d.members[j]?).map (fun m => (m.1, m.2.1))))
    || (d.members[d.rank]?).map (fun m => (m.1, m.2.1)) != (instUnit s d.inst).map (fun u => (u.1, u.2.2))

/-- The quotas of Herds and queue pairs let the instance define a Herd of n members (R432). -/
def herdQuota (s : State) (inst n : Nat) : Bool :=
  decide ((s.hd.herds.filter (fun x => x.2.inst == inst)).length < wfld (rgi s Reg.GX_VI_QUOTA_HERDS inst) 10 0)
    && decide (qpCount s inst + (n - 1) ≤ wfld (rgi s Reg.GX_VI_QUOTA_QPS inst) 16 0)

/-- The queue pair toward rank j of a Herd (R292). -/
def herdQp (h : Nat) (d : Herd) (j : Nat) (m : Nat × Nat × Nat) : Qp :=
  { typ := if d.udp then 1 else 0, access := 0, peerNode := m.1, peerUnit := m.2.1, peerQpn := m.2.2 + d.rank
    sq := d.sq, rq := 0, inst := d.inst, rnrLimit := 255, window := 4096, nextMsn := msnBase 0, expected := msnBase 0
    sendSsn := 2 ^ 32, recvSsn := 2 ^ 32, herd := if j = d.rank then none else some h }

/-- HERD_DEFINE (R289 to R292): `list` is what the read of a member list in host memory returned. -/
def herdDefine (slot : Nat) (list : List (BitVec 64)) (failed : Bool) (s : State) : State :=
  match mgmtOp s slot 0x16 with
  | none => s
  | some o =>
    let h := ef o.entry 16 2
    match memberList s o.entry list failed with
    | none => mgmtDone slot stAborted s
    | some ms =>
      let d := herdBody o.entry ms
      if herdRefused s h d then mgmtDone slot stAborted s
      else if !(herdQuota s d.inst ms.length) then quotaRefused slot s
      else
        let d := { d with active := activeRanks s d d.active }
        let qps := ((List.zip (List.range ms.length) ms).filter (fun x => x.1 != d.rank)).foldl
          (fun m x => mapSet m (d.qpBase + x.1) (herdQp h d x.1 x.2)) s.tp.qps
        mgmtDone slot stOk
          { s with hd := { s.hd with herds := mapSet s.hd.herds h d }, tp := { s.tp with qps := qps } }

/-- HERD_DEFINE (R291). -/
def execHerdDefine (slot : Nat) (list : List (BitVec 64)) (failed : Bool) (s : State) : Res :=
  .next (whenOk (working s) (herdDefine slot list failed) s)

/-- Forget a Herd: its queue pairs, its staging, what waits for it (R294). -/
def dropHerd (h : Nat) (s : State) : State :=
  let qpns := (s.tp.qps.filter (fun e => e.2.herd == some h)).map Prod.fst
  let s := qpns.foldl (fun s q => freeQp q s) s
  let s := { s with tp := { s.tp with runs := s.tp.runs.filter (fun e => !(decide (2 ^ 40 ≤ e.1) && qpns.contains e.2.qpn)) } }
  { s with hd := { s.hd with herds := mapErase s.hd.herds h, pos := s.hd.pos.filter (fun e => !(qpns.contains e.1))
                             inbox := s.hd.inbox.filter (fun m => !(qpns.contains m.qpn)) } }

/-- An accepted COLLECTIVE entry of a Herd has no completion written (R294). -/
def herdBusy (s : State) (h : Nat) (d : Herd) : Bool :=
  (ringOf s d.sq).any (fun g => g.ops.any (fun o => entryOpcode o.entry == 9 && ef o.entry 32 2 == h))

/-- HERD_DISSOLVE (R294). -/
def herdDissolve (slot : Nat) (s : State) : State :=
  match mgmtOp s slot 0x17 with
  | none => s
  | some o =>
    let h := ef o.entry 16 2
    match mapGet s.hd.herds h with
    | none => mgmtDone slot stAborted s
    | some d => if herdBusy s h d then mgmtDone slot stAborted s else mgmtDone slot stOk (dropHerd h s)

/-- HERD_DISSOLVE (R294). -/
def execHerdDissolve (slot : Nat) (s : State) : Res := .next (whenOk (working s) (herdDissolve slot) s)

end Sys2Proof.Machine
end

