-- ==== Sys2Proof/Machine/RingStop.lean ====
section
/-! DEFINITION. Stopping the work of rings, and RING_SHUTDOWN (R156, R157). -/

namespace Sys2Proof.Machine

/-- Collectives of rings that pass a test abort, and end with a status; those that have not begun end at once
(R157, R309). -/
def stopColls (p : Nat → Bool) (status : Nat) (s : State) : State :=
  (allColls s).foldl (fun s x =>
    match mapGet s.hd.herds x.1, collOf s x.1 x.2 with
    | some d, some c =>
      if !(p c.ring) || c.stopped.isSome then s
      else
        let s := updColl x.1 x.2 (fun c => { c with stopped := some status }) s
        if c.begun then collAbort x.1 x.2 0 d.rank s else collEnd x.1 x.2 status 0 0 s
    | _, _ => s) s

/-- No further tile of the rings that pass a test starts: their operations end with a status once what was sent
is acknowledged (R157 step 2). -/
def stopWork (p : Nat → Bool) (status : Nat) (s : State) : State :=
  let stop := fun (r : OpRun) => if p r.ring && r.stopped.isNone then { r with stopped := some status } else r
  let halt := fun (k : Kernel) =>
    if p k.ring && k.attn.isNone && k.stopped.isNone then { k with stopped := some status } else k
  let runs := s.tp.runs.map (fun e => (e.1, stop e.2))
  let kernels := s.kn.kernels.map (fun e => (e.1, halt e.2))
  let s := { s with tp := { s.tp with runs := runs }, kn := { s.kn with kernels := kernels } }
  let s := (s.tp.runs.filter (fun e => p e.2.ring)).foldl (fun s e => checkRun e.1 s) s
  stopColls p status s

/-- Operations whose target has been fenced wait for nothing more (R157 step 2). -/
def dropFenced (p : Nat → Bool) (s : State) : State :=
  (s.tp.runs.filter (fun e => p e.2.ring && e.2.stopped.isSome
      && (qpOf s e.2.qpn).any (fun q => (fenceOf s q.peerNode q.peerUnit).any (fun f => f.state == 2)))).foldl
    (fun s e => finishRun e.1 (runCompletion e.2) s) s

/-- Nothing of the rings that pass a test is still under way. -/
def workQuiet (p : Nat → Bool) (s : State) : Bool :=
  s.tp.runs.all (fun e => !(p e.2.ring)) && s.kn.kernels.all (fun e => !(p e.2.ring) || e.2.attn.isSome)
    && s.hd.herds.all (fun h => h.2.colls.all (fun c => !(p c.2.ring)))
    && s.q.rings.all (fun g => !(p g.1) || g.2.ops.all (fun o => o.flush.isEmpty))

/-- The CQ has a slot for every entry that a scan of a ring will complete: `owns` are the OWN bits that reads
of its next slots returned (R157: a full CQ delays the scan). -/
def scanRoom (s : State) (g : Ring) (given : List (BitVec 512)) (owns : List Bool) (failed : Bool) : Bool :=
  match ringOf s g.cq with
  | none => true
  | some c =>
    let n := (scanReads s g given failed).1.length - (if g.reserved then 1 else 0)
    (List.range n).all (fun i => cqOwn s c ((c.resNext + i) % ringSize c) ((owns[i]?).getD false))

/-- Queue pairs forget the RECV entries that they had fetched from a ring. -/
def forgetRecvs (r : Nat) (s : State) : State :=
  { s with tp := { s.tp with qps := s.tp.qps.map (fun e => (e.1, if e.2.rq = r && r != 0 then { e.2 with recvs := [] } else e.2)) } }

/-- RING_SHUTDOWN (R156, R157): `entries` are the slots that software had handed over, `owns` the OWN bits of
the CQ's next slots, as their reads returned; a repetition of the command goes on with a shutdown that waited. -/
def ringShutdown (slot : Nat) (entries : List (BitVec 512)) (owns : List Bool) (failed : Bool) (s : State) : State :=
  match mgmtOp s slot 0x11 with
  | none => s
  | some o =>
    let r := ef o.entry 16 2 % 2 ^ 15
    match ringOf s r with
    | none => mgmtDone slot stAborted s
    | some g =>
      if g.kind = .cq then
        if s.q.rings.any (fun x => x.2.kind != .cq && x.2.cq == r) then mgmtDone slot stAborted s
        else mgmtDone slot stOk (removeRing r s)
      else if g.shutting.isSome && g.shutting != some slot then mgmtDone slot stAborted s
      else
        let s := updRing r (fun g => { g with shutting := some slot }) s
        let s := dropFenced (· == r) (stopWork (· == r) stAborted s)
        if !(workQuiet (· == r) s) || !(mayRelease s r g) || !(scanRoom s g entries owns failed) then s
        else
          let at_ := g.nextFetch % ringSize g
          let (s, bad) := scanRing r stAborted entries failed (forgetRecvs r s)
          if bad then haltInstance g.inst r at_ 9 s
          else mgmtDone slot stOk (removeRing r s)

/-- RING_SHUTDOWN (R157). -/
def execRingShutdown (slot : Nat) (entries : List (BitVec 512)) (owns : List Bool) (failed : Bool) (s : State) : Res :=
  .next (whenOk (working s) (ringShutdown slot entries owns failed) s)

end Sys2Proof.Machine
end

