-- ==== Sys2Proof/Machine/Inst.lean ====
section
/-! DEFINITION. Instances: their existence, mailboxes, reset, freezing and thawing (R430 to R450). -/

namespace Sys2Proof.Machine

/-! ### Existence (R430) -/

/-- An instance exists by R430. -/
def instShould (s : State) (n : Nat) : Bool :=
  n == 0 || (instFlock s.lz.run n).isSome && s.vi.vfEnable && decide (n ≤ s.vi.numVfs)
    && decide (s.vi.numVfs < s.lz.run.insts.length)

/-- Rings, and queue pairs, of an instance. -/
def instRing (s : State) (n r : Nat) : Bool := decide (2 ≤ r) && (ringOf s r).any (fun g => g.inst == n)
def instQps (s : State) (n : Nat) : List Nat := (s.tp.qps.filter (fun e => e.2.inst == n)).map Prod.fst
def instRings (s : State) (n : Nat) : List Nat := (s.q.rings.filter (fun e => decide (2 ≤ e.1) && e.2.inst == n)).map Prod.fst

/-! ### Reset (R440 to R444) -/

/-- A malformed entry that halted the instance completes with MALFORMED and its reason (R154, R441). -/
def endMalformed (n : Nat) (s : State) : State :=
  (instRings s n).foldl (fun s r =>
    match ringOf s r with
    | none => s
    | some g => (g.ops.filter (fun o => o.malformed.isSome && o.done.isNone)).foldl (fun s o =>
        finishOp r o.head { status := stMalformed, detail := o.malformed.getD 0, recv := g.kind == .rq } s) s) s

/-- DRAIN: what has not started completes with ABORTED; a run of which no tile was dispatched has not started (R441). -/
def abortUnstarted (n : Nat) (s : State) : State :=
  let idle := fun (t : Tile) => t.state == .waiting || t.state == .ready
  let runs := (s.tp.runs.filter (fun e => instRing s n e.2.ring && e.2.tiles.all idle)).map Prod.fst
  let s := runs.foldl (fun s k => checkRun k (updRun k (fun r => { r with stopped := some stAborted }) s)) s
  let colls := (allColls s).filter (fun x => (collOf s x.1 x.2).any (fun c => instRing s n c.ring && !c.begun))
  let s := colls.foldl (fun s x => collEnd x.1 x.2 stAborted 0 0 s) s
  (instRings s n).foldl (fun s r =>
    match ringOf s r with
    | none => s
    | some g =>
      if g.kind != .sq then s
      else (g.ops.filter (fun o => !o.started && o.done.isNone && o.slot == o.head)).foldl
        (fun s o => finishOp r o.head { status := stAborted } s) s) s

/-- The work of an instance ends by the mode of its reset (R441). -/
def applyMode (n : Nat) (mode : ResetMode) (s : State) : State :=
  match mode with
  | .drain => abortUnstarted n s
  | .squash => dropFenced (instRing s n) (stopWork (instRing s n) stAborted s)
  | .discard => s

/-- A reset of an instance arrives (R441, Table 16.5): `slots` are the slots of its INSTANCE_RESET entry, none for
an FLR.  A running reset takes it in. -/
def resetBegin (n : Nat) (mode : ResetMode) (wipe : Bool) (slots : List Nat) (s : State) : State :=
  let i := inst s n
  match i.reset with
  | some r =>
    let squash := mode == .squash && r.mode == .drain
    let s := setInst n { i with reset := some ⟨if squash then .squash else r.mode, r.wipe || wipe, r.slots ++ slots⟩ } s
    if squash then applyMode n .squash s else s
  | none =>
    let s := stopMoves n stAborted (dropFreeze n s)
    let s := ((s.tp.runs.filter (fun e => e.2.ring == 0)).map Prod.fst).foldl (fun s k => checkRun k s) s
    let s := endMalformed n s
    let s := (instFlock s.lz.run n).elim s (fun a => startUnits a .reset s)
    let s := enterState n .resetting (setInst n { inst s n with reset := some ⟨mode, wipe, slots⟩ } s)
    applyMode n mode s

/-- INSTANCE of a management body of this chapter (Table 16.4). -/
def bodyInst (e : BitVec 512) : Nat := ef e 16 2 % 512

/-- INSTANCE_RESET of a MODE (R440 to R444). -/
def instanceReset (mode : ResetMode) (code slot : Nat) (s : State) : State :=
  match mgmtOp s slot 0x19 with
  | none => s
  | some o =>
    let n := bodyInst o.entry
    if ef o.entry 18 1 ≠ code || o.started then s
    else
      let st := (inst s n).state
      if st == .disabled || (mode == .discard && st != .frozen) then mgmtDone slot stAborted s
      else resetBegin n mode ((ef o.entry 19 1) % 2 == 1) [slot] (markStarted 0 slot s)

/-- INSTANCE_RESET_DRAIN (R441). -/
def execInstanceResetDrain (slot : Nat) (s : State) : Res := .next (whenOk (working s) (instanceReset .drain 0 slot) s)

/-- INSTANCE_RESET_SQUASH (R441). -/
def execInstanceResetSquash (slot : Nat) (s : State) : Res := .next (whenOk (working s) (instanceReset .squash 1 slot) s)

/-- INSTANCE_RESET_DISCARD (R442). -/
def execInstanceResetDiscard (slot : Nat) (s : State) : Res := .next (whenOk (working s) (instanceReset .discard 2 slot) s)

/-- Step 1 of R443 for one ring: its scan, which a full CQ delays; false while it waits.  A failing read or write ends
the scan of that ring alone (R153). -/
def resetScan (n : Nat) (x : RingScan) (s : State) : State × Bool :=
  match ringOf s x.ring with
  | none => (s, true)
  | some g =>
    if g.inst ≠ n || g.kind == .cq then (s, true)
    else if !(scanRoom s g x.entries x.owns x.failed) then (s, false)
    else ((scanRing x.ring stAborted x.entries x.failed (forgetRecvs x.ring s)).1, true)

/-- Step 1 of R443: `scans` hold the reads of the rings that do not lie in tier memory. -/
def resetScans (n : Nat) (scans : List RingScan) (s : State) : State × Bool :=
  (instRings s n).foldl (fun (acc : State × Bool) r =>
    if !acc.2 then acc
    else resetScan n ((scans.find? (fun x => x.ring == r)).getD { ring := r }) acc.1) (s, true)

/-- Steps 2 to 6 of R443. -/
def resetClear (n : Nat) (wipe : Bool) (s : State) : State :=
  let s := (instRings s n).foldl (fun s r => removeRing r s) s
  let s := (instQps s n).foldl (fun s q => qpError q s) s
  let s := { s with kn := { s.kn with kernels := s.kn.kernels.filter (fun k => k.2.inst != n) } }
  let herds := (s.hd.herds.filter (fun h => h.2.inst == n)).map Prod.fst
  let s := herds.foldl (fun s h => dropHerd h s) s
  let s := dropSpaces n (eraseSlots (fun k => k.inst == n) s)
  if !wipe then s
  else
    let s := (instWindow s n 0 ++ instWindow s n 1).foldl (fun s g => wipeGranule g s) s
    (instFlock s.lz.run n).elim s (fun a => wipeRegions s.lz.run a s)

/-- Step 7 of R443: the instance is READY, or DISABLED where R430 says so. -/
def resetEnd (n : Nat) (slots : List Nat) (s : State) : State :=
  let degraded := (instFlock s.lz.run n).elim false (fun a => unitsDegraded s a .reset)
  let s := (instFlock s.lz.run n).elim s (fun a => endUnits a .reset s)
  let s := raise Reg.GX_VI_EVENTS 3 (setInst n {} s)
  let s := enterState n (if instShould s n then .ready else .disabled) s
  slots.foldl (fun s slot => mgmtDone slot (if degraded then stDegraded else stOk) s) s

/-- INSTANCE_RESET_COMPLETE (R443): nothing of the instance is under way, and every bond member has answered. -/
def resetComplete (n : Nat) (scans : List RingScan) (s : State) : State :=
  match (inst s n).reset with
  | none => s
  | some r =>
    let quiet := r.mode == .discard || workQuiet (instRing s n) s
    let acked := (instFlock s.lz.run n).elim true (fun a => unitsDone s a .reset)
    let s := if r.mode = .squash then dropFenced (instRing s n) s else s
    if !quiet || !acked then s
    else
      let (s, whole) := if r.mode = .discard then (s, true) else resetScans n scans s
      if whole then resetEnd n r.slots (resetClear n r.wipe s) else s

/-- INSTANCE_RESET_COMPLETE (R443). -/
def execInstanceResetComplete (n : Nat) (scans : List RingScan) (s : State) : Res :=
  .next (whenOk (working s && (inst s n).state == .resetting) (resetComplete n scans) s)

/-- An instance page's interrupt registers return to their reset values (R551). -/
def pageReset (n : Nat) (s : State) : State :=
  (putReg (pageKey Reg.GX_INST_INT_STATUS n) 0 (putReg (pageKey Reg.GX_INST_INT_ENABLE n) 0
    (putReg (pageKey Reg.GX_INST_INT_VECTOR n) 0 s)))

/-- A function's MSI-X state returns to its reset value. -/
def msixReset (n : Nat) (s : State) : State :=
  { s with gl := { s.gl with msixTable := s.gl.msixTable.filter (fun e => e.1 / 1024 != n)
                             msixOn := s.gl.msixOn.filter (· != n)
                             msixPending := s.gl.msixPending.filter (fun p => p / 64 != n) } }

/-- FLR_VF (R379, R551): of virtual function n. -/
def execFlrVf (n : Nat) (s : State) : Res :=
  .next (whenOk (working s && n != 0 && (inst s n).state != .disabled)
    (fun s => resetBegin n .squash false [] (msixReset n (pageReset n s))) s)

/-- VF_ENABLE_CHANGE (R430): VF Enable and NumVFs as the host now sets them. -/
def vfChange (enable : Bool) (numVfs : Nat) (s : State) : State :=
  let s := { s with vi := { s.vi with vfEnable := enable, numVfs := numVfs } }
  ((s.lz.run.insts.map Prod.fst).filter (· != 0)).foldl (fun s n =>
    let st := (inst s n).state
    if instShould s n then (if st == .disabled then enterState n .ready s else s)
    else if st == .disabled then s else resetBegin n .squash false [] s) s

/-- VF_ENABLE_CHANGE (R430). -/
def execVfEnableChange (enable : Bool) (numVfs : Nat) (s : State) : Res :=
  .next (whenOk (working s) (vfChange enable numVfs) s)

/-! ### Freezing and thawing (R445 to R450) -/

/-- INSTANCE_FREEZE with ACTION FREEZE (R445). -/
def instanceFreeze (slot : Nat) (s : State) : State :=
  match mgmtOp s slot 0x1A with
  | none => s
  | some o =>
    let n := bodyInst o.entry
    let i := inst s n
    let at_ := ef o.entry 24 8
    if ef o.entry 18 1 ≠ 0 || o.started then s
    else if i.state != .ready || instBonded s n || i.freeze.isSome || (at_ != 0 && decide (at_ ≤ s.tick.count.toNat)) then
      mgmtDone slot stAborted s
    else
      let edge := if at_ = 0 then s.tick.count + 1 else BitVec.ofNat 64 at_
      setInst n { i with freeze := some (slot, edge) } (markStarted 0 slot s)

/-- INSTANCE_FREEZE (R445). -/
def execInstanceFreeze (slot : Nat) (s : State) : Res := .next (whenOk (working s) (instanceFreeze slot) s)

/-- FREEZE_ACTIVATE (R445, R446) of an instance whose activation edge has come. -/
def freezeActivate (n : Nat) (s : State) : State :=
  let i := inst s n
  match i.freeze with
  | some (_, edge) =>
    if i.state == .ready && decide (edge ≤ s.tick.count) && drbgReady s then
      let (r, s) := drawDrbg s
      enterState n .freezing (setInst n { i with freezeEdge := edge, migrationId := r.setWidth 64 } s)
    else s
  | none => s

/-- FREEZE_ACTIVATE (R445). -/
def execFreezeActivate (n : Nat) (s : State) : Res := .next (whenOk (working s) (freezeActivate n) s)

/-- Every accepted entry of the instance has its completion written, and every message record of its queue pairs is
complete or freed (R447). -/
def frozenDue (s : State) (n : Nat) : Bool :=
  let qps := instQps s n
  (instRings s n).all (fun r => (ringOf s r).all (fun g => g.ops.isEmpty))
    && s.tp.recs.all (fun e => !(qps.contains e.2.qpn)) && s.tp.msgs.all (fun e => !(qps.contains e.2.qpn))
    && s.tp.resps.all (fun e => !(qps.contains e.2.qpn) || e.2.ready && e.2.resend.isEmpty && decide (e.2.cells ≤ e.2.next))

/-- FREEZE_COMPLETE (R447). -/
def freezeComplete (n : Nat) (s : State) : State :=
  let i := inst s n
  match i.freeze with
  | some (slot, _) =>
    if i.state == .freezing && frozenDue s n then
      let qps := instQps s n
      let s := { s with tp := { s.tp with resps := s.tp.resps.filter (fun e => !(qps.contains e.2.qpn)) } }
      mgmtDone slot stOk (enterState n .frozen (setInst n { i with freeze := none } s))
    else s
  | none => s

/-- FREEZE_COMPLETE (R447). -/
def execFreezeComplete (n : Nat) (s : State) : Res := .next (whenOk (working s) (freezeComplete n) s)

/-- INSTANCE_FREEZE with ACTION THAW (R450, Table 16.5). -/
def instanceThaw (slot : Nat) (s : State) : State :=
  match mgmtOp s slot 0x1A with
  | none => s
  | some o =>
    let n := bodyInst o.entry
    let i := inst s n
    if ef o.entry 18 1 ≠ 1 || o.started then s
    else if i.state != .frozen || i.thaw.isSome || !((instOps s n 0x1B ++ instOps s n 0x1C).isEmpty) then
      mgmtDone slot stAborted s
    else setInst n { i with thaw := some (slot, s.tick.count) } (markStarted 0 slot s)

/-- INSTANCE_THAW (R450). -/
def execInstanceThaw (slot : Nat) (s : State) : Res := .next (whenOk (working s) (instanceThaw slot) s)

/-- THAW_ACTIVATE (R450): at an edge after the command was accepted. -/
def thawActivate (n : Nat) (s : State) : State :=
  let i := inst s n
  match i.thaw with
  | some (slot, since) =>
    if i.state == .frozen && decide (since < s.tick.count) then
      let rings := s.q.rings.map (fun e => (e.1, if e.2.inst = n ∧ 2 ≤ e.1 then
        { e.2 with interval := e.2.pollInt, polled := true } else e.2))
      let s := { s with q := { s.q with rings := rings } }
      mgmtDone slot stOk (enterState n .ready (setInst n { i with thaw := none, restored := false } s))
    else s
  | none => s

/-- THAW_ACTIVATE (R450). -/
def execThawActivate (n : Nat) (s : State) : Res := .next (whenOk (working s) (thawActivate n) s)

/-! ### Mailboxes (R434 to R437) -/

/-- The mailbox of an instance works: in every state but DISABLED (R437). -/
def mailbox (s : State) (n : Nat) : Bool := running s && (inst s n).state != .disabled

/-- An event of the instance block for the driver of the physical function; instance 0's manager is the firmware (R436). -/
def viEvent (n bit : Nat) (s : State) : State := if n = 0 then s else raise Reg.GX_VI_EVENTS bit s

/-- MBX_OUT_POST (R434): by instance n, in its page. -/
def execMbxOutPost (n : Nat) (s : State) : Res :=
  .next (whenOk (mailbox s n && !(inst s n).outFull)
    (fun s => viEvent n 0 (setInst n { inst s n with outFull := true } s)) s)

/-- MBX_OUT_TAKEN (R434): by the manager of instance n. -/
def execMbxOutTaken (n : Nat) (s : State) : Res :=
  .next (whenOk (mailbox s n && (inst s n).outFull)
    (fun s => raisePage n 1 (setInst n { inst s n with outFull := false } s)) s)

/-- MBX_IN_POST (R434): by the manager of instance n. -/
def execMbxInPost (n : Nat) (s : State) : Res :=
  .next (whenOk (mailbox s n && !(inst s n).inFull)
    (fun s => raisePage n 0 (setInst n { inst s n with inFull := true } s)) s)

/-- MBX_IN_DONE (R434): by instance n, in its page. -/
def execMbxInDone (n : Nat) (s : State) : Res :=
  .next (whenOk (mailbox s n && (inst s n).inFull)
    (fun s => viEvent n 1 (setInst n { inst s n with inFull := false } s)) s)

/-- MBX_BUFFER_WRITE (R434, R435): a word at a byte offset of instance n's outbound buffer, by the instance, or of its
inbound buffer, by its manager; ignored while the buffer's FULL bit is 1. -/
def execMbxBufferWrite (n : Nat) (inbound : Bool) (off : Nat) (v : Word) (s : State) : Res :=
  let i := inst s n
  .next (whenOk (mailbox s n && decide (off < 2048) && off % 4 == 0 && !(if inbound then i.inFull else i.outFull))
    (setInst n (if inbound then { i with mboxIn := mapPut 0 i.mboxIn off v } else { i with mboxOut := mapPut 0 i.mboxOut off v })) s)

end Sys2Proof.Machine
end

