-- ==== Sys2Proof/Machine/Migrate.lean ====
section
/-! DEFINITION. Migration: INSTANCE_SAVE and INSTANCE_RESTORE (R451 to R457).

Tables 16.6 and 16.7 leave the places of some fields of the INSTANCE and SLOT records open: assumption 17. -/

namespace Sys2Proof.Machine

/-! ### Records (Tables 16.6 and 16.7) -/

/-- A part header (Table 16.6). -/
def partHeader (s : State) (n part first count body : Nat) : List Byte :=
  let i := inst s n
  [0x47, 0x58, 0x4D, 0x50] ++ leBytes 2 1 ++ leBytes 1 part ++ [0] ++ leBytes 8 i.migrationId.toNat
    ++ leBytes 4 (rg s Reg.GX_ID).toNat ++ leBytes 2 n ++ leBytes 2 0 ++ leBytes 4 first ++ leBytes 4 count
    ++ leBytes 8 i.freezeEdge.toNat ++ leBytes 8 body ++ List.replicate 16 0

/-- An INSTANCE record: quotas, granule counts, CLASS and WEIGHT. -/
def instRecord (s : State) (n : Nat) : List Byte :=
  let cfg := rgi s Reg.GX_CS_INST_CFG n
  leBytes 8 0 ++ leBytes 4 (rgi s Reg.GX_VI_QUOTA_RINGS n).toNat ++ leBytes 4 (rgi s Reg.GX_VI_QUOTA_QPS n).toNat
    ++ leBytes 4 (rgi s Reg.GX_VI_QUOTA_HERDS n).toNat ++ leBytes 4 (rgi s Reg.GX_VI_QUOTA_SLOTS n).toNat
    ++ leBytes 4 (instWindow s n 0).length ++ leBytes 4 (instWindow s n 1).length
    ++ leBytes 1 (wfld cfg 31 29) ++ leBytes 1 (wfld cfg 23 16) ++ List.replicate 30 0

/-- A RING record: the RING_REGISTER body as registered, and the positions. -/
def ringRecord (n r : Nat) (g : Ring) : List Byte :=
  let kind := match g.kind with
    | .sq => 0
    | .cq => 1
    | .rq => 2
  leBytes 8 1 ++ leBytes 8 g.base.toNat ++ leBytes 2 r ++ leBytes 1 kind ++ leBytes 1 g.loc ++ leBytes 1 g.log2 ++ [0]
    ++ leBytes 2 n ++ leBytes 2 g.cq ++ leBytes 2 g.pollInt ++ leBytes 2 g.maxInt ++ leBytes 4 g.space ++ List.replicate 22 0
    ++ leBytes 2 (g.nextFetch % ringSize g)
    ++ leBytes 2 ((if g.kind = .cq then g.wrNext else g.nextDone) % ringSize g) ++ leBytes 4 0

/-- A QP record: the QP_CREATE body as it now stands, with MSN fields 0. -/
def qpRecord (n qpn : Nat) (q : Qp) : List Byte :=
  leBytes 8 2 ++ leBytes 2 qpn ++ leBytes 6 0 ++ [0] ++ leBytes 1 q.typ ++ leBytes 1 q.access ++ [0]
    ++ leBytes 4 (q.peerNode * 64 + q.peerUnit) ++ leBytes 2 q.peerQpn ++ leBytes 2 q.sq ++ leBytes 2 q.rq ++ leBytes 2 n
    ++ leBytes 8 0 ++ leBytes 1 q.rto ++ leBytes 1 q.retry ++ leBytes 1 q.rnrDelay ++ leBytes 1 q.rnrLimit
    ++ leBytes 2 q.window ++ leBytes 2 0 ++ leBytes 16 q.ah.toNat

/-- A SLOT record. -/
def slotRecord (i : Nat) (k : KeySlot) : List Byte :=
  leBytes 8 3 ++ leBytes 2 i ++ leBytes 1 k.mode ++ leBytes 1 (if k.aes256 then 1 else 0) ++ leBytes 1 k.binding ++ [0]
    ++ leBytes 2 k.qpn ++ leBytes 4 k.salt.toNat ++ leBytes 4 0 ++ leBytes 8 k.used ++ leBytes 8 k.limit
    ++ leBytes 8 k.invocation ++ leBytes 16 0 ++ leBytes 32 k.key.toNat ++ List.replicate 32 0

/-- The body of a STATE part (R452). -/
def stateBody (s : State) (n : Nat) : List Byte :=
  let rings := s.q.rings.filter (fun e => decide (2 ≤ e.1) && e.2.inst == n)
  let qps := s.tp.qps.filter (fun e => e.2.inst == n && e.2.herd.isNone)
  let slots := s.ce.slots.filter (fun e => e.2.inst == n && e.2.state != 0)
  instRecord s n ++ (rings.map (fun e => ringRecord n e.1 e.2)).flatten ++ (qps.map (fun e => qpRecord n e.1 e.2)).flatten
    ++ (slots.map (fun e => slotRecord e.1 e.2)).flatten

/-- The body of a memory part: granules of the window, and whether an uncorrectable byte was met. -/
def memBody (s : State) (n part first count : Nat) : List Byte × Bool :=
  (((instWindow s n (part - 1)).drop first).take count).foldl (fun (acc : List Byte × Bool) g =>
    let (bs, bad) := tierRead s (granuleStart g) granuleBytes
    (acc.1 ++ bs, acc.2 || bad)) ([], false)

/-- A STATE body as RESTORE reads it: the INSTANCE record, RING, QP and SLOT records. -/
structure StateBody where
  head : List Byte
  rings : List (List Byte)
  qps : List (List Byte)
  slots : List (List Byte)
  deriving DecidableEq, Repr

/-- Cut the records after the INSTANCE record; none when they are not as Table 16.7 orders them. -/
def cutRecords (fuel : Nat) (bs : List Byte) (b : StateBody) : Option StateBody :=
  match fuel with
  | 0 => none
  | k + 1 =>
    if bs.isEmpty then some b
    else if bs.length < 64 then none
    else
      match leAt bs 0 1 with
      | 1 => if b.qps.isEmpty && b.slots.isEmpty then cutRecords k (bs.drop 64) { b with rings := b.rings ++ [bs.take 64] } else none
      | 2 => if b.slots.isEmpty then cutRecords k (bs.drop 64) { b with qps := b.qps ++ [bs.take 64] } else none
      | 3 => if bs.length < 128 then none else cutRecords k (bs.drop 128) { b with slots := b.slots ++ [bs.take 128] }
      | _ => none

/-- Read a STATE body. -/
def readBody (bs : List Byte) : Option StateBody :=
  if bs.length < 64 || leAt bs 0 1 != 0 then none
  else cutRecords (bs.length / 64 + 1) (bs.drop 64) ⟨bs.take 64, [], [], []⟩

/-! ### Saving (R451 to R453) -/

/-- A slot of instance 0 that is ACTIVE in GCM with a tier binding. -/
def tierGcm (s : State) (sa binding : Nat) : Bool :=
  let k := keySlot s (sa - 1)
  sa != 0 && k.state == 1 && k.inst == 0 && k.binding == binding && k.mode == 4

/-- R453: SAVE is refused. -/
def saveRefused (s : State) (e : BitVec 512) (n part len : Nat) : Bool :=
  let window := (instWindow s n (part - 1)).length
  let remote := ef e 19 1 % 2 == 1
  (inst s n).state != .frozen || part != 0 && decide (window < ef e 24 4 + ef e 28 4) || decide (ef e 48 8 < len)
    || !(tierGcm s (ef e 20 2) 2)
    || remote && !((qpOf s (ef e 22 2)).any (fun q => q.inst == 0 && q.typ == 0 && q.state == .ready))

/-- A management operation of this chapter ends. -/
def moveEnd (slot : Nat) (c : Completion) (s : State) : State :=
  let (s, ports) := awaitFlush (.run (opKey 0 slot)) s
  let s := finishOp 0 slot c (dropGot (opKey 0 slot) s)
  if ports.isEmpty then s else updChain 0 slot (fun o => { o with flush := ports }) s

/-- Pages of instance 0's range on this node (R451, R454). -/
def movePages (space va n : Nat) (need : Need) (reads : NMap (BitVec 128)) (s : State) : KOut (List PageMap) :=
  let (s, r) := xlateRange (pageFuel va n) space 0 va (va + n) need .here reads s
  match r with
  | .error (cause, v) => .fail (recordFault cause 0 space v s) stXlateFault cause v
  | .ok (pages, us) => .ok (releaseUses us s) pages

/-- Pages of the blob that a SAVE writes here (R451). -/
def moveTarget (slot space va n : Nat) (reads : NMap (BitVec 128)) (s : State) : KOut (List PageMap) :=
  let (s, r) := xlateRange (pageFuel va n) space 0 va (va + n) { write := true } .here reads s
  match r with
  | .error (cause, v) => .fail (recordFault cause 0 space v s) stXlateFault cause v
  | .ok (pages, us) => .ok (settleUses (.run (opKey 0 slot)) pages us s) pages

/-- Seal a part and write its blob here, or send it on a queue pair (R451). -/
def saveBlob (slot : Nat) (e : BitVec 512) (plain : List Byte) (bad : Bool) (reads : NMap (BitVec 128)) (s : State) : State :=
  let n := ef e 20 2 - 1
  let space := ef e 32 4 % 2 ^ 20
  let va := ef e 40 8
  let doSeal := fun (s : State) =>
    let (s, ok) := charge n (sealBlocks (keySlot s n) plain.length) s
    let blob := sealBlob (keySlot s n) 0 plain
    let s := if ok then setKeySlot n { keySlot s n with invocation := (keySlot s n).invocation + 1 }
        (cryptCount plain.length (muleMove false false true plain s)) else s
    (s, ok, blob)
  if chargeWaits s n then s
  else if ef e 19 1 % 2 = 1 then
    let (s, ok, blob) := doSeal s
    if !ok then moveEnd slot { status := stKeyExhausted } s
    else
      let qpn := ef e 22 2
      let fine := if qpMode s qpn 0 == some 4 then some 0 else none
      let tiles := cutTransfer (cutFuel blob.length) 0 va blob.length true fine
      let r : OpRun := { kind := .write, ring := 0, slot := slot, qpn := qpn, inst := 0, space := space, tiles := tiles
                         data := some blob, force := if bad then stMemUncorrectable else 0 }
      progressRun (opKey 0 slot) { s with tp := { s.tp with runs := mapSet s.tp.runs (opKey 0 slot) r } }
  else
    match moveTarget slot space va (plain.length + 32) reads s with
    | .wait => s
    | .fail s st d v => moveEnd slot { status := st, detail := d, aux := v } s
    | .ok s pages =>
      if rangeStalls s pages va (plain.length + 32) then s
      else
        let (s, ok, blob) := doSeal s
        if !ok then moveEnd slot { status := stKeyExhausted } s
        else
          let (s, st) := writeRange (.run (opKey 0 slot)) pages va blob (muleMove true false true blob s)
          let st := if st = 0 && bad then stMemUncorrectable else st
          moveEnd slot { status := st, bytes := if st = 0 then blob.length else 0 } s

/-- INSTANCE_SAVE of a part (R451 to R453): `reads` are the table entries outside this adapter's tiers.  A repetition
goes on with a SAVE that waited. -/
def instanceSave (memory : Bool) (slot : Nat) (reads : NMap (BitVec 128)) (s : State) : State :=
  match mgmtOp s slot 0x1B with
  | none => s
  | some o =>
    let e := o.entry
    let n := bodyInst e
    let part := ef e 18 1
    let count := ef e 28 4
    if (part != 0) != memory || (runOf s (opKey 0 slot)).isSome then s
    else
      let body := if memory then count * granuleBytes else (stateBody s n).length
      if saveRefused s e n part (96 + body) then mgmtDone slot stAborted s
      else if memory && count == 0 then mgmtDone slot stOk s
      else
        let (bs, bad) := if memory then memBody s n part (ef e 24 4) count else (stateBody s n, false)
        let plain := partHeader s n part (if memory then ef e 24 4 else 0) (if memory then count else 0) bs.length ++ bs
        saveBlob slot e plain bad reads (markStarted 0 slot s)

/-- INSTANCE_SAVE_STATE (R452). -/
def execInstanceSaveState (slot : Nat) (reads : NMap (BitVec 128)) (s : State) : Res :=
  .next (whenOk (working s) (instanceSave false slot reads) s)

/-- INSTANCE_SAVE_MEMORY (R451). -/
def execInstanceSaveMemory (slot : Nat) (reads : NMap (BitVec 128)) (s : State) : Res :=
  .next (whenOk (working s) (instanceSave true slot reads) s)

/-! ### Restoring (R454 to R457) -/

/-- A relocation table entry (R454): TYPE, LOC, OLD, NEW, BASE. -/
structure Reloc where
  typ : Nat
  loc : Nat
  old : Nat
  new : Nat
  base : Nat
  deriving DecidableEq, Repr

/-- Read a relocation entry. -/
def readReloc (w : BitVec 128) : Reloc :=
  let x := w.toNat
  ⟨fld x 7 0, fld x 15 8, fld x 31 16, fld x 47 32, fld x 127 64⟩

/-- The new number of an object. -/
def relocated (rs : List Reloc) (typ old : Nat) : Nat :=
  ((rs.find? (fun r => r.typ == typ && r.old == old)).map (·.new)).getD old

/-- Two entries of a type share a NEW, or an entry names no object of the blob. -/
def relocsBad (b : StateBody) (rs : List Reloc) : Bool :=
  let has := fun (r : Reloc) => match r.typ with
    | 0 => b.rings.any (fun x => leAt x 16 2 == r.old)
    | 1 => b.qps.any (fun x => leAt x 8 2 == r.old)
    | 2 => b.slots.any (fun x => leAt x 8 2 == r.old)
    | _ => false
  !(rs.all has) || !((rs.map (fun r => (r.typ, r.new))).Nodup)

/-- A ring of the blob as the target gets it: its number and record (R454, R456). -/
def ringOfRecord (n : Nat) (rs : List Reloc) (x : List Byte) : Nat × Ring :=
  let entry := BitVec.ofNat 512 (leNat (List.replicate 16 0 ++ slice x 8 48))
  let (old, g) := ringFromEntry 0 entry
  let size := ringSize g
  let g := match rs.find? (fun r => r.typ == 0 && r.old == old) with
    | some r => { g with loc := r.loc, base := BitVec.ofNat 64 r.base }
    | none => g
  let done := leAt x 58 2 % size
  (relocated rs 0 old,
   { g with inst := n, regBy := none, cq := if g.kind = .cq then 0 else relocated rs 0 g.cq, nextFetch := leAt x 56 2 % size
            nextDone := if g.kind = .cq then 0 else done, resNext := if g.kind = .cq then done else 0
            wrNext := if g.kind = .cq then done else 0 })

/-- A queue pair of the blob as the target gets it. -/
def qpOfRecord (n : Nat) (rs : List Reloc) (x : List Byte) : Nat × Qp :=
  let q := qpBody (BitVec.ofNat 512 (leNat x))
  (relocated rs 1 (leAt x 8 2),
   { q with inst := n, sq := relocated rs 0 q.sq, rq := if q.rq = 0 then 0 else relocated rs 0 q.rq, state := .movedWait })

/-- A key slot of the blob as the target gets it: tier slots ACTIVE, queue-pair slots SPENT. -/
def slotOfRecord (n : Nat) (rs : List Reloc) (x : List Byte) : Nat × KeySlot :=
  let binding := leAt x 12 1
  (relocated rs 2 (leAt x 8 2),
   { state := if binding ≤ 1 then 3 else 1, inst := n, binding := binding
     qpn := if binding ≤ 1 then relocated rs 1 (leAt x 14 2) else 0
     mode := leAt x 10 1, aes256 := leAt x 11 1 == 1, key := BitVec.ofNat 256 (leAt x 64 32)
     salt := BitVec.ofNat 32 (leAt x 16 4), used := leAt x 24 8, limit := leAt x 32 8, invocation := leAt x 40 8 })

/-- A relocated TIER ring fails R132, or a ring's number is not a tenant ring's. -/
def ringBad (s : State) (n : Nat) (x : Nat × Ring) : Bool :=
  x.1 < 2 || decide (32768 ≤ x.1) || (ringOf s x.1).isSome
    || (x.2.loc == 5 && !(rangeInInstance s n x.2.base.toNat (ringSize x.2 * (if x.2.kind = .cq then 32 else 64))
        && decide (x.2.base.toNat < tier2End)))

/-- R455 on the target alone. -/
def targetBad (s : State) (n : Nat) : Bool :=
  (inst s n).state != .ready || !((instRings s n).isEmpty) || !((instQps s n).isEmpty)
    || s.hd.herds.any (fun h => h.2.inst == n) || s.ce.slots.any (fun k => k.2.inst == n && k.2.state != 0)
    || instBonded s n

/-- R455 on the part header and its body. -/
def headBad (s : State) (part : Nat) (plain : List Byte) : Bool :=
  plain.take 4 != [0x47, 0x58, 0x4D, 0x50] || leAt plain 4 2 != 1 || leAt plain 6 1 != part
    || leAt plain 40 8 + 64 != plain.length || leAt plain 16 4 / 256 != (rg s Reg.GX_ID).toNat / 256

/-- The target's quotas or granule counts are smaller than the blob's (R455). -/
def quotasBad (s : State) (n : Nat) (h : List Byte) : Bool :=
  decide ((rgi s Reg.GX_VI_QUOTA_RINGS n).toNat < leAt h 8 4) || decide ((rgi s Reg.GX_VI_QUOTA_QPS n).toNat < leAt h 12 4)
    || decide ((rgi s Reg.GX_VI_QUOTA_HERDS n).toNat < leAt h 16 4) || decide ((rgi s Reg.GX_VI_QUOTA_SLOTS n).toNat < leAt h 20 4)
    || decide ((instWindow s n 0).length < leAt h 24 4) || decide ((instWindow s n 1).length < leAt h 28 4)

/-- A register with a shadow takes a value in both. -/
def putBoth (key : Nat) (v : Word) (s : State) : State := putShadow key v (putReg key v s)

/-- What a STATE RESTORE that passes every check does (R456). -/
def restoreState (n : Nat) (b : StateBody) (rs : List Reloc) (migration : Nat) (s : State) : State :=
  let h := b.head
  let s := (b.rings.map (ringOfRecord n rs)).foldl (fun s x => { s with q := { s.q with rings := mapSet s.q.rings x.1 x.2 } }) s
  let s := (b.qps.map (qpOfRecord n rs)).foldl (fun s x => { s with tp := { s.tp with qps := mapSet s.tp.qps x.1 x.2 } }) s
  let s := (b.slots.map (slotOfRecord n rs)).foldl (fun s x => setKeySlot x.1 x.2 s) s
  let s := putReg (regKey Reg.GX_VI_QUOTA_RINGS n) (BitVec.ofNat 32 (leAt h 8 4))
    (putReg (regKey Reg.GX_VI_QUOTA_QPS n) (BitVec.ofNat 32 (leAt h 12 4))
    (putReg (regKey Reg.GX_VI_QUOTA_HERDS n) (BitVec.ofNat 32 (leAt h 16 4))
    (putReg (regKey Reg.GX_VI_QUOTA_SLOTS n) (BitVec.ofNat 32 (leAt h 20 4)) s)))
  let s := putBoth (regKey Reg.GX_CS_INST_CFG n) (BitVec.ofNat 32 (leAt h 32 1 * 2 ^ 29 + leAt h 33 1 * 2 ^ 16)) s
  let s := (instFlock s.lz.run n).elim s (fun a => wipeRegions s.lz.run a s)
  enterState n .frozen (setInst n { inst s n with restored := true, migrationId := BitVec.ofNat 64 migration } s)

/-- R455 on the objects of a STATE body: it does not fit the target. -/
def bodyRefused (s : State) (n : Nat) (b : StateBody) (rs : List Reloc) : Bool :=
  let rings := b.rings.map (ringOfRecord n rs)
  let qps := b.qps.map (qpOfRecord n rs)
  let slots := b.slots.map (slotOfRecord n rs)
  relocsBad b rs || quotasBad s n b.head || rings.any (ringBad s n) || !((rings.map Prod.fst).Nodup)
    || qps.any (fun x => (qpOf s x.1).isSome) || !((qps.map Prod.fst).Nodup) || !(poolsHold s qps.length)
    || slots.any (fun x => (keySlot s x.1).state != 0 || decide (8192 ≤ x.1)) || !((slots.map Prod.fst).Nodup)

/-- The objects of a STATE body exceed the target's quotas (R432). -/
def bodyOverQuota (s : State) (n : Nat) (b : StateBody) : Bool :=
  decide ((rgi s Reg.GX_VI_QUOTA_RINGS n).toNat < b.rings.length)
    || decide ((rgi s Reg.GX_VI_QUOTA_QPS n).toNat < b.qps.length)
    || decide ((rgi s Reg.GX_VI_QUOTA_SLOTS n).toNat < b.slots.length)

/-- A STATE part that opened well (R455, R456). -/
def restoreStatePart (slot n : Nat) (plain : List Byte) (table : List (BitVec 128)) (failed : Bool) (s : State) : State :=
  match readBody (plain.drop 64) with
  | none => moveEnd slot { status := stAborted } s
  | some b =>
    let rs := table.map readReloc
    if !(table.isEmpty) && (failed || !s.pc.hstUp) then moveEnd slot { status := stAborted } s
    else if table.any (fun w => fld w.toNat 63 48 != 0) then mgmtMalformed slot 2 s
    else if bodyRefused s n b rs then moveEnd slot { status := stAborted } s
    else if bodyOverQuota s n b then quotaRefused slot s
    else moveEnd slot { status := stOk, bytes := plain.length } (restoreState n b rs (leAt plain 8 8) s)

/-- Write the granules of a memory part into the target's window (R457). -/
def restoreMemory (n part first : Nat) (body : List Byte) (s : State) : State :=
  let gs := ((instWindow s n (part - 1)).drop first).take (body.length / granuleBytes)
  gs.zipIdx.foldl (fun s x => (tierPut (granuleStart x.1) (slice body (x.2 * granuleBytes) granuleBytes) s).1) s

/-- A memory part that was opened, its tag good or not (R457). -/
def restoreMemoryPart (slot n part : Nat) (plain : List Byte) (good : Bool) (s : State) : State :=
  let first := leAt plain 24 4
  let count := leAt plain 28 4
  if leAt plain 8 8 != (inst s n).migrationId.toNat || leAt plain 40 8 != count * granuleBytes
      || decide ((instWindow s n (part - 1)).length < first + count) then moveEnd slot { status := stAborted } s
  else
    let s := restoreMemory n part first (plain.drop 64) (muleMove true false true (plain.drop 64) s)
    moveEnd slot { status := if good then stOk else stAuthFail, bytes := if good then plain.length else 0 } s

/-- The granules of a memory part's window stall a write. -/
def windowStalls (s : State) (n part : Nat) : Bool := (instWindow s n (part - 1)).any (fun g => memStalls s (granuleStart g))

/-- INSTANCE_RESTORE of a part (R454 to R457): `reads` are table entries, `table` is the relocation table as it was
read from host memory, and `failed` tells that it could not be read. -/
def instanceRestore (memory : Bool) (slot : Nat) (reads : NMap (BitVec 128)) (table : List (BitVec 128)) (failed : Bool)
    (s : State) : State :=
  match mgmtOp s slot 0x1C with
  | none => s
  | some o =>
    let e := o.entry
    let n := bodyInst e
    let part := ef e 18 1
    let sa := ef e 20 2
    let va := ef e 40 8
    let len := ef e 48 8
    let i := inst s n
    if (part != 0) != memory then s
    else if len = 0 then mgmtDone slot stOk s
    else if (if memory then i.state != .frozen || !i.restored
        else targetBad s n || (instOps s n 0x1C).any (fun x => x != slot && (opAt s 0 x).any (fun y => ef y.entry 18 1 == 0))) then
      mgmtDone slot stAborted s
    else if saSpent s sa then mgmtDone slot stKeyExhausted s
    else if !(tierGcm s sa 3) || len < 96 then mgmtDone slot stAborted s
    else
      let s := markStarted 0 slot s
      if chargeWaits s (sa - 1) || memory && windowStalls s n part then s
      else
        match movePages (ef e 32 4 % 2 ^ 20) va len { read := true } reads s with
        | .wait => s
        | .fail s st d v => moveEnd slot { status := st, detail := d, aux := v } s
        | .ok s pages =>
          match readRange s (opKey 0 slot) pages va len with
          | .wait => s
          | .refused st => moveEnd slot { status := st } s
          | .got blob bad =>
            let (s, ok) := charge (sa - 1) (sealBlocks (keySlot s (sa - 1)) (openLen 4 len)) s
            if !ok then moveEnd slot { status := stKeyExhausted } s
            else
              let s := cryptCount (openLen 4 len) (muleMove false false true blob s)
              let (plain, _, good) := openBlob (keySlot s (sa - 1)) blob
              let s := if good then s else raise Reg.GX_CE_EVENTS 0 (bump Reg.GX_CE_AUTH_FAIL_CNT s)
              if bad then moveEnd slot { status := stMemUncorrectable } s
              else if !good && !memory then moveEnd slot { status := stAuthFail } s
              else if headBad s part plain then moveEnd slot { status := stAborted } s
              else if memory then restoreMemoryPart slot n part plain good s
              else restoreStatePart slot n plain (table.take (ef e 36 2)) failed s

/-- INSTANCE_RESTORE_STATE (R456). -/
def execInstanceRestoreState (slot : Nat) (reads : NMap (BitVec 128)) (table : List (BitVec 128)) (failed : Bool)
    (s : State) : Res :=
  .next (whenOk (working s) (instanceRestore false slot reads table failed) s)

/-- INSTANCE_RESTORE_MEMORY (R457). -/
def execInstanceRestoreMemory (slot : Nat) (reads : NMap (BitVec 128)) (s : State) : Res :=
  .next (whenOk (working s) (instanceRestore true slot reads [] false) s)

end Sys2Proof.Machine
end

