-- ==== Sys2Proof/Machine/Frame.lean ====
section
/-! DEFINITION. Ethernet frames byte by byte: tags, IP and UDP headers, check sequences (R230, R238, R254, and the
standards that these rules name). -/

namespace Sys2Proof.Machine

/-! ### Bytes in network order -/

/-- A big-endian field. -/
def beAt (bs : List Byte) (off n : Nat) : Nat := beNat (slice bs off n)

/-! ### Check sequences -/

/-- One byte of the IEEE 802.3 CRC-32, reflected. -/
def crcEthByte (c : Word) (b : Byte) : Word :=
  let p := crcBit 0xEDB88320
  p (p (p (p (p (p (p (p (c ^^^ b.setWidth 32))))))))

/-- The IEEE 802.3 CRC-32 of bytes. -/
def crc32 (bs : List Byte) : Word := ~~~(bs.foldl crcEthByte 0xFFFFFFFF)

/-- The FCS bytes of a frame, and a frame with its FCS. -/
def fcsOf (bs : List Byte) : List Byte := leBytes 4 (crc32 bs).toNat
def withFcs (bs : List Byte) : List Byte := bs ++ fcsOf bs

/-- A frame's FCS is good. -/
def fcsGood (frame : List Byte) : Bool :=
  let n := frame.length - 4
  frame.drop n == fcsOf (frame.take n)

/-- Sum of 16-bit words in ones' complement, folded. -/
def onesSum (bs : List Byte) : Nat :=
  let words := (List.range ((bs.length + 1) / 2)).map (fun i =>
    ((bs[2 * i]?).getD 0).toNat * 256 + ((bs[2 * i + 1]?).getD 0).toNat)
  let t := words.sum
  let t := t % 65536 + t / 65536
  let t := t % 65536 + t / 65536
  t % 65536 + t / 65536

/-- The Internet checksum of bytes. -/
def inetSum (bs : List Byte) : Nat := 65535 - onesSum bs

/-! ### Ethernet and IP -/

/-- An Ethernet header: addresses as 48-bit numbers, the tags' TCI outermost first, the EtherType, the rest. -/
structure EthHead where
  dst : Nat
  src : Nat
  tags : List Nat
  etype : Nat
  body : List Byte
  deriving DecidableEq, Repr

/-- Read up to two tags (R230). -/
def readTags (fuel : Nat) (bs : List Byte) : List Nat × Nat × List Byte :=
  let et := beAt bs 0 2
  match fuel with
  | 0 => ([], et, bs.drop 2)
  | k + 1 =>
    if et = 0x8100 ∨ et = 0x88A8 then
      let (ts, e, r) := readTags k (bs.drop 4)
      (beAt bs 2 2 :: ts, e, r)
    else ([], et, bs.drop 2)

/-- Read the header of a frame without FCS. -/
def readEth (bs : List Byte) : EthHead :=
  let (tags, et, body) := readTags 2 (bs.drop 12)
  ⟨beAt bs 0 6, beAt bs 6 6, tags, et, body⟩

/-- Priority of a frame: the PCP of its outer tag, 0 untagged (R239). -/
def framePri (h : EthHead) : Nat := ((h.tags.head?).getD 0) / 2 ^ 13

/-- An IP packet that R238 lets through, with its UDP header. -/
structure UdpPkt where
  v6 : Bool
  /-- The IP header's bytes. -/
  ip : List Byte
  /-- Addresses as 128-bit numbers; an IPv4 address as ::FFFF:a.b.c.d. -/
  src : Nat
  dst : Nat
  ecn : Nat
  sport : Nat
  dport : Nat
  ulen : Nat
  usum : Nat
  /-- The UDP payload. -/
  data : List Byte
  deriving DecidableEq, Repr

/-- What a frame holds for R238: UDP over IP, other contents, or headers cut short. -/
inductive NetPkt where
  | udp (p : UdpPkt)
  | other
  | malformed
  deriving DecidableEq, Repr

/-- Read the UDP header behind an IP header. -/
def readUdp (v6 : Bool) (ip : List Byte) (src dst ecn : Nat) (rest : List Byte) : NetPkt :=
  let n := beAt rest 4 2
  if rest.length < 8 ∨ n < 8 ∨ rest.length < n then .malformed
  else .udp ⟨v6, ip, src, dst, ecn, beAt rest 0 2, beAt rest 2 2, n, beAt rest 6 2, (rest.take n).drop 8⟩

/-- An IPv4 address as ::FFFF:a.b.c.d (Table 8.7). -/
def mapped4 (a : Nat) : Nat := 0xFFFF * 2 ^ 32 + a

/-- Read the packet of a frame (R238). -/
def readNet (h : EthHead) : NetPkt :=
  let b := h.body
  if h.etype = 0x0800 then
    let total := beAt b 2 2
    if b.length < 20 then .malformed
    else if beAt b 0 1 ≠ 0x45 ∨ onesSum (b.take 20) ≠ 65535 ∨ beAt b 6 2 % 2 ^ 14 ≠ 0 then .other
    else if total < 20 ∨ b.length < total then .malformed
    else if beAt b 9 1 ≠ 17 then .other
    else readUdp false (b.take 20) (mapped4 (beAt b 12 4)) (mapped4 (beAt b 16 4)) (beAt b 1 1 % 4) ((b.take total).drop 20)
  else if h.etype = 0x86DD then
    let n := beAt b 4 2
    if b.length < 40 then .malformed
    else if beAt b 0 1 / 16 ≠ 6 ∨ beAt b 6 1 ≠ 17 then .other
    else if b.length < 40 + n then .malformed
    else readUdp true (b.take 40) (beAt b 8 16) (beAt b 24 16) (beAt b 0 2 / 16 % 4) ((b.take (40 + n)).drop 40)
  else .other

/-- The IPv6 pseudo-header of a UDP datagram. -/
def pseudo6 (src dst n : Nat) : List Byte := beBytes 16 src ++ beBytes 16 dst ++ beBytes 4 n ++ [0, 0, 0, 17]

/-- The UDP checksum is zero or correct (R254). -/
def udpSumOk (p : UdpPkt) : Bool :=
  let seg := beBytes 2 p.sport ++ beBytes 2 p.dport ++ beBytes 2 p.ulen ++ beBytes 2 p.usum ++ p.data
  let ps := if p.v6 then pseudo6 p.src p.dst p.ulen
    else beBytes 4 (p.src % 2 ^ 32) ++ beBytes 4 (p.dst % 2 ^ 32) ++ [0, 17] ++ beBytes 2 p.ulen
  p.usum == 0 || onesSum (ps ++ seg) == 65535

/-- Set the ECN field of an IP frame to CE when it is ECT(0) or ECT(1), with the IPv4 checksum (R279). -/
def markCe (bs : List Byte) : List Byte :=
  let h := readEth bs
  let at_ := bs.length - h.body.length
  let b := h.body
  let put := fun (x : List Byte) => bs.take at_ ++ x
  if h.etype = 0x0800 then
    let tos := beAt b 1 1
    if tos % 4 = 1 ∨ tos % 4 = 2 then
      let hd := b.take 1 ++ beBytes 1 (tos / 4 * 4 + 3) ++ (b.take 10).drop 2 ++ [0, 0] ++ (b.take 20).drop 12
      put (hd.take 10 ++ beBytes 2 (inetSum hd) ++ hd.drop 12 ++ b.drop 20)
    else bs
  else if h.etype = 0x86DD then
    let w := beAt b 0 2
    if w / 16 % 4 = 1 ∨ w / 16 % 4 = 2 then put (beBytes 2 (w / 64 * 64 + 48 + w % 16) ++ b.drop 2) else bs
  else bs

/-! ### Remote table entries (Table 8.7) -/

/-- Fields of a remote table entry. -/
def remIp (r : BitVec 256) : Nat := beNat (leBytes 16 r.toNat)
def remMac (r : BitVec 256) : Nat := beNat (leBytes 6 (r.toNat / 2 ^ 128))
def remVid (r : BitVec 256) : Nat := fld r.toNat 187 176
def remPcp (r : BitVec 256) : Nat := fld r.toNat 190 188
def remTagged (r : BitVec 256) : Bool := fld r.toNat 191 191 == 1
def remDscp (r : BitVec 256) : Nat := fld r.toNat 197 192
def remHops (r : BitVec 256) : Nat := let h := fld r.toNat 207 200; if h = 0 then 64 else h
def rem4 (r : BitVec 256) : Bool := remIp r / 2 ^ 32 == 0xFFFF

/-- Bytes of the headers before the UDP payload of a frame to a remote entry. -/
def headBytes (r : BitVec 256) (tagged : Bool) : Nat := 14 + (if tagged then 4 else 0) + (if rem4 r then 20 else 40) + 8

/-- The IP header of a frame to a remote entry, with ECN ECT(0) (R273): n bytes follow it. -/
def ipHead (r : BitVec 256) (own4 own6 n : Nat) : List Byte :=
  let tos := remDscp r * 4 + 2
  if rem4 r then
    let hd := fun (ck : Nat) => beBytes 2 (0x4500 + tos) ++ beBytes 2 (20 + n) ++ [0, 0] ++ beBytes 2 0x4000
      ++ beBytes 1 (remHops r) ++ [17] ++ beBytes 2 ck ++ beBytes 4 own4 ++ beBytes 4 (remIp r % 2 ^ 32)
    hd (inetSum (hd 0))
  else beBytes 4 (6 * 2 ^ 28 + tos * 2 ^ 20) ++ beBytes 2 n ++ [17] ++ beBytes 1 (remHops r)
    ++ beBytes 16 own6 ++ beBytes 16 (remIp r)

/-- The Ethernet header: with a tag of VID and PCP, or none. -/
def ethHead (dst src : Nat) (tag : Option Nat) (etype : Nat) : List Byte :=
  beBytes 6 dst ++ beBytes 6 src ++ (match tag with
    | some t => beBytes 2 0x8100 ++ beBytes 2 t
    | none => []) ++ beBytes 2 etype

/-- Pad a frame to 60 bytes before its FCS (R230). -/
def padFrame (bs : List Byte) : List Byte := bs ++ List.replicate (60 - bs.length) 0

end Sys2Proof.Machine
end

