-- ==== Sys2Proof/Machine/Eth.lean ====
section
/-! DEFINITION. The Ethernet ports: links, counters, the receive path with its checks, filter, meters and
classification, flow control and the Gander (R227 to R245, R252, R258 to R262, R278, R279). -/

namespace Sys2Proof.Machine

/-! ### Ports and counters (R258, R259) -/

/-- An Ethernet port's record. -/
def ethPort (s : State) (p : Nat) : EthPort := (mapGet s.eth.ports p).getD {}

/-- Change it, making it if need be. -/
def modEth (p : Nat) (f : EthPort → EthPort) (s : State) : State :=
  { s with eth := { s.eth with ports := mapSet s.eth.ports p (f (ethPort s p)) } }

/-- Count n in counter i of a port; a change of bit 47 sets the half-range bit (R259). -/
def ethCount (p i n : Nat) (s : State) : State :=
  let old := (mapGet (ethPort s p).counters i).getD 0
  let new := (old + n) % 2 ^ 48
  let s := modEth p (fun e => { e with counters := mapPut 0 e.counters i new }) s
  if old / 2 ^ 47 = new / 2 ^ 47 then s
  else raise Reg.GX_ETH_EVENTS 0 (modEth p (fun e => { e with half := e.half ||| (1#64 <<< i) }) s)

/-- Counter of a destination address: unicast, group or broadcast, from a base (Table 8.9). -/
def castCounter (base dst : Nat) : Nat :=
  if dst = 2 ^ 48 - 1 then base + 2 else if dst / 2 ^ 40 % 2 = 1 then base + 1 else base

/-- MTU of a port (R47). -/
def portMtu (s : State) (p : Nat) : Nat := ((portCfg s p).map (·.mtu)).getD 1518

/-- The widest standard width that the port's healthy lanes carry (R228). -/
def ethLanes (s : State) (p : Nat) : Nat :=
  let ok := lanesPerPort s.lz.run.widthMode - (ethPort s p).fencedLanes.length
  if 8 ≤ ok then 8 else if 4 ≤ ok then 4 else if 2 ≤ ok then 2 else ok

/-- A port's rate in MB/s by its lanes (R227, R228). -/
def portRate (s : State) (p : Nat) : Nat := 25000 * ethLanes s p

/-- Own addresses of a port (Table 8.10). -/
def portMac (s : State) (p : Nat) : Nat :=
  wfld (rgi s Reg.GX_ETH_MAC_HI p) 15 0 * 2 ^ 32 + (rgi s Reg.GX_ETH_MAC_LO p).toNat
def portIp4 (s : State) (p : Nat) : Nat := (rgi s Reg.GX_ETH_IPV4 p).toNat
def portIp6 (s : State) (p : Nat) : Nat :=
  (List.range 4).foldl (fun a k => a * 2 ^ 32 + (rgi s (Reg.GX_ETH_IPV6 + 4 * k) p).toNat) 0

/-- A packet's destination is the port's own address of its family (R238). -/
def ownIp (s : State) (p : Nat) (u : UdpPkt) : Bool :=
  if u.v6 then portIp6 s p != 0 && u.dst == portIp6 s p else portIp4 s p != 0 && u.dst == mapped4 (portIp4 s p)

/-- Put a frame on the wire of a port: padding, FCS, counters and the transmit stream (R230, R258). -/
def ethOut (p : Nat) (bs : List Byte) (s : State) : State :=
  let bs := withFcs (padFrame bs)
  let s := ethCount p 21 1 (ethCount p 20 bs.length s)
  let s := ethCount p (castCounter 22 (beAt bs 0 6)) 1 s
  emit (.frame p bs) (stream cvPortTx p false true bs s)

/-! ### Flow control (R239 to R242) -/

/-- MODE of a port. -/
def fcMode (s : State) (p : Nat) : Nat := wfld (rgi s Reg.GX_ETH_FC_CTRL p) 1 0

/-- The flow-controlled class of a priority: priority 0 stands for the whole port in PAUSE mode. -/
def flowPri (s : State) (p pri : Nat) : Option Nat :=
  match fcMode s p with
  | 1 => some 0
  | 2 => if (rgi s Reg.GX_ETH_FC_CTRL p).getLsbD (8 + pri) then some pri else none
  | _ => none

/-- Flow-controlled classes of a port. -/
def flowClasses (s : State) (p : Nat) : List Nat := (List.range 8).filter (fun k => flowPri s p k == some k)

/-- The limit class of a priority: a class in a Gander trip is lossy (R244). -/
def limitClass (s : State) (p pri : Nat) : Option Nat :=
  (flowPri s p pri).filter (fun k => !((ethPort s p).rxStorm.contains k))

/-- Bytes of the blocks that frames of a port hold, by a test on their priority (R234). -/
def rxUse (s : State) (p : Nat) (t : Nat → Bool) : Nat :=
  (((ethPort s p).rx.filter (fun f => t f.pri)).map (·.blocks)).sum * 256

/-- XOFF, XON and HEADROOM of a class in bytes, and RX_LIMIT. -/
def xoffBytes (s : State) (p k : Nat) : Nat := wfld (rgi s Reg.GX_ETH_PRI_XOFF (idx2 p k)) 15 0 * 1024
def xonBytes (s : State) (p k : Nat) : Nat := wfld (rgi s Reg.GX_ETH_PRI_XOFF (idx2 p k)) 31 16 * 1024
def headroomBytes (s : State) (p k : Nat) : Nat := wfld (rgi s Reg.GX_ETH_PRI_HEADROOM (idx2 p k)) 15 0 * 1024
def rxLimitBytes (s : State) (p : Nat) : Nat := wfld (rgi s Reg.GX_ETH_RX_LIMIT p) 15 0 * 1024

/-- A frame of a priority with so many bytes finds room (R234). -/
def rxRoom (s : State) (p pri n : Nat) : Bool :=
  let c := limitClass s p pri
  let limit := match c with
    | some k => xoffBytes s p k + headroomBytes s p k
    | none => rxLimitBytes s p
  decide (rxUse s p (fun x => limitClass s p x == c) + n ≤ limit) && packetRoom s n

/-- Send a PAUSE or PFC frame for a class (R241). -/
def sendPause (p k quanta : Nat) (s : State) : State :=
  let pfc := fcMode s p == 2
  let body := if pfc then beBytes 2 0x0101 ++ beBytes 2 (2 ^ k)
      ++ ((List.range 8).map (fun i => beBytes 2 (if i = k then quanta else 0))).flatten
    else beBytes 2 0x0001 ++ beBytes 2 quanta
  let s := ethOut p (ethHead 0x0180C2000001 (portMac s p) none 0x8808 ++ body) s
  let s := ethCount p (if pfc then 26 else 25) 1 s
  if quanta = 0 then s else ethCount p (40 + k) 1 s

/-- Send XOFF or XON as the use of each class asks, on a link that is up (R241), and note its use for the Gander
(R244). -/
def flowCheck (p : Nat) (s : State) : State :=
  (flowClasses s p).foldl (fun s k =>
    let use := rxUse s p (fun x => flowPri s p x == some k)
    let e := ethPort s p
    let s := if xonBytes s p k < use then modEth p (fun e => { e with lowTk := mapErase e.lowTk k }) s else s
    if e.rxStorm.contains k || !e.link then s
    else if xoffBytes s p k < use && !(e.pausedTx.contains k) then
      sendPause p k 65535 (modEth p (fun e => { e with pausedTx := insertNew e.pausedTx k }) s)
    else if use ≤ xonBytes s p k && e.pausedTx.contains k then
      sendPause p k 0 (modEth p (fun e => { e with pausedTx := e.pausedTx.filter (· != k)
                                                   heldTk := mapErase e.heldTk k }) s)
    else s) s

/-- XOFF_REPEAT (R241): 32,768 quanta after the last XOFF of a class that is still paused. -/
def execXoffRepeat (port pri : Nat) (s : State) : Res :=
  .next (whenOk (running s && isEthPort s port && (ethPort s port).link && (ethPort s port).pausedTx.contains pri)
    (sendPause port pri 65535) s)

/-- The peer pauses a class. -/
def txPaused (s : State) (p pri : Nat) : Bool :=
  match flowPri s p pri with
  | some k => (ethPort s p).pausedRx.contains k
  | none => false

/-- Stop or resume a class for the peer (R240): a pause ends at once with quanta 0. -/
def takeQuanta (p k q : Nat) (s : State) : State :=
  if q = 0 then
    modEth p (fun e => { e with pausedRx := e.pausedRx.filter (· != k), stuckTk := mapErase e.stuckTk k }) s
  else
    modEth p (fun e => { e with pausedRx := insertNew e.pausedRx k, pauseSeen := insertNew e.pauseSeen k
                                quietTk := mapErase e.quietTk k }) s

/-- Count an XOFF for each priority that a frame gives nonzero quanta (Table 8.9). -/
def countXoff (p : Nat) (quanta : List (Nat × Nat)) (s : State) : State :=
  quanta.foldl (fun s e => if e.2 = 0 then s else ethCount p (32 + e.1) 1 s) s

/-- Take a PAUSE or PFC frame (R240): of a class that the port's MODE controls. -/
def takePause (p : Nat) (h : EthHead) (s : State) : State :=
  if beAt h.body 0 2 = 0x0001 then
    let s := countXoff p [(0, beAt h.body 2 2)] (ethCount p 5 1 s)
    if fcMode s p = 1 then takeQuanta p 0 (beAt h.body 2 2) s else s
  else
    let named := beAt h.body 2 2
    let quanta := ((List.range 8).filter (fun k => named / 2 ^ k % 2 == 1)).map (fun k => (k, beAt h.body (4 + 2 * k) 2))
    let s := countXoff p quanta (ethCount p 6 1 s)
    if fcMode s p = 2 then
      (flowClasses s p).foldl (fun s k =>
        if named / 2 ^ k % 2 = 1 then takeQuanta p k (beAt h.body (4 + 2 * k) 2) s else s) s
    else s

/-- PAUSE_EXPIRY (R240): the paused time of a class has run out. -/
def execPauseExpiry (port pri : Nat) (s : State) : Res :=
  .next (whenOk (running s && isEthPort s port && (ethPort s port).pausedRx.contains pri) (takeQuanta port pri 0) s)

/-! ### The destination filter (R236, R237) -/

/-- The hash index of a group address. -/
def groupHash (dst : Nat) : Nat := (fld dst 47 36 ^^^ fld dst 35 24) ^^^ (fld dst 23 12 ^^^ fld dst 11 0)

/-- The MAC accepts a destination address. -/
def macAccepts (s : State) (p dst : Nat) : Bool :=
  let c := rgi s Reg.GX_ETH_RX_CTRL p
  let i := groupHash dst
  c.getLsbD 0 || dst == portMac s p || (dst == 2 ^ 48 - 1 && c.getLsbD 1)
    || (dst != 2 ^ 48 - 1 && dst / 2 ^ 40 % 2 == 1 && c.getLsbD 2
        && (rgi s Reg.GX_ETH_GHASH_DATA (idx2 p (i / 32))).getLsbD (i % 32))

/-! ### Meters (R278, R279) -/

/-- A meter matches a port and priority: 1 by its priority, 2 by ALL_PRI, 0 not. -/
def meterMatch (s : State) (p pri m : Nat) : Nat :=
  let c := rgi s Reg.GX_CS_METER_CFG m
  if !(c.getLsbD 31) || wfld c 20 16 != p then 0
  else if c.getLsbD 8 then 2 else if wfld c 2 0 = pri then 1 else 0

/-- The meter that a frame meets. -/
def meterOf (s : State) (p pri : Nat) : Option Nat :=
  ((List.range 64).find? (fun m => meterMatch s p pri m == 1)).or ((List.range 64).find? (fun m => meterMatch s p pri m == 2))

/-- TC and TP of a meter in eighths of a byte. -/
def meterTokens (s : State) (m : Nat) : Int × Int :=
  (mapGet s.cs.meters m).getD
    ((8 * (rgi s Reg.GX_CS_METER_CBS m).toNat : Nat), (8 * (rgi s Reg.GX_CS_METER_PBS m).toNat : Nat))

/-- Meter a frame of n bytes: true when it is marked, none when it is discarded. -/
def meterFrame (p pri n : Nat) (s : State) : State × Option Bool :=
  match meterOf s p pri with
  | none => (s, some false)
  | some m =>
    let (tc, tp) := meterTokens s m
    let b := 8 * ((n : Int) + portOverhead s p)
    let put := fun (x : Int × Int) (s : State) => { s with cs := { s.cs with meters := mapSet s.cs.meters m x } }
    if tp < b then (bump (regKey Reg.GX_CS_METER_RED_CNT m) s, none)
    else if tc < b then
      let s := bump (regKey Reg.GX_CS_METER_YELLOW_CNT m) (put (tc, tp - b) s)
      match wfld (rgi s Reg.GX_CS_METER_CFG m) 30 29 with
      | 0 => (s, some false)
      | 1 => (s, some true)
      | _ => (s, none)
    else (bump (regKey Reg.GX_CS_METER_GREEN_CNT m) (put (tc - b, tp - b) s), some false)

/-! ### Delivery into RECV buffers (R251, R252) -/

/-- The RECV entry that the next message of a queue pair fills: one fetched already, or one fetched now. -/
def takeRecv (qpn : Nat) (x : RecvReads) (s : State) : State × Option RecvEntry :=
  let free := fun (s : State) => (qpOf s qpn).bind (fun q => q.recvs.find? (fun e => e.total.isNone))
  match free s with
  | some e => (s, some e)
  | none =>
    match qpOf s qpn with
    | none => (s, none)
    | some q =>
      if q.rq = 0 ∨ 64 ≤ q.recvs.length then (s, none)
      else
        let s := (fetchRecvs 2 qpn (q.recvSsn + q.recvs.length) x s).1
        (s, free s)

/-- Write bytes into the RECV entry of an SSN at an offset; what falls beyond the buffer is dropped, and a
translation fault is kept for the completion. -/
def recvWrite (qpn ssn off : Nat) (bs : List Byte) (tables : NMap (BitVec 128)) (s : State) : State :=
  match qpOf s qpn with
  | none => s
  | some q =>
    match q.recvs.find? (fun e => e.ssn == ssn) with
    | none => s
    | some e =>
      let bs := bs.take (e.len - off)
      if bs.isEmpty || e.fault.isSome then s
      else
        let va := e.buf + off
        let (s, r) := xlateRange (pageFuel va bs.length) e.space q.inst va (va + bs.length) { write := true } .here tables s
        match r with
        | .error (cause, v) =>
          updRecv qpn ssn (fun e => { e with fault := some (cause, v, 0) }) (recordFault cause q.inst e.space v s)
        | .ok (pages, us) =>
          let (s, st) := writeRange (.rx qpn 0) pages va bs (muleMove true false (off == 0) bs
            (settleUses (.rx qpn 0) pages us s))
          updRecv qpn ssn (fun e => { e with bytes := e.bytes + bs.length, status := if e.status = 0 then st else e.status }) s

/-- End the RECV entry of an SSN: its length, IMM, AUX and the PSN that must have passed. -/
def recvEnd (qpn ssn total imm aux last : Nat) (s : State) : State :=
  (awaitFlush (.rx qpn 0) (updRecv qpn ssn (fun e => { e with
    total := some total, imm := imm, aux := some aux, lastMsn := last
    status := if e.status = 0 && decide (e.len < total) then stRemoteAccess else e.status }) s)).1

/-- Deliver a whole packet into the next RECV entry; false when there is none. -/
def deliver (qpn : Nat) (bs : List Byte) (imm aux : Nat) (x : RecvReads) (s : State) : State × Bool :=
  let (s, r) := takeRecv qpn x s
  match r with
  | none => (s, false)
  | some e => (recvEnd qpn e.ssn bs.length imm aux 0 (recvWrite qpn e.ssn 0 bs x.tables s), true)

/-! ### The receive path (R232 to R238) -/

/-- The rows of Table 8.3, and a frame with malformed headers. -/
inductive RxClass where
  | flow | ptp | roce | cell | raw | bad
  deriving DecidableEq, Repr

/-- R255: the encapsulation header and the slot area of a cell frame; none when the frame is discarded. -/
def slotArea (u : UdpPkt) : Option (List Byte) :=
  let n := beAt u.data 2 2
  if u.data.length < 8 ∨ beAt u.data 0 1 ≠ 1 ∨ beAt u.data 1 1 ≠ 0 ∨ beAt u.data 4 4 ≠ 0 ∨ u.ulen ≠ 16 + n
      ∨ !(udpSumOk u) then none
  else some (slice u.data 8 n)

/-- Cut a slot area into slots: a train head takes its cells with it; none when it does not end on a slot
boundary. -/
def cutSlots (fuel : Nat) (bs : List Byte) : Option (List (List Byte × List (List Byte))) :=
  match fuel with
  | 0 => some []
  | k + 1 =>
    if bs.isEmpty then some []
    else if bs.length < 80 then none
    else
      let head := bs.take 80
      let n := if beAt head 0 1 / 64 = 1 then fld (leAt head 16 1) 5 0 + 1 else 0
      let area := slice bs 80 (68 * n)
      if area.length < 68 * n then none
      else (cutSlots k (bs.drop (80 + 68 * n))).map (fun t => (head, chunks area.length 68 area) :: t)

/-- Classify a frame (Table 8.3). -/
def classifyFrame (s : State) (p : Nat) (h : EthHead) : RxClass :=
  let op := beAt h.body 0 2
  if h.etype = 0x8808 ∧ (op = 0x0001 ∨ op = 0x0101) then .flow
  else if h.etype = 0x88F7 then .ptp
  else
    match readNet h with
    | .malformed => .bad
    | .other => .raw
    | .udp u =>
      if u.dport = 319 ∨ u.dport = 320 then .ptp
      else if u.dport = 4791 then
        if u.data.length < 16 then .bad
        else if beAt u.data 5 3 = 1 ∨ !(ownIp s p u) then .raw
        else .roce
      else if u.dport = wfld (rg s Reg.GX_ETH_CELL_UDP) 15 0 ∧ ((portCfg s p).any (·.udpCells)) = true ∧ ownIp s p u = true then
        match slotArea u with
        | none => .bad
        | some a => if (cutSlots a.length a).isSome then .cell else .bad
      else .raw

/-- The bytes that a RoCEv2 ICRC covers: an LRH of ones, the IP and UDP headers with their variant fields as
ones, the BTH with its reserved byte as ones, and the payload. -/
def icrcBytes (u : UdpPkt) (data : List Byte) : List Byte :=
  let ip := if u.v6 then beBytes 4 (beAt u.ip 0 4 / 2 ^ 28 * 2 ^ 28 + (2 ^ 28 - 1)) ++ slice u.ip 4 3 ++ [0xFF] ++ u.ip.drop 8
    else u.ip.take 1 ++ [0xFF] ++ slice u.ip 2 6 ++ [0xFF] ++ slice u.ip 9 1 ++ [0xFF, 0xFF] ++ u.ip.drop 12
  let udp := beBytes 2 u.sport ++ beBytes 2 u.dport ++ beBytes 2 u.ulen ++ [0xFF, 0xFF]
  List.replicate 8 0xFF ++ ip ++ udp ++ data.take 4 ++ [0xFF] ++ data.drop 5

/-- The ICRC of a RoCEv2 packet is good: its last four bytes, least significant first. -/
def icrcGood (u : UdpPkt) : Bool :=
  let n := u.data.length - 4
  u.data.drop n == leBytes 4 (crc32 (icrcBytes u (u.data.take n))).toNat

/-- Count a frame that passed every check: its bytes, through the FCS, pass on the port's stream (Table 14.1). -/
def rxOk (p dst : Nat) (frame : List Byte) (s : State) : State :=
  ethCount p (castCounter 2 dst) 1 (ethCount p 1 1 (ethCount p 0 frame.length (stream cvPortRx p false true frame s)))

/-- Hold a frame for its consumer, in blocks of 256 bytes. -/
def holdFrame (p : Nat) (f : RxFrame) (s : State) : State := flowCheck p (modEth p (fun e => { e with rx := e.rx ++ [f] }) s)

/-- Take the oldest frame of a port if it belongs to a consumer: its blocks are free. -/
def takeFrame (p : Nat) (c : Consumer) (s : State) : Option (RxFrame × State) :=
  match (ethPort s p).rx with
  | f :: rest => if f.consumer = c then some (f, flowCheck p (modEth p (fun e => { e with rx := rest }) s)) else none
  | [] => none

/-- Give a metered frame to the raw queue pair or the cell receiver. -/
def giveFrame (p : Nat) (cls : RxClass) (pri n : Nat) (bs : List Byte) (x : RecvReads) (s : State) : State :=
  let (s, colour) := meterFrame p pri n s
  match colour with
  | none => s
  | some mark =>
    let bs := if mark then markCe bs else bs
    if cls = .cell then
      ethCount p 17 1 (holdFrame p ⟨.cell, pri, (n + 255) / 256, bs⟩ s)
    else
      match (ethPort s p).rawQp with
      | some q => (deliver q bs 0 0 x s).1
      | none => s

/-- The raw queue pair can take a frame now: it exists, is READY and has a RECV entry (R252). -/
def rawReady (p : Nat) (x : RecvReads) (s : State) : State × Bool :=
  match (ethPort s p).rawQp with
  | none => (s, false)
  | some q =>
    if (qpOf s q).all (fun c => c.state != .ready) then (s, false)
    else
      let (s, r) := takeRecv q x s
      (s, r.isSome)

/-- ETH_FRAME_RECEIVE (R232): a frame with its FCS, and how many codewords of it were corrected and
uncorrectable. -/
def ethReceive (p : Nat) (frame : List Byte) (corrected uncorrectable : Nat) (x : RecvReads) (s : State) : State :=
  let n := frame.length
  let s := ethCount p 31 uncorrectable (ethCount p 30 corrected s)
  let mtu := portMtu s p
  let bs := frame.take (n - 4)
  let h := readEth bs
  let pri := framePri h
  let blocks := (n + 255) / 256
  if uncorrectable ≠ 0 then ethCount p 7 1 s
  else if n < 64 then ethCount p 8 1 s
  else if mtu < n then ethCount p (if fcsGood frame then 9 else 10) 1 s
  else if !(fcsGood frame) then ethCount p 11 1 s
  else if !(rxRoom s p pri (blocks * 256)) then raise Reg.GX_ETH_EVENTS 4 (ethCount p 12 1 s)
  else if !(macAccepts s p h.dst) then ethCount p 13 1 s
  else
    match classifyFrame s p h with
    | .bad => ethCount p 14 1 s
    | .flow => takePause p h (rxOk p h.dst frame s)
    | .ptp => holdFrame p ⟨.ptp, pri, blocks, bs⟩ (rxOk p h.dst frame s)
    | .cell => giveFrame p .cell pri n bs x (rxOk p h.dst frame s)
    | .raw =>
      let (s, ok) := rawReady p x s
      if ok then giveFrame p .raw pri n bs x (rxOk p h.dst frame s) else ethCount p 14 1 s
    | .roce =>
      match readNet h with
      | .udp u => if icrcGood u then holdFrame p ⟨.roce, pri, blocks, bs⟩ s else ethCount p 15 1 s
      | _ => ethCount p 14 1 s

/-- A port that receives frames. -/
def ethUp (s : State) (p : Nat) : Bool := running s && isEthPort s p && (ethPort s p).link

/-- ETH_FRAME_RECEIVE (R232): `x` holds what the reads for a RECV entry of the raw queue pair return. -/
def execEthFrameReceive (port : Nat) (frame : List Byte) (corrected uncorrectable : Nat) (x : RecvReads) (s : State) : Res :=
  .next (whenOk (ethUp s port) (ethReceive port frame corrected uncorrectable x) s)

/-- PAUSE_FRAME_RECEIVE (R240): a frame that is a PAUSE or PFC frame, on the same receive path. -/
def execPauseFrameReceive (port : Nat) (frame : List Byte) (s : State) : Res :=
  .next (whenOk (ethUp s port && classifyFrame s port (readEth (frame.take (frame.length - 4))) == .flow)
    (ethReceive port frame 0 0 {}) s)

/-! ### PTP (R229, R558) -/

/-- The port on which the PTP client runs: 32 is the PTP port, else the lowest Ethernet port with its link up. -/
def ptpSource (s : State) : Option Nat :=
  if s.pins.ptpPortUp then some 32
  else (List.range (portCount s.lz.run.widthMode)).find? (fun p => isEthPort s p && (ethPort s p).link)

/-- A change of the client's port counts as a loss of lock (R558). -/
def ptpMoved (old : Option Nat) (s : State) : State :=
  if ptpSource s = old then s else if old.isSome then ptpLoseLock s else s

/-- PTP_MESSAGE_RECEIVE (R229): the client takes a message of a port; when it ends a measurement, `offset` is the
offset from the domain's time that IEEE 1588 gives, in ns. -/
def execPtpMessageReceive (port : Nat) (offset : Option Int) (s : State) : Res :=
  .next (whenOk (ptpServed s) (fun s =>
    let take := fun (s : State) =>
      if ptpSource s = some port then
        { s with tick := { s.tick with ptpOffset := if s.tick.ptpLocked then offset.or s.tick.ptpOffset else s.tick.ptpOffset } }
      else s
    if port = 32 then take s
    else
      match takeFrame port .ptp s with
      | some (_, s) => take s
      | none => s) s)

/-- ETH_LINK_UP (R227, R228): the link comes up on the lanes that the port advertises. -/
def execEthLinkUp (port lanes : Nat) (s : State) : Res :=
  .next (whenOk (running s && isEthPort s port && !(ethPort s port).link && !(bantamBusy s 2)
      && decide (0 < lanes) && lanes == ethLanes s port) (fun s =>
    let old := ptpSource s
    flowCheck port (ptpMoved old (raise Reg.GX_ETH_EVENTS 5 (modEth port (fun e =>
      { e with link := true, narrowed := decide (lanes < lanesPerPort s.lz.run.widthMode) }) s)))) s)

/-- An Ethernet port loses its link: every pause of the peer ends with it. -/
def ethDown (p : Nat) (s : State) : State :=
  if (ethPort s p).link then
    let old := ptpSource s
    ptpMoved old (raise Reg.GX_ETH_EVENTS 6 (modEth p (fun e =>
      { e with link := false, pausedRx := [], pausedTx := [], pauseSeen := [], stuckTk := [], heldTk := [] }) s))
  else s

/-- ETH_LINK_DOWN (R227). -/
def execEthLinkDown (port : Nat) (s : State) : Res := .next (whenOk (running s && isEthPort s port) (ethDown port) s)

/-! ### The Gander (R243, R244) -/

/-- ENABLE, DETECT_TK and RESTORE_TK of a port. -/
def ganderOn (s : State) (p : Nat) : Bool := (rgi s Reg.GX_ETH_GANDER p).getLsbD 16
def detectTk (s : State) (p : Nat) : Nat := wfld (rgi s Reg.GX_ETH_GANDER p) 7 0
def restoreTk (s : State) (p : Nat) : Nat := wfld (rgi s Reg.GX_ETH_GANDER p) 15 8

/-- Frames of a class wait in a port's queues. -/
def txWaits (s : State) (p k : Nat) : Bool :=
  (List.range 8).any (fun pri => flowPri s p pri == some k && !(((mapGet (ethPort s p).tx pri).getD []).isEmpty))

/-- A frame that carries a ROCE_UD SEND has left or is discarded: the SEND is complete (R187, R245). -/
def udSent (f : TxFrame) (s : State) : State :=
  f.msgs.foldl (fun s m => if (qpOf s m.1).any (fun q => q.typ == 3) then roceDone m.1 m.2 0 s else s) s

/-- Discard the queued frames of a class (R243). -/
def ganderDrop (p k : Nat) (s : State) : State :=
  (List.range 8).foldl (fun s pri =>
    if flowPri s p pri = some k then
      let fs := (mapGet (ethPort s p).tx pri).getD []
      fs.foldl (fun s f => udSent f s) (ethCount p 28 fs.length (modEth p (fun e => { e with tx := mapErase e.tx pri }) s))
    else s) s

/-- The edge's count for a class (R243, R244): edges since which its conditions have held, and quiet ticks. -/
def ganderCount (p k : Nat) (s : State) : State :=
  let e := ethPort s p
  let up := fun (m : NMap Nat) (c : Bool) => if c then mapSet m k ((mapGet m k).getD 0 + 1) else mapErase m k
  let use := rxUse s p (fun x => flowPri s p x == some k)
  let low := decide (use ≤ xonBytes s p k)
  modEth p (fun e =>
    { e with stuckTk := up e.stuckTk (e.pausedRx.contains k && txWaits s p k)
             quietTk := up e.quietTk (e.txStorm.contains k && !(e.pauseSeen.contains k))
             heldTk := up e.heldTk (e.pausedTx.contains k)
             lowTk := up e.lowTk (e.rxStorm.contains k && low) }) (modEth p (fun _ => e) s)

/-- The Gander trips on the peer's pauses: the conditions have held since the edge DETECT_TK ticks ago (R243). -/
def ganderTxTrip (p k : Nat) (s : State) : State :=
  let e := ethPort s p
  if ganderOn s p && !(e.txStorm.contains k) && decide (detectTk s p < (mapGet e.stuckTk k).getD 0) then
    raise Reg.GX_ETH_EVENTS 1
      (modEth p (fun e => { e with txStorm := insertNew e.txStorm k, stuckTk := mapErase e.stuckTk k
                                   quietTk := mapErase e.quietTk k }) (ganderDrop p k s))
  else s

/-- RESTORE_TK ticks without a pause end the trip (R243). -/
def ganderTxClear (p k : Nat) (s : State) : State :=
  let e := ethPort s p
  if e.txStorm.contains k && decide (restoreTk s p ≤ (mapGet e.quietTk k).getD 0) then
    raise Reg.GX_ETH_EVENTS 3
      (modEth p (fun e => { e with txStorm := e.txStorm.filter (· != k), quietTk := mapErase e.quietTk k }) s)
  else s

/-- The Gander trips on the adapter's own pauses (R244). -/
def ganderRxTrip (p k : Nat) (s : State) : State :=
  let e := ethPort s p
  if ganderOn s p && !(e.rxStorm.contains k) && decide (detectTk s p < (mapGet e.heldTk k).getD 0) then
    raise Reg.GX_ETH_EVENTS 2
      (modEth p (fun e => { e with rxStorm := insertNew e.rxStorm k, pausedTx := e.pausedTx.filter (· != k)
                                   heldTk := mapErase e.heldTk k, lowTk := mapErase e.lowTk k }) (sendPause p k 0 s))
  else s

/-- RESTORE_TK ticks with use at or below XON end it (R244). -/
def ganderRxClear (p k : Nat) (s : State) : State :=
  let e := ethPort s p
  if e.rxStorm.contains k && decide (restoreTk s p ≤ (mapGet e.lowTk k).getD 0) then
    raise Reg.GX_ETH_EVENTS 3
      (modEth p (fun e => { e with rxStorm := e.rxStorm.filter (· != k), lowTk := mapErase e.lowTk k }) s)
  else s

/-- Step 4 of R29 for an Ethernet port. -/
def ganderEdge (p : Nat) (s : State) : State :=
  let s := (flowClasses s p).foldl (fun s k =>
    ganderRxClear p k (ganderRxTrip p k (ganderTxClear p k (ganderTxTrip p k (ganderCount p k s))))) s
  modEth p (fun e => { e with pauseSeen := [] }) s

/-- GANDER_TX_TRIP (R243). -/
def execGanderTxTrip (port pri : Nat) (s : State) : Res := .next (whenOk (running s && isEthPort s port) (ganderTxTrip port pri) s)

/-- GANDER_TX_CLEAR (R243). -/
def execGanderTxClear (port pri : Nat) (s : State) : Res := .next (whenOk (running s && isEthPort s port) (ganderTxClear port pri) s)

/-- GANDER_RX_TRIP (R244). -/
def execGanderRxTrip (port pri : Nat) (s : State) : Res := .next (whenOk (running s && isEthPort s port) (ganderRxTrip port pri) s)

/-- GANDER_RX_CLEAR (R244). -/
def execGanderRxClear (port pri : Nat) (s : State) : Res := .next (whenOk (running s && isEthPort s port) (ganderRxClear port pri) s)

/-- Queue a frame for transmission (R231, R243): a class in a trip takes none. -/
def queueFrame (p pri : Nat) (f : TxFrame) (s : State) : State :=
  match flowPri s p pri with
  | some k =>
    if (ethPort s p).txStorm.contains k then udSent f (ethCount p 28 1 s)
    else modEth p (fun e => { e with tx := mapSet e.tx pri ((mapGet e.tx pri).getD [] ++ [f]) }) s
  | none => modEth p (fun e => { e with tx := mapSet e.tx pri ((mapGet e.tx pri).getD [] ++ [f]) }) s

/-! ### Cell frames (R254, R256, R257) -/

/-- The largest slot area of a UDP node entry's port (R257). -/
def areaRoom (s : State) (u : Unode) : Nat := portMtu s u.port - (headBytes u.entry (remTagged u.entry) + 12)

/-- A cell frame with a slot area (R254): the UDP checksum is 0 over IPv4 and computed over IPv6.  The source port
is the destination port (assumption 13). -/
def cellFrame (s : State) (u : Unode) (area : List Byte) : List Byte :=
  let port := wfld (rg s Reg.GX_ETH_CELL_UDP) 15 0
  let n := 16 + area.length
  let data := [1, 0] ++ beBytes 2 area.length ++ [0, 0, 0, 0] ++ area
  let own6 := portIp6 s u.port
  let seg := fun (ck : Nat) => beBytes 2 port ++ beBytes 2 port ++ beBytes 2 n ++ beBytes 2 ck ++ data
  let ck := if rem4 u.entry then 0
    else let c := inetSum (pseudo6 own6 (remIp u.entry) n ++ seg 0); if c = 0 then 65535 else c
  let tag := if remTagged u.entry then some (wfld (rg s Reg.GX_ETH_CELL_UDP) 18 16 * 2 ^ 13 + remVid u.entry) else none
  ethHead (remMac u.entry) (portMac s u.port) tag (if rem4 u.entry then 0x0800 else 0x86DD)
    ++ ipHead u.entry (portIp4 s u.port) own6 n ++ seg ck

/-- Queue what an entry has packed as one frame (R256). -/
def flushUnode (i : Nat) (s : State) : State :=
  match mapGet s.eth.unodes i with
  | none => s
  | some u =>
    if u.fill.isEmpty then s
    else
      let f : TxFrame := { bytes := cellFrame s u u.fill, pacer := some (65536 + i), inst := u.fillInst, cell := true }
      queueFrame u.port (wfld (rg s Reg.GX_ETH_CELL_UDP) 18 16) f
        { s with eth := { s.eth with unodes := mapSet s.eth.unodes i { u with fill := [] } } }

/-! ### Register accesses with an effect (R258, R262) -/

/-- ETH_COUNTER_LO_READ (R258): the low word is returned and the high word latched. -/
def execEthCounterLoRead (port counter : Nat) (s : State) : Res :=
  .next (whenOk (running s && decide (counter < 63)) (fun s =>
    let v := (mapGet (ethPort s port).counters counter).getD 0
    emit (.readData (BitVec.ofNat 64 (v % 2 ^ 32)))
      (modEth port (fun e => { e with latches := mapPut 0 e.latches counter (v / 2 ^ 32) }) s)) s)

/-- UNODE_ROUTE_WRITE (R262): the selected entry is stored with GX_ETH_UNODE_NODE; `remote` is what the read of its
remote-table entry returned from a table in host memory.  Its rate controller begins anew (R274). -/
def execUnodeRouteWrite (value : Word) (remote : BitVec 256) (failed : Bool) (s : State) : Res :=
  .next (whenOk (running s) (fun s =>
    let i := wfld (rg s Reg.GX_ETH_UNODE_INDEX) 7 0
    let node := rgi s Reg.GX_ETH_UNODE_NODE i
    let r := (remoteEntry s (wfld value 31 20) remote failed).getD 0
    let u : Unode := { valid := node.getLsbD 31, node := wfld node 22 0, remote := wfld value 31 20, port := wfld value 19 15
                       delay := wfld value 14 0, entry := r }
    let old := (mapGet s.eth.unodes i).getD {}
    let s := putReg (regKey Reg.GX_ETH_UNODE_ROUTE i) value s
    let s := if old.fill.isEmpty then s else flushUnode i s
    { s with eth := { s.eth with unodes := mapSet s.eth.unodes i u }
             cs := { s.cs with rates := mapErase s.cs.rates (65536 + i) } }) s)

end Sys2Proof.Machine
end

