-- ==== Sys2Proof/Machine/TpCells.lean ====
section
/-! DEFINITION. The commands by which cells arrive: train heads, and one command per kind of cell (R197 to R202,
R223, Table 6.6). -/

namespace Sys2Proof.Machine

/-- What a cell of each kind does; a reserved kind is a bad cell (R175). -/
def takeKind (c : CellIn) (x : RecvReads) (s : State) : State :=
  match c.kind with
  | 0 => respCell c x s
  | 1 => respCell c x s
  | 2 => respCell c x s
  | 3 => respCell c x s
  | 4 => takeReadResp c s
  | 5 => respCell c x s
  | 6 => takeAtomicResp c s
  | 7 => respCell c x s
  | 8 => takeAttnResp c s
  | 9 => takeAck c s
  | 10 => takeNack (leAt (payBytes c.pay) 4 1) c s
  | 11 => respAck c s
  | _ => badCells 1 s

/-- A standalone cell of a kind that R201 places in trains (R202). -/
def standaloneBad (kind : Nat) : Bool := [0, 1, 2, 4].contains kind

/-- A standalone transport cell that has passed its check code: R223, R202, then its kind. -/
def takeStandalone (h : Hdr) (pay : BitVec 512) (act : CellIn → State → State) (s : State) : State :=
  let why := slotCheck s h
  if why ≠ 0 then slotCount why s
  else if standaloneBad h.kind then badCells 1 s
  else act (cellOf h pay) s

/-- A train head: R223 and R202 discard the train whole, and R202 counts its cells.  True: its cells are let in. -/
def takeTrainHead (h : Hdr) (pay : BitVec 512) (s : State) : State × Bool :=
  let why := slotCheck s h
  if why ≠ 0 then (slotCount why s, false)
  else if trainBad h pay then (badCells ((readTrain pay).countM1 + 1) s, false)
  else (s, true)

/-- Cells come in on a port in UP. -/
def cellsIn (s : State) (port : Nat) : Bool := working s && linkUp s port

/-- TRAIN_RECEIVE (R202): a train head on a cell port. -/
def execTrainReceive (port : Nat) (hdr : BitVec 96) (pay : BitVec 512) (s : State) : Res :=
  .next (whenOk (cellsIn s port && (readHdr hdr).form == 1) (fun s =>
    let s := stream cvPortRx port false true (slotBytes hdr pay) s
    let (s, ok) := takeTrainHead (readHdr hdr) pay s
    updCport port (fun c => { c with train := some (hdr, pay), trainOk := ok }) s) s)

/-- A cell of a kind on a cell port, standalone or in the train whose head came last.  A reserved kind is nobody's
cell: the first command that meets it counts it. -/
def receiveCell (kind port : Nat) (slot : SlotIn) (act : CellIn → State → State) (s : State) : State :=
  match slot with
  | .cell hdr pay =>
    let h := readHdr hdr
    if h.form ≠ 0 then s
    else if h.kind < 12 ∧ h.kind ≠ kind then s
    else
      takeStandalone h pay (if 12 ≤ h.kind then fun _ s => badCells 1 s else act)
        (stream cvPortRx port false true (slotBytes hdr pay) s)
  | .train k pay =>
    match (cport s port).train with
    | none => s
    | some (hdr, head) =>
      let h := readHdr hdr
      let t := readTrain head
      if h.kind ≠ kind ∨ t.countM1 < k then s
      else
        let s := stream cvPortRx port false true (trainSlotBytes hdr k pay) s
        if (cport s port).trainOk then act (trainCell h t k pay) s else s

/-- DATA_CELL_RECEIVE (R178). -/
def execDataCellReceive (port : Nat) (slot : SlotIn) (s : State) : Res :=
  .next (whenOk (cellsIn s port) (receiveCell 0 port slot (fun c s => respCell c {} s)) s)

/-- REDUCE_CELL_RECEIVE (R335). -/
def execReduceCellReceive (port : Nat) (slot : SlotIn) (s : State) : Res :=
  .next (whenOk (cellsIn s port) (receiveCell 1 port slot (fun c s => respCell c {} s)) s)

/-- SEND_CELL_RECEIVE (R172): `x` holds what the reads for its RECV entries return. -/
def execSendCellReceive (port : Nat) (slot : SlotIn) (x : RecvReads) (s : State) : Res :=
  .next (whenOk (cellsIn s port) (receiveCell 2 port slot (fun c s => respCell c x s)) s)

/-- READ_REQ_RECEIVE (R176). -/
def execReadReqReceive (port : Nat) (slot : SlotIn) (s : State) : Res :=
  .next (whenOk (cellsIn s port) (receiveCell 3 port slot (fun c s => respCell c {} s)) s)

/-- READ_RESP_RECEIVE (R166). -/
def execReadRespReceive (port : Nat) (slot : SlotIn) (s : State) : Res :=
  .next (whenOk (cellsIn s port) (receiveCell 4 port slot takeReadResp) s)

/-- ATOMIC_REQ_RECEIVE (R171). -/
def execAtomicReqReceive (port : Nat) (slot : SlotIn) (s : State) : Res :=
  .next (whenOk (cellsIn s port) (receiveCell 5 port slot (fun c s => respCell c {} s)) s)

/-- ATOMIC_RESP_RECEIVE (R171). -/
def execAtomicRespReceive (port : Nat) (slot : SlotIn) (s : State) : Res :=
  .next (whenOk (cellsIn s port) (receiveCell 6 port slot takeAtomicResp) s)

/-- ATTN_REQ_RECEIVE (R176). -/
def execAttnReqReceive (port : Nat) (slot : SlotIn) (s : State) : Res :=
  .next (whenOk (cellsIn s port) (receiveCell 7 port slot (fun c s => respCell c {} s)) s)

/-- ATTN_RESP_RECEIVE (R370). -/
def execAttnRespReceive (port : Nat) (slot : SlotIn) (s : State) : Res :=
  .next (whenOk (cellsIn s port) (receiveCell 8 port slot takeAttnResp) s)

/-- ACK_RECEIVE (R180). -/
def execAckReceive (port : Nat) (slot : SlotIn) (s : State) : Res :=
  .next (whenOk (cellsIn s port) (receiveCell 9 port slot takeAck) s)

/-- NACK_MISSING_RECEIVE (R183). -/
def execNackMissingReceive (port : Nat) (slot : SlotIn) (s : State) : Res :=
  .next (whenOk (cellsIn s port) (receiveCell 10 port slot (takeNack 0)) s)

/-- NACK_RNR_RECEIVE (R183). -/
def execNackRnrReceive (port : Nat) (slot : SlotIn) (s : State) : Res :=
  .next (whenOk (cellsIn s port) (receiveCell 10 port slot (takeNack 1)) s)

/-- NACK_MOVED_RECEIVE (R186). -/
def execNackMovedReceive (port : Nat) (slot : SlotIn) (s : State) : Res :=
  .next (whenOk (cellsIn s port) (receiveCell 10 port slot (takeNack 2)) s)

/-- NACK_QP_ERROR_RECEIVE (R164). -/
def execNackQpErrorReceive (port : Nat) (slot : SlotIn) (s : State) : Res :=
  .next (whenOk (cellsIn s port) (receiveCell 10 port slot (takeNack 3)) s)

/-- RESP_ACK_RECEIVE (R171). -/
def execRespAckReceive (port : Nat) (slot : SlotIn) (s : State) : Res :=
  .next (whenOk (cellsIn s port) (receiveCell 11 port slot respAck) s)

end Sys2Proof.Machine
end

