-- ==== Sys2Proof/Machine/Sched.lean ====
section
/-! DEFINITION. Scheduling: scheduling cells and the receiver's grants, allowances, rate controllers, shapers,
meters' refills and gate control lists (R263 to R287). -/

namespace Sys2Proof.Machine

/-! ### Sending ahead of other slots (R264, R267) -/

/-- Put a control item on a link behind the control items that wait there. -/
def enqueueFirst (p : Nat) (i : WireItem) (s : State) : State :=
  let s := updCport p (fun c => { c with queue := c.queue.takeWhile isControl ++ i :: c.queue.dropWhile isControl }) s
  drainQueue (cport s p).queue.length p s

/-- Send a control item: by its best link, else it is held (R215, R216). -/
def routeControl (i : WireItem) (s : State) : State :=
  match if mayLeave s i then chooseLink s i.node false none else none with
  | some p => enqueueFirst p i { s with cf := { s.cf with rotor := (p + 1) % 32 } }
  | none => holdItem i s

/-- A node that the adapter reaches over UDP alone (R256): no cell link serves it and an entry names it. -/
def unodesOf (s : State) (node : Nat) : List (Nat × Unode) := s.eth.unodes.filter (fun e => e.2.valid && e.2.node == node)

/-! ### Scheduling cells (R266) -/

/-- Header of a scheduling cell of a type to a node: unit 0 of node slot 0 speaks (R266). -/
def schedHdr (s : State) (node ty : Nat) : BitVec 96 :=
  let t := s.tick.count.toNat % 2 ^ 32
  mkHdr { form := 3, dstNode := node, srcNode := (slotNode s 0).getD 0, srcUnit := 0, epoch := ownEpoch s 0 0
          kind := ty, dqpn := t / 65536, msn := t % 65536 }

/-- Payload of a GRANT. -/
def grantPay (granted level forNode : Nat) : BitVec 512 :=
  mkPay (leBytes 8 granted ++ [BitVec.ofNat 8 level, 0, 0, 0] ++ leBytes 4 forNode)

/-- A scheduling cell breaks Tables 9.1 or 9.2: a reserved type, byte or bit, or a REQUEST with WEIGHT 0. -/
def schedBad (ty : Nat) (pay : BitVec 512) : Bool :=
  let b := payBytes pay
  match ty with
  | 0 => leAt b 16 1 == 0 || !(allZero (b.drop 17))
  | 1 => decide (4 ≤ leAt b 8 1) || !(allZero (slice b 9 3)) || decide (2 ^ 23 ≤ leAt b 12 4) || !(allZero (b.drop 16))
  | 2 => !(allZero b)
  | _ => true

/-- Pool a REQUEST (R268): one entry for a pair, the highest TICK; at most 4,096. -/
def poolRequest (h : Hdr) (tick : Nat) (b : List Byte) (s : State) : State :=
  let r : Request := ⟨h.srcNode, h.srcUnit, h.dstNode, tick, leAt b 0 8, leAt b 16 1⟩
  let s := { s with cs := { s.cs with demandSum := s.cs.demandSum + r.demand } }
  let same := fun (x : Request) => x.node == r.node && x.unit == r.unit && x.dst == r.dst
  match s.cs.pool.find? same with
  | some x =>
    if x.tick < tick then { s with cs := { s.cs with pool := s.cs.pool.map (fun y => if same y then r else y) } } else s
  | none =>
    if s.cs.pool.length < 4096 then { s with cs := { s.cs with pool := s.cs.pool ++ [r] } }
    else raise Reg.GX_CS_EVENTS 0 (bump Reg.GX_CS_REQ_DROP_CNT s)

/-- Take a GRANT (R269): the higher TICK of two for one destination counts. -/
def takeGrant (tick : Nat) (b : List Byte) (s : State) : State :=
  let node := leAt b 12 4
  if (mapGet s.cs.grants node).any (fun g => decide (tick < g.1)) then s
  else { s with cs := { s.cs with grants := mapSet s.cs.grants node (tick, leAt b 0 8) } }

/-- The rate controller of a key, which begins at a port's rate (R274). -/
def rateCtl (s : State) (key port : Nat) : RateCtl :=
  (mapGet s.cs.rates key).getD { rc := (portRate s port : Nat), rt := (portRate s port : Nat) }

/-- A CNP for the controller of a key. -/
def markCnp (key port : Nat) (s : State) : State :=
  { s with cs := { s.cs with rates := mapSet s.cs.rates key { rateCtl s key port with cnp := true } } }

/-- Take a cell CNP (R274): every UDP node entry of its source node. -/
def takeCellCnp (node : Nat) (s : State) : State :=
  (unodesOf s node).foldl (fun s e => markCnp (65536 + e.1) e.2.port s) (bump Reg.GX_CS_CELL_CNP_RX_CNT s)

/-- A scheduling cell: R223, then R266, then what its type does. -/
def takeSched (hdr : BitVec 96) (pay : BitVec 512) (s : State) : State :=
  let h := readHdr hdr
  let why := slotCheck s h
  if why ≠ 0 then badCells 1 (slotCount why s)
  else if schedBad h.kind pay then badCells 1 s
  else
    let tick := h.dqpn * 65536 + h.msn
    match h.kind with
    | 0 => poolRequest h tick (payBytes pay) s
    | 1 => takeGrant tick (payBytes pay) s
    | _ => takeCellCnp h.srcNode s

/-- A scheduling cell of a type on a cell port.  A reserved type is nobody's: the first command that meets it
counts it. -/
def receiveSched (ty port : Nat) (hdr : BitVec 96) (pay : BitVec 512) (s : State) : State :=
  let h := readHdr hdr
  if h.form ≠ 3 ∨ h.kind < 3 ∧ h.kind ≠ ty then s
  else takeSched hdr pay (stream cvPortRx port false true (slotBytes hdr pay) s)

/-- REQUEST_RECEIVE (R268). -/
def execRequestReceive (port : Nat) (hdr : BitVec 96) (pay : BitVec 512) (s : State) : Res :=
  .next (whenOk (cellsIn s port) (receiveSched 0 port hdr pay) s)

/-- GRANT_RECEIVE (R269). -/
def execGrantReceive (port : Nat) (hdr : BitVec 96) (pay : BitVec 512) (s : State) : Res :=
  .next (whenOk (cellsIn s port) (receiveSched 1 port hdr pay) s)

/-- SCHED_CNP_RECEIVE (R274). -/
def execSchedCnpReceive (port : Nat) (hdr : BitVec 96) (pay : BitVec 512) (s : State) : Res :=
  .next (whenOk (cellsIn s port) (receiveSched 2 port hdr pay) s)

/-! ### Grants (R268, R271) -/

/-- The grant capacity of a tick in bytes (R268): 25 GB/s per active lane of the links in UP, GRANT_PCT and the
throttle fraction of R510. -/
def grantCapacity (s : State) : Rat :=
  let lanes := ((upPorts s).map (activeLanes s)).sum
  (lanes * period s * 3125 : Nat) * (wfld (rg s Reg.GX_CS_GRANT) 30 24 : Nat) / 100 * ((16 - s.pw.level : Nat) : Rat) / 16

/-- The rounds of R268: the grants of a set of requests out of a capacity. -/
def grantRounds (fuel : Nat) (set : List Request) (remaining : Rat) (out : List (Request × Nat)) : List (Request × Nat) :=
  match fuel with
  | 0 => out
  | k + 1 =>
    if set.isEmpty || decide (remaining ≤ 0) then out
    else
      let unit := remaining / ((set.map (·.weight)).sum : Nat)
      let small := fun (r : Request) => decide ((r.demand : Rat) ≤ unit * (r.weight : Nat))
      let done := set.filter small
      if done.isEmpty then out ++ set.map (fun r => (r, (unit * (r.weight : Nat)).floor.toNat))
      else grantRounds k (set.filter (fun r => !(small r))) (remaining - ((done.map (·.demand)).sum : Nat))
        (out ++ done.map (fun r => (r, r.demand)))

/-- Order of grants: source coordinate, then the addressed node. -/
def pairOf (r : Request) : Nat × Nat := (r.node * 64 + r.unit, r.dst)
def pairLe (a b : Nat × Nat) : Bool := decide (a.1 < b.1) || a.1 == b.1 && decide (a.2 ≤ b.2)

/-- LEVEL of a demand against a capacity. -/
def grantLevel (demand : Nat) (capacity : Rat) : Nat :=
  if capacity < demand then 3 else if capacity * 3 / 4 < demand then 2 else if capacity / 2 < demand then 1 else 0

/-- Send a scheduling cell if a link reaches the node now; one that is not sent is dropped (R267, R268). -/
def sendSched (node ty : Nat) (pay : BitVec 512) (s : State) : State :=
  let i : WireItem := { node := node, unit := 0, hdr := schedHdr s node ty, pay := pay }
  match if s.fw.joined then chooseLink s node false none else none with
  | some p => enqueueFirst p i { s with cf := { s.cf with rotor := (p + 1) % 32 } }
  | none => s

/-- Drop the requests and grants of an earlier tick that no link has taken (R267, R268). -/
def dropUnsent (s : State) : State :=
  let keep := fun (i : WireItem) => (readHdr i.hdr).form != 3 || (readHdr i.hdr).kind == 2
  { s with cf := { s.cf with ports := s.cf.ports.map (fun e => (e.1, { e.2 with queue := e.2.queue.filter keep })) } }

/-- GRANT_COMPUTE (R268) at step 5 of an edge. -/
def grantCompute (s : State) : State :=
  let capacity := grantCapacity s
  let pool := s.cs.pool
  let level := grantLevel ((pool.map (·.demand)).sum) capacity
  let sorted := ((grantRounds (pool.length + 1) pool capacity []).filter (fun x => x.2 != 0)).mergeSort
    (fun a b => pairLe (pairOf a.1) (pairOf b.1))
  let after := fun (x : Request × Nat) => match s.cs.lastPair with
    | some l => !(pairLe (pairOf x.1) l)
    | none => true
  let order := sorted.filter after ++ sorted.filter (fun x => !(after x))
  let s := { s with cs := { s.cs with pool := [], demandSum := 0, grantedSum := 0 } }
  order.foldl (fun s x =>
    let s := sendSched x.1.node 1 (grantPay x.2 level x.1.dst) s
    { s with cs := { s.cs with lastPair := some (pairOf x.1) } }) s

/-! ### Allowances (R265, R269) -/

/-- Step 5 of an edge: every allowance begins anew from UNSOL, the newest grant and the debt (R269). -/
def allowEdge (s : State) : State :=
  let debts := s.cs.allow.filter (fun e => decide (e.2 < 0))
  let nodes := (debts.map Prod.fst).foldl insertNew (s.cs.grants.map Prod.fst)
  let tracked := nodes.take 4096
  let allow := tracked.foldl (fun m d =>
    mapSet m d (unsol s + (((mapGet s.cs.grants d).map Prod.snd).getD 0 : Nat) + min 0 ((mapGet debts d).getD 0))) []
  let s := { s with cs := { s.cs with allow := allow, grants := [] } }
  if 4096 < nodes.length then raise Reg.GX_CS_EVENTS 1 s else s

/-! ### Rate control (R274) -/

/-- One controller at step 4 of an edge. -/
def rateStep (s : State) (port : Nat) (c : RateCtl) : RateCtl :=
  let e := rg s Reg.GX_CS_ECN_CTRL
  let g : Rat := ((wfld e 31 24 : Nat) : Rat) / 256
  let rate := rg s Reg.GX_CS_ECN_RATE
  if c.cnp then
    { c with rt := c.rc, rc := max ((wfld rate 15 0 : Nat) : Rat) (c.rc * (1 - c.alpha / 2))
             alpha := Config.alpha16 ((1 - g) * c.alpha + g), quiet := 0, stage := 0, cnp := false }
  else
    let c := { c with alpha := Config.alpha16 ((1 - g) * c.alpha), quiet := c.quiet + 1 }
    if c.quiet % wfld e 23 16 = 0 then
      let stage := c.stage + 1
      let rt := if wfld e 15 8 < stage then min ((portRate s port : Nat) : Rat) (c.rt + (wfld rate 31 16 : Nat)) else c.rt
      { c with stage := stage, rt := rt, rc := (rt + c.rc) / 2 }
    else c

/-- Every controller with the port that its rate belongs to: ROCE queue pairs, then UDP node entries. -/
def rateKeys (s : State) : List (Nat × Nat) :=
  (s.tp.qps.filter (fun e => isRoce e.2)).map (fun e => (e.1, ahPort e.2))
    ++ (s.eth.unodes.filter (fun e => e.2.valid)).map (fun e => (65536 + e.1, e.2.port))

/-- RATE_CONTROL_UPDATE of every controller (R274). -/
def rateUpdate (s : State) : State :=
  (rateKeys s).foldl (fun s e =>
    { s with cs := { s.cs with rates := mapSet s.cs.rates e.1 (rateStep s e.2 (rateCtl s e.1 e.2)) } }) s

/-- Pacers refill at step 5: RC times the tick length, one frame of the MTU at most (R274). -/
def pacerRefill (s : State) : State :=
  (rateKeys s).foldl (fun s e =>
    let c := rateCtl s e.1 e.2
    let c := { c with tokens := min ((portMtu s e.2 : Nat) : Rat) (c.tokens + c.rc * (period s : Nat) / 8) }
    { s with cs := { s.cs with rates := mapSet s.cs.rates e.1 c } }) s

/-- Charge a pacer. -/
def chargePacer (key port : Nat) (n : Int) (s : State) : State :=
  let c := rateCtl s key port
  { s with cs := { s.cs with rates := mapSet s.cs.rates key { c with tokens := c.tokens - n } } }

/-! ### Shapers (R275 to R277) and the meters' refill (R279) -/

/-- SHAPER_REFILL at step 5 (R275). -/
def shaperRefill (s : State) : State :=
  ((List.range 768).filter (shaperOn s)).foldl (fun s i =>
    let gain := wfld (rgi s Reg.GX_CS_SHAPER_RATE i) 19 0 * period s
    let cap := 8 * wfld (rgi s Reg.GX_CS_SHAPER_BURST i) 23 0
    { s with cs := { s.cs with shapers := mapPut 0 s.cs.shapers i (min (cap : Nat) (shaperTokens s i + (gain : Nat))) } }) s

/-- Meters refill at step 5 (R279). -/
def meterRefill (s : State) : State :=
  ((List.range 64).filter (fun m => (rgi s Reg.GX_CS_METER_CFG m).getLsbD 31)).foldl (fun s m =>
    let (tc, tp) := meterTokens s m
    let up := fun (cap rate : Nat) (t : Int) =>
      min ((8 * (rgi s cap m).toNat : Nat) : Int) (t + ((rgi s rate m).toNat * period s : Nat))
    let new := (up Reg.GX_CS_METER_CBS Reg.GX_CS_METER_CIR tc, up Reg.GX_CS_METER_PBS Reg.GX_CS_METER_PIR tp)
    { s with cs := { s.cs with meters := mapSet s.cs.meters m new } }) s

/-! ### Gate control lists (R281 to R286).  Times within a list are in thirds of a ns: 1 clk is 2 of them. -/

/-- The list of a port. -/
def gclOf (s : State) (p : Nat) : GclState := (mapGet s.cs.gcls p).getD {}

/-- Change the list of a port. -/
def updGcl (p : Nat) (f : GclState → GclState) (s : State) : State :=
  { s with cs := { s.cs with gcls := mapSet s.cs.gcls p (f (gclOf s p)) } }

/-- Length of a cycle. -/
def cycleLen (s : State) (g : GateList) : Nat := if g.compat then 3 * g.cycleNs else g.cycleTk * period s * 375

/-- The entries in use with the lengths that they run, the last one to the end of the cycle. -/
def gateSpans (s : State) (g : GateList) : List (Nat × Nat × Nat) :=
  let es := (g.entries.take g.length).zipIdx.map (fun e => (e.2, e.1.1, e.1.2 * (if g.compat then 24 else 2)))
  let cycle := cycleLen s g
  let cut := es.foldl (fun (acc : List (Nat × Nat × Nat) × Nat) e =>
    if e.2.2 = 0 ∧ e.1 + 1 ≠ g.length then acc
    else
      let d := if e.1 + 1 = g.length then cycle - acc.2 else min e.2.2 (cycle - acc.2)
      (acc.1 ++ [(e.1, e.2.1, d)], acc.2 + d)) ([], 0)
  cut.1

/-- The entry in which a position falls. -/
def entryAt (spans : List (Nat × Nat × Nat)) (pos : Nat) : Nat :=
  let r := spans.foldl (fun (acc : Option Nat × Nat) e =>
    if acc.1.isNone && decide (pos < acc.2 + e.2.2) then (some e.1, acc.2) else (acc.1, acc.2 + e.2.2)) (none, 0)
  r.1.getD ((spans.getLast?.map (·.1)).getD 0)

/-- The adapter's PTP time, in ns, at the edge of a tick (R33). -/
def ptpTimeAt (s : State) (count : Nat) : Int :=
  (s.tick.anchorTime.toNat : Int) + ((count : Int) - s.tick.anchorTick.toNat) * (125 * period s : Nat)

/-- Position of a list in its cycle at `clk` after the running tick's edge (R282, R285). -/
def listPos (s : State) (g : GateList) (clk : Nat) : Nat :=
  if g.compat then
    ((3 * (ptpTimeAt s s.tick.count.toNat - (g.base : Int)) + 2 * clk) % (max 1 (3 * g.cycleNs) : Nat)).toNat
  else
    let c := s.tick.count.toNat % (max 1 g.cycleTk)
    2 * (c * period s * 375 / 2) + 2 * clk

/-- Open gates of a port (R281). -/
def gatesOf (s : State) (p : Nat) : Nat :=
  let g := gclOf s p
  if isEthPort s p && g.run.enable then ((g.run.entries[g.entry]?).map Prod.fst).getD 255 else 255

/-- Time until the gate of a priority next closes, from a position in the entry that runs; none when it stays open
the whole cycle. -/
def gateLeft (s : State) (g : GclState) (pri clk : Nat) : Option Nat :=
  let spans := gateSpans s g.run
  let opened := fun (e : Nat × Nat × Nat) => e.2.1 / 2 ^ pri % 2 == 1
  if spans.all opened then none
  else
    let before := spans.takeWhile (fun e => e.1 != g.entry)
    let rest := spans.dropWhile (fun e => e.1 != g.entry)
    let start := (before.map (fun e => e.2.2)).sum
    let line := (rest ++ before).takeWhile opened
    some ((line.map (fun e => e.2.2)).sum - (listPos s g.run clk - start))

/-- A frame of a priority and charged length may start (R281, R284, R285). -/
def gateOk (s : State) (p pri clk : Nat) (charged : Int) : Bool :=
  let g := gclOf s p
  if !(isEthPort s p) || !g.run.enable then true
  else if gatesOf s p / 2 ^ pri % 2 = 0 then false
  else
    let fits := fun (n : Int) => match gateLeft s g pri clk with
      | none => true
      | some t => decide (n * 3000 < (t * portRate s p : Nat))
    if g.run.compat then fits ((portMtu s p : Nat) + portOverhead s p)
    else
      match g.run.guardMode with
      | 0 => true
      | 2 => (match gateLeft s g pri clk with
        | none => true
        | some t => decide (3 * g.run.guardNs < t))
      | _ => fits charged

/-- The waiting list takes effect, with the entry of the present position (R283). -/
def gclSwitch (p : Nat) (s : State) : State :=
  match (gclOf s p).next with
  | none => s
  | some n =>
    raise Reg.GX_CS_EVENTS 2 (updGcl p (fun _ => { run := n, entry := entryAt (gateSpans s n) (listPos s n 0), next := none }) s)

/-- A cycle of a waiting list starts at this edge, or has started since the one before (R283, R285). -/
def gclStart (s : State) (n : GateList) : Bool :=
  if n.compat then
    let c := max 1 n.cycleNs
    let now := ptpTimeAt s s.tick.count.toNat - (n.base : Int)
    decide ((now - (125 * period s : Nat)) / (c : Nat) < now / (c : Nat))
  else s.tick.count.toNat % (max 1 n.cycleTk) == 0

/-- An edge for a port's list: a waiting list whose cycle starts takes effect, and the list is resynchronised (R282,
R283). -/
def gclEdge (p : Nat) (s : State) : State :=
  let s := match (gclOf s p).next with
    | some n => if gclStart s n then gclSwitch p s else s
    | none => s
  let g := gclOf s p
  if g.run.enable then updGcl p (fun g => { g with entry := entryAt (gateSpans s g.run) (listPos s g.run 0) }) s else s

/-- GCL_ENTRY_ADVANCE (R282): the running entry of a port has ended, and the next one that is not skipped runs; in
compatibility mode the last is followed by the first of the next cycle. -/
def gclAdvance (p : Nat) (s : State) : State :=
  let g := gclOf s p
  let spans := gateSpans s g.run
  match ((spans.dropWhile (fun e => e.1 != g.entry)).drop 1).head? with
  | some e => updGcl p (fun g => { g with entry := e.1 }) s
  | none =>
    match g.run.compat, spans.head? with
    | true, some e => updGcl p (fun g => { g with entry := e.1 }) s
    | _, _ => s

/-- GCL_ENTRY_ADVANCE (R282). -/
def execGclEntryAdvance (port : Nat) (s : State) : Res :=
  .next (whenOk (running s && isEthPort s port && (gclOf s port).run.enable) (gclAdvance port) s)

/-- GCL_LIST_SWITCH (R283): at the waiting list's cycle start; a list in compatibility mode starts on PTP time, at
the moment of the command. -/
def execGclListSwitch (port : Nat) (s : State) : Res :=
  .next (whenOk (running s && isEthPort s port && (gclOf s port).next.any (fun n => n.compat || gclStart s n)) (gclSwitch port) s)

/-! ### The cell receiver (R254, R255, R273) -/

/-- Take turns: the lowest number above the last one, else the lowest. -/
def nextTurn (last : Option Nat) (keys : List Nat) : Option Nat :=
  let least := fun (l : List Nat) => l.foldl (fun (m : Option Nat) k => some (m.elim k (min k))) none
  (least (keys.filter (fun k => last.any (· < k)))).or (least keys)

/-- Bytes queued for a UDP node entry (R256). -/
def unodeBytes (s : State) (i : Nat) (u : Unode) : Nat :=
  u.fill.length + (((ethPort s u.port).tx.map Prod.snd).flatten.filter (fun f => f.pacer == some (65536 + i))).foldl
    (fun n f => n + f.bytes.length) 0

/-- The UDP node entry for a node: the fewest bytes queued, ties by turns (R256). -/
def chooseUnode (s : State) (node : Nat) : Option (Nat × Unode) :=
  let cands := unodesOf s node
  let least := cands.foldl (fun (m : Option Nat) e => some (m.elim (unodeBytes s e.1 e.2) (min (unodeBytes s e.1 e.2)))) none
  let best := cands.filter (fun e => least == some (unodeBytes s e.1 e.2))
  (nextTurn (some s.cs.unodePos) (best.map Prod.fst)).bind (fun k => best.find? (fun e => e.1 == k))

/-- The tick-alignment cell of a cell frame (R256): through the entry that names the sender's address and the port,
with a link delay. -/
def alignEntry (s : State) (port src : Nat) : Option Nat :=
  (s.eth.unodes.find? (fun e => e.2.valid && e.2.port == port && remIp e.2.entry == src && e.2.delay != 0)).map Prod.fst

/-- One slot of a cell frame, with the train cells behind it: R198 and R200, R223, then what it carries. -/
def frameSlot (port src : Nat) (late : Int) (x : RecvReads) (slot : List Byte × List (List Byte)) (s : State) : State :=
  let hdr : BitVec 96 := BitVec.ofNat 96 (beAt slot.1 0 12)
  let pay := mkPay (slice slot.1 12 64)
  let h := readHdr hdr
  if leAt slot.1 76 4 ≠ (slotCrc hdr pay).toNat then s
  else if h.form = 0 then takeStandalone h pay (fun c s => takeKind c x s) s
  else if h.form = 1 then
    let (s, ok) := takeTrainHead h pay s
    if ok then
      slot.2.zipIdx.foldl (fun s e =>
        let p := mkPay (slice e.1 4 64)
        if leAt e.1 0 4 = (trainCrc hdr e.2 p).toNat then takeKind (trainCell h (readTrain pay) e.2 p) x s else s) s
    else s
  else if h.form = 3 then takeSched hdr pay s
  else if ctlType hdr = 1 then
    match alignEntry s port src with
    | some e => takeAlignCell (32 + e) pay late (unodeDelay s e) s
    | none => s
  else s

/-- The CNP that a marked cell frame draws (R273): once per source node and tick, while the adapter has joined
(R256). -/
def cellCnp (node : Nat) (s : State) : State :=
  if s.eth.cnpNodes.contains node then s
  else
    let s := { s with eth := { s.eth with cnpNodes := insertNew s.eth.cnpNodes node } }
    match if s.fw.joined then chooseUnode s node else none with
    | none => s
    | some (_, u) =>
      let hdr := schedHdr s node 2
      bump Reg.GX_CS_CELL_CNP_TX_CNT (ethCount u.port 29 1 (ethOut u.port (cellFrame s u (slotBytes hdr 0)) s))

/-- CELL_FRAME_RECEIVE (R255) of the oldest frame of a port: the slots in order, then the answer to a congestion mark. -/
def cellFrameReceive (port : Nat) (late : Int) (x : RecvReads) (s : State) : State :=
  match takeFrame port .cell s with
  | none => s
  | some (f, s) =>
    match readNet (readEth f.bytes) with
    | .udp u =>
      let slots := ((slotArea u).bind (fun a => cutSlots a.length a)).getD []
      let s := slots.foldl (fun s x1 => frameSlot port u.src late x x1 s) s
      if u.ecn = 3 then
        let s := bump Reg.GX_CS_CELL_CE_CNT s
        match slots.head? with
        | some x1 => cellCnp (readHdr (BitVec.ofNat 96 (beAt x1.1 0 12))).srcNode s
        | none => s
      else s
    | _ => s

/-- CELL_FRAME_RECEIVE (R255): `late` is the arrival of its alignment cell as in R210, `x` what reads for RECV entries
return. -/
def execCellFrameReceive (port : Nat) (late : Int) (x : RecvReads) (s : State) : Res :=
  .next (whenOk (working s && isEthPort s port) (cellFrameReceive port late x) s)

end Sys2Proof.Machine
end

