-- ==== Sys2Proof/Machine/Roce.lean ====
section
/-! DEFINITION. RoCEv2: packets, the responder, the requester's acknowledgements and responses, and congestion
notifications (R246 to R253, R274). -/

namespace Sys2Proof.Machine

/-! ### Packets (R246, R247) -/

/-- Fields of an address handle (Table 8.6). -/
def ahQpn (q : Qp) : Nat := fld q.ah.toNat 55 32
def ahKeyA (q : Qp) : Nat := fld q.ah.toNat 95 64
def ahKeyB (q : Qp) : Nat := fld q.ah.toNat 127 96

/-- Path MTU of a port (Table 8.5). -/
def pmtu (s : State) (p : Nat) : Nat :=
  if 4096 + 102 ≤ portMtu s p then 4096 else if 2048 + 102 ≤ portMtu s p then 2048 else 1024

/-- Tag of a frame to a remote entry, and its priority. -/
def remTag (r : BitVec 256) : Option Nat := if remTagged r then some (remPcp r * 2 ^ 13 + remVid r) else none
def remPri (r : BitVec 256) : Nat := if remTagged r then remPcp r else 0

/-- A base transport header.  P_Key is the default one and MigReq is set (assumption 14). -/
def bth (op pad dqpn psn : Nat) (ack becn : Bool) : List Byte :=
  beBytes 1 op ++ beBytes 1 (0x40 + 16 * pad) ++ [0xFF, 0xFF] ++ beBytes 1 (if becn then 0x40 else 0) ++ beBytes 3 dqpn
    ++ beBytes 1 (if ack then 0x80 else 0) ++ beBytes 3 psn

/-- A RoCEv2 frame of a queue pair to a remote entry: transport headers, padded payload, ICRC.  The UDP checksum is 0
(assumption 14). -/
def roceFrame (s : State) (qpn p : Nat) (r : BitVec 256) (op dqpn psn : Nat) (ack becn : Bool) (ext pay : List Byte) : List Byte :=
  let pad := (4 - pay.length % 4) % 4
  let data := bth op pad dqpn psn ack becn ++ ext ++ pay ++ List.replicate pad 0
  let n := 8 + data.length + 4
  let sport := 49152 + qpn % 16384
  let ip := ipHead r (portIp4 s p) (portIp6 s p) n
  let u : UdpPkt := ⟨!(rem4 r), ip, 0, 0, 0, sport, 4791, n, 0, data⟩
  ethHead (remMac r) (portMac s p) (remTag r) (if rem4 r then 0x0800 else 0x86DD) ++ ip
    ++ beBytes 2 sport ++ beBytes 2 4791 ++ beBytes 2 n ++ [0, 0] ++ data ++ leBytes 4 (crc32 (icrcBytes u data)).toNat

/-- A received packet: BTH fields, and what follows the BTH without padding and ICRC. -/
structure RocePkt where
  op : Nat
  tver : Nat
  dqpn : Nat
  ack : Bool
  psn : Nat
  body : List Byte
  deriving DecidableEq, Repr

/-- Read a packet. -/
def readRoce (data : List Byte) : RocePkt :=
  let pad := beAt data 1 1 / 16 % 4
  ⟨beAt data 0 1, beAt data 1 1 % 16, beAt data 5 3, decide (128 ≤ beAt data 8 1), beAt data 9 3,
    (data.take (data.length - 4 - pad)).drop 12⟩

/-- The RoCEv2 packet at the head of a port's received frames. -/
def roceHead (s : State) (p : Nat) : Option (RxFrame × UdpPkt × RocePkt × State) :=
  match takeFrame p .roce s with
  | some (f, t) =>
    match readNet (readEth f.bytes) with
    | .udp u => some (f, u, readRoce u.data, t)
    | _ => none
  | none => none

/-- An ACK extended header: syndrome and MSN. -/
def aeth (syn msn : Nat) : List Byte := beBytes 1 syn ++ beBytes 3 (msn % 2 ^ 24)

/-- Send an ACK packet of a syndrome at once (R264: control traffic). -/
def sendAeth (qpn syn psn : Nat) (s : State) : State :=
  match qpOf s qpn with
  | none => s
  | some q =>
    ethOut (ahPort q) (roceFrame s qpn (ahPort q) q.roce.remote 17 (ahQpn q) (psn % 2 ^ 24) false false
      (aeth syn q.roce.msn) []) s

/-- Syndromes: ACK without a credit limit, RNR NAK, and the NAKs. -/
abbrev synAck : Nat := 0x1F
abbrev synRnr : Nat := 0x20 + Config.rnrTimer % 32
abbrev synSeq : Nat := 0x60
abbrev synInvalid : Nat := 0x61
abbrev synAccess : Nat := 0x62
abbrev synOperation : Nat := 0x63

/-- Change what a RoCEv2 queue pair holds. -/
def updRoce (qpn : Nat) (f : RoceQp → RoceQp) (s : State) : State := updQp qpn (fun q => { q with roce := f q.roce }) s

/-- A NAK after which the queue pair enters ERROR (R246; assumption 15). -/
def fatalNak (qpn syn : Nat) (s : State) : State :=
  let e := ((qpOf s qpn).map (·.expected)).getD 0
  qpError qpn (sendAeth qpn syn e s)

/-! ### The responder (R249, R250) -/

/-- R_Key, ACCESS bit of a kind, length and translation of a range; the pages, or none for a failure. -/
def roceAccess (q : Qp) (kind va key len : Nat) (need : Need) (tables : NMap (BitVec 128)) (s : State) :
    State × Option (List PageMap) :=
  let space := ((ringOf s q.sq).map (·.space)).getD 0
  let allowed := (accessBit kind).all (fun b => fld q.access b b == 1)
  if key ≠ ahKeyB q ∨ !allowed ∨ 2 ^ 30 < len then (s, none)
  else
    let (s, r) := xlateRange (pageFuel va len) space q.inst va (va + len) need .here tables s
    match r with
    | .error (cause, v) => (recordFault cause q.inst space v s, none)
    | .ok (pages, us) => (releaseUses us s, some pages)

/-- Syndrome of a status that a memory access gave. -/
def synOf (st : Nat) : Nat := if st = stRemoteAccess then synAccess else synOperation

/-- Write a packet's payload at a VA; none while the write stalls. -/
def rocePut (qpn : Nat) (q : Qp) (va key : Nat) (begins : Bool) (bs : List Byte) (tables : NMap (BitVec 128)) (s : State) :
    Option (State × Nat) :=
  if bs.isEmpty then some (s, 0)
  else
    let (s, r) := roceAccess q 0 va key bs.length { write := true } tables s
    match r with
    | none => some (s, synAccess)
    | some pages =>
      if rangeStalls s pages va bs.length then none
      else
        let (s, st) := writeRange (.rx qpn 0) pages va bs (muleMove true false begins bs s)
        some (s, if st = 0 then 0 else synOf st)

/-- Take the expected PSN, and more for a READ; a packet in order ends a gap. -/
def rocePsn (qpn n : Nat) (s : State) : State :=
  updQp qpn (fun q => { q with expected := q.expected + n, roce := { q.roce with nakSent := false } }) s

/-- A request message is complete: its count in MSN. -/
def roceMsg (qpn : Nat) (s : State) : State := updRoce qpn (fun r => { r with msn := r.msn + 1, rxKind := 0 }) s

/-- Acknowledge a packet if it asks for it. -/
def roceAck (qpn : Nat) (b : RocePkt) (psn : Nat) (s : State) : State := if b.ack then sendAeth qpn synAck psn s else s

/-- AUX of a RECV on a RoCEv2 queue pair: the sender's QPN (R251). -/
def roceAux (qpn : Nat) : Nat := qpn % 2 ^ 24 * 2 ^ 32

/-- No RECV entry: RNR NAK, and packets are discarded until the message comes again. -/
def roceRnr (qpn psn : Nat) (s : State) : State := sendAeth qpn synRnr psn (updRoce qpn (fun r => { r with nakSent := true }) s)

/-- A SEND packet in order: `first` and `last` packet of its message, and its immediate. -/
def roceSend (qpn : Nat) (q : Qp) (mtu : Nat) (b : RocePkt) (first last : Bool) (imm : Nat) (pay : List Byte) (x : RecvReads)
    (s : State) : State :=
  if q.roce.rxKind ≠ (if first then 0 else 1) ∨ (!last ∧ pay.length ≠ mtu) ∨ mtu < pay.length then fatalNak qpn synInvalid s
  else
    let (s, e) := if first then takeRecv qpn x s
      else (s, (qpOf s qpn).bind (fun q => q.recvs.find? (fun e => e.ssn == q.roce.rxLeft)))
    match e with
    | none => roceRnr qpn q.expected s
    | some e =>
      let off := if first then 0 else q.roce.rxVa
      let s := recvWrite qpn e.ssn off pay x.tables s
      let total := off + pay.length
      let failed := (qpOf s qpn).bind (fun q => q.recvs.find? (fun r => r.ssn == e.ssn))
      if e.len < total then
        fatalNak qpn synInvalid (recvComplete qpn (recvEnd qpn e.ssn total imm (roceAux (ahQpn q)) 0 s))
      else if failed.any (fun r => r.fault.isSome || r.status != 0) then
        fatalNak qpn synOperation (recvComplete qpn (recvEnd qpn e.ssn total imm (roceAux (ahQpn q)) 0 s))
      else
        let s := rocePsn qpn 1 s
        let s := if last then roceMsg qpn (recvEnd qpn e.ssn total imm (roceAux (ahQpn q)) q.expected s)
          else updRoce qpn (fun r => { r with rxKind := 1, rxVa := total, rxLeft := e.ssn }) s
        roceAck qpn b q.expected s

/-- An RDMA WRITE packet in order: a first one brings its RETH, a last one with immediate takes a RECV entry. -/
def roceWrite (qpn : Nat) (q : Qp) (mtu : Nat) (b : RocePkt) (first last : Bool) (imm : Option Nat) (x : RecvReads)
    (s : State) : Option State :=
  let reth := b.body.take 16
  let rest := if first then b.body.drop 16 else b.body
  let pay := if imm.isSome then rest.drop 4 else rest
  let va := if first then beAt reth 0 8 else q.roce.rxVa
  let left := if first then beAt reth 12 4 else q.roce.rxLeft
  let size := if last then decide (pay.length = left) else decide (pay.length = mtu ∧ mtu < left)
  if q.roce.rxKind ≠ (if first then 0 else 2) ∨ !size ∨ mtu < pay.length then some (fatalNak qpn synInvalid s)
  else
    let (s, whole) := if first && left != 0 then roceAccess q 0 va (beAt reth 8 4) left { write := true } x.tables s else (s, some [])
    match whole with
    | none => some (fatalNak qpn synAccess s)
    | some _ =>
      let (s, e) := if imm.isSome then takeRecv qpn x s else (s, none)
      if imm.isSome && e.isNone then some (roceRnr qpn q.expected s)
      else
        match rocePut qpn q va (ahKeyB q) first pay x.tables s with
        | none => none
        | some (s, syn) =>
          if syn ≠ 0 then some (fatalNak qpn syn s)
          else
            let s := rocePsn qpn 1 s
            let total := pay.length
            let s := match imm, e with
              | some i, some e =>
                let s := updRecv qpn e.ssn (fun r => { r with len := max r.len ((if first then 0 else q.roce.rxTotal) + total) }) s
                recvEnd qpn e.ssn ((if first then 0 else q.roce.rxTotal) + total) i (roceAux (ahQpn q)) q.expected s
              | _, _ => s
            let s := if last then roceMsg qpn s
              else updRoce qpn (fun r => { r with rxKind := 2, rxVa := va + pay.length, rxLeft := left - pay.length
                                                  rxTotal := (if first then 0 else r.rxTotal) + total }) s
            some (roceAck qpn b q.expected s)

/-- Queue a packet of a response. -/
def roceQueue (qpn op psn : Nat) (ext pay : List Byte) (s : State) : State :=
  match qpOf s qpn with
  | none => s
  | some q =>
    queueFrame (ahPort q) (remPri q.roce.remote)
      { bytes := roceFrame s qpn (ahPort q) q.roce.remote op (ahQpn q) (psn % 2 ^ 24) false false ext pay
        pacer := some qpn, inst := q.inst } s

/-- Packets that n bytes take. -/
def packets (mtu n : Nat) : Nat := max 1 ((n + mtu - 1) / mtu)

/-- An RDMA READ request, in order or a duplicate: memory is read and every response packet queued (R249, R250). -/
def roceRead (qpn : Nat) (q : Qp) (mtu : Nat) (b : RocePkt) (psn : Nat) (again : Bool) (tables : NMap (BitVec 128)) (s : State) :
    Option State :=
  let va := beAt b.body 0 8
  let len := beAt b.body 12 4
  let (s, r) := if len = 0 then (s, some []) else roceAccess q 3 va (beAt b.body 8 4) len { read := true } tables s
  match r with
  | none => some (if again then s else fatalNak qpn synAccess s)
  | some pages =>
    match readRange s (rxOwner qpn psn) pages va len with
    | .wait => none
    | .refused st => some (if again then s else fatalNak qpn (synOf st) s)
    | .got bs bad =>
      let s := dropGot (rxOwner qpn psn) s
      if bad then some (if again then s else fatalNak qpn synOperation s)
      else
        let n := packets mtu len
        let s := if again then s else roceMsg qpn (rocePsn qpn n s)
        let s := muleMove false false true bs s
        let msn := ((qpOf s qpn).map (·.roce.msn)).getD 0
        some ((List.range n).foldl (fun s i =>
          let last := i + 1 == n
          let op := if n = 1 then 16 else if i = 0 then 13 else if last then 15 else 14
          roceQueue qpn op (psn + i) (if i = 0 || last then aeth synAck msn else []) (slice bs (mtu * i) mtu) s) s)

/-- Send an ATOMIC's result. -/
def roceAtomicAck (qpn psn prior : Nat) (s : State) : State :=
  let msn := ((qpOf s qpn).map (·.roce.msn)).getD 0
  roceQueue qpn 18 psn (aeth synAck msn ++ beBytes 8 prior) [] s

/-- A Compare-and-Swap or Fetch-and-Add in order: performed once, its result kept among the last eight (R250). -/
def roceAtomic (qpn : Nat) (q : Qp) (b : RocePkt) (tables : NMap (BitVec 128)) (s : State) : Option State :=
  let va := beAt b.body 0 8
  if va % 8 ≠ 0 ∨ b.body.length < 28 then some (fatalNak qpn synInvalid s)
  else
    let (s, r) := roceAccess q 5 va (beAt b.body 8 4) 8 { read := true, write := true, atomic := true } tables s
    match r with
    | none => some (fatalNak qpn synAccess s)
    | some pages =>
      if rangeStalls s pages va 8 then none
      else
        match readRange s (rxOwner qpn q.expected) pages va 8 with
        | .wait => none
        | .refused st => some (fatalNak qpn (synOf st) s)
        | .got bs bad =>
          let s := dropGot (rxOwner qpn q.expected) s
          if bad then some (fatalNak qpn synOperation s)
          else
            let prior := leNat bs
            let swap := beAt b.body 12 8
            let new := if b.op = 20 then atomicNew 0 8 prior swap 0 else atomicNew 2 8 prior (beAt b.body 20 8) swap
            let (s, st) := writeRange (.rx qpn 0) pages va (leBytes 8 new) s
            if st ≠ 0 then some (fatalNak qpn (synOf st) s)
            else
              let s := roceMsg qpn (rocePsn qpn 1 s)
              let s := updRoce qpn (fun r =>
                { r with atomics := (r.atomics ++ [(q.expected, prior)]).drop (r.atomics.length + 1 - 8) }) s
              some (roceAtomicAck qpn q.expected prior s)

/-- A packet that starts or continues a message inside a message of another kind (R246: an invalid request). -/
def roceRequest (qpn : Nat) (q : Qp) (b : RocePkt) (x : RecvReads) (s : State) : Option State :=
  let mtu := pmtu s (ahPort q)
  let imm := beAt b.body 0 4
  let d := (b.psn + 2 ^ 24 - q.expected % 2 ^ 24) % 2 ^ 24
  if d ≠ 0 ∧ d < 2 ^ 23 then
    -- A gap: one NAK Sequence Error, then silence (R250).
    if q.roce.nakSent then some s
    else some (sendAeth qpn synSeq q.expected (updRoce qpn (fun r => { r with nakSent := true }) s))
  else if d ≠ 0 then
    let psn := q.expected - (2 ^ 24 - d)
    if b.op ≤ 11 then some (sendAeth qpn synAck (q.expected - 1) s)
    else if b.op = 12 then roceRead qpn q mtu b psn true x.tables s
    else if b.op = 19 ∨ b.op = 20 then
      match q.roce.atomics.find? (fun a => a.1 == psn) with
      | some a => some (roceAtomicAck qpn psn a.2 s)
      | none => some s
    else some s
  else
    match b.op with
    | 0 => some (roceSend qpn q mtu b true false 0 b.body x s)
    | 1 => some (roceSend qpn q mtu b false false 0 b.body x s)
    | 2 => some (roceSend qpn q mtu b false true 0 b.body x s)
    | 3 => some (roceSend qpn q mtu b false true imm (b.body.drop 4) x s)
    | 4 => some (roceSend qpn q mtu b true true 0 b.body x s)
    | 5 => some (roceSend qpn q mtu b true true imm (b.body.drop 4) x s)
    | 6 => roceWrite qpn q mtu b true false none x s
    | 7 => roceWrite qpn q mtu b false false none x s
    | 8 => roceWrite qpn q mtu b false true none x s
    | 9 => roceWrite qpn q mtu b false true (some imm) x s
    | 10 => roceWrite qpn q mtu b true true none x s
    | 11 => roceWrite qpn q mtu b true true (some (beAt b.body 16 4)) x s
    | 12 => if q.roce.rxKind ≠ 0 ∨ b.body.length < 16 then some (fatalNak qpn synInvalid s)
            else roceRead qpn q mtu b q.expected false x.tables s
    | 19 => if q.roce.rxKind ≠ 0 then some (fatalNak qpn synInvalid s) else roceAtomic qpn q b x.tables s
    | 20 => if q.roce.rxKind ≠ 0 then some (fatalNak qpn synInvalid s) else roceAtomic qpn q b x.tables s
    | _ => some (fatalNak qpn synInvalid s)

/-! ### The requester (R250) -/

/-- PSNs that a message takes. -/
def psnSpan (s : State) (m : Msg) : Nat :=
  if m.kind = .read then packets (pmtu s (((qpOf s m.qpn).map ahPort).getD 0)) m.bytes else m.cells

/-- The queue pair's messages, oldest first. -/
def qpMsgs (s : State) (qpn : Nat) : List Msg := (s.tp.msgs.filter (fun e => e.2.qpn == qpn && e.2.next != 0)).map Prod.snd

/-- Every PSN up to one is acknowledged: messages end; a READ or ATOMIC without its whole response goes again. -/
def roceAcked (qpn upto : Nat) (s : State) : State :=
  ((qpMsgs s qpn).foldl (fun (acc : State × Bool) m =>
    let s := acc.1
    if acc.2 || upto < m.msn then (s, true)
    else if m.kind = .read || m.kind = .atomic then (goBack qpn m.msn s, true)
    else if m.msn + psnSpan s m ≤ upto + 1 then (roceDone qpn m.msn 0 s, false)
    else (updMsg qpn m.msn (fun m => { m with respCnt := upto + 1 - m.msn }) s, true)) (s, false)).1

/-- A NAK that ends its message: REMOTE_ACCESS, and the queue pair enters ERROR (R250; assumption 15). -/
def roceNaked (qpn psn : Nat) (s : State) : State :=
  match (qpMsgs s qpn).find? (fun m => m.msn ≤ psn && decide (psn < m.msn + psnSpan s m)) with
  | some m => qpError qpn (roceDone qpn m.msn stRemoteAccess s)
  | none => s

/-- An ACK packet. -/
def roceTakeAck (qpn : Nat) (q : Qp) (psn syn : Nat) (s : State) : State :=
  if syn < 0x20 then roceAcked qpn psn s
  else
    let s := if (qpMsgs s qpn).any (fun m => m.msn < psn) then roceAcked qpn (psn - 1) s else s
    if syn < 0x40 then
      match (qpMsgs s qpn).find? (fun m => m.msn ≤ psn && decide (psn < m.msn + psnSpan s m)) with
      | some m => nackRnr qpn q m.msn s
      | none => s
    else if syn = synSeq then
      match (qpMsgs s qpn).find? (fun m => m.msn ≤ psn && decide (psn < m.msn + psnSpan s m)) with
      | some m => goBack qpn m.msn s
      | none => s
    else if syn = synInvalid || syn = synAccess || syn = synOperation then roceNaked qpn psn s
    else s

/-- A READ response packet: in order it is written, a later one shows a loss (R250); none while the write stalls. -/
def roceReadResp (qpn psn : Nat) (b : RocePkt) (s : State) : Option State :=
  let pay := if b.op = 14 then b.body else b.body.drop 4
  match (qpMsgs s qpn).find? (fun m => m.msn ≤ psn && decide (psn < m.msn + psnSpan s m)) with
  | none => some s
  | some m =>
    let mtu := pmtu s (((qpOf s qpn).map ahPort).getD 0)
    let k := psn - m.msn
    let off := mtu * k
    if m.kind ≠ .read ∨ k < m.respCnt then some s
    else if m.respCnt < k then some (goBack qpn m.msn s)
    else if pay.length ≠ min mtu (m.bytes - off) then some s
    else if ((runOf s m.run).bind (fun r => r.tiles[m.tile]?)).any (fun t => rangeStalls s t.dstPages (t.dst + off) pay.length) then
      none
    else
      let s := if m.msn = 0 then s else roceAcked qpn (m.msn - 1) s
      let (s, st) := respWrite m off (k == 0) pay s
      let s := updMsg qpn m.msn (fun m =>
        { m with respCnt := k + 1, acked := true, respStatus := if m.respStatus = 0 then st else m.respStatus }) s
      some (if k + 1 = psnSpan s m then roceDone qpn m.msn (if m.respStatus = 0 then st else m.respStatus) s else s)

/-- An ATOMIC's acknowledgement. -/
def roceAtomicResp (qpn psn : Nat) (b : RocePkt) (s : State) : Option State :=
  match (qpMsgs s qpn).find? (fun m => m.msn == psn) with
  | none => some s
  | some m =>
    if m.kind ≠ .atomic ∨ b.body.length < 12 then some s
    else if ((runOf s m.run).bind (fun r => r.tiles[m.tile]?)).any (fun t => rangeStalls s t.dstPages t.dst 8) then none
    else
      let s := if m.msn = 0 then s else roceAcked qpn (m.msn - 1) s
      let (s, st) := respWrite m 0 true (leBytes 8 (beAt b.body 4 8)) s
      some (roceDone qpn psn st s)

/-- An ACK or a response: its PSN lies among those that wait for one (R249). -/
def rocePsnOk (s : State) (qpn : Nat) (q : Qp) (b : RocePkt) : Option Nat :=
  match oldestMsg s qpn with
  | none => none
  | some o =>
    let psn := extend 24 q.nextMsn b.psn
    if o.msn ≤ psn + 1 ∧ psn < q.nextMsn then some psn else none

/-! ### Reception -/

/-- Opcodes of acknowledgements and responses. -/
def isResponse (op : Nat) : Bool := decide (13 ≤ op) && decide (op ≤ 18)

/-- R249: a packet that its queue pair may take. -/
def roceOk (s : State) (p : Nat) (b : RocePkt) : Bool :=
  match qpOf s b.dqpn with
  | none => false
  | some q =>
    isRoce q && !(ahRaw q) && ahPort q == p && q.state == .ready && b.tver == 0
      && (if q.typ = 2 then decide (b.op < 32) && (!(isResponse b.op) || (rocePsnOk s b.dqpn q b).isSome)
          else (b.op == 0x64 || b.op == 0x65) && decide (8 ≤ b.body.length) && beAt b.body 0 4 == ahKeyA q)

/-- A remote entry that leads back to a packet's sender. -/
def senderEntry (q : Qp) (f : RxFrame) (u : UdpPkt) : BitVec 256 :=
  let h := readEth f.bytes
  let vlan := match h.tags.head? with
    | some t => t % 2 ^ 12 + t / 2 ^ 13 * 2 ^ 12 + 2 ^ 15
    | none => 0
  BitVec.ofNat 256 (leNat (beBytes 16 u.src ++ beBytes 6 h.src ++ leBytes 2 vlan ++ (leBytes 32 q.roce.remote.toNat).drop 24))

/-- The CNP that a marked packet draws: once per queue pair and tick (R253). -/
def roceCnp (qpn : Nat) (q : Qp) (f : RxFrame) (u : UdpPkt) (b : RocePkt) (s : State) : State :=
  let s := ethCount (ahPort q) 18 1 s
  if s.eth.cnpQps.contains qpn then s
  else
    let s := { s with eth := { s.eth with cnpQps := insertNew s.eth.cnpQps qpn } }
    let (r, dst) := if q.typ = 2 then (q.roce.remote, ahQpn q) else (senderEntry q f u, beAt b.body 5 3)
    ethCount (ahPort q) 27 1 (ethOut (ahPort q)
      (roceFrame s qpn (ahPort q) r 0x81 dst 0 false true (List.replicate 16 0) []) s)

/-- A ROCE_UD SEND (R251): the GRH, then the payload. -/
def roceDatagram (qpn : Nat) (u : UdpPkt) (b : RocePkt) (x : RecvReads) (s : State) : State :=
  let grh := List.replicate (40 - u.ip.length) 0 ++ u.ip
  let rest := b.body.drop 8
  let (imm, pay) := if b.op = 0x65 then (beAt rest 0 4, rest.drop 4) else (0, rest)
  (deliver qpn (grh ++ pay) imm (roceAux (beAt b.body 5 3)) x s).1

/-- Count and meter a packet that has passed every check, and answer its congestion mark; none when a meter
discards it. -/
def rocePassed (p : Nat) (q : Qp) (f : RxFrame) (u : UdpPkt) (b : RocePkt) (s : State) : State × Bool :=
  let n := f.bytes.length + 4
  let (s, colour) := meterFrame p f.pri n (rxOk p (readEth f.bytes).dst (withFcs f.bytes) s)
  match colour with
  | none => (s, false)
  | some mark =>
    if u.ecn = 3 || mark && (u.ecn == 1 || u.ecn == 2) then (roceCnp b.dqpn q f u b s, true) else (s, true)

/-- ROCE_PACKET_RECEIVE of the oldest packet of a port. -/
def roceReceive (p : Nat) (x : RecvReads) (s : State) : State :=
  match roceHead s p with
  | none => s
  | some (f, u, b, t) =>
    if b.op = 0x81 then s
    else if !(roceOk t p b) then ethCount p 16 1 t
    else
      match qpOf t b.dqpn with
      | none => s
      | some q =>
        let (t, ok) := rocePassed p q f u b t
        if !ok then t
        else if q.typ = 3 then roceDatagram b.dqpn u b x t
        else
          let psn := (rocePsnOk t b.dqpn q b).getD 0
          let r :=
            if b.op = 17 then some (roceTakeAck b.dqpn q psn (beAt b.body 0 1) t)
            else if b.op = 18 then roceAtomicResp b.dqpn psn b t
            else if isResponse b.op then roceReadResp b.dqpn psn b t
            else roceRequest b.dqpn q b x t
          -- A packet whose write or read waits stays where it is.
          r.getD s

/-- ROCE_PACKET_RECEIVE (R249): `x` holds what the reads for RECV entries and tables return. -/
def execRocePacketReceive (port : Nat) (x : RecvReads) (s : State) : Res :=
  .next (whenOk (working s && isEthPort s port) (roceReceive port x) s)

/-- CNP_RECEIVE (R253, R274) of the oldest packet of a port, if it is a CNP. -/
def cnpReceive (p : Nat) (s : State) : State :=
  match roceHead s p with
  | none => s
  | some (f, u, b, t) =>
    if b.op ≠ 0x81 then s
    else
      match qpOf t b.dqpn with
      | none => ethCount p 16 1 t
      | some q =>
        if !(isRoce q) || ahRaw q || ahPort q != p || b.tver != 0 then ethCount p 16 1 t
        else
          let (t, ok) := rocePassed p q f u b t
          if ok then markCnp b.dqpn p (ethCount p 19 1 t) else t

/-- CNP_RECEIVE (R274). -/
def execCnpReceive (port : Nat) (s : State) : Res := .next (whenOk (working s && isEthPort s port) (cnpReceive port) s)

end Sys2Proof.Machine
end

