-- ==== Sys2Proof/Machine/Accept.lean ====
section
/-! DEFINITION. ENTRY_ACCEPT: acceptance of a fetched entry and the malformed reasons of Table 5.10, in its order
(R138, R143 to R146, R152 to R155). -/

namespace Sys2Proof.Machine

/-- A field of an entry is not 0. -/
def nz (e : BitVec 512) (off n : Nat) : Bool := ef e off n != 0

/-- The first reason whose check is bad. -/
def firstReason (checks : List (Bool × Nat)) : Option Nat := (checks.find? (fun c => c.1)).map Prod.snd

/-- Largest value of a virtual address, plus 1 (R81). -/
def vaEnd : Nat := 2 ^ 48

/-! ### Reason 1: OPCODE (Table 5.5) -/

/-- The OPCODE is defined for a submission ring: 0 the management ring, else a tenant's. -/
def opcodeOk (ring code : Nat) : Bool :=
  if ring = 0 then 0x10 ≤ code && code ≤ 0x1D else 1 ≤ code && code ≤ 9

/-! ### Tenant entries -/

/-- SEGMENTS, PARAM_LEN and KIND of an entry. -/
def eSegments (e : BitVec 512) : Nat := ef e 34 1
def eParamLen (e : BitVec 512) : Nat := fld (ef e 32 8) 19 8
def eKind (e : BitVec 512) : Nat := ef e 32 1

/-- Continuations that the entry's chain carries (R145); none where the operation takes none. -/
def continuations (e : BitVec 512) : Nat :=
  match entryOpcode e with
  | 1 => (eSegments e + 2) / 3
  | 2 => (eSegments e + 2) / 3
  | 3 => (eSegments e + 2) / 3
  | 6 => (eParamLen e + 55) / 56
  | 8 => (eParamLen e + 55) / 56
  | _ => 0

/-- The Herd that a COLLECTIVE names, if it is bound to the ring (R296). -/
def eHerd (s : State) (ring : Nat) (e : BitVec 512) : Option Herd :=
  (mapGet s.hd.herds (ef e 32 2)).bind (fun d => if d.sq = ring then some d else none)

/-- Reserved fields of a COLLECTIVE body: those that Table 10.2 does not give its COLL (R295, R296, Table 10.3). -/
def collReserved (s : State) (ring : Nat) (e : BitVec 512) : Bool :=
  let coll := ef e 34 1
  let arith := coll ≤ 1
  let away := (eHerd s ring e).any (fun d => d.rank != ef e 38 2)
  nz e 2 2 || nz e 46 2 || nz e 48 16 || ef e 37 1 / 2 != 0
    || !arith && decide (coll ≤ 4) && (nz e 35 2 || nz e 37 1) || coll != 3 && decide (coll ≤ 4) && nz e 38 2
    || coll == 4 && (nz e 16 8 || nz e 24 8) || coll == 3 && away && nz e 16 8
    || arith && ef e 35 1 / 16 % 4 != 0 || arith && ef e 35 1 / 128 != 0

/-- Reserved fields of a tenant's FIRST entry (Tables 5.4 to 5.6, R145). -/
def tenantReserved (s : State) (ring : Nat) (e : BitVec 512) : Bool :=
  ef e 0 1 / 16 != 0 ||
    match entryOpcode e with
    | 1 => nz e 35 1 || nz e 36 28 || eSegments e != 0 && nz e 16 8
    | 2 => nz e 35 1 || nz e 36 28 || eSegments e != 0 && nz e 16 8
    | 3 => nz e 24 8 || nz e 35 5 || nz e 44 20 || eSegments e != 0 && nz e 16 8
    | 4 => nz e 6 2 || ef e 4 1 == 8 && (nz e 40 8 || nz e 56 8)
    | 5 => nz e 36 28 || ef e 32 1 / 16 % 4 != 0 || ef e 32 1 / 128 != 0
    | 6 => nz e 24 8 || ef e 34 2 / 16 != 0 || nz e 36 28
    | 7 => nz e 16 48
    | 8 => nz e 2 2 || nz e 24 8 || ef e 34 2 / 16 != 0 || nz e 36 28
    | _ => collReserved s ring e

/-- The queue pair that an entry names, if it is bound to the ring and serves no Herd (R141, R293). -/
def eQp (s : State) (ring : Nat) (e : BitVec 512) : Option Qp :=
  (qpOf s (entryQpn e)).bind (fun q => if q.sq = ring ∧ q.herd = none then some q else none)

/-- The queue pair's type does not allow the operation (R161, R246). -/
def typeForbids (q : Qp) (code : Nat) (e : BitVec 512) : Bool :=
  if q.typ = 2 then !([1, 2, 3, 4, 7].contains code) || code == 4 && (ef e 4 1 == 16 || ef e 5 1 == 1)
  else if q.typ = 3 then code != 3 else false

/-- The SA field disagrees with Table 15.5, names an EMPTY slot or another instance's, or an open's LENGTH is out of
range (R410, R416, R423). -/
def saBad (s : State) (inst_ qpn : Nat) (e : BitVec 512) : Bool :=
  let code := entryOpcode e
  if !([1, 2, 3, 5].contains code) then false
  else
    let sa := entrySa e
    let k := keySlot s (sa - 1)
    let len := entryLength e
    match qpSlot s qpn (if code = 2 then 1 else 0) with
    | some n => sa != n + 1
    | none =>
      sa != 0 && (decide (8192 < sa) || k.state == 0 || k.inst != inst_ || code != 1 || k.binding ≤ 1
        || k.binding == 3 && len != 0 && (decide (len < 17 + (if k.mode = 4 then 16 else 0))
            || k.mode == 0 && (decide (len < 32) || len % 16 != 0)))

/-- LENGTH limits of RoCEv2 SENDs (R251, R252). -/
def roceLengthBad (s : State) (q : Qp) (e : BitVec 512) : Bool :=
  let len := entryLength e
  q.typ == 3 && entryOpcode e == 3 &&
    (if q.raw then decide (len < 60) || decide (portMtu s (ahPort q) - 4 < len) else decide (pmtu s (ahPort q) < len))

/-- Fields of a COLLECTIVE out of range (R296, R317, R320, Table 11.3). -/
def collField (s : State) (ring : Nat) (e : BitVec 512) : Bool :=
  let coll := ef e 34 1
  let op := ef e 35 1 % 16
  let fmt := ef e 36 1
  let fixed := ef e 37 1 % 2 == 1 || fmt == 5 || op == 4
  let len := entryLength e
  decide (4 < coll) || coll == 4 && len != 0
    || coll ≤ 1 && ((fmtOf fmt).isNone || decide (4 < op) || op == 4 && decide (5 < fmt) || len % max 1 (unitBytes fmt) != 0)
    || (eHerd s ring e).any (fun d =>
        ef e 40 4 != (d.lastSeq + 1) % 2 ^ 32 || coll == 3 && decide (d.members.length ≤ ef e 38 2)
          || coll ≤ 1 && fixed && herdRegion s d / ((activeRanks s d d.active).length * max 1 (unitBytes fmt)) == 0)

/-- Fields of a tenant's FIRST entry out of range (R152, R161, R166, R317, R320, R334, R340). -/
def tenantField (s : State) (ring : Nat) (g : Ring) (e : BitVec 512) : Bool :=
  let code := entryOpcode e
  let len := entryLength e
  (match code with
    | 1 => decide (189 < eSegments e)
    | 2 => decide (189 < eSegments e)
    | 3 => decide (189 < eSegments e)
    | 4 => !([8, 16].contains (ef e 4 1)) || decide (2 < ef e 5 1)
    | 5 => !(reduceAllowed (ef e 32 1) (ef e 33 1)) || len % max 1 (unitBytes (ef e 33 1)) != 0
    | 7 => len != 0
    | 9 => collField s ring e
    | _ => eKind e == 0 || decide (4 < eKind e) || eParamLen e == 0 || decide (3528 < eParamLen e)
        || code == 6 && decide (262080 < len + ef e 16 8 % 64))
  || code ≤ 7 && (eQp s ring e).any (fun q => typeForbids q code e || saBad s g.inst (entryQpn e) e || roceLengthBad s q e)

/-- SRC and DST of a COLLECTIVE overlap without being equal (R296, Table 10.3). -/
def collOverlap (s : State) (ring : Nat) (e : BitVec 512) : Bool :=
  match eHerd s ring e with
  | none => false
  | some d =>
    let c := collFromEntry ring { slot := 0, entry := e, head := 0 } d
    let c := { c with active := activeRanks s d d.active }
    let own := (shard d { c with kind := if c.kind = 0 then 1 else c.kind } (rankIndex c d.rank))
    let shardLen := (own.2 - own.1) * collUnit c
    let sl := if c.kind = 2 then shardLen else if c.kind = 4 ∨ (c.kind = 3 ∧ c.root ≠ d.rank) then 0 else c.len
    let dl := if c.kind = 1 then shardLen else if c.kind = 4 then 0 else c.len
    c.src != c.dst && decide (c.src < c.dst + dl) && decide (c.dst < c.src + sl)

/-- Addresses of a tenant's FIRST entry (R81, R296, R334). -/
def tenantAddress (s : State) (ring : Nat) (e : BitVec 512) : Bool :=
  let a := ef e 16 8
  let b := ef e 24 8
  let code := entryOpcode e
  let size := max 1 (if code = 4 then ef e 4 1 else if code = 5 then unitBytes (ef e 33 1) else 1)
  code != 7 && decide (vaEnd ≤ a) || [1, 2, 4, 5, 9].contains code && decide (vaEnd ≤ b)
    || code == 4 && b % size != 0 || code == 5 && (a % size != 0 || b % size != 0)
    || code == 9 && collOverlap s ring e

/-- The queue pair or Herd is not bound to the ring (R141, R293, R296). -/
def tenantUnbound (s : State) (ring : Nat) (e : BitVec 512) : Bool :=
  if entryOpcode e ≤ 7 then (eQp s ring e).isNone else entryOpcode e == 9 && (eHerd s ring e).isNone

/-! ### Chains (R145) -/

/-- The segments of one continuation, and whether a reserved byte or an unused slot of it is not 0. -/
def contSegments (e : BitVec 512) : List (Nat × Nat) := [8, 24, 40].map (fun o => (ef e o 8, ef e (o + 8) 4))

/-- Reserved fields of continuation `i` of a chain whose FIRST entry is given. -/
def contReserved (first e : BitVec 512) (i : Nat) : Bool :=
  ef e 0 1 / 16 != 0 || e.getLsbD 3 || nz e 2 6 ||
    (entryOpcode first ≤ 3 && (nz e 20 4 || nz e 36 4 || nz e 52 4 || nz e 56 8
      || (List.range 3).any (fun j => decide (eSegments first ≤ 3 * i + j) && nz e (8 + 16 * j) 16)))

/-- Checks of a chain that has its last entry: the whole payload is known. -/
def chainChecks (s : State) (g : Ring) (first : BitVec 512) (payload : List Byte) : List (Bool × Nat) :=
  let code := entryOpcode first
  let segs := segments { slot := 0, entry := first, head := 0, payload := payload }
  let kind := eKind first
  let n := eParamLen first
  let p := payload.take n
  let kernel := code == 6 || code == 8
  [ (kernel && (!(allZero (payload.drop n)) || paramReserved kind p), 2),
    (kernel && paramAddress s g.inst kind p (code == 8), 5),
    (code ≤ 3 && eSegments first != 0 && (segs.map Prod.snd).sum != entryLength first, 7),
    (kernel && (paramBad kind p n (entryLength first) (ef first 16 8) || code == 8 && flockBadFor s g.inst kind p), 8) ]

/-- Reasons of a chain's FIRST entry on a tenant ring. -/
def tenantChecks (s : State) (ring : Nat) (g : Ring) (e : BitVec 512) : List (Bool × Nat) :=
  [ (tenantReserved s ring e, 2), (g.openChain.isSome || e.getLsbD 2 && continuations e != 0, 3),
    (tenantField s ring g e, 4), (tenantAddress s ring e, 5), (tenantUnbound s ring e, 6) ]

/-- Reasons of a continuation: `i` continuations came before it, `payload` includes its own. -/
def contChecks (s : State) (g : Ring) (first e : BitVec 512) (i : Nat) (payload : List Byte) : List (Bool × Nat) :=
  let cq := (ringOf s g.cq).elim 0 ringSize
  let n := continuations first
  let last := e.getLsbD 2
  let whole := if last then chainChecks s g first payload else []
  [ (contReserved first e i, 2) ] ++ whole.take 1
    ++ [ (entryOpcode e != entryOpcode first || n == 0 || decide (n ≤ i) || last && i + 1 != n
        || decide (64 < i + 2) || decide (ringSize g < i + 2) || decide (cq < i + 2), 3),
      (entryOpcode first ≤ 3 && (contSegments e).any (fun x => decide (vaEnd ≤ x.1)), 5) ] ++ whole.drop 1

/-! ### Management entries (reserved fields, then ranges) -/

/-- The body of RING_REGISTER (Table 5.2). -/
def registerReserved (e : BitVec 512) : Bool :=
  let sq := ef e 26 1 == 0
  nz e 2 2 || ef e 24 2 / 2 ^ 15 != 0 || nz e 29 1 || ef e 30 2 / 2 ^ 9 != 0
    || (if ef e 26 1 = 1 then nz e 32 2 else ef e 32 2 / 2 ^ 15 != 0) || !sq && nz e 34 4
    || ef e 38 4 / 2 ^ 20 != 0 || nz e 42 22
def registerField (e : BitVec 512) : Bool :=
  ef e 16 8 % 4096 != 0 || ef e 24 2 % 2 ^ 15 < 2 || decide (2 < ef e 26 1) || decide (5 < ef e 27 1)
    || ef e 28 1 < 3 || decide (16 < ef e 28 1) || ef e 26 1 == 0 && decide (ef e 36 2 < ef e 34 2)

/-- The body of INVALIDATE (Table 3.10). -/
def invalReserved (e : BitVec 512) : Bool :=
  nz e 2 2 || ef e 17 3 / 2 ^ 20 != 0 || ef e 16 1 == 0 && (ef e 24 8 % 4096 != 0 || ef e 24 8 / 2 ^ 48 != 0) || nz e 32 32

/-- The body of QP_CREATE and QP_MODIFY (Tables 6.2 and 8.6). -/
def ahReserved (e : BitVec 512) : Bool :=
  let raw := ef e 51 1 % 2 == 1
  ef e 48 2 / 2 ^ 12 != 0 || ef e 50 1 / 2 ^ 5 != 0 || ef e 51 1 / 2 != 0 || nz e 55 1
    || ef e 17 1 == 3 && nz e 60 4 || raw && (nz e 48 2 || nz e 52 3 || nz e 56 4)
def qpCreateReserved (e : BitVec 512) : Bool :=
  let roce := 2 ≤ ef e 17 1
  ef e 18 1 / 2 ^ 5 != 0 || nz e 19 1 || roce && nz e 20 6 || ef e 26 2 / 2 ^ 15 != 0 || ef e 28 2 / 2 ^ 15 != 0
    || ef e 30 2 / 2 ^ 9 != 0 || ef e 41 1 / 16 != 0 || nz e 46 2 || (if roce then ahReserved e else nz e 48 16)
def qpCreateField (e : BitVec 512) : Bool :=
  nz e 16 1 || decide (3 < ef e 17 1) || ef e 23 1 / 32 != 0 || decide (4095 < ef e 44 2)
def qpModifyReserved (s : State) (e : BitVec 512) : Bool :=
  let act := ef e 16 1
  let roce := (qpOf s (entryQpn e)).any isRoce
  nz e 17 3 || nz e 26 6 || nz e 46 18 || (act != 1 || roce) && nz e 20 6 || act != 1 && nz e 32 8
    || (if act = 2 then ef e 41 1 / 16 != 0 else nz e 40 6)
def qpModifyField (e : BitVec 512) : Bool :=
  let act := ef e 16 1
  act == 0 || decide (3 < act) || act == 1 && ef e 23 1 / 32 != 0 || act == 2 && decide (4095 < ef e 44 2)

/-- The body of HERD_DEFINE (Table 10.1). -/
def herdReserved (e : BitVec 512) : Bool :=
  nz e 2 2 || ef e 24 2 / 2 ^ 15 != 0 || ef e 26 2 / 2 ^ 9 != 0 || ef e 30 1 / 4 != 0 || nz e 39 1 || nz e 48 16
def herdField (e : BitVec 512) : Bool :=
  let n := ef e 18 2
  n == 0 || decide (4096 < n) || decide (n ≤ ef e 20 2) || decide (65536 < ef e 22 2 + n) || ef e 31 1 == 0
    || decide (8 < ef e 31 1) || ef e 32 4 < 16 || decide (65536 < ef e 32 4) || !([0, 5].contains (ef e 38 1))
    || ef e 40 8 % 8 != 0

/-- The body of KEY_LOAD (Tables 15.1 and 15.3). -/
def keyReserved (e : BitVec 512) : Bool :=
  nz e 2 2 || ef e 16 2 / 2 ^ 13 != 0 ||
    (if ef e 18 1 = 2 then nz e 19 45
     else ef e 22 1 / 2 != 0 || nz e 23 1 || ef e 24 2 / 2 ^ 9 != 0 || decide (2 ≤ ef e 21 1) && nz e 26 2 || nz e 28 4
       || nz e 38 2 || nz e 48 16)
def keyField (e : BitVec 512) : Bool :=
  decide (2 < ef e 18 1) || ef e 18 1 != 2 && (decide (4 < ef e 19 1) || decide (1 < ef e 20 1) || decide (3 < ef e 21 1)
    || ef e 21 1 ≤ 1 && ef e 19 1 < 3 || ef e 40 8 % 64 != 0)

/-- The instance command bodies (Table 16.4). -/
def instReserved (e : BitVec 512) : Bool :=
  let part := ef e 18 1
  nz e 2 2 || ef e 16 2 / 2 ^ 9 != 0 ||
    match entryOpcode e with
    | 0x19 => ef e 19 1 / 2 != 0 || nz e 20 44
    | 0x1A => nz e 19 5 || part == 1 && nz e 24 8 || nz e 32 32
    | 0x1B => ef e 19 1 / 2 != 0 || ef e 19 1 % 2 == 0 && nz e 22 2 || part == 0 && nz e 24 8
        || ef e 32 4 / 2 ^ 20 != 0 || nz e 36 4 || nz e 56 8
    | _ => nz e 19 1 || nz e 22 2 || part != 0 && (nz e 24 8 || nz e 36 2) || ef e 32 4 / 2 ^ 20 != 0 || nz e 38 2 || nz e 56 8
def instField (e : BitVec 512) : Bool :=
  let part := ef e 18 1
  ef e 16 2 % 512 == 0 || nz e 4 4 ||
    match entryOpcode e with
    | 0x19 => decide (2 < part)
    | 0x1A => decide (1 < part)
    | 0x1B => decide (2 < part)
    | _ => decide (2 < part) || part == 0 && (ef e 24 8 % 16 != 0 || decide (4096 < ef e 36 2))

/-- Reserved fields of a management entry. -/
def mgmtReserved (s : State) (e : BitVec 512) : Bool :=
  ef e 0 1 / 16 != 0 ||
    match entryOpcode e with
    | 0x10 => registerReserved e
    | 0x11 => nz e 2 2 || ef e 16 2 / 2 ^ 15 != 0 || nz e 18 46
    | 0x12 => invalReserved e
    | 0x13 => qpCreateReserved e
    | 0x14 => qpModifyReserved s e
    | 0x15 => nz e 16 48
    | 0x16 => herdReserved e
    | 0x17 => nz e 2 2 || nz e 18 46
    | 0x18 => keyReserved e
    | 0x1D => nz e 2 2 || ef e 28 1 / 4 != 0 || nz e 29 3 || nz e 44 20
    | _ => instReserved e

/-- Fields of a management entry out of range. -/
def mgmtField (e : BitVec 512) : Bool :=
  match entryOpcode e with
  | 0x10 => registerField e
  | 0x11 => ef e 16 2 < 2
  | 0x12 => decide (2 < ef e 16 1)
  | 0x13 => qpCreateField e
  | 0x14 => qpModifyField e
  | 0x15 => false
  | 0x16 => herdField e
  | 0x17 => false
  | 0x18 => keyField e
  | 0x1D => ef e 16 8 % 4096 != 0 || ef e 32 8 % 4096 != 0
  | _ => instField e

/-- Reasons of a management entry. -/
def mgmtChecks (s : State) (g : Ring) (e : BitVec 512) : List (Bool × Nat) :=
  [ (mgmtReserved s e, 2), (g.openChain.isSome, 3), (mgmtField e, 4),
    ([0x1B, 0x1C].contains (entryOpcode e) && decide (vaEnd ≤ ef e 40 8), 5) ]

/-! ### Acceptance -/

/-- The chain that a fetched entry continues: its FIRST entry's slot, that entry, and its continuations so far. -/
def openChainOf (g : Ring) : Option (Nat × Op × Nat) :=
  g.openChain.bind (fun h =>
    (g.ops.find? (fun o => o.slot == h)).map (fun o => (h, o, (g.ops.filter (fun x => x.head == h)).length - 1)))

/-- The first reason of Table 5.10 that a fetched entry meets (R153). -/
def entryReason (s : State) (ring : Nat) (g : Ring) (e : BitVec 512) : Option Nat :=
  let code := entryOpcode e
  if !(opcodeOk ring code) then some 1
  else if e.getLsbD 1 then
    firstReason (if ring = 0 then mgmtChecks s g e else tenantChecks s ring g e)
  else
    match openChainOf g with
    | none => firstReason [(ef e 0 1 / 16 != 0, 2), (true, 3)]
    | some (_, o, i) => firstReason (contChecks s g o.entry e i (o.payload ++ (entryBytes e).drop 8))

/-- Take a fetched entry into its ring: the reservation is used, and a continuation adds its payload to its chain. -/
def takeEntry (ring : Nat) (g : Ring) (e : BitVec 512) (bad : Option Nat) (s : State) : State :=
  let slot := g.nextFetch % ringSize g
  let chain := if e.getLsbD 1 then none else g.openChain
  let head := chain.getD slot
  let last := e.getLsbD 2
  let o : Op := { slot := slot, entry := e, head := head, malformed := bad, whole := chain.isSome || last }
  let grow := fun (x : Op) => if chain.isSome && x.slot == head then
    { x with payload := x.payload ++ (entryBytes e).drop 8, whole := last } else x
  updRing ring (fun g => { g with
    nextFetch := g.nextFetch + 1, reserved := false, fetched := none
    ops := g.ops.map grow ++ [o], openChain := if last then none else some head }) s

/-- What the acceptance of a sound entry does at once: a COLLECTIVE uses its SEQ (R295), and an operation of a queue
pair in ERROR or MOVED_WAIT completes (R185, R186). -/
def entryEffects (ring : Nat) (e : BitVec 512) (head : Nat) (s : State) : State :=
  let s := if entryOpcode e = 9 then updHerd (ef e 32 2) (fun d => { d with lastSeq := d.lastSeq + 1 }) s else s
  match opAt s ring head with
  | none => s
  | some o =>
    let tier := entryOpcode o.entry == 1 && (tierSlot s (entrySa o.entry)).isSome
    if ring = 0 || decide (7 < entryOpcode o.entry) || tier || !o.whole then s
    else
      match (qpOf s (entryQpn o.entry)).map Qp.state with
      | some .error => finishOp ring head { status := stRetryExceeded } s
      | some .movedWait => finishOp ring head { status := stMoved } s
      | _ => s

/-- ENTRY_ACCEPT (R138): the entry that the last poll of a ring found, checked (R153); a malformed one halts its
instance or the adapter (R154, R155).  No entry is accepted while the queue-scheduling Bantam restarts (R158) or
the ring's bonded Flock is not formed (R58). -/
def entryAccept (ring : Nat) (s : State) : State :=
  match ringOf s ring with
  | none => s
  | some g =>
    match g.fetched with
    | none => s
    | some e =>
      let st := (inst s g.inst).state
      if !g.reserved || bantamBusy s 1 || ring != 0 && (st != .ready || bondWaits s g.inst) then s
      else
        let slot := g.nextFetch % ringSize g
        let reason := entryReason s ring g e
        let head := if e.getLsbD 1 then slot else g.openChain.getD slot
        let s := takeEntry ring g e reason s
        match reason with
        | some r => haltFor ring slot r s
        | none => entryEffects ring e head s

/-- ENTRY_ACCEPT (R138). -/
def execEntryAccept (ring : Nat) (s : State) : Res := .next (whenOk (working s) (entryAccept ring) s)

end Sys2Proof.Machine
end

