-- ==== Sys2Proof/Machine/Lanzil.lean ====
section
/-! DEFINITION. The Lanzil image: its layout, its parsing and every check of R59 in order (R44 to R58,
R527), and the writes of GX_LZ_CONTROL.ACTION (R61, R62, R73). -/

namespace Sys2Proof.Machine

/-- A failed check: RESULT, DETAIL_KIND and DETAIL of GX_LZ_STATUS (R73). -/
structure LzErr where
  result : Nat
  kind : Nat := 0
  detail : Nat := 0
  deriving DecidableEq, Repr

/-- The error of the first check that is bad. -/
def firstErr (checks : List (Bool × LzErr)) : Option LzErr :=
  (checks.find? Prod.fst).map Prod.snd

/-- A directory entry (R44): its index, TYPE, OFFSET and LENGTH. -/
structure LzDir where
  idx : Nat
  type : Nat
  off : Nat
  len : Nat
  deriving DecidableEq, Repr

/-- The directory of an image. -/
def lzDirs (img : List Byte) : List LzDir :=
  (List.range (leAt img 0x0C 4)).map (fun i =>
    let o := 0x60 + 16 * i
    ⟨i, leAt img o 2, leAt img (o + 4) 4, leAt img (o + 8) 4⟩)

/-- FLAGS bit 0: a partial image (Table 2.1). -/
def lzPartial (img : List Byte) : Bool := leAt img 6 2 % 2 == 1

/-- Length of the signature trailer (R45). -/
def trailerLen : Nat := 5140

/-- Step 1 of R59: MAGIC, FORMAT, TOTAL_LEN, directory bounds. -/
def lzHeaderBad (img : List Byte) : Bool :=
  let n := leAt img 0x0C 4
  leAt img 0 4 != 0x314E5A4C || leAt img 4 2 != 1 || leAt img 8 4 != img.length
    || 0x100000 < img.length || n == 0 || 16 < n
    || img.length < 0x60 + 16 * n + trailerLen
    || (lzDirs img).any (fun d => d.off % 8 != 0 || d.off < 0x60 + 16 * n
        || img.length - trailerLen < d.off + d.len)

/-- Bytes of the section of a TYPE, if the image has it. -/
def lzSection (img : List Byte) (ty : Nat) : Option (LzDir × List Byte) :=
  ((lzDirs img).find? (fun d => d.type == ty)).map (fun d => (d, slice img d.off d.len))

/-- Cut bytes into records of n. -/
def records (n count : Nat) (bs : List Byte) : List (List Byte) :=
  (List.range count).map (fun i => slice bs (n * i) n)

/-- The size of a TYPE's records and of the fixed bytes before them (Table 2.2). -/
def lzRecord (ty : Nat) : Nat × Nat :=
  match ty with
  | 1 => (8, 4)
  | 2 => (32, 0)
  | 3 => (4, 0)
  | 4 => (16, 0)
  | 5 => (16, 0)
  | 6 => (8, 0)
  | 7 => (8, 0)
  | _ => (8, 0)

/-- The records of a section. -/
def lzRecords (ty : Nat) (bs : List Byte) : List (List Byte) :=
  let (n, h) := lzRecord ty
  records n ((bs.length - h) / n) (bs.drop h)

/-- A record's reserved bytes are not all zero. -/
def lzReservedBad (ty : Nat) (r : List Byte) : Bool :=
  match ty with
  | 1 => !(allZero (slice r 3 1) && allZero (slice r 6 2))
  | 2 => !(allZero (slice r 10 2) && allZero (slice r 16 16)) || 8 ≤ leAt r 5 1
  | 4 => !(allZero (slice r 12 4))
  | 8 => !(allZero (slice r 6 2))
  | _ => false

/-- A section's length or reserved fields are bad (step 5 of R59). -/
def lzLayoutBad (ty : Nat) (bs : List Byte) : Bool :=
  let (n, h) := lzRecord ty
  bs.length < h || (bs.length - h) % n != 0
    || (ty == 5 || ty == 6 || ty == 7) && bs.length != n
    || (lzRecords ty bs).any (lzReservedBad ty)

/-- Step 5 of R59 and R46: the set of types, each section's layout, reserved fields. -/
def lzSectionErr (img : List Byte) : Option LzErr :=
  let ds := lzDirs img
  let types := ds.map (·.type)
  let dirBad := fun (d : LzDir) => !(allZero (slice img (0x60 + 16 * d.idx + 12) 4))
  let part := lzPartial img
  let allowed := if part then [1, 2, 3, 4, 6, 7] else [1, 2, 3, 4, 5, 6, 7, 8]
  let tree := [2, 3, 4].filter (types.contains ·)
  firstErr (
    ds.map (fun d => (!(allowed.contains d.type) || 1 < types.count d.type, ⟨5, 1, d.idx⟩))
    ++ [(!part && [1, 2, 3, 4, 5, 6, 7].any (fun t => !(types.contains t)), ⟨5, 0, 0⟩),
        (part && tree.length != 0 && tree.length != 3, ⟨5, 0, 0⟩),
        (2 ≤ leAt img 6 2 || leAt img 0x1C 4 != 0, ⟨5, 0, 0⟩),
        (!part && !(allZero (slice img 0x20 64)), ⟨5, 0, 0⟩)]
    ++ ds.map (fun d => (dirBad d, ⟨5, 1, d.idx⟩))
    ++ ds.map (fun d => (lzLayoutBad d.type (slice img d.off d.len), ⟨5, 1, d.idx⟩)))

/-! ### Parsing -/

/-- A PORTS entry (R47). -/
def parsePort (r : List Byte) : LzPort :=
  ⟨leAt r 0 1 == 1, leAt r 1 1 == 1, leAt r 2 1 == 1, leAt r 4 2⟩

/-- A Flock record (Table 2.4). -/
def parseFlock (r : List Byte) : Flock :=
  let p := leAt r 2 2
  let f := leAt r 5 1
  { id := leAt r 0 2, parent := if p = 0xFFFF then none else some p
    kind := match leAt r 4 1 with
      | 0 => .inner
      | 1 => .leafEngines
      | _ => .leafCore
    exported := f % 2 == 1, inst := f / 2 % 2 == 1, bonded := f / 4 % 2 == 1
    core := leAt r 6 1, mask := BitVec.ofNat 8 (leAt r 7 1)
    slot := leAt r 8 1, unit := leAt r 9 1, bond := leAt r 12 4 }

/-- A MEMORY entry (R55). -/
def parseMem (r : List Byte) : LzMem := ⟨leAt r 0 2, leAt r 2 2, leAt r 4 4, leAt r 8 4⟩

/-- A BONDS entry (R58). -/
def parseBond (r : List Byte) : LzBond := ⟨leAt r 0 4, leAt r 4 1, leAt r 5 1⟩

/-- Records of a TYPE in an image; none for an absent section. -/
def imgRecords (img : List Byte) (ty : Nat) : List (List Byte) :=
  match lzSection img ty with
  | some (_, bs) => lzRecords ty bs
  | none => []

/-- The structure of an image whose sections stand over a base structure. -/
def parseImage (img : List Byte) (base : Structure) : Structure :=
  let has := fun ty => (lzSection img ty).isSome
  let sec := fun ty => (lzSection img ty).elim [] Prod.snd
  { buildId := if lzPartial img then base.buildId else BitVec.ofNat 64 (leAt img 0x10 8)
    minRev := leAt img 0x18 4
    widthMode := if has 1 then leAt (sec 1) 0 4 else base.widthMode
    ports := if has 1 then (imgRecords img 1).map parsePort else base.ports
    flocks := if has 2 then (imgRecords img 2).map parseFlock else base.flocks
    insts := if has 3 then (imgRecords img 3).map (fun r => (leAt r 0 2, leAt r 2 2)) else base.insts
    mems := if has 4 then (imgRecords img 4).map parseMem else base.mems
    sram := if has 5 then (leAt (sec 5) 0 4, leAt (sec 5) 4 4, leAt (sec 5) 8 4, leAt (sec 5) 12 4)
            else base.sram
    period := if has 6 then leAt (sec 6) 0 4 else base.period
    guard := if has 6 then leAt (sec 6) 4 4 else base.guard
    nodeIds := if has 7 then leAt (sec 7) 0 4 else base.nodeIds
    large := if has 7 then leAt (sec 7) 4 4 else base.large
    bonds := if has 8 then (imgRecords img 8).map parseBond else base.bonds }

/-! ### Semantic checks (step 6 of R59) -/

/-- GUARD is less than half the tick length in clk (R41). -/
def guardFits (period guard : Nat) : Bool := 4 * guard < 375 * period

/-- R48 on the PORTS section. -/
def portsChecks (img : List Byte) (d : Nat) : List (Bool × LzErr) :=
  let bs := (lzSection img 1).elim [] Prod.snd
  let mode := leAt bs 0 4
  let rs := lzRecords 1 bs
  (3 < mode, ⟨6, 1, d⟩) :: (rs.length != portCount mode, ⟨6, 1, d⟩)
    :: rs.zipIdx.map (fun (r, i) =>
        (1 < leAt r 0 1 || 1 < leAt r 1 1 || 1 < leAt r 2 1
          || leAt r 2 1 == 1 && leAt r 1 1 == 0
          || leAt r 1 1 == 1 && (leAt r 4 2 < 1518 || 9216 < leAt r 4 2), ⟨6, 3, i⟩))

/-- The engines that two leaves may not share (R51 check 3). -/
def sharesEngine (a b : Flock) : Bool :=
  a.kind != .inner && b.kind != .inner && a.core == b.core && (a.mask &&& b.mask) != 0

/-- R51, the field ranges of Table 2.4 and R527, for one record of a structure. -/
def flockBad (st : Structure) (lost : List Nat) (i : Nat) (f : Flock) (kindByte : Nat) : Bool :=
  let earlier := st.flocks.take i
  let ancInst := f.inst && st.flocks.any (fun a => a.inst && a.id != f.id && beneath st a.id f.id)
  let underInst := st.flocks.any (fun a => a.inst && beneath st a.id f.id)
  let parentBad :=
    match f.parent with
    | none => false
    | some p => !(earlier.any (fun e => e.id == p && e.kind == .inner))
  2 < kindByte || 4095 < f.id || earlier.any (fun e => e.id == f.id)
    || parentBad
    || f.kind == .inner && !(st.flocks.any (fun c => c.parent == some f.id))
    || earlier.any (sharesEngine f)
    || f.inst && !f.exported
    || ancInst
    || f.exported && !f.inst && !underInst
    || f.exported && earlier.any (fun e => e.exported && e.slot == f.slot && e.unit == f.unit)
    || f.exported && (st.nodeIds ≤ f.slot || 63 < f.unit)
    || f.bonded && (f.kind != .inner || !(st.bonds.any (fun b => b.id == f.bond)))
    || !f.bonded && f.bond != 0
    || f.kind == .inner && (f.mask != 0 || f.core != 0)
    || f.kind != .inner && (15 < f.core || f.mask == 0 || lost.contains f.core)
    || f.kind == .leafCore && f.mask != 0xFF

/-- The checks of FLOCKS (R50, R51, R527). -/
def flocksChecks (img : List Byte) (st : Structure) (lost : List Nat) (d : Nat) : List (Bool × LzErr) :=
  let rs := imgRecords img 2
  (rs.length == 0 || 4096 < rs.length, ⟨6, 1, d⟩)
    :: (st.flocks.zip rs).zipIdx.map (fun ((f, r), i) =>
        (flockBad st lost i f (leAt r 4 1), ⟨6, 2, f.id⟩))

/-- The checks of INSTANCES (R54). -/
def instsChecks (st : Structure) (d : Nat) : List (Bool × LzErr) :=
  (st.insts.length == 0 || 512 < st.insts.length, ⟨6, 1, d⟩)
    :: (!(st.insts.any (fun e => e.1 == 0)), ⟨6, 1, d⟩)
    :: st.insts.zipIdx.map (fun (e, i) =>
        let earlier := st.insts.take i
        (511 < e.1 || earlier.any (fun x => x.1 == e.1 || x.2 == e.2)
          || !((flockOf st e.2).any (·.inst)), ⟨6, 2, e.2⟩))
    ++ st.flocks.map (fun f => (f.inst && !(st.insts.any (fun e => e.2 == f.id)), ⟨6, 2, f.id⟩))

/-- The checks of MEMORY (R55) with the assignable granules of each tier (R109, R111). -/
def memsChecks (st : Structure) (avail1 avail2 d : Nat) : List (Bool × LzErr) :=
  let coreSum := fun c => (st.mems.map (fun m =>
      if (flockOf st m.flock).any (fun f => f.kind != .inner && f.core == c) then m.cstore else 0)).sum
  st.mems.zipIdx.map (fun (m, i) =>
      (match flockOf st m.flock with
        | none => true
        | some f => (st.mems.take i).any (fun x => x.flock == m.flock)
            || m.cstore != 0 && f.kind == .inner
            || (m.t1 != 0 || m.t2 != 0) && !f.exported, ⟨6, 2, m.flock⟩))
    ++ [((List.range 16).any (fun c => 80 < coreSum c), ⟨6, 1, d⟩),
        (avail1 < (st.mems.map (·.t1)).sum || avail2 < (st.mems.map (·.t2)).sum, ⟨6, 1, d⟩)]

/-- The checks of SRAM, TICK, DOMAIN and BONDS (R56 to R58). -/
def restChecks (st : Structure) (dir : Nat → Option Nat) : List (Bool × LzErr) :=
  let (q, r, p, c) := st.sram
  let at_ := fun ty bad => (dir ty).elim [] (fun d => [(bad, LzErr.mk 6 1 d)])
  at_ 5 (q < 16 || r < 8 || p < 16 || q + r + p + c != 248)
    ++ at_ 6 (st.period < 4 || 64 < st.period || !(guardFits st.period st.guard))
    ++ at_ 7 (st.nodeIds == 0 || 8 < st.nodeIds || st.large == 0 || 8388608 < st.large
        || st.flocks.any (fun f => f.exported && st.nodeIds ≤ f.slot))
    ++ at_ 8 (32 < st.bonds.length || st.bonds.any (fun b => b.id == 0 || b.members < 2
        || 16 < b.members || b.members ≤ b.index || 1 < (st.bonds.map (·.id)).count b.id))

/-- Step 6 of R59 on an image that stands over a base structure. -/
def lzSemanticErr (img : List Byte) (st : Structure) (lost : List Nat) (avail1 avail2 : Nat) : Option LzErr :=
  let dir := fun ty => (lzSection img ty).map (fun p => p.1.idx)
  let on := fun ty (f : Nat → List (Bool × LzErr)) => (dir ty).elim [] f
  firstErr (on 1 (portsChecks img) ++ on 2 (flocksChecks img st lost) ++ on 3 (instsChecks st)
    ++ on 4 (memsChecks st avail1 avail2) ++ restChecks st dir)

/-- R59 in order, for an image that stands over a base structure.  `want` is the kind that the action
takes: none for VERIFY, else PARTIAL (true) or FULL (false). -/
def lzCheck (img : List Byte) (v : Verdict) (base : Structure) (want : Option Bool)
    (lost : List Nat) (avail1 avail2 : Nat) : Option LzErr :=
  let part := lzPartial img
  let st := parseImage img (if part then base else Structure.empty)
  match firstErr [(lzHeaderBad img, ⟨1, 0, 0⟩), (want.any (fun w => w != part), ⟨1, 0, 0⟩), (!v.rsa, ⟨2, 0, 0⟩),
      (!v.mldsa, ⟨3, 0, 0⟩), (0x0100 < leAt img 0x18 4, ⟨4, 0, 0⟩)] with
  | some e => some e
  | none =>
    match lzSectionErr img with
    | some e => some e
    | none => if part && !v.base then some ⟨7, 0, 0⟩ else lzSemanticErr img st lost avail1 avail2

/-! ### GX_LZ_STATUS and the actions -/

/-- GX_LZ_STATUS: STATE, RESULT, DETAIL_KIND and DETAIL (R73). -/
def lzStatus (state : Nat) (e : LzErr) (s : State) : State :=
  putReg Reg.GX_LZ_STATUS (BitVec.ofNat 32 (state + 8 * e.kind + 256 * e.result + 65536 * e.detail)) s

/-- An action ends: STATE DONE, its result, DONE and, for a result other than OK, FAILED. -/
def lzEnd (e : LzErr) (s : State) : State :=
  let s := lzStatus 3 e { s with lz := { s.lz with action := 0, held := none } }
  let s := raise Reg.GX_LZ_EVENTS 0 s
  if e.result = 0 then s else raise Reg.GX_LZ_EVENTS 1 s

/-- A write of GX_LZ_CONTROL.ACTION by the function of an instance (R61, R62). -/
def lzStart (kind requester : Nat) (s : State) : State :=
  if requester ≠ 0 then s
  else if s.lz.action ≠ 0 then
    putReg Reg.GX_LZ_STATUS ((rg s Reg.GX_LZ_STATUS &&& 0xFFFF00FF) ||| 0x0800) s
  else if rg s Reg.GX_LZ_STAGE_LEN = 0 then lzEnd ⟨1, 0, 0⟩ s
  else lzStatus 1 ⟨0, 0, 0⟩ { s with lz := { s.lz with action := kind } }

/-- LZ_VERIFY (R61). -/
def execLzVerify (requester : Nat) (s : State) : Res := .next (whenOk (running s) (lzStart 1 requester) s)

/-- LZ_PARTIAL (R61). -/
def execLzPartial (requester : Nat) (s : State) : Res := .next (whenOk (running s) (lzStart 2 requester) s)

/-- LZ_FULL (R61). -/
def execLzFull (requester : Nat) (s : State) : Res := .next (whenOk (running s) (lzStart 3 requester) s)

end Sys2Proof.Machine
end

