-- ==== Sys2Proof/Machine/Apply.lean ====
section
/-! DEFINITION. Making a structure the running one: at a reset (R59, R60), and at the edge of a partial reload
(R63 to R66). -/

namespace Sys2Proof.Machine

/-! ### What a partial image changes (R63, R64) -/

/-- What an image says of one Flock: its record, memory entry and instances. -/
def flockEntry (st : Structure) (id : Nat) : Option Flock × Option LzMem × List (Nat × Nat) :=
  (flockOf st id, st.mems.find? (fun m => m.flock == id), st.insts.filter (fun e => e.2 == id))

/-- FLOCK_IDs of two structures, ascending. -/
def flockIds (a b : Structure) : List Nat :=
  (List.range 4096).filter (fun id => (flockOf a id).isSome || (flockOf b id).isSome)

/-- The record, the descendants or the memory entry of a Flock differ (R63). -/
def flockChanged (a b : Structure) (id : Nat) : Bool :=
  (flockIds a b).any (fun j => (beneath a id j || beneath b id j) && flockEntry a j != flockEntry b j)

/-- The exported Flock that a Flock is, or that lies nearest above it. -/
def exportedAbove (st : Structure) : Nat → Nat → Option Flock
  | 0, _ => none
  | fuel + 1, id =>
    match flockOf st id with
    | none => none
    | some f => if f.exported then some f else f.parent.elim none (exportedAbove st fuel)

/-- An instance has been reset and not yet been given rings. -/
def instFresh (s : State) (n : Nat) : Bool :=
  !(inst s n).ringed && ((inst s n).state == .ready || (inst s n).state == .disabled)

/-- A Flock of the running structure meets the idle condition (R64). -/
def flockIdle (s : State) (id : Nat) : Bool :=
  match exportedAbove s.lz.run 64 id with
  | none => false
  | some f =>
    let ns := s.lz.run.insts.filter (fun e => e.2 == f.id)
    !ns.isEmpty && ns.all (fun e => instFresh s e.1)

/-- A Flock is bonded, or lies beneath a bonded one. -/
def flockBonded (st : Structure) (id : Nat) : Bool :=
  st.flocks.any (fun f => f.bonded && beneath st f.id id)

/-- The first Flock that a change of the tree touches although it is bonded (BONDED), or not idle (BUSY) (R64). -/
def reloadErr (s : State) (next : Structure) : Option LzErr :=
  let ids := (flockIds s.lz.run next).filter (flockChanged s.lz.run next)
  match ids.find? (fun id => flockBonded s.lz.run id || flockBonded next id) with
  | some id => some ⟨9, 2, id⟩
  | none =>
    (ids.find? (fun id => (flockOf s.lz.run id).isSome && !(flockIdle s id))).map (fun id => ⟨8, 2, id⟩)

/-! ### A structure takes effect -/

/-- Wipe the core-store regions of leaves that are new at their place. -/
def wipeNewRegions (old next : Structure) (s : State) : State :=
  let place := fun st (f : Flock) => (f.core, regionStart st f, regionSize st f)
  let new := next.flocks.filter (fun f => f.kind != .inner
    && !((flockOf old f.id).any (fun g => g.kind != .inner && place old g == place next f)))
  { s with mem := { s.mem with stores := new.foldl (fun m f =>
      bytesWipe m (storeKey f.core (regionStart next f)) (regionSize next f)) s.mem.stores } }

/-- Every instance is READY or DISABLED as R430 says. -/
def settleInsts (s : State) : State :=
  let ns := ((s.lz.run.insts.map Prod.fst) ++ s.vi.insts.map Prod.fst).eraseDups
  ns.foldl (fun s n =>
    let st := (inst s n).state
    if instShould s n then (if st == .disabled then enterState n .ready (setInst n {} s) else s)
    else if st == .disabled then s
    else enterState n .disabled (setInst n {} s)) s

/-- A port that may train or come up does so (R208, R227). -/
def openPorts (s : State) : State := (List.range (portCount s.lz.run.widthMode)).foldl (fun s p => openPort p s) s

/-- The live values and shadows of PERIOD and GUARD become those of the structure. -/
def loadTick (st : Structure) (s : State) : State :=
  let set := fun off v s => putShadow off v (putReg off v s)
  set Reg.GX_TICK_PERIOD (BitVec.ofNat 32 st.period) (set Reg.GX_TICK_GUARD (BitVec.ofNat 32 st.guard) s)

/-- At a reset the structure of an image, or the empty one, becomes the running one (R59, R60, R110). -/
def applyStructure (st : Structure) (loaded : Bool) (s : State) : State :=
  let s := { s with lz := { s.lz with run := st, loaded := loaded, held := none, action := 0, formed := [],
                                      fencedMembers := [], unitActions := [], fenced := [] } }
  let s := { s with mem := { s.mem with owner := assignGranules s st } }
  openPorts (settleInsts (loadTick st s))

/-! ### The partial reload -/

/-- R41 on a PERIOD, a GUARD and the live ACTIVATE. -/
def tickCommitBad (s : State) (period guard : Nat) : Bool :=
  let act := (rg s Reg.GX_TICK_ACTIVATE_HI ++ rg s Reg.GX_TICK_ACTIVATE_LO : BitVec 64)
  (act != 0 && decide (act.toNat ≤ s.tick.count.toNat)) || decide (period < 4) || decide (64 < period)
    || !(guardFits period guard)

/-- A tick-block commit takes effect (R33, R37, R41): the anchor pair, `behind` ends, and a locked PTP client
starts acquisition again. -/
def tickCommitted (act : BitVec 64) (s : State) : State :=
  let epoch := (rg s Reg.GX_TICK_EPOCH_HI ++ rg s Reg.GX_TICK_EPOCH_LO : BitVec 64)
  let s := { s with tick := { s.tick with anchorTick := act, anchorTime := epoch, behind := false } }
  if s.tick.align = .free && s.tick.ptpLocked then enterAlign .acquire s else s

/-- When step 3 of an edge has changed PERIOD, the tick that begins has the new length, less what was cut from it, and
the shorter tick of an odd PERIOD comes first (R26). -/
def tickResize (old s : State) : State :=
  if period old = period s then s
  else
    let cut := (plainTickClk (period old) (!old.tick.longNext) : Int) - old.tick.lengthClk
    beginTick s.tick.count cut { s with tick := { s.tick with longNext := false } }

/-- ACTIVATE as it stands. -/
def activateTick (s : State) : BitVec 64 := rg s Reg.GX_TICK_ACTIVATE_HI ++ rg s Reg.GX_TICK_ACTIVATE_LO

/-- Shadows of the tick block that a commit copies. -/
def tickShadows : List Nat := [Reg.GX_TICK_PERIOD, Reg.GX_TICK_GUARD, Reg.GX_TICK_EPOCH_LO, Reg.GX_TICK_EPOCH_HI]

/-- A TICK section at its edge (R63, R65): PERIOD and GUARD go to the shadows and are committed under R41: at once,
or at the tick that GX_TICK_ACTIVATE names.  A pending commit of the block is discarded; the commit register keeps
its number. -/
def reloadTick (st : Structure) (s : State) : State :=
  let s := putShadow Reg.GX_TICK_PERIOD (BitVec.ofNat 32 st.period)
    (putShadow Reg.GX_TICK_GUARD (BitVec.ofNat 32 st.guard) s)
  let s := if (mapGet s.commits 0x1).isSome then
      raise Reg.GX_LZ_EVENTS 2 { s with commits := mapErase s.commits 0x1 }
    else s
  let act := activateTick s
  if act = 0 then
    tickCommitted 0 (tickShadows.foldl (fun s k => putReg k (shadowAt s k) s) s)
  else
    let vals := tickShadows.map (fun k => (k, shadowAt s k))
    { s with commits := mapSet s.commits 0x1 { seq := rg s Reg.GX_TICK_COMMIT, vals := vals, atTick := act } }

/-- Ports whose entry differs go down (R63); another WIDTH_MODE gives every port other lanes, so all go down.  A port that is disabled, changes its personality
or its width is no longer a source of the check-value units (R404), and a change of personality clears the Ethernet
counters (R258). -/
def closePorts (next : Structure) (s : State) : State :=
  (List.range s.lz.run.ports.length).foldl (fun s p =>
    let was := s.lz.run.ports[p]?
    let now := next.ports[p]?
    let wide := s.lz.run.widthMode != next.widthMode
    let turned := (was.map (·.eth)) != (now.map (·.eth))
    let s := if wide || turned || (was.any (·.enable) && !(now.any (·.enable))) then cvLost p s else s
    let s := if turned then modEth p (fun e => { e with counters := [] }) s else s
    if !wide && was == now then s
    else if isEthPort s p then ethDown p s
    else if isCellPort s p then toDisabled p s
    else s) s

/-- Give the tree, the instances and the memory of a partial image effect: granules that change hands or become
free are wiped (R112). -/
def reloadTree (old : Structure) (s : State) : State :=
  let own := assignGranules s s.lz.run
  let moved := (s.mem.owner.filter (fun e => mapGet own e.1 != some e.2)).map Prod.fst
  let s := startWipe moved { s with mem := { s.mem with owner := own } }
  settleInsts (wipeNewRegions old s.lz.run s)

/-- PARTIAL_RELOAD_APPLY (R63 to R66) at an edge: an emergency holds it. -/
def partialApply (s : State) : State :=
  match s.lz.held with
  | none => s
  | some r =>
    if s.pw.emergency then lzStatus 2 ⟨0, 0, 0⟩ s
    else
      match (if r.tree then reloadErr s r.next else none) with
      | some e => lzEnd e s
      | none =>
        if r.tick.isSome && tickCommitBad s r.next.period r.next.guard then
          lzEnd ⟨6, 1, r.tick.getD 0⟩ (raise Reg.GX_TICK_EVENTS 3 s)
        else
          let now := s
          let old := s.lz.run
          let s := closePorts r.next s
          let s := { s with lz := { s.lz with run := r.next } }
          let s := if r.tree then reloadTree old s else s
          let s := if r.tick.isSome then reloadTick r.next s else s
          lzEnd ⟨0, 0, 0⟩ (openPorts (tickResize now s))

/-- PARTIAL_RELOAD_APPLY (R63). -/
def execPartialReloadApply (s : State) : Res := .next (whenOk (running s) partialApply s)

/-! ### The end of an action (R61) -/

/-- The check of the running action's image (R59, R64): `image` is the staged image as it was read. -/
def actionCheck (image : List Byte) (v : Verdict) (s : State) : Option LzErr :=
  let want := if s.lz.action = 2 then some true else if s.lz.action = 3 then some false else none
  match lzCheck image v s.lz.run want s.re.now.lost (avail1 s) (avail2 s) with
  | some e => some e
  | none =>
    if lzPartial image && (lzSection image 2).isSome then reloadErr s (parseImage image s.lz.run) else none

/-- A FULL image becomes the boot image, in the slot that did not hold it (R465). -/
def storeImage (image : List Byte) (s : State) : State :=
  { s with lz := if s.lz.newestB then { s.lz with slotA := image, newestB := false }
                 else { s.lz with slotB := image, newestB := true } }

end Sys2Proof.Machine
end

