-- ==== Sys2Proof/Machine/Pcie.lean ====
section
/-! DEFINITION. The PCIe ports: the accelerator ports' states and enumeration, reads, flushes and their failures
(R376 to R394), and HST's link (R568). -/

namespace Sys2Proof.Machine

/-! ### Work behind flushes (R390, R391, R394) -/

/-- Ring and slot of an entry's key. -/
def keyRing (key : Nat) : Nat := key / 65536
def keySlotOf (key : Nat) : Nat := key % 65536

/-- A flush that covers a work has failed (Table 13.4). -/
def workFailed (w : Waiter) (s : State) : State :=
  match w with
  | .rx qpn msn => rxStatus qpn msn stRemoteAccess s
  | .run key =>
    let s := updRun key (fun r => { r with force := stMemUncorrectable }) s
    let s := { s with kn := { s.kn with kernels := mapModify s.kn.kernels key (fun k => { k with force := stMemUncorrectable }) } }
    let mark := fun (c : Coll) =>
      if opKey c.ring c.slot = key then { c with failure := some (stMemUncorrectable, 0, 0) } else c
    let herds := s.hd.herds.map (fun h => (h.1, { h.2 with colls := h.2.colls.map (fun c => (c.1, mark c.2)) }))
    let s := { s with hd := { s.hd with herds := herds } }
    updChain (keyRing key) (keySlotOf key) (fun o =>
      { o with done := o.done.map (fun c => { c with status := stMemUncorrectable, detail := 0 }) }) s

/-- A port's flush lets a work go on. -/
def workFlushed (p : Nat) (w : Waiter) (s : State) : State :=
  match w with
  | .rx qpn msn => rxFinish qpn msn (updRec qpn msn (fun r => { r with flush := [] }) s)
  | .run key =>
    let s := updChain (keyRing key) (keySlotOf key) (fun o => { o with flush := o.flush.filter (· != p) }) s
    match opAt s (keyRing key) (keySlotOf key) with
    | some o => if o.done.isSome && o.flush.isEmpty then removeRun key s else s
    | none => s

/-- The works of a list whose writes a flush covers whole are released from a port. -/
def releaseFlushed (p : Nat) (ws : List Waiter) (s : State) : State :=
  let free := ws.filter (fun w => (accPort s p).waiting.contains w && !((accPort s p).dirty.contains w))
  let s := updAcc p (fun a => { a with waiting := a.waiting.filter (fun w => !(free.contains w)) }) s
  sweepUses (free.foldl (fun s w => workFlushed p w s) s)

/-- A flush of a port returns, good or failed (R389, R390). -/
def flushReturn (p : Nat) (ok : Bool) (s : State) : State :=
  match (accPort s p).flush with
  | none => s
  | some ws =>
    let s := updAcc p (fun a => { a with flush := none }) s
    let s := if ok then s else raise Reg.GX_PC_EVENTS 7 (ws.foldl (fun s w => workFailed w s) s)
    tryFlush p (releaseFlushed p ws s)

/-- PCIE_FLUSH_COMPLETE (R390): of ACC port `port`. -/
def execPcieFlushComplete (port : Nat) (ok : Bool) (s : State) : Res :=
  .next (whenOk (working s && (accPort s port).state == .ready) (flushReturn port ok) s)

/-- A port leaves READY: the flush in progress and every one that waits fail (R394). -/
def failFlushes (p : Nat) (s : State) : State :=
  let a := accPort s p
  let ws := (a.flush.getD []) ++ a.dirty.filter (fun w => !((a.flush.getD []).contains w))
  let s := updAcc p (fun a => { a with flush := none, dirty := [] }) s
  let s := if ws.isEmpty then s else raise Reg.GX_PC_EVENTS 7 (ws.foldl (fun s w => workFailed w s) s)
  releaseFlushed p ws s

/-! ### Reads (R394) -/

/-- A data read of a work returned: the work goes on with the bytes. -/
def gotData (owner addr : Nat) (bs : List Byte) (failed : Bool) (s : State) : State :=
  progressRun owner { s with pc := { s.pc with got := s.pc.got ++ [⟨owner, addr, bs, failed⟩] } }

/-- A read fails: data reads as 0xFF, a ring access halts its owner (R385, R394). -/
def readFailed (what : PcieRead) (s : State) : State :=
  match what with
  | .data owner addr len => gotData owner addr (List.replicate len 0xFF) true s
  | .ring r slot => haltFor r slot 9 s
  | .other => s

/-- PCIE_READ_COMPLETION (R394): OUTCOME 0 good, 1 poisoned, else failed. -/
def execPcieReadCompletion (what : PcieRead) (outcome : Nat) (bytes : List Byte) (s : State) : Res :=
  .next (whenOk (working s) (fun s =>
    let s := if outcome = 1 then raise Reg.GX_PC_EVENTS 6 (bump Reg.GX_PC_POISON_CNT s) else s
    match what, outcome with
    | .data owner addr len, 0 => gotData owner addr (bytes.take len) false s
    | .data owner addr len, 1 => gotData owner addr (bytes.take len) true s
    | _, 0 => s
    | _, _ => readFailed what s) s)

/-- PCIE_COMPLETION_TIMEOUT (R394). -/
def execPcieCompletionTimeout (what : PcieRead) (s : State) : Res :=
  .next (whenOk (working s) (fun s =>
    readFailed what (raise Reg.GX_PC_EVENTS 5 (bump Reg.GX_PC_CPL_TIMEOUT_CNT s))) s)

/-! ### Accelerator ports (R382 to R386) -/

/-- Training and enumeration wait while the ports-and-links Bantam restarts (R382). -/
def portsServed (s : State) : Bool := running s && !bantamBusy s 2

/-- Put a port into a state. -/
def accState (p : Nat) (st : AccState) (s : State) : State := updAcc p (fun a => { a with state := st }) s

/-- A port enters CONTAINED (R382). -/
def accContain (p : Nat) (s : State) : State :=
  raise Reg.GX_PC_EVENTS 2 (failFlushes p (accState p .contained s))

/-- Control register of ACC port p. -/
def accCtrl (s : State) (p : Nat) : Word := rgi s Reg.GX_PC_PORT_CTRL (p + 1)

/-- ACC_RECEIVER_DETECT (R382). -/
def execAccReceiverDetect (port : Nat) (s : State) : Res :=
  .next (whenOk (portsServed s && decide (port < 4) && (accPort s port).state == .down
    && !(accCtrl s port).getLsbD 0 && !(s.pins.accPerst.contains port)) (accState port .training) s)

/-- ACC_LINK_UP (R382): the link reaches L0 at a rate and width (R377). -/
def execAccLinkUp (port rate width : Nat) (s : State) : Res :=
  .next (whenOk (portsServed s && (accPort s port).state == .training)
    (updAcc port (fun a => { a with state := .enumerating, rate := rate, width := width })) s)

/-- BARs by descending size, lower number first among equals. -/
def barInsert (b : BarFound) (l : List BarFound) : List BarFound :=
  match l with
  | [] => [b]
  | x :: t => if x.size < b.size then b :: x :: t else x :: barInsert b t
def barSort (l : List BarFound) : List BarFound := l.foldl (fun acc b => barInsert b acc) []

/-- First address at or above a, aligned to n. -/
def alignUp (a n : Nat) : Nat := (a + n - 1) / max 1 n * n

/-- Place BARs one after another from an address, each naturally aligned. -/
def placeBars (l : List BarFound) (a : Nat) : List AccBar :=
  match l with
  | [] => []
  | b :: t => let x := alignUp a b.size; ⟨b.index, b.size, b.is64, b.prefetch, x⟩ :: placeBars t (x + b.size)

/-- The window BAR (R384): the one that WIN_CFG names, or the largest 64-bit prefetchable one. -/
def windowBar (cfg : Nat) (bars : List BarFound) : Option BarFound :=
  if cfg = 7 then (barSort (bars.filter (fun b => b.is64 && b.prefetch))).head?
  else bars.find? (fun b => b.index == cfg)

/-- Base of the window. -/
def windowBase : Nat := 0x10000000000

/-- The assignment of step 3 of R383. -/
def assignBars (cfg : Nat) (bars : List BarFound) : List AccBar :=
  let win := (windowBar cfg bars).filter (·.is64)
  let rest := bars.filter (fun b => b.is64 && (win.map (·.index)) != some b.index)
  let first := match win with
    | some w => [(⟨w.index, w.size, true, w.prefetch, windowBase⟩ : AccBar)]
    | none => []
  first ++ placeBars (barSort rest) (windowBase + (win.map (·.size)).getD 0)
    ++ placeBars (barSort (bars.filter (fun b => !b.is64))) 0xC0000000

/-- ACC_ENUMERATE (R383): what the configuration space of the accelerator showed. -/
def execAccEnumerate (port vendor device : Nat) (bars : List BarFound) (s : State) : Res :=
  .next (whenOk (portsServed s && (accPort s port).state == .enumerating) (fun s =>
    let cfg := wfld (rgi s Reg.GX_PC_WIN_CFG (port + 1)) 2 0
    let placed := assignBars cfg bars
    let win := (windowBar cfg bars).bind (fun w => placed.find? (fun b => b.index == w.index))
    let bme := (accCtrl s port).getLsbD 3
    raise Reg.GX_PC_EVENTS 0 (updAcc port (fun a =>
      { a with state := .ready, bars := placed, vendor := vendor, device := device, busMaster := bme
               winBase := (win.map (·.addr)).getD 0, winSize := (win.map (·.size)).getD 0 }) s)) s)

/-- ACC_LINK_DOWN (R382). -/
def execAccLinkDown (port : Nat) (s : State) : Res :=
  .next (whenOk (running s && ((accPort s port).state == .ready || (accPort s port).state == .enumerating))
    (fun s => accContain port (raise Reg.GX_PC_EVENTS 1 s)) s)

/-- Count an accelerator's error message (R376). -/
def accErrMsg (s : State) : State := raise Reg.GX_PC_EVENTS 4 (bump Reg.GX_PC_ERR_MSG_CNT s)

/-- ACC_ERR_FATAL (R382). -/
def execAccErrFatal (port : Nat) (s : State) : Res :=
  .next (whenOk (running s && (accPort s port).state == .ready) (fun s => accContain port (accErrMsg s)) s)

/-- ACC_ERROR_MESSAGE (R376): correctable, or non-fatal. -/
def execAccErrorMessage (port : Nat) (s : State) : Res :=
  .next (whenOk (running s && ((accPort s port).state == .ready || (accPort s port).state == .enumerating)) accErrMsg s)

/-- ACC_REQUEST_RECEIVE (R386): the answer is Unsupported Request. -/
def execAccRequestReceive (port : Nat) (s : State) : Res :=
  .next (whenOk (running s && ((accPort s port).state == .ready || (accPort s port).state == .enumerating))
    (fun s => raise Reg.GX_PC_EVENTS 3 (bump Reg.GX_PC_UR_CNT s)) s)

/-- The RWS fields of a write of GX_PC_PORT_CTRL of the indexed ACC port (Table 13.5). -/
def accCtrlWrite (value : Word) (s : State) : State :=
  let i := wfld (rg s Reg.GX_PC_PORT_INDEX) 2 0
  putReg (regKey Reg.GX_PC_PORT_CTRL i) (value &&& 0xD) s

/-- The ACC port that GX_PC_PORT_INDEX names. -/
def accIndexed (s : State) : Option Nat :=
  let i := wfld (rg s Reg.GX_PC_PORT_INDEX) 2 0
  if 1 ≤ i ∧ i ≤ 4 then some (i - 1) else none

/-- ACC_ADMIN_DOWN (R382): a write of GX_PC_PORT_CTRL that sets ADMIN_DOWN and no RESTART. -/
def execAccAdminDown (value : Word) (s : State) : Res :=
  .next (whenOk (running s && value.getLsbD 0 && !value.getLsbD 1) (fun s =>
    match accIndexed s with
    | none => s
    | some p => failFlushes p (accState p .down (accCtrlWrite value s))) s)

/-- ACC_RESTART (R382, R567): a write of GX_PC_PORT_CTRL with RESTART; a CONTAINED port's ACC_PERST_N is asserted
for 1 ms first. -/
def execAccRestart (value : Word) (s : State) : Res :=
  .next (whenOk (running s && value.getLsbD 1) (fun s =>
    match accIndexed s with
    | none => s
    | some p =>
      let s := accCtrlWrite value s
      match (accPort s p).state with
      | .down => accState p .training s
      | .contained => accState p .training (emit (.accPerst p false) (emit (.accPerst p true) s))
      | _ => if value.getLsbD 0 then failFlushes p (accState p .down s) else s) s)

/-- HST_LINK_UP (R376, R568): HST reaches L0 at a rate and width; HST trains during a cold reset already. -/
def execHstLinkUp (rate width : Nat) (s : State) : Res :=
  .next (whenOk (powered s && !s.pc.hstUp) (fun s =>
    raise Reg.GX_PC_EVENTS 0
      { s with pc := { s.pc with hstUp := true, hstRate := rate, hstWidth := width }
               pins := { s.pins with hstPerst := false } }) s)

end Sys2Proof.Machine
end

