-- ==== Sys2Proof/Machine/Relia.lean ====
section
/-! DEFINITION. Errors, spares, fatal errors and dumps (R515 to R538), and the beginning of resets (R462, R463). -/

namespace Sys2Proof.Machine

/-! ### Causes of resets (R462, R463) -/

/-- A cold reset has a cause: nothing runs until it begins. -/
def coldBegin (s : State) : State :=
  { s with fw := { s.fw with coldDue := true, warmDue := none, boot := .rom } }

/-- A warm reset has a cause, as Table 20.1 numbers it.  While a cold reset runs it makes that one begin again, and
FATAL_HALT only a cold reset leaves (R463, R534). -/
def warmBegin (cause : Nat) (s : State) : State :=
  if s.gl.fatalHalt || !(powered s) || s.fw.coldDue then s
  else if s.fw.warmDue.isNone && (s.fw.boot == .rom || s.fw.boot == .loading) then coldBegin s
  else { s with fw := { s.fw with warmDue := some cause, boot := .loading }, gl := { s.gl with resetCause := cause } }

/-! ### Fatal errors and the dump (R533 to R537) -/

/-- The bundle of a bank, and of the active one. -/
def bankOf (s : State) (b : Bool) : Option Bundle := if b then s.fw.bankB else s.fw.bankA
def activeBundle (s : State) : Option Bundle := bankOf s s.fw.activeB

/-- The dump is over: the warm reset follows, unless the adapter has halted for good (R533, R534). -/
def dumpEnd (s : State) : State :=
  let s := { s with re := { s.re with dumping := false } }
  if s.gl.fatalHalt then s else warmBegin 6 s

/-- The dump is skipped, or neither region takes it (R533, R537). -/
def dumpLost (s : State) : State :=
  dumpEnd (raise Reg.GX_RE_EVENTS 8 { s with re := { s.re with dumpState := 4 } })

/-- A fatal error at a time in ms (R533, R534): the third within 60 s halts every instance for good.  A failed Bantam
5 writes no dump. -/
def fatal (e : LogEntry) (ms : Nat) (s : State) : State :=
  if s.gl.fatalHalt then s
  else
    let times := s.re.fatalTimes.filter (fun t => decide (ms ≤ t + 60000)) ++ [ms]
    let third := decide (3 ≤ times.length)
    let idx := s.re.logHead
    let s := logWrite { e with outcome := 2, action := if third then 10 else 9 } s
    let s := raise Reg.GX_RE_EVENTS 6 (bump Reg.GX_RE_FATAL_CNT s)
    if s.re.dumping then s
    else
      let seq := (rg s Reg.GX_RE_FATAL_CNT).toNat % 65536
      let s := { s with re := { s.re with fatalTimes := times, fatalAt := idx, dumping := true, dumpState := 1,
                                          dumpSeq := seq } }
      let s := if third then
          (s.vi.insts.map Prod.fst).foldl (fun s n => enterHalted n 0 s) { s with gl := { s.gl with fatalHalt := true } }
        else s
      if e.partClass = 12 && e.kind != 6 && e.index = 5 then dumpLost s else s

/-- Bytes of a log entry (Table 19.4). -/
def logBytes (e : LogEntry) : List Byte :=
  leBytes 8 e.tick.toNat ++ leBytes 1 e.partClass ++ leBytes 1 e.kind ++ leBytes 2 e.index ++ leBytes 1 e.outcome
    ++ leBytes 1 e.action ++ leBytes 2 e.inst ++ leBytes 8 e.detail.toNat ++ leBytes 8 e.epoch

/-- Bytes of a position of the log; zero where nothing is. -/
def logAt (s : State) (i : Nat) : List Byte := ((mapGet s.re.log i).map logBytes).getD (List.replicate 32 0)

/-- The ERROR_LOG section: the 256 entries, oldest first. -/
def logSection (s : State) : List Byte :=
  let first := if s.re.logCount = 256 then s.re.logHead else 0
  ((List.range 256).map (fun i => logAt s ((first + i) % 256))).flatten

/-- The directory of a dump: TYPE, OFFSET and LENGTH of each section. -/
def dumpDir (off : Nat) : List (Nat × List Byte) → List Byte
  | [] => []
  | x :: rest => leBytes 4 x.1 ++ leBytes 4 off ++ leBytes 8 x.2.length ++ dumpDir (off + x.2.length) rest

/-- The dump of R536. -/
def dumpBytes (x : DumpIn) (s : State) : List Byte :=
  let secs : List (Nat × List Byte) :=
    [(1, logAt s s.re.fatalAt ++ x.fault.take 65536), (2, logSection s), (3, x.registers.take 1048576),
     (4, x.rings.take 524288), (5, x.queuePairs.take 524288), (6, x.repair.take 1048576)]
  let body := dumpDir 160 secs ++ (secs.map Prod.snd).flatten
  let total := 64 + body.length + 4
  let head := [0x47, 0x58, 0x48, 0x44] ++ leBytes 2 1 ++ leBytes 2 6 ++ leBytes 4 s.re.dumpSeq ++ leBytes 4 s.re.fatalAt
    ++ leBytes 8 s.tick.count.toNat ++ leBytes 4 (rg s Reg.GX_ID).toNat
    ++ leBytes 4 (((activeBundle s).map (·.release)).getD 0) ++ leBytes 4 total ++ List.replicate 28 0
  head ++ body ++ leBytes 4 (crc32c (head ++ body)).toNat

/-- DUMP_COMPLETE (R533, R537): the dump goes to the host region while HST is up, else to the tier region, and the
flush follows. -/
def dumpComplete (x : DumpIn) (s : State) : State :=
  let r := s.re.dumpReg
  let bs := dumpBytes x s
  if r.hostValid && s.pc.hstUp && x.hostOk then
    let s := emit (.flushRead 0) (emit (.busWrite 0 r.hostAddr bs) s)
    dumpEnd (raise Reg.GX_RE_EVENTS 7 { s with re := { s.re with dumpState := 2 } })
  else if r.tierValid then
    let (s, bad) := tierPut r.tierOffset bs s
    if bad then dumpLost s else dumpEnd (raise Reg.GX_RE_EVENTS 7 { s with re := { s.re with dumpState := 3 } })
  else dumpLost s

/-- DUMP_COMPLETE (R533). -/
def execDumpComplete (x : DumpIn) (s : State) : Res := .next (whenOk (powered s && s.re.dumping) (dumpComplete x) s)

/-- DUMP_TIMEOUT (R533). -/
def execDumpTimeout (s : State) : Res := .next (whenOk (powered s && s.re.dumping) dumpLost s)

/-- DUMP_REGION (R535, R537). -/
def dumpRegion (slot : Nat) (s : State) : State :=
  match mgmtOp s slot 0x1D with
  | none => s
  | some o =>
    let e := o.entry
    let flags := ef e 28 1
    let r : DumpReg := { hostValid := flags.testBit 0, hostAddr := BitVec.ofNat 64 (ef e 16 8), hostLen := ef e 24 4
                         tierValid := flags.testBit 1, tierOffset := ef e 32 8, tierLen := ef e 40 4 }
    if r.hostValid && decide (r.hostLen < 0x400000) || r.tierValid && decide (r.tierLen < 0x400000)
        || r.tierValid && !(rangeInInstance s 0 r.tierOffset r.tierLen) then mgmtDone slot stAborted s
    else
      let old := s.re.dumpReg
      let held := (tierRead s old.tierOffset 64).1
      let s := if s.re.dumpState = 3 && r.hostValid then
          { emit (.busWrite 0 r.hostAddr (tierRead s old.tierOffset (leAt held 0x20 4)).1) s with
            re := { s.re with dumpState := 2 } }
        else s
      mgmtDone slot stOk { s with re := { s.re with dumpReg := if flags = 0 then {} else r } }

/-- DUMP_REGION (R535). -/
def execDumpRegion (slot : Nat) (s : State) : Res := .next (whenOk (working s) (dumpRegion slot) s)

/-! ### Cores (R521 to R525) -/

/-- The logical core that a physical core serves (R18). -/
def logicalCore (s : State) (px : Nat) : Option Nat :=
  if px = 16 then s.re.now.spareMap
  else if s.re.now.spareMap == some px then none else some px

/-- The spare is there to be mapped. -/
def spareFree (s : State) : Bool :=
  s.re.now.spareMap.isNone && !s.re.now.spareBad && !(s.re.now.fencedCores.contains 16)

/-- Withdraw granules of a tier: WITHDRAW and DEGRADED (R124, R526). -/
def withdraw (gs : List (Nat × Nat)) (s : State) : State :=
  let s := repair (fun r => { r with withdrawn := r.withdrawn ++ gs.filter (fun g => !(r.withdrawn.contains g)) }) s
  degraded (raise Reg.GX_MEM_EVENTS 6 s)

/-- A logical core is withdrawn with the physical core that failed (R525). -/
def withdrawCore (px : Nat) (s : State) : State :=
  match logicalCore s px with
  | none => s
  | some lk =>
    let gs := (List.range 256).map (fun i => (0, 256 * lk + i)) ++ (List.range 1024).map (fun i => (1, 1024 * lk + i))
    withdraw gs (bumpEpoch lk (repair (fun r => { r with fencedCores := insertNew r.fencedCores px
                                                         lost := insertNew r.lost lk }) s))

/-- A lasting fault of a physical core (R521, R524, R525, R528), and the ACTION of its log entry.  What begins does so
at the next edge. -/
def coreLasting (px : Nat) (s : State) : State × Nat :=
  let queue := fun (l : List Nat) (s : State) => { s with re := { s.re with coreQueue := s.re.coreQueue ++ l } }
  if s.re.now.fencedCores.contains px || s.re.coreQueue.contains px then (s, 0)
  else
    match s.re.swap, logicalCore s px with
    | some w, _ =>
      if px = 16 then
        (queue [w.px] (repair (fun r => { r with spareBad := true }) { s with re := { s.re with swap := none } }), 4)
      else if px = w.px then (s, 0)
      else (queue [px] s, 4)
    | none, none => (repair (fun r => { r with spareBad := true }) s, 8)
    | none, some lk =>
      if spareFree s then ({ s with re := { s.re with swap := some ⟨px, lk, false⟩ } }, 7) else (queue [px] s, 4)

/-- CORE_SWAP_BEGIN (R521 step 1) at an edge. -/
def coreSwapBegin (s : State) : State :=
  match s.re.swap with
  | some w =>
    if w.copying then s else bumpEpoch w.lk { s with re := { s.re with swap := some { w with copying := true } } }
  | none => s

/-- Cores that wait are withdrawn at an edge, once no swap runs (R525, R528). -/
def coreLosses (s : State) : State :=
  if s.re.swap.isSome then s
  else s.re.coreQueue.foldl (fun s px => withdrawCore px s) { s with re := { s.re with coreQueue := [] } }

/-- CORE_SWAP_BEGIN (R521). -/
def execCoreSwapBegin (s : State) : Res := .next (whenOk (working s) coreSwapBegin s)

/-- CORE_SWAP_COMPLETE (R521 steps 3 and 4): the spare takes the logical core, whose L1 cache starts empty.  A work
item that had not ended runs anew, which is its one command (R522). -/
def coreSwapComplete (s : State) : State :=
  match s.re.swap with
  | some w =>
    if !w.copying then s
    else
      let s := repair (fun r => { r with spareMap := some w.lk, fencedCores := insertNew r.fencedCores w.px })
        { s with re := { s.re with swap := none }, xl := { s.xl with l1 := s.xl.l1.filter (fun e => e.1 != w.lk) } }
      coreLosses (raise Reg.GX_RE_EVENTS 2 s)
  | none => s

/-- CORE_SWAP_COMPLETE (R521). -/
def execCoreSwapComplete (s : State) : Res := .next (whenOk (working s) coreSwapComplete s)

/-! ### Lasting actions of the memories (R121 to R124) -/

/-- Row repairs of a part class in a bank. -/
def rowsUsed (s : State) (cls bank : Nat) : Nat := (s.re.now.rows.filter (fun r => r == (cls, bank))).length

/-- A lasting fault of a pseudo-channel (R122, R124): a stack's second one takes with it the tier-1 slice of the core
that uses it. -/
def pcLasting (stack pc : Nat) (s : State) : State × Nat :=
  if s.mem.pcRun.contains (stack, pc) || s.re.now.pcs.contains (stack, pc) then (s, 0)
  else if (s.mem.pcRun ++ s.re.now.pcs).any (fun x => x.1 == stack) then
    (withdraw ((List.range 256).map (fun i => (0, 256 * (pc / 4) + i))) s, 4)
  else ({ s with mem := { s.mem with pcRun := s.mem.pcRun ++ [(stack, pc)] } }, 2)

/-- A lasting tier-1 fault (R121): a row repair while the bank has spare rows. -/
def tier1Lasting (stack bank pc : Nat) (s : State) : State × Nat :=
  if rowsUsed s 2 bank < 4 then
    (repair (fun r => { r with rows := r.rows ++ [(2, bank)] })
      { s with mem := { s.mem with rowBusy := insertNew s.mem.rowBusy bank } }, 1)
  else pcLasting stack pc s

/-- The highest free granule of a package, as a granule key (R123). -/
def retireChoice (s : State) (pkg : Nat) : Option Nat :=
  ((sliceGranules 1 pkg).reverse).find? (freeGranule s s.mem.owner)

/-- A lasting tier-2 fault (R123, R124): the frame is retired, or withdrawn when its package has no room. -/
def tier2Lasting (off : Nat) (s : State) : State × Nat :=
  let f := frameOf off
  let pkg := ((granuleOf off).map sliceOf).getD 0
  let gone := (s.mem.frameRun ++ s.re.now.frames)
  let inPkg := gone.filter (fun x => x / (1024 * 16384) == f / (1024 * 16384))
  if gone.contains f || s.re.now.withdrawnFrames.contains f then (s, 0)
  else
    let room := (mapGet s.mem.retire pkg).or (retireChoice s pkg)
    match decide (inPkg.length < 512), room with
    | true, some g =>
      ({ s with mem := { s.mem with retire := mapSet s.mem.retire pkg g, frameRun := s.mem.frameRun ++ [f] } }, 3)
    | _, _ =>
      (degraded (raise Reg.GX_MEM_EVENTS 6 (repair (fun r => { r with withdrawnFrames := r.withdrawnFrames ++ [f] }) s)), 4)

/-! ### Classification (R515, Table 19.1) -/

/-- Counters and contents of a memory error, as the hardware takes them at once (R118, R120). -/
def memoryError (x : ErrorIn) (s : State) : State :=
  if !(x.cls == 2 || x.cls == 3 || x.cls == 6) then s
  else if x.kind = 0 then raise Reg.GX_MEM_EVENTS 1 (bump Reg.GX_MEM_CE_CNT s)
  else if x.kind = 1 && !x.retryOk then
    let s := raise Reg.GX_MEM_EVENTS 2 (bump Reg.GX_MEM_UE_CNT s)
    if x.cls = 6 then
      let w := storeKey ((logicalCore s x.index).getD 0) x.off / 8
      { s with mem := { s.mem with badStore := insertNew s.mem.badStore w } }
    else { s with mem := { s.mem with bad := insertNew s.mem.bad (x.detail / 32) } }
  else s

/-- Key of a part's epoch (R519): none for a part without one. -/
def epochKey (s : State) (cls index : Nat) : Option Nat :=
  if cls = 5 || cls = 6 then logicalCore s index
  else if cls = 8 then some (64 + index)
  else if cls = 9 then some (32 + index)
  else if cls = 10 then some (96 + index)
  else none

/-- Fence an AES core, a Mule or a check-value unit (R519, R526). -/
def fencePart (cls index : Nat) (s : State) : State × Nat :=
  let f := fun (r : RepairRecord) =>
    if cls = 8 then { r with fencedAes := insertNew r.fencedAes index }
    else if cls = 9 then { r with fencedMules := insertNew r.fencedMules index }
    else { r with fencedCvu := insertNew r.fencedCvu index }
  let s := if cls = 8 then raise Reg.GX_CE_EVENTS 3 s else s
  (degraded ((epochKey s cls index).elim (repair f s) (fun k => bumpEpoch k (repair f s))), 8)

/-- The lasting action of a part, with the ACTION of the log; none where it is fatal. -/
def lastingAction (x : ErrorIn) (s : State) : Option (State × Nat) :=
  match x.cls with
  | 2 => some (tier1Lasting x.index x.bank x.pc s)
  | 3 => some (tier2Lasting x.detail s)
  | 4 => some (pcLasting x.index x.pc s)
  | 5 => some (coreLasting x.index s)
  | 6 =>
    if rowsUsed s 6 x.bank < 4 then some (repair (fun r => { r with rows := r.rows ++ [(6, x.bank)] }) s, 1)
    else some (coreLasting x.index s)
  | 7 =>
    if rowsUsed s 7 x.bank < 8 then some (repair (fun r => { r with rows := r.rows ++ [(7, x.bank)] }) s, 1) else none
  | 8 | 9 | 10 => some (fencePart x.cls x.index s)
  | 11 => some (degraded { s with re := { s.re with pcieDegraded := true } }, 0)
  | _ => none

/-- Classify an error whose retry has ended. -/
def classifyError (x : ErrorIn) (s : State) : State :=
  let entry := fun (s : State) (outcome action : Nat) =>
    mkLog s x.cls x.kind x.index outcome action x.inst x.detail (((epochKey s x.cls x.index).map (partEpoch s)).getD 0)
  if x.retryOk then logClassified (entry s 0 0) s
  else
    match lastingAction x s with
    | some (s, a) => logClassified (entry s 1 a) s
    | none => fatal (entry s 2 9) x.ms s

/-- The same part has an error captured and not yet classified (R528). -/
def alreadyCaptured (x : ErrorIn) (s : State) : Bool :=
  s.re.captured.any (fun c => match c with
    | .raw y => y.cls == x.cls && y.index == x.index && y.bank == x.bank && y.detail == x.detail
    | .handled _ => false)

/-- A lane or a port: R207 for a cell port; an Ethernet port fences the lane and negotiates again (R228). -/
def portError (x : ErrorIn) (s : State) : State :=
  let lanes := portLanes s
  let p := if x.cls = 0 then x.index / lanes else x.index
  let l := x.index % lanes
  if x.retryOk then classify (mkLog s x.cls x.kind x.index 0 0 x.inst x.detail 0) s
  else if isCellPort s p then lastingFault p x.detail (if x.cls = 0 then some l else none) s
  else if isEthPort s p then
    let s := if x.cls = 0 then
        modEth p (fun e => { e with fencedLanes := insertNew e.fencedLanes l, narrowed := true })
          (repair (fun r => { r with fencedLanes := insertNew r.fencedLanes x.index }) s)
      else s
    let s := degraded { ethDown p s with re := { (ethDown p s).re with portDegraded := true } }
    classify (mkLog s x.cls x.kind x.index 1 6 x.inst x.detail 0) s
  else s

/-- ERROR_DETECTED (R515): the retries are hardware and have run; while Bantam 5 restarts what follows waits.  A
check-value unit stops for its self-test (R518); a failed health test stops the DRBG until its restart passes
(R491); a trip has its own command. -/
def errorDetected (x : ErrorIn) (s : State) : State :=
  if x.cls ≤ 1 then portError x s
  else if x.cls = 10 then
    if cvFenced s x.index || (cvUnit s x.index).testing || 32 ≤ x.index then s
    else setCv x.index { cvUnit (cvStopped x.index s) x.index with testing := true } (cvStopped x.index s)
  else if 15 ≤ x.cls then s
  else
    let s := memoryError x s
    let s := if x.cls = 13 then
        raise Reg.GX_FW_EVENTS 9 { s with sec := { s.sec with drbgStopped := !x.retryOk } }
      else s
    if bantamBusy s 5 then
      if alreadyCaptured x s then s else { s with re := { s.re with captured := s.re.captured ++ [.raw x] } }
    else classifyError x s

/-- ERROR_DETECTED (R515). -/
def execErrorDetected (x : ErrorIn) (s : State) : Res := .next (whenOk (running s && !s.re.dumping) (errorDetected x) s)

/-- Bantam 5 runs again: what was captured is classified in order (R528). -/
def classifyCaptured (s : State) : State :=
  s.re.captured.foldl (fun s c => match c with
    | .handled e => logClassified e s
    | .raw x => classifyError x s) { s with re := { s.re with captured := [] } }

/-- CV_SELF_TEST_DONE (R518): a pass is transient, a failure fences the unit. -/
def cvTestDone (unit : Nat) (pass : Bool) (s : State) : State :=
  let s := setCv unit { cvUnit s unit with testing := false } s
  let x : ErrorIn := { cls := 10, kind := 2, index := unit, retryOk := pass }
  if bantamBusy s 5 then { s with re := { s.re with captured := s.re.captured ++ [.raw x] } } else classifyError x s

/-- CV_SELF_TEST_DONE (R518). -/
def execCvSelfTestDone (unit : Nat) (pass : Bool) (s : State) : Res :=
  .next (whenOk (running s && (cvUnit s unit).testing) (cvTestDone unit pass) s)

/-- STALE_REQUEST_DISCARD (R519): a request of a part under an epoch that is not its live one. -/
def execStaleRequestDiscard (part epoch : Nat) (s : State) : Res :=
  .next (whenOk (running s && partEpoch s part != epoch % 16) (fun s =>
    raise Reg.GX_RE_EVENTS 4 (bump Reg.GX_RE_STALE_CNT s)) s)

end Sys2Proof.Machine
end

