-- ==== Sys2Proof/Machine/Reset.lean ====
section
/-! DEFINITION. Cold reset, boot and warm reset (R59, R60, R125, R188, R189, R462 to R471, R531, R532). -/

namespace Sys2Proof.Machine

/-! ### Boot (R469, R470) -/

/-- The revision of GX_ID (R541). -/
def gxRevision : Nat := 0x0100

/-- A bank's bundle passes step 2 of R469; its signatures and the read are given. -/
def bankBoots (s : State) (x : BootIn) (b : Bool) : Bool :=
  match bankOf s b with
  | none => false
  | some u => (if b then x.bankB else x.bankA) && decide (s.fw.fusedSvn ≤ u.svn) && decide (u.minRev ≤ gxRevision)

/-- The bank that boots (R469 step 3). -/
def bootBank (s : State) (x : BootIn) : Option Bool :=
  if bankBoots s x s.fw.activeB then some s.fw.activeB
  else if bankBoots s x !s.fw.activeB then some !s.fw.activeB
  else none

/-- The stored image of a Lanzil slot as a reset checks it (R59, R465, Table 17.12). -/
def imageCheck (s : State) (x : BootIn) (b : Bool) : Option LzErr :=
  if s.sec.lc = .decommissioned then some ⟨2, 0, 0⟩
  else lzCheck (if b then s.lz.slotB else s.lz.slotA) (if b then x.slotB else x.slotA) Structure.empty (some false)
    s.re.now.lost (avail1 s) (avail2 s)

/-- Lanes that the repair record fences stay out of the ports, and fenced spares are not used (R520, R531). -/
def applyLanes (s : State) : State :=
  s.re.now.fencedLanes.foldl (fun s l =>
    if 32 ≤ l then { s with cf := { s.cf with spareUsed := insertNew s.cf.spareUsed (l - 32) } }
    else
      let p := l / portLanes s
      let k := l % portLanes s
      if isCellPort s p then
        updCport p (fun c => { c with fencedLanes := insertNew c.fencedLanes k, narrowed := true }) s
      else if isEthPort s p then
        modEth p (fun e => { e with fencedLanes := insertNew e.fencedLanes k, narrowed := true }) s
      else s) s

/-- LANZIL_BOOT_LOAD (R465): the boot slot, else the other slot, else the empty structure, which GX_LZ_STATUS
reports (R60). -/
def bootImage (x : BootIn) (s : State) : State :=
  let b := s.lz.newestB
  let load := fun (c : Bool) (s : State) =>
    applyLanes (applyStructure (parseImage (if c then s.lz.slotB else s.lz.slotA) Structure.empty) true s)
  match imageCheck s x b, imageCheck s x !b with
  | none, _ => load b s
  | some _, none => load (!b) s
  | some e, some _ => lzStatus 3 e (applyStructure Structure.empty false s)

/-- RECOVERY_ENTER (R470): no port, instance or ring. -/
def enterRecovery (s : State) : State :=
  { s with fw := { s.fw with boot := .recovery, warmDue := none }
           lz := { s.lz with run := { Structure.empty with flocks := [], insts := [] }, loaded := false }
           vi := { s.vi with insts := [] }, q := {} }

/-- What every boot begins anew: the firmware's own state, the nonce and the DRBG (R480, R484, R491). -/
def bootFirmware (b : Bool) (s : State) : State :=
  let fell := b != s.fw.activeB
  let fw : FwState :=
    { boot := .ready, coldDue := false, bankA := s.fw.bankA, bankB := s.fw.bankB, activeB := b
      pending := s.fw.pending && !fell, fallback := fell, fusedSvn := s.fw.fusedSvn
      bantamBank := (List.range 6).map (fun k => (k, b)), lastEnd := [] }
  let s := { s with fw := fw, sec := { s.sec with drbgSince := 0, drbgStopped := false } }
  let (nonce, s) := drawDrbg s
  let s := { s with sec := { s.sec with nonce := nonce } }
  if fell then raise Reg.GX_FW_EVENTS 5 s else s

/-- Steps 2 to 6 of R469, up to the edge at which BOOT reads READY. -/
def bootSteps (x : BootIn) (s : State) : State :=
  match bootBank s x with
  | none => enterRecovery s
  | some b => classifyCaptured (bootImage x (bootFirmware b s))

/-- ACC_PERST_N of every port with ADMIN_DOWN 0 rises once a cold boot is READY (R567). -/
def releasePerst (s : State) : State :=
  (List.range 4).foldl (fun s p =>
    if (accCtrl s p).getLsbD 0 then s
    else emit (.accPerst p false) { s with pins := { s.pins with accPerst := s.pins.accPerst.filter (· != p) } }) s

/-- The wipe has reached the end of tier 1 (Table 4.4); clk since its start. -/
def tier1Clk : Nat := 33685504
def tier1Clean (s : State) : State :=
  { s with mem := { s.mem with phase := 3, wipeClk := max s.mem.wipeClk tier1Clk
                               t2Clean := max s.mem.t2Clean ((tier1Clk - 131072) / 1310720) } }

/-- FIRMWARE_BOOT (R469): tier 1 is clean. -/
def firmwareBoot (x : BootIn) (s : State) : State :=
  let s := bootSteps x (tier1Clean s)
  if s.fw.boot = .ready then releasePerst s else s

/-- FIRMWARE_BOOT (R469). -/
def execFirmwareBoot (x : BootIn) (s : State) : Res :=
  .next (whenOk (powered s && !s.fw.coldDue && s.fw.boot == .rom && s.fw.warmDue.isNone) (firmwareBoot x) s)

/-! ### Cold reset (R125, R469, R524, R531, R532) -/

/-- REPAIR_LOAD (R531): each copy's check is given; with both bad nothing is applied. -/
def repairLoad (a b : Bool) (record : RepairRecord) (s : State) : State :=
  let re : ReState :=
    if a || b then { now := record, record := record, copyABad := !a, copyBBad := !b, loaded := true }
    else { copyABad := true, copyBBad := true }
  let s := { s with re := re }
  if a || b then s else raise Reg.GX_RE_EVENTS 10 s

/-- A trip before this boot is reported (R532). -/
def reportTrip (s : State) : State :=
  if s.re.now.tripOpen then
    let s := repair (fun r => { r with tripOpen := false }) s
    raise Reg.GX_RE_EVENTS 9 (logWrite (mkLog s 15 7 0 2 0 noInst 0 0) s)
  else s

/-- What a cold reset leaves: flash, fuses, the life cycle, pins and sensors; memory reads 0 and its wipe runs. -/
def coldState (s : State) : State :=
  { ({} : State) with
    pending := s.pending, out := s.out, freeCount := s.freeCount
    lz := { slotA := s.lz.slotA, slotB := s.lz.slotB, newestB := s.lz.newestB }
    mem := { phase := 1 }
    fw := { coldDue := false, bankA := s.fw.bankA, bankB := s.fw.bankB, activeB := s.fw.activeB
            pending := s.fw.pending, fusedSvn := s.fw.fusedSvn }
    sec := { s.sec with debugOpen := s.sec.lc == .manufacture, nonce := 0, drbgSince := 0, drbgStopped := false }
    pw := { degC := s.pw.degC, sensor := s.pw.sensor, mv := s.pw.mv }
    pins := { s.pins with coldHeld := false, hotHold := false, thermtrip := false, accPerst := [0, 1, 2, 3]
                          eid := 0, ptpPortUp := false } }

/-- COLD_RESET (R469 step 1, R569): `selfTestOk` is P16's self-test (R524), `straps` SMB_ADDR and HST_SRIS. -/
def coldReset (selfTestOk copyAOk copyBOk : Bool) (straps : Nat) (s : State) : State :=
  if 95 ≤ s.pw.degC then
    { s with pins := { s.pins with coldHeld := false, hotHold := true }, fw := { s.fw with coldDue := true } }
  else
    let record := s.re.record
    let s := coldState s
    let s := { s with pins := { s.pins with smbAddr := straps % 8, sris := straps.testBit 3 } }
    let s := (List.range 4).foldl (fun s p => emit (.accPerst p true) s) s
    let s := reportTrip (repairLoad copyAOk copyBOk record s)
    if selfTestOk then s else repair (fun r => { r with spareBad := true }) s

/-- COLD_RESET (R469): its cause has come, and the rails are up. -/
def execColdReset (selfTestOk copyAOk copyBOk : Bool) (straps : Nat) (s : State) : Res :=
  .next (whenOk (s.pins.pwrGood && (s.fw.coldDue || s.pins.coldHeld)) (coldReset selfTestOk copyAOk copyBOk straps) s)

/-! ### Warm reset (R188, R189, R471) -/

/-- RWS fields keep their values (R5). -/
def keepSticky (regs : NMap Word) : NMap Word :=
  regs.filterMap (fun e =>
    match keyInfo e.1 with
    | none => none
    | some i =>
      let v := (e.2 &&& (i.rws ||| i.w1s)) ||| (i.reset &&& ~~~(i.rws ||| i.w1s))
      if v = keyReset e.1 then none else some (e.1, v))

/-- A ring as a warm reset leaves it: the scan goes on from the recorded position (R142). -/
def warmRing (g : Ring) : Ring :=
  { g with ops := [], nextFetch := g.nextDone, reserved := false, doorbell := false, fetched := none
           openChain := none, shutting := none, interval := g.pollInt, resNext := g.wrNext }

/-- An ACC port as a warm reset leaves it: nothing is outstanding. -/
def warmAcc (a : AccPort) : AccPort := { a with dirty := [], flush := none, waiting := [] }

/-- What a warm reset leaves (R5, R125, R130, R189, R382, R411, R437, R506, R511, R530, R535): a PS3 or PS4 state is
discarded, and from PS4 the tiers are wiped.  An FLR of the physical function or a loss of the host link also resets the
configuration space. -/
def warmState (cause : Nat) (s : State) : State :=
  let config := cause == 1 || cause == 4
  let mem := if asleep s then { s.mem with stores := [], badStore := [] } else s.mem
  let mem := if s.pw.ps = .ps4 then
      { mem with bytes := [], bad := [], phase := 3, wipeClk := tier1Clk, t2Clean := (tier1Clk - 131072) / 1310720 }
    else mem
  { ({} : State) with
    pending := s.pending, out := s.out, freeCount := s.freeCount, regs := keepSticky s.regs
    lz := { slotA := s.lz.slotA, slotB := s.lz.slotB, newestB := s.lz.newestB }
    mem := mem
    q := { rings := s.q.rings.map (fun e => (e.1, warmRing e.2)), mgmtActive := s.q.mgmtActive }
    pc := { s.pc with acc := s.pc.acc.map (fun e => (e.1, warmAcc e.2)), got := [], uses := [], mules := [], latches := [] }
    vi := if config then { insts := [] } else { s.vi with insts := [] }
    fw := { s.fw with warmDue := none, boot := .loading }
    sec := s.sec
    pw := { s.pw with ps := .ps0, held := none, exit := none, result := 0 }
    re := { s.re with dumping := false }
    pins := s.pins
    gl := if config then { resetCause := cause }
          else { resetCause := cause, msixTable := s.gl.msixTable, msixOn := s.gl.msixOn } }

/-- The last recorded completion writes of a ring are issued again (R142, R188 step 1). -/
def reissue (r : Nat) (s : State) : State :=
  match ringOf s r with
  | none => s
  | some g =>
    match g.last, ringOf s g.cq with
    | some (slot, cqSlot, bs, flags), some q =>
      let at_ := q.base.toNat + 32 * cqSlot
      let (s, _) := placeWrite q.loc (at_ + 1) (bs.drop 1) s
      let (s, _) := placeWrite q.loc at_ (bs.take 1) s
      (placeWrite g.loc (g.base.toNat + 64 * slot) (leBytes 1 flags) s).1
    | _, _ => s

/-- The scan of one ring (R188 steps 2 to 4): false while its CQ has no room. -/
def warmScan (x : RingScan) (s : State) : State × Bool :=
  match ringOf s x.ring with
  | none => (s, true)
  | some g =>
    if !(scanRoom s g x.entries x.owns x.failed) then (s, false)
    else
      let at_ := g.nextFetch % ringSize g
      let (s, bad) := scanRing x.ring stAbortedReset x.entries x.failed s
      (if bad then haltFor x.ring at_ 9 s else s, true)

/-- RESET_SCAN (R188): every ring still to be scanned, in order; an instance whose CQ is full waits alone. -/
def warmScans (scans : List RingScan) (s : State) : State :=
  let step := fun (acc : State × List Nat) (r : Nat) =>
    let (s, stuck) := acc
    match ringOf s r with
    | none => ({ s with q := { s.q with scanning := s.q.scanning.filter (· != r) } }, stuck)
    | some g =>
      if stuck.contains g.inst then acc
      else
        let (s, ended) := warmScan ((scans.find? (fun x => x.ring == r)).getD { ring := r }) s
        if ended then ({ s with q := { s.q with scanning := s.q.scanning.filter (· != r) } }, stuck)
        else (s, g.inst :: stuck)
  (s.q.scanning.foldl step (s, [])).1

/-- WARM_RESET (R471): the reset that is due; a repetition goes on with scans that waited.  `x` is how the stored
structures verified, `scans` what reads of rings outside the tiers returned. -/
def warmReset (x : BootIn) (scans : List RingScan) (s : State) : State :=
  match s.fw.warmDue with
  | some cause =>
    let s := bootSteps x (warmState cause s)
    if s.fw.boot ≠ .ready then s
    else
      let rs := (s.q.rings.filter (fun e => e.2.kind != .cq)).map Prod.fst
      let s := rs.foldl (fun s r => reissue r s) s
      warmScans scans { s with q := { s.q with scanning := rs } }
  | none => if working s then warmScans scans s else s

/-- WARM_RESET (R471). -/
def execWarmReset (x : BootIn) (scans : List RingScan) (s : State) : Res :=
  .next (whenOk (powered s) (warmReset x scans) s)

/-! ### Causes (R379, R486, R543) -/

/-- The register window serves every block (R470, R504). -/
def windowUp (s : State) : Bool := powered s && s.fw.boot == .ready && !asleep s

/-- GX_CTRL_WARM_RESET (R543): a write of GX_CTRL. -/
def execGxCtrlWarmReset (value : Word) (s : State) : Res :=
  .next (whenOk (windowUp s && wfld value 31 24 == 0x5A && value.getLsbD 0) (warmBegin 3) s)

/-- FLR_PF (R379). -/
def execFlrPf (s : State) : Res := .next (whenOk (powered s) (warmBegin 1) s)

/-- HOST_LINK_LOSS (R486, R568): rings in host memory go, the management rings with them; during a cold reset only
the training of HST waits. -/
def hostLinkLoss (s : State) : State :=
  let s := { s with pc := { s.pc with hstUp := false, hstRate := 0, hstWidth := 0 } }
  if s.fw.coldDue || (s.fw.warmDue.isNone && (s.fw.boot == .rom || s.fw.boot == .loading)) then s
  else
    let gone := (s.q.rings.filter (fun e => e.2.loc == 0)).map Prod.fst
    let s := gone.foldl (fun s r => removeRing r s) s
    let s := { s with q := { s.q with mgmtActive := false, scanning := s.q.scanning.filter (fun r => !(gone.contains r)) } }
    let s := putReg Reg.GX_Q_MGMT_CTRL (rg s Reg.GX_Q_MGMT_CTRL &&& ~~~(1 : Word)) s
    warmBegin 4 (raise Reg.GX_FW_EVENTS 8 s)

/-- HOST_LINK_LOSS (R486). -/
def execHostLinkLoss (s : State) : Res := .next (whenOk (powered s) hostLinkLoss s)

end Sys2Proof.Machine
end

