-- ==== Sys2Proof/Machine/Firmware.lean ====
section
/-! DEFINITION. Firmware actions, lone restarts, versions, joining and the life cycle (R466 to R487, R490 to R497). -/

namespace Sys2Proof.Machine

/-! ### Status and events (Tables 17.15, 17.16) -/

/-- An event of GX_FW_EVENTS. -/
def fwEvent (bit : Nat) (s : State) : State := raise Reg.GX_FW_EVENTS bit s

/-- An action ends with a result. -/
def fwEnd (result detail : Nat) (s : State) : State :=
  let s := fwEvent 0 { s with fw := { s.fw with state := 3, result := result, detail := detail, action := none } }
  if result = 0 then s else fwEvent 1 s

/-- An action runs. -/
def fwRun (a : FwAction) (s : State) : State :=
  { s with fw := { s.fw with state := 1, result := 0, detail := 0, action := some a, deferred := none } }

/-- A further ACTION write ends with BUSY, and what runs continues (R475, R477). -/
def fwBusy (s : State) : State := fwEvent 1 (fwEvent 0 { s with fw := { s.fw with result := 7 } })

/-- GX_FW_CONTROL is served: READY and awake, or in recovery (R470, R504). -/
def fwServed (s : State) : Bool :=
  powered s && !s.gl.fatalHalt && (s.fw.boot == .recovery || s.fw.boot == .ready && !asleep s)

/-- A write of ACTION: in recovery only INSTALL and ACTIVATE_WARM act (R470, R477). -/
def fwStart (a : FwAction) (f : State → State) (s : State) : State :=
  if s.fw.action.isSome || s.fw.deferred.isSome || bantamBusy s 0 then fwBusy s
  else if s.fw.boot = .recovery && a != .install && a != .activateWarm then fwEnd 5 0 s
  else f s

/-- Length of the staged structure. -/
def stageLen (s : State) : Nat := wfld (rg s Reg.GX_FW_STAGE_LEN) 23 0

/-! ### Messages of the firmware (R436, R481) -/

/-- A message of Table 16.3. -/
def mailBytes (ty seq status : Nat) (payload : List Byte) : List Byte :=
  leBytes 2 ty ++ leBytes 2 payload.length ++ leBytes 4 seq ++ leBytes 8 status ++ payload

/-- Post the next message that waits, once instance 0's inbound buffer is free and Bantam 0 runs. -/
def fwMail (s : State) : State :=
  match s.fw.outbox with
  | m :: rest =>
    if (inst s 0).inFull || bantamBusy s 0 || !(mailbox s 0) then s
    else
      let words := (List.range ((m.length + 3) / 4)).map (fun i => (4 * i, BitVec.ofNat 32 (leAt m (4 * i) 4)))
      let buf := words.foldl (fun b w => mapPut 0 b w.1 w.2) (inst s 0).mboxIn
      let s := { s with fw := { s.fw with outbox := rest } }
      raisePage 0 0 (setInst 0 { inst s 0 with mboxIn := buf, inFull := true } s)
  | [] => s

/-- Queue a message and send what may go. -/
def fwSend (m : List Byte) (s : State) : State := fwMail { s with fw := { s.fw with outbox := s.fw.outbox ++ [m] } }

/-- FW_NOTICE (Table 17.9). -/
def fwNotice (event : Nat) (extra : List Byte) (s : State) : State :=
  let seq := s.fw.noticeSeq + 1
  fwSend (mailBytes 0x8102 seq 0 (leBytes 4 event ++ extra)) { s with fw := { s.fw with noticeSeq := seq } }

/-! ### Lone restarts (R473 to R475) -/

/-- Begin a lone restart: what Bantam 2's brings with it is a loss of PTP lock (Table 17.6). -/
def restartBegin (b : Nat) (roll : Bool) (s : State) : State :=
  let s := bump Reg.GX_FW_RESTART_CNT { s with fw := { s.fw with restarting := some b, restartRoll := roll } }
  let s := if b = 0 then { s with spdm := {} } else s
  if b = 2 && s.tick.ptpLocked then ptpLoseLock s else s

/-- The next restart: requests that wait, in ascending order, then the roll's (R473, R478). -/
def restartNext (s : State) : State :=
  if s.fw.restarting.isSome then s
  else
    match s.fw.waiting with
    | b :: rest => restartBegin b false { s with fw := { s.fw with waiting := rest } }
    | [] =>
      match s.fw.roll with
      | some r => match r.left with
        | b :: _ => restartBegin b true s
        | [] => s
      | none => s

/-- Put a Bantam into the waiting requests, which are taken in ascending number. -/
def insertWait (b : Nat) : List Nat → List Nat
  | [] => [b]
  | c :: rest => if b < c then b :: c :: rest else if b = c then c :: rest else c :: insertWait b rest

/-- A lone restart is requested (R473). -/
def restartRequest (b : Nat) (s : State) : State :=
  if s.fw.restarting = some b then s
  else restartNext { s with fw := { s.fw with waiting := insertWait b s.fw.waiting } }

/-- A failed restart of the roll: every Bantam already rolled goes back, with the one that failed (R478). -/
def rollBack (b : Nat) (s : State) : State :=
  match s.fw.roll with
  | some r =>
    let left := (if r.rolled.contains b then [] else [b]) ++ r.rolled
    restartNext { s with fw := { s.fw with roll := some { left := left, rolled := [], back := true } } }
  | none => s

/-- The running bundle no longer serves the agreed version (R481). -/
def reAgree (s : State) : State :=
  match activeBundle s with
  | some u => if u.ifaceLow ≤ s.fw.agreed && s.fw.agreed ≤ u.ifaceHigh then s
    else { s with fw := { s.fw with agreed := 0, features := 0 } }
  | none => s

/-- The roll goes on after a Bantam has started; with the last one the bank flips, or the roll back ends (R478). -/
def rollStep (b : Nat) (s : State) : State :=
  match s.fw.roll with
  | none => s
  | some r =>
    let r := { r with left := r.left.filter (· != b), rolled := r.rolled ++ [b] }
    if !r.left.isEmpty then { s with fw := { s.fw with roll := some r } }
    else if r.back then fwEnd 11 0 { s with fw := { s.fw with roll := none } }
    else
      let s := { s with fw := { s.fw with roll := none, activeB := !s.fw.activeB, pending := false } }
      fwNotice 1 [] (fwEvent 2 (fwEnd 0 0 (reAgree s)))

/-- The bank from which a restart of the roll loads. -/
def rollBank (s : State) : Bool := if s.fw.roll.elim false (·.back) then s.fw.activeB else !s.fw.activeB

/-- What a restarted Bantam takes up: polling at POLL_INTERVAL (R158), captured errors (R528), mail. -/
def bantamUp (b : Nat) (s : State) : State :=
  if b = 1 then
    { s with q := { s.q with rings := s.q.rings.map (fun e => (e.1, { e.2 with interval := e.2.pollInt })) } }
  else if b = 5 then classifyCaptured s
  else if b = 0 then fwMail s
  else s

/-- BANTAM_RESTART_COMPLETE (R473, R474, R478). -/
def restartComplete (digestOk : Bool) (ms : Nat) (s : State) : State :=
  match s.fw.restarting with
  | none => s
  | some b =>
    let roll := s.fw.restartRoll
    let dog := s.fw.dogs.contains b
    let s := { s with fw := { s.fw with restarting := none, restartRoll := false, dogs := s.fw.dogs.filter (· != b) } }
    if !digestOk then
      if roll && !(s.fw.roll.elim false (·.back)) then rollBack b s
      else fatal (mkLog s 12 3 b 2 9 noInst 0 0) ms s
    else
      let bank := if roll then rollBank s else (mapGet s.fw.bantamBank b).getD s.fw.activeB
      let s := { s with fw := { s.fw with lastEnd := mapSet s.fw.lastEnd b ms, bantamBank := mapSet s.fw.bantamBank b bank } }
      let s := bantamUp b s
      let s := if dog then classify (mkLog s 12 5 b 0 0 noInst 0 0) s else s
      let s := if s.fw.action = some .restartBantam && s.fw.target = b then fwEnd 0 0 s else s
      restartNext (if roll then rollStep b s else s)

/-- BANTAM_RESTART_COMPLETE (R473). -/
def execBantamRestartComplete (digestOk : Bool) (ms : Nat) (s : State) : Res :=
  .next (whenOk (powered s && s.fw.boot == .ready) (restartComplete digestOk ms) s)

/-- WATCHDOG_EXPIRY (R474, R478): the first is retried by a lone restart; one within 1,000 ms of a restart's end is
a failed restart. -/
def watchdog (b ms : Nat) (s : State) : State :=
  if s.fw.restarting = some b || s.fw.waiting.contains b || 6 ≤ b then s
  else
    let recent := (mapGet s.fw.lastEnd b).elim false (fun t => decide (ms ≤ t + 1000))
    if recent then
      if s.fw.roll.elim false (fun r => !r.back && r.rolled.contains b) then rollBack b s
      else fatal (mkLog s 12 5 b 2 9 noInst 0 0) ms s
    else
      let s := fwNotice 2 (leBytes 1 b) (fwEvent 4 { s with fw := { s.fw with dogs := s.fw.dogs ++ [b] } })
      restartRequest b s

/-- WATCHDOG_EXPIRY (R474). -/
def execWatchdogExpiry (bantam ms : Nat) (s : State) : Res :=
  .next (whenOk (powered s && s.fw.boot == .ready && !asleep s && !s.gl.fatalHalt) (watchdog bantam ms) s)

/-- RESTART_BANTAM (R473): it runs until the Bantam does; a number above 5 is not allowed. -/
def execRestartBantam (bantam : Nat) (s : State) : Res :=
  .next (whenOk (fwServed s) (fwStart .restartBantam (fun s =>
    if 6 ≤ bantam then fwEnd 5 bantam s
    else
      let s := fwRun .restartBantam s
      restartRequest bantam { s with fw := { s.fw with target := bantam } })) s)

/-! ### Bundles (R466 to R468) -/

/-- OFFSET and LENGTH of Bantam k's image. -/
def imageOff (b : List Byte) (k : Nat) : Nat := leAt b (0x30 + 16 * k) 4
def imageLen (b : List Byte) (k : Nat) : Nat := leAt b (0x34 + 16 * k) 4

/-- An image of the header is bad (Table 17.3). -/
def bundleImageBad (b : List Byte) (k : Nat) : Bool :=
  imageOff b k % 8 != 0 || imageLen b k == 0 || decide (1048576 < imageLen b k) || decide (imageOff b k < 0x90)
    || decide (b.length - trailerLen < imageOff b k + imageLen b k) || leAt b (0x38 + 16 * k) 8 != 0

/-- The header is bad, the images apart. -/
def bundleHeaderBad (b : List Byte) : Bool :=
  leAt b 0 4 != 0x57465847 || leAt b 4 2 != 1 || leAt b 6 2 != 0 || leAt b 8 4 != b.length
    || decide (8388608 < b.length) || decide (b.length < 0x90 + trailerLen) || leAt b 0x0C 4 == 0
    || decide (63 < leAt b 0x10 1) || leAt b 0x11 1 != 0 || leAt b 0x16 2 != 0 || leAt b 0x24 12 != 0

/-- The bundle of a byte string. -/
def readBundle (b : List Byte) : Bundle :=
  { release := leAt b 0x0C 4, svn := leAt b 0x10 1, ifaceLow := leAt b 0x12 2, ifaceHigh := leAt b 0x14 2
    features := BitVec.ofNat 64 (leAt b 0x18 8), minRev := leAt b 0x20 4, lengths := (List.range 6).map (imageLen b) }

/-- The check of a staged bundle, as step 2 of R469: RESULT and DETAIL. -/
def bundleCheck (s : State) (b : List Byte) (v : Verdict) : Nat × Nat :=
  if b.length ≠ stageLen s || bundleHeaderBad b then (1, 0)
  else
    match (List.range 6).find? (bundleImageBad b) with
    | some k => (1, k)
    | none =>
      if !v.rsa then (2, 0)
      else if !v.mldsa then (3, 0)
      else if leAt b 0x10 1 < s.fw.fusedSvn || gxRevision < leAt b 0x20 4 then (4, 0)
      else (0, 0)

/-- A staged action begins: a length of 0, or one that is wrong for the action, is BAD_HEADER (R477). -/
def stagedStart (a : FwAction) (lenOk : Nat → Bool) (s : State) : State :=
  if lenOk (stageLen s) then fwRun a s else fwEnd 1 0 s

/-- FW_VERIFY (R477). -/
def execFwVerify (s : State) : Res :=
  .next (whenOk (fwServed s) (fwStart .verify (stagedStart .verify (· != 0))) s)

/-- FW_INSTALL (R477). -/
def execFwInstall (s : State) : Res :=
  .next (whenOk (fwServed s) (fwStart .install (stagedStart .install (· != 0))) s)

/-- COMMIT_SVN (R468). -/
def execCommitSvn (s : State) : Res := .next (whenOk (fwServed s) (fwStart .commitSvn (fwRun .commitSvn)) s)

/-- The end of INSTALL: PENDING is cleared, the inactive bank written and read back, PENDING set. -/
def installEnd (b : List Byte) (flashOk : Bool) (s : State) : State :=
  let put := fun (u : Option Bundle) (s : State) =>
    if s.fw.activeB then { s with fw := { s.fw with bankA := u } } else { s with fw := { s.fw with bankB := u } }
  if flashOk then
    let s := put (some (readBundle b)) s
    fwEnd 0 0 { s with fw := { s.fw with pending := true } }
  else
    let s := put none s
    fwEnd 9 0 { s with fw := { s.fw with pending := false } }

/-! ### Activation (R478 to R480) -/

/-- An ACTIVATE that the domain's release forbids (R480). -/
def domainBars (s : State) : Bool :=
  let need := (rg s Reg.GX_FW_REQUIRED_RELEASE).toNat
  decide (s.lz.run.large < wfld (rg s Reg.GX_FW_DOMAIN_NODES) 22 0) && need != 0
    && (bankOf s !s.fw.activeB).any (fun u => u.release != need)

/-- A roll begins (R478). -/
def rollBegin (s : State) : State :=
  restartNext { fwRun .activateRolling s with fw := { (fwRun .activateRolling s).fw with roll := some { left := [4, 5, 2, 3, 1, 0] } } }

/-- The warm activation: the PENDING bank becomes active and a warm reset follows. -/
def activateWarm (s : State) : State :=
  warmBegin 5 { s with fw := { s.fw with activeB := !s.fw.activeB, pending := false, deferred := none, action := none } }

/-- An activation is deferred while an emergency is in force (R479). -/
def fwDefer (a : FwAction) (s : State) : State :=
  fwNotice 4 [] (fwEvent 3 { s with fw := { s.fw with state := 2, result := 0, detail := 0, deferred := some a } })

/-- ACTIVATE_ROLLING (R478). -/
def execActivateRolling (s : State) : Res :=
  .next (whenOk (fwServed s) (fwStart .activateRolling (fun s =>
    if !s.fw.pending || !(s.fw.features.getLsbD 0) then fwEnd 5 0 s
    else if domainBars s then fwEnd 8 0 s
    else if s.pw.emergency then fwDefer .activateRolling s
    else rollBegin s)) s)

/-- ACTIVATE_WARM (R477). -/
def execActivateWarm (s : State) : Res :=
  .next (whenOk (fwServed s) (fwStart .activateWarm (fun s =>
    if !s.fw.pending then fwEnd 6 0 s
    else if domainBars s then fwEnd 8 0 s
    else if s.pw.emergency then fwDefer .activateWarm s
    else activateWarm s)) s)

/-- FW_ACTIVATION_RESUME (R479) at an edge: a deferred activation begins once the emergency has cleared. -/
def fwResume (s : State) : State :=
  if s.pw.emergency then s
  else
    match s.fw.deferred with
    | some .activateRolling => rollBegin s
    | some .activateWarm => activateWarm s
    | _ => s

/-- FW_ACTIVATION_RESUME (R479). -/
def execFwActivationResume (s : State) : Res := .next (whenOk (fwServed s) fwResume s)

/-! ### Life cycle and the KEK (R490, R492 to R496) -/

/-- The life-cycle states by their numbers (Table 17.12). -/
def lcCode : LifeCycle → Nat
  | .manufacture => 0
  | .provisioned => 1
  | .deployed => 2
  | .returned => 3
  | .decommissioned => 4

/-- The state of a number. -/
def lcOf (n : Nat) : LifeCycle :=
  if n = 0 then .manufacture else if n = 1 then .provisioned else if n = 2 then .deployed
  else if n = 3 then .returned else .decommissioned

/-- The transitions of Table 17.13; a token of RETURNED with TO equal to FROM opens the debug port (R476). -/
def lcAllowed (from_ to_ : Nat) : Bool :=
  [(0, 1), (1, 2), (2, 1), (2, 3), (2, 4), (1, 3), (3, 1), (0, 4), (1, 4), (3, 4), (3, 3)].contains (from_, to_)

/-- The checks of a life-cycle token in the order of R495; `base` tells that DEVICE is this module's. -/
def tokenCheck (s : State) (b : List Byte) (v : Verdict) : Nat :=
  let to_ := leAt b 7 1
  if b.length ≠ 8340 || b.length ≠ stageLen s || leAt b 0 4 != 0x434C5847 || leAt b 4 2 != 1 || leAt b 0x18 8 != 0
      || to_ != 2 && !(allZero (slice b 0x60 3104)) then 1
  else if leAt b 8 16 != s.sec.nonce.toNat || !v.base then 10
  else if leAt b 6 1 != lcCode s.sec.lc || !(lcAllowed (leAt b 6 1) to_) then 5
  else if !v.rsa then 2
  else if !v.mldsa then 3
  else if to_ != lcCode s.sec.lc && (s.sec.transitionsLeft == 0 || to_ == 2 && decide (4 ≤ s.sec.ownerRows)) then 13
  else 0

/-- Every attempt replaces GX_FW_NONCE (R495). -/
def newNonce (s : State) : State :=
  let (n, s) := drawDrbg s
  { s with sec := { s.sec with nonce := n } }

/-- LC_CHANGE (R495); its new nonce waits while the DRBG does not answer (R491). -/
def execLcChange (s : State) : Res :=
  .next (whenOk (fwServed s) (fwStart .lcChange (fun s =>
    if stageLen s = 8340 || !(drbgReady s) then fwRun .lcChange s else newNonce (fwEnd 1 0 s))) s)

/-- Step 3 of R495: the new state in OTP, the owner rows, and OWNER erased. -/
def lcRecord (to_ : Nat) (s : State) : State :=
  let leaves := s.sec.lc == .deployed
  let enters := to_ == 2
  let sec := { s.sec with lc := lcOf to_, transitionsLeft := s.sec.transitionsLeft - 1
                          udsErased := s.sec.udsErased || to_ == 4 }
  let sec := if enters then { sec with ownerRows := sec.ownerRows + 1, owned := true, kek := none } else sec
  let sec := if leaves then { sec with owned := false, kek := none } else sec
  { s with sec := sec }

/-- Steps 1 to 4 of R495.  A scan that a full CQ delays leaves the action running, and so does a DRBG that does not
answer (R491). -/
def lcEnd (x : FwEnd) (s : State) : State :=
  let code := tokenCheck s x.bytes x.verdict
  let to_ := leAt x.bytes 7 1
  if !(drbgReady s) then s
  else if code ≠ 0 then newNonce (fwEnd code 0 s)
  else if to_ = lcCode s.sec.lc then newNonce (fwEnd 0 0 { s with sec := { s.sec with debugOpen := true } })
  else
    let rs := (s.q.rings.filter (fun e => e.2.kind != .cq)).map Prod.fst
    let t := { s with q := { s.q with rings := s.q.rings.map (fun e => (e.1, warmRing e.2)), scanning := rs } }
    let t := warmScans x.scans t
    if t.q.scanning.isEmpty then coldBegin (lcRecord to_ t) else s

/-- KEK_INSTALL (R490): only in DEPLOYED. -/
def execKekInstall (s : State) : Res :=
  .next (whenOk (fwServed s) (fwStart .kekInstall (fun s =>
    if s.sec.lc ≠ .deployed then fwEnd 5 0 s else stagedStart .kekInstall (· == 6724) s)) s)

/-- The check of a KEK record; `base` tells that the ciphertext decapsulates. -/
def kekCheck (s : State) (b : List Byte) (v : Verdict) : Nat :=
  if b.length ≠ 6724 || leAt b 0 4 != 0x4B4B5847 || leAt b 4 2 != 1 || leAt b 6 1 != s.sec.ownerRows - 1
      || leAt b 7 9 != 0 then 1
  else if !v.rsa then 2
  else if !v.mldsa then 3
  else if !v.base then 12
  else 0

/-- FW_ACTION_END (R477). -/
def fwActionEnd (x : FwEnd) (s : State) : State :=
  match s.fw.action with
  | some .verify => let r := bundleCheck s x.bytes x.verdict; fwEnd r.1 r.2 s
  | some .install =>
    let r := bundleCheck s x.bytes x.verdict
    if r.1 ≠ 0 then fwEnd r.1 r.2 s else installEnd x.bytes x.flashOk s
  | some .commitSvn =>
    let svn := ((activeBundle s).map (·.svn)).getD 0
    fwEnd 0 0 { s with fw := { s.fw with fusedSvn := max s.fw.fusedSvn svn } }
  | some .lcChange => lcEnd x s
  | some .kekInstall =>
    let code := kekCheck s x.bytes x.verdict
    if code ≠ 0 then fwEnd code 0 s
    else if !x.flashOk then fwEnd 9 0 s
    else fwEnd 0 0 { s with sec := { s.sec with kek := some x.kek } }
  | _ => s

/-- FW_ACTION_END (R477). -/
def execFwActionEnd (x : FwEnd) (s : State) : Res := .next (whenOk (fwServed s) (fwActionEnd x) s)

/-! ### Versions and joining (R481 to R484) -/

/-- FW_HELLO (R481): the firmware takes the message in instance 0's outbound buffer and answers it; another TYPE
draws STATUS 1 (R438). -/
def fwHello (s : State) : State :=
  let m := ((List.range 8).map (fun i => leBytes 4 ((mapGet (inst s 0).mboxOut (4 * i)).getD 0).toNat)).flatten
  let ty := leAt m 0 2
  let seq := leAt m 4 4
  let s := raisePage 0 1 (setInst 0 { inst s 0 with outFull := false } s)
  match activeBundle s with
  | some u =>
    if ty = 0x0101 && leAt m 2 2 = 16 then
      let high := min (leAt m 18 2) u.ifaceHigh
      let agreed := if max (leAt m 16 2) u.ifaceLow ≤ high then high else 0
      let features := BitVec.ofNat 64 (leAt m 24 8) &&& u.features
      let s := { s with fw := { s.fw with hello := some (leAt m 16 2, leAt m 18 2, BitVec.ofNat 64 (leAt m 24 8))
                                          agreed := agreed, features := features } }
      fwSend (mailBytes 0x8101 seq 0 (leBytes 2 agreed ++ leBytes 2 u.ifaceHigh ++ leBytes 4 u.release
        ++ leBytes 8 features.toNat ++ leBytes 1 u.svn ++ List.replicate 7 0)) s
    else fwSend (mailBytes (ty ||| 0x8000) seq 1 []) s
  | none => s

/-- FW_HELLO (R481). -/
def execFwHello (s : State) : Res :=
  .next (whenOk (mailbox s 0 && (inst s 0).outFull && !(bantamBusy s 0)) fwHello s)

/-- A version mismatch in a domain above LARGE_THRESHOLD: condition 5 of R483. -/
def versionMismatch (s : State) : Bool :=
  match activeBundle s with
  | none => true
  | some u =>
    let need := (rg s Reg.GX_FW_REQUIRED_RELEASE).toNat
    decide (s.lz.run.large < wfld (rg s Reg.GX_FW_DOMAIN_NODES) 22 0)
      && (s.fw.hello.elim true (fun h => h.2.1 != u.ifaceHigh) || u.ifaceHigh != s.fw.agreed
          || s.fw.features != u.features || need != 0 && need != u.release)

/-- GX_FW_JOIN.UNMET: bit i stands for condition i + 1 of R483. -/
def joinUnmet (s : State) : Nat :=
  (if s.tick.align = .aligned then 0 else 1) + (if anySlot s then 0 else 2) + (if s.fw.agreed ≠ 0 then 0 else 4)
    + (if lcCode s.sec.lc ≤ 2 then 0 else 8) + (if versionMismatch s then 16 else 0)

/-- JOIN_DOMAIN (R483, R484) at an edge. -/
def joinEdge (s : State) : State :=
  if s.fw.joined then
    if !(anySlot s) then { s with fw := { s.fw with joined := false } }
    else if versionMismatch s then
      if s.fw.mismatch then s else fwEvent 10 { s with fw := { s.fw with mismatch := true } }
    else { s with fw := { s.fw with mismatch := false } }
  else
    match joinUnmet s with
    | 0 => { s with fw := { s.fw with joined := true, refused := false, mismatch := false } }
    | 16 =>
      if s.fw.refused then s else fwNotice 3 [] (fwEvent 6 { s with fw := { s.fw with refused := true } })
    | _ => { s with fw := { s.fw with refused := false } }

/-- JOIN_DOMAIN (R483). -/
def execJoinDomain (s : State) : Res := .next (whenOk (running s) joinEdge s)

/-! ### The host's heartbeat (R485) and the DRBG (R491) -/

/-- HOST_BEAT (R485): any write of GX_FW_HEARTBEAT; TIMEOUT_MS is written with it. -/
def execHostBeat (value : Word) (ms : Nat) (s : State) : Res :=
  .next (whenOk (windowUp s) (fun s =>
    putReg Reg.GX_FW_HEARTBEAT (value &&& 0xFFFF0000) { s with fw := { s.fw with beatAt := ms } }) s)

/-- HOST_SILENT (R485). -/
def execHostSilent (ms : Nat) (s : State) : Res :=
  let limit := wfld (rg s Reg.GX_FW_HEARTBEAT) 31 16
  .next (whenOk (running s && s.fw.features.getLsbD 3 && limit != 0 && decide (s.fw.beatAt + limit ≤ ms)) (fwEvent 7) s)

/-- DRBG_RESEED (R491): after 2^20 requests. -/
def execDrbgReseed (s : State) : Res :=
  .next (whenOk (powered s && !s.sec.drbgStopped && decide (2 ^ 20 ≤ s.sec.drbgSince)) (fun s =>
    { s with sec := { s.sec with drbgSince := 0 } }) s)

end Sys2Proof.Machine
end

