-- ==== Sys2Proof/Machine/Power.lean ====
section
/-! DEFINITION. Domains, power states, parking, throttling, emergencies and the trip (R498 to R514). -/

namespace Sys2Proof.Machine

/-! ### Domains (R498 to R500) -/

/-- Physical core that serves a logical one (R18). -/
def physicalCore (s : State) (lk : Nat) : Nat := if s.re.now.spareMap = some lk then 16 else lk

/-- Lowest condition of a domain in a power state (Table 18.2); self-refresh is RETENTION: the arrays hold. -/
def lowestCond (ps : PowerState) (d : Nat) : Cond :=
  let small := decide (d < 136) || decide (200 ≤ d ∧ d < 212) || decide (232 ≤ d ∧ d < 235)
  let store := decide (136 ≤ d ∧ d < 153)
  let tier := decide (212 ≤ d ∧ d < 232)
  if d = 195 then .on
  else
    match ps with
    | .ps0 => if small || store then .idle else .on
    | .ps1 => if small then .off else if store then .idle else .on
    | .ps2 => if small then .off else if store || tier then .retention else .on
    | .ps3 => if tier then .retention else .off
    | .ps4 => .off

/-- Depth of a condition. -/
def condDepth : Cond → Nat
  | .on => 0
  | .idle => 1
  | .retention => 2
  | .off => 3

/-- Engines in some leaf of the running structure. -/
def engineUsed (s : State) (d : Nat) : Bool :=
  s.lz.run.flocks.any (fun f => f.kind != .inner && physicalCore s f.core == d / 8 && f.mask.getLsbD (d % 8))

/-- A domain that stays OFF in every power state (R498), and the engines in no leaf (R53). -/
def alwaysOff (s : State) (d : Nat) : Bool :=
  let core := if d < 136 then d / 8 else d - 136
  if d < 153 then
    s.re.now.fencedCores.contains core || core == 16 && s.re.now.spareMap.isNone || decide (d < 136) && !(engineUsed s d)
  else if d < 187 then
    if d = 169 || d = 186 then !(s.cf.ports.any (fun p => p.2.spareUsed && portHalf s p.1 == (if d = 169 then 0 else 1)))
    else
      let k := if d < 169 then d - 153 else d - 154
      s.re.now.fencedLanes.contains k || !((portCfg s (k / portLanes s)).any (·.enable))
  else if d < 195 then
    let first := (d - 187) * 4 / portLanes s
    !((List.range (max 1 (4 / portLanes s))).any (fun i => (portCfg s (first + i)).any (·.enable)))
  else if 200 ≤ d && d < 212 then s.re.now.fencedAes.contains (d - 200)
  else false

/-- Engines beneath a Flock, as domains. -/
def engineDomains (s : State) (flock : Nat) : List Nat :=
  (leavesOf s.lz.run flock).flatMap (fun l =>
    ((List.range 8).filter (fun e => l.mask.getLsbD e)).map (fun e => 8 * physicalCore s l.core + e))

/-- The condition of a domain, as GX_PW_DOMAIN_STATUS reports it with the bias of Table 18.5 (R508). -/
def domainCond (s : State) (d : Nat) : Cond :=
  if alwaysOff s d then .off
  else if asleep s then lowestCond s.pw.ps d
  else (mapGet s.dom.conds d).getD .on

/-- Set a domain's condition. -/
def setCond (d : Nat) (c : Cond) (s : State) : State :=
  { s with dom := { s.dom with conds := mapPut .on s.dom.conds d c } }

/-- The check-value domain never leaves ON while a unit is not STOPPED (R499). -/
def domainHeld (s : State) (d : Nat) : Bool := d == 234 && !(cvActive s).isEmpty

/-- DOMAIN_IDLE_TIMEOUT (R499): no request for IDLE_TK ticks; the lowest condition that the state allows. -/
def execDomainIdleTimeout (domain : Nat) (s : State) : Res :=
  .next (whenOk (running s && decide (domain < 236) && !(alwaysOff s domain) && domainCond s domain == .on
      && !(domainHeld s domain)) (fun s => setCond domain (lowestCond s.pw.ps domain) s) s)

/-- DOMAIN_WAKE (R499): the first request that reaches a domain not ON. -/
def execDomainWake (domain : Nat) (s : State) : Res :=
  .next (whenOk (running s && decide (domain < 236) && !(alwaysOff s domain) && domainCond s domain != .on) (fun s =>
    bump Reg.GX_PW_WAKE_CNT (setCond domain .on s)) s)

/-! ### Parking (R507) -/

/-- An instance above a Flock is being reset. -/
def resetAbove (s : State) (f : Nat) : Bool :=
  s.lz.run.insts.any (fun e => (inst s e.1).state == .resetting && beneath s.lz.run e.2 f)

/-- Parked engines are OFF again at an edge. -/
def parkEdge (s : State) : State :=
  (s.dom.parked.flatMap (engineDomains s)).foldl (fun s d => setCond d .off s) s

/-- The unit action of a park or unpark. -/
def parkKind (park : Bool) : UnitActionKind := if park then .park else .unpark

/-- A park or unpark goes on: it waits for an ancestor's action, whose status it takes (R72), and for the bond members
(R70). -/
def parkProgress (s : State) : State :=
  match s.dom.parkRun with
  | none => s
  | some r =>
    if r.under then
      if resetAbove s r.flock then s else { s with dom := { s.dom with parkRun := none } }
    else if !(unitsDone s r.flock (parkKind r.park)) then s
    else
      let s := endUnits r.flock (parkKind r.park) s
      let parked := if r.park then insertNew s.dom.parked r.flock else s.dom.parked.filter (· != r.flock)
      let s := { s with dom := { s.dom with parked := parked, parkRun := none } }
      if r.park then parkEdge s else (engineDomains s r.flock).foldl (fun s d => setCond d .on s) s

/-- A write of GX_PW_FLOCK with an ACTION; while BUSY reads 1 only FLOCK_ID is written. -/
def parkWrite (park : Bool) (value : Word) (s : State) : State :=
  let s := putReg Reg.GX_PW_FLOCK (value &&& 0x0FFF0000) s
  let f := wfld value 27 16
  if s.dom.parkRun.isSome || (flockOf s.lz.run f).isNone then s
  else
    let under := resetAbove s f
    let s := if under then s else startUnits f (parkKind park) s
    parkProgress { s with dom := { s.dom with parkRun := some { flock := f, park := park, under := under } } }

/-- FLOCK_PARK (R507). -/
def execFlockPark (value : Word) (s : State) : Res :=
  .next (whenOk (running s && wfld value 1 0 == 1) (parkWrite true value) s)

/-- FLOCK_UNPARK (R507). -/
def execFlockUnpark (value : Word) (s : State) : Res :=
  .next (whenOk (running s && wfld value 1 0 == 2) (parkWrite false value) s)

/-! ### Power states (R501 to R506) -/

/-- The power states by number. -/
def psOf (n : Nat) : PowerState :=
  if n = 0 then .ps0 else if n = 1 then .ps1 else if n = 2 then .ps2 else if n = 3 then .ps3 else .ps4
def psCode : PowerState → Nat
  | .ps0 => 0
  | .ps1 => 1
  | .ps2 => 2
  | .ps3 => 3
  | .ps4 => 4

/-- The conditions under which PS3 or PS4 may be entered (R502). -/
def quiet (s : State) : Bool :=
  s.q.rings.all (fun r => decide (r.1 < 2)) && s.tp.qps.isEmpty && s.hd.herds.isEmpty
    && s.ce.slots.all (fun k => k.2.state == 0) && s.xl.invals.isEmpty
    && s.lz.action == 0 && s.lz.held.isNone && s.fw.action.isNone && s.fw.deferred.isNone
    && s.vi.insts.all (fun i => !(i.2.state == .resetting || i.2.state == .freezing || i.2.state == .frozen))

/-- Blocks of the always-on domain keep their registers whole: the tick and the power block, and of the global block
GX_ID and the interrupt registers (R504). -/
def alwaysOn (off : Nat) : Bool :=
  off / 0x10000 == 1 || off / 0x10000 == 18 || decide (0x100 ≤ off ∧ off < 0x300)

/-- Live register values on the save list: every CMT and RWS field, and the group hash tables (Table 18.4). -/
def savedRegs (regs : NMap Word) : NMap Word :=
  regs.filterMap (fun e =>
    let off := e.1 % 0x100000000
    if alwaysOn off || off == Reg.GX_ETH_GHASH_DATA then some e
    else
      match keyInfo e.1 with
      | none => none
      | some i =>
        let m := i.cmt ||| i.rws ||| i.w1s
        let v := (e.2 &&& m) ||| (i.reset &&& ~~~m)
        if v = keyReset e.1 then none else some (e.1, v))

/-- PS_LOW_ENTRY (R503): links down, the save list kept, everything else of the sleeping domains gone.  Core stores and,
in PS4, the tiers lose their bytes, which the exit's wipe makes 0. -/
def enterLow (ps : PowerState) (s : State) : State :=
  let s := (List.range 32).foldl (fun s p =>
    if isEthPort s p then ethDown p s else if isCellPort s p then toDisabled p s else s) s
  let s := (List.range 4).foldl (fun s p => failFlushes p (accState p .down s)) s
  let s := raise Reg.GX_PW_EVENTS 3 s
  { s with
    regs := savedRegs s.regs, shadows := s.shadows.filter (fun e => alwaysOn (e.1 % 0x100000000))
    xl := {}, tp := {}, hd := {}, kn := {}, ce := {}, cv := [], spdm := {}
    cf := { fences := s.cf.fences, fencedAt := s.cf.fencedAt }
    eth := { unodes := s.eth.unodes.map (fun e => (e.1, { e.2 with fill := [] })) }
    cs := { gcls := s.cs.gcls }
    pc := { hstUp := s.pc.hstUp, hstRate := s.pc.hstRate, hstWidth := s.pc.hstWidth
            acc := s.pc.acc.map (fun e => (e.1, warmAcc e.2)) }
    vi := { s.vi with insts := s.vi.insts.map (fun e => (e.1,
      { e.2 with mboxOut := [], mboxIn := [], outFull := false, inFull := false, migLatch := 0, edgeLatch := 0 })) }
    mem := { s.mem with stores := [], badStore := [], bytes := if ps = .ps4 then [] else s.mem.bytes
                        bad := if ps = .ps4 then [] else s.mem.bad }
    dom := { parked := s.dom.parked }
    pw := { s.pw with ps := ps, result := 0 } }

/-- A state change among PS0 to PS2: domains that may not sleep so deeply wake (R501). -/
def shiftAwake (ps : PowerState) (s : State) : State :=
  let conds := s.dom.conds.filter (fun e => decide (condDepth e.2 ≤ condDepth (lowestCond ps e.1)))
  raise Reg.GX_PW_EVENTS 3 (parkEdge { s with pw := { s.pw with ps := ps, result := 0 }, dom := { s.dom with conds := conds } })

/-- A request for a state at an edge (R501, R502, R504, R512): in an emergency a lower-numbered one is held; a restart of
Bantam 4 delays it (R475). -/
def psRequest (target : PowerState) (s : State) : State :=
  let t := psCode target
  if target = s.pw.ps && s.pw.exit.isNone then { s with pw := { s.pw with held := none } }
  else if s.pw.emergency && decide (t < psCode s.pw.ps) then
    raise Reg.GX_PW_EVENTS 5 { s with pw := { s.pw with held := some target, result := 2 } }
  else if bantamBusy s 4 then { s with pw := { s.pw with held := some target } }
  else
    let s := { s with pw := { s.pw with held := none } }
    if t ≤ 2 then (if asleep s then { s with pw := { s.pw with exit := some target } } else shiftAwake target s)
    else if quiet s && !(asleep s) then enterLow target s
    else raise Reg.GX_PW_EVENTS 4 { s with pw := { s.pw with result := 1 } }

/-- A held request proceeds at an edge once nothing holds it (R512). -/
def psHeld (s : State) : State :=
  match s.pw.held with
  | some t => if s.pw.emergency || bantamBusy s 4 then s else psRequest t s
  | none => s

/-- PS_EXIT_COMPLETE (R505): the steps up to the resumption of intake. -/
def psExit (s : State) : State :=
  match s.pw.exit with
  | none => s
  | some t =>
    let s := if s.pw.ps = .ps4 then tier1Clean s else s
    let s := raise Reg.GX_PW_EVENTS 3 { s with pw := { s.pw with ps := t, exit := none, result := 0 } }
    let s := applyLanes (openPorts s)
    (List.range 4).foldl (fun s p => if (accCtrl s p).getLsbD 0 then s else accState p .training s) s

/-- PS_EXIT_COMPLETE (R505). -/
def execPsExitComplete (s : State) : Res := .next (whenOk (powered s && asleep s) psExit s)

/-- Offsets that answer in PS3 and PS4 (R504). -/
def answersAsleep (off : Nat) : Bool := off == Reg.GX_ID || alwaysOn off

/-- ASLEEP_ACCESS (R504): another access reads 0, or its write is ignored; it is counted. -/
def execAsleepAccess (write : Bool) (off : Nat) (s : State) : Res :=
  .next (whenOk (powered s && asleep s && !(answersAsleep off)) (fun s =>
    let s := raise Reg.GX_PW_EVENTS 6 (bump Reg.GX_PW_ASLEEP_CNT s)
    if write then s else emit (.readData 0) s) s)

/-! ### Throttling and emergencies (R509 to R512) -/

/-- The sustained limit of R509 in tenths of a mW. -/
def powerLimit (s : State) : Nat := min (min (wfld (rg s Reg.GX_PW_LIMIT) 9 0) 680 * 10000) (136 * s.pw.mv)

/-- The last 1 ms average is above the limit. -/
def overLimit (s : State) : Bool := decide (powerLimit s < s.pw.avgW * 10000)

/-- The average is below 95 % of the limit. -/
def underLimit (s : State) : Bool := decide (s.pw.avgW * 10000 * 100 < powerLimit s * 95)

/-- DOWN_TK. -/
def downTk (s : State) : Nat := wfld (rg s Reg.GX_PW_THROTTLE) 15 8

/-- INPUT_SAMPLE (R509): sensor and reading, input voltage, whether it has been outside 40 V to 60 V for 1 ms, the 10 us
sample and the last 1 ms average.  The fast clamp acts at once. -/
def inputSample (sensor degC mv : Nat) (voltBad : Bool) (sampleW avgW : Nat) (s : State) : State :=
  let s := { s with pw := { s.pw with sensor := sensor, degC := degC, mv := mv, voltBad := voltBad, sampleW := sampleW
                                      avgW := avgW } }
  if 820 < sampleW && !s.pw.clamped then bump Reg.GX_PW_CLAMP_CNT { s with pw := { s.pw with clamped := true } }
  else if sampleW < 760 then { s with pw := { s.pw with clamped := false } }
  else s

/-- INPUT_SAMPLE (R509): the sensors read while the module has power. -/
def execInputSample (sensor degC mv : Nat) (voltBad : Bool) (sampleW avgW : Nat) (s : State) : Res :=
  .next (whenOk s.pins.pwrGood (inputSample sensor degC mv voltBad sampleW avgW) s)

/-- A demand's rise by one tick, and the count of ticks for which its fall has been due (Table 18.6). -/
def demandStep (rise fall : Bool) (demand below : Nat) : Nat × Nat :=
  if rise then (min 12 (demand + 1), 0) else if fall then (demand, below + 1) else (demand, 0)

/-- DEMAND_DECREASE (R511): after DOWN_TK ticks a demand falls by 1. -/
def demandFall (s : State) : State :=
  let n := downTk s
  let pw := s.pw
  let pw := if n ≤ pw.thermalBelow then { pw with thermal := pw.thermal - 1, thermalBelow := 0 } else pw
  let pw := if n ≤ pw.powerBelow then { pw with power := pw.power - 1, powerBelow := 0 } else pw
  { s with pw := pw }

/-- DEMAND_DECREASE (R511). -/
def execDemandDecrease (s : State) : Res := .next (whenOk (powered s) demandFall s)

/-- The causes of an emergency that are present (R512), as CAUSE numbers them. -/
def emergencyCause (s : State) : Nat :=
  (if 110 ≤ s.pw.degC then 1 else 0) + (if s.pw.voltBad then 2 else 0) + (if 64 ≤ s.pw.powerAt12 then 4 else 0)

/-- LEVEL (R510): THROTTLE tells that it rose above 0. -/
def setLevel (s : State) : State :=
  let level := max (max s.pw.thermal s.pw.power)
    (max (wfld (rg s Reg.GX_PW_THROTTLE) 19 16) (if s.pw.emergency then 12 else 0))
  let s' := { s with pw := { s.pw with level := level } }
  if s.pw.level = 0 && level != 0 then raise Reg.GX_PW_EVENTS 0 s' else s'

/-- EMERGENCY_BEGIN (R512). -/
def emergencyBegin (s : State) : State :=
  let c := emergencyCause s
  if s.pw.emergency || c = 0 then s
  else
    let s := { s with pw := { s.pw with emergency := true, cause := c, clearTicks := 0 } }
    setLevel (raise Reg.GX_PW_EVENTS 1 s)

/-- EMERGENCY_BEGIN (R512). -/
def execEmergencyBegin (s : State) : Res := .next (whenOk (powered s) emergencyBegin s)

/-- EMERGENCY_END (R512): 256 ticks without a cause. -/
def emergencyEnd (s : State) : State :=
  if s.pw.emergency && decide (256 ≤ s.pw.clearTicks) && decide (s.pw.degC < 105) then
    raise Reg.GX_PW_EVENTS 2 { s with pw := { s.pw with emergency := false, cause := 0, clearTicks := 0 } }
  else s

/-- EMERGENCY_END (R512). -/
def execEmergencyEnd (s : State) : Res := .next (whenOk (powered s) emergencyEnd s)

/-- THROTTLE_LEVEL_SET: the controller at an edge (R510 to R512); it is hardware and runs in every state. -/
def throttleEdge (s : State) : State :=
  let t := demandStep (decide (105 ≤ s.pw.degC)) (decide (s.pw.degC < 103)) s.pw.thermal s.pw.thermalBelow
  let p := demandStep (overLimit s) (underLimit s) s.pw.power s.pw.powerBelow
  let at12 := if s.pw.power = 12 && overLimit s then s.pw.powerAt12 + 1 else 0
  let s := demandFall { s with pw := { s.pw with thermal := t.1, thermalBelow := t.2, power := p.1, powerBelow := p.2
                                                 powerAt12 := at12 } }
  let calm := emergencyCause s == 0 && decide (s.pw.degC < 105)
  let s := { s with pw := { s.pw with clearTicks := if s.pw.emergency && calm then s.pw.clearTicks + 1 else 0 } }
  let s := setLevel (emergencyEnd (emergencyBegin s))
  if s.pw.level = 0 then s else bump Reg.GX_PW_THROTTLE_CNT s

/-- THERMAL_TRIP (R513): power goes from every domain but the always-on one until a cold reset; the trip is recorded. -/
def thermalTrip (sensor degC : Nat) (s : State) : State :=
  let s := repair (fun r => { r with trips := min 255 (r.trips + 1), tripOpen := true }) s
  coldBegin { s with pw := { s.pw with sensor := sensor, degC := degC, tripped := true }
                     pins := { s.pins with thermtrip := true } }

/-- THERMAL_TRIP (R513): at 120 C. -/
def execThermalTrip (sensor degC : Nat) (s : State) : Res :=
  .next (whenOk (powered s && decide (120 ≤ degC)) (thermalTrip sensor degC) s)

end Sys2Proof.Machine
end

