-- ==== Sys2Proof/Machine/Commit.lean ====
section
/-! DEFINITION. Shadows and commits (R5, R6, R41, R67 to R69, R546): the checks of each block at the commit write, the
pending sets, and what a set does at its edge. -/

namespace Sys2Proof.Machine

/-! ### The blocks -/

/-- A block with a commit register: its number in Table 20.1, the register, and its COMMIT_REJECT, if it has one. -/
structure CommitBlock where
  block : Nat
  reg : Nat
  reject : Option (Nat × Nat) := none
  deriving DecidableEq, Repr

/-- The blocks with a commit register, in the order of the bits of R546. -/
def commitBlocks : List CommitBlock :=
  [⟨0x1, Reg.GX_TICK_COMMIT, some (Reg.GX_TICK_EVENTS, 3)⟩,
   ⟨0x3, Reg.GX_XL_COMMIT, some (Reg.GX_XL_EVENTS, 2)⟩,
   ⟨0x4, Reg.GX_MEM_COMMIT, none⟩,
   ⟨0x5, Reg.GX_Q_COMMIT, none⟩,
   ⟨0x6, Reg.GX_TP_COMMIT, some (Reg.GX_TP_EVENTS, 4)⟩,
   ⟨0x7, Reg.GX_CF_COMMIT, some (Reg.GX_CF_EVENTS, 9)⟩,
   ⟨0x8, Reg.GX_ETH_COMMIT, some (Reg.GX_ETH_EVENTS, 7)⟩,
   ⟨0x9, Reg.GX_CS_COMMIT, some (Reg.GX_CS_EVENTS, 3)⟩,
   ⟨0x12, Reg.GX_PW_COMMIT, some (Reg.GX_PW_EVENTS, 7)⟩]

/-- Number of the block that a register key belongs to. -/
def blockOf (key : Nat) : Nat := key % 2 ^ 32 / 0x10000

/-- The CMT bits of a register key. -/
def cmtMask (key : Nat) : Word := ((keyInfo key).map (·.cmt)).getD 0

/-- The copy of a block's shadows that a commit write takes (R67): a key is listed where its live or its shadow value
differs from the reset value. -/
def commitVals (s : State) (b : Nat) : NMap Word :=
  ((s.shadows ++ s.regs).map Prod.fst).foldl (fun m k =>
    if blockOf k = b && cmtMask k != 0 then mapSet m k (shadowAt s k) else m) []

/-- Values become live: of each register its CMT bits. -/
def makeLive (vals : NMap Word) (s : State) : State :=
  vals.foldl (fun s e => putReg e.1 ((regAt s e.1 &&& ~~~(cmtMask e.1)) ||| (e.2 &&& cmtMask e.1)) s) s

/-- Positions of an indexed register that a set lists. -/
def setPositions (vals : NMap Word) (off : Nat) : List Nat :=
  (vals.filter (fun e => e.1 % 2 ^ 32 == off)).map (fun e => e.1 / 2 ^ 32)

/-! ### The checks (R41, R76, R195, R226, R235, R261, R287, R514); `v` is the state as the set would make it -/

/-- R76, and the locations of Table 3.12. -/
def xlBad (v : State) : Bool :=
  let ids := ((List.range v.lz.run.nodeIds).map (fun k => rg v (Reg.GX_XL_NODE_ID + 4 * k))).filter (fun w => w.getLsbD 31)
  let nodes := ids.map (fun w => wfld w 22 0)
  decide (2 ≤ wfld (rg v Reg.GX_XL_SPTAB_CFG) 22 21) || nodes.eraseDups.length != nodes.length

/-- R195. -/
def tpBad (v : State) : Bool :=
  let d := rg v Reg.GX_TP_DEFAULTS
  let t := rg v Reg.GX_TP_TIMERS
  wfld d 27 20 == 0 || wfld d 19 12 == 0 || wfld d 11 8 == 0 || wfld d 7 0 == 0 || wfld t 31 16 == 0 || wfld t 3 0 == 0

/-- R226. -/
def cfBad (v : State) : Bool :=
  let pub := rg v Reg.GX_CF_PUB_CFG
  decide (2 ≤ wfld pub 1 0) || decide (2 ≤ wfld (rg v Reg.GX_CF_CMAP_CFG) 1 0)
    || pub.getLsbD 31 && (decide (wfld pub 11 8 < 3) || decide (12 < wfld pub 11 8))

/-- KiB that the limits of an Ethernet port take of the packet buffer pool (R235). -/
def portPoolKib (v : State) (p : Nat) : Nat :=
  let xoff := fun k => wfld (rgi v Reg.GX_ETH_PRI_XOFF (idx2 p k)) 15 0 + wfld (rgi v Reg.GX_ETH_PRI_HEADROOM (idx2 p k)) 15 0
  wfld (rgi v Reg.GX_ETH_RX_LIMIT p) 15 0 + ((flowClasses v p).map xoff).sum

/-- R235 and R261. -/
def ethBad (v : State) (vals : NMap Word) : Bool :=
  let pool := (((List.range 32).filter (isEthPort v)).map (portPoolKib v)).sum
  let gander := fun p =>
    let g := rgi v Reg.GX_ETH_GANDER p
    g.getLsbD 16 && (wfld g 15 8 == 0 || wfld g 7 0 == 0)
  decide (v.lz.run.sram.2.2.1 * 1024 < 2 * pool)
    || (setPositions vals Reg.GX_ETH_PRI_XOFF).any (fun i =>
        decide (wfld (rgi v Reg.GX_ETH_PRI_XOFF i) 15 0 < wfld (rgi v Reg.GX_ETH_PRI_XOFF i) 31 16))
    || (setPositions vals Reg.GX_ETH_FC_CTRL).any (fun p => fcMode v p == 3)
    || (setPositions vals Reg.GX_ETH_GANDER).any gander
    || decide (2 ≤ wfld (rg v Reg.GX_ETH_RTAB_CFG) 22 21)

/-- A shaper of R287. -/
def shaperBad (v : State) (per i : Nat) : Bool :=
  let r := rgi v Reg.GX_CS_SHAPER_RATE i
  r.getLsbD 31 && decide (8 * wfld (rgi v Reg.GX_CS_SHAPER_BURST i) 23 0 < wfld r 19 0 * per)

/-- A meter of R287. -/
def meterBad (v : State) (per i : Nat) : Bool :=
  let cir := wfld (rgi v Reg.GX_CS_METER_CIR i) 19 0
  let pir := wfld (rgi v Reg.GX_CS_METER_PIR i) 19 0
  (rgi v Reg.GX_CS_METER_CFG i).getLsbD 31 && (decide (pir < cir)
    || decide (8 * wfld (rgi v Reg.GX_CS_METER_CBS i) 23 0 < cir * per)
    || decide (8 * wfld (rgi v Reg.GX_CS_METER_PBS i) 23 0 < pir * per))

/-- A gate control list of R287. -/
def listBad (v : State) (p : Nat) : Bool :=
  let c := rgi v Reg.GX_CS_GCL_CFG p
  c.getLsbD 31 && (wfld c 27 21 == 0 || decide (64 < wfld c 27 21)
    || (if c.getLsbD 30 then (rgi v Reg.GX_CS_GCL_CYCLE_NS p) == 0 else wfld c 15 0 == 0))

/-- R287; `per` is the PERIOD of its checks. -/
def csBad (v : State) (vals : NMap Word) (per : Nat) : Bool :=
  let g := rg v Reg.GX_CS_GRANT
  let e := rg v Reg.GX_CS_ECN_CTRL
  let at_ := setPositions vals
  decide (wfld g 30 24 < 50) || decide (100 < wfld g 30 24) || wfld g 23 16 == 0 || wfld e 31 24 == 0 || wfld e 23 16 == 0
    || (at_ Reg.GX_CS_INST_CFG).any (fun n => wfld (rgi v Reg.GX_CS_INST_CFG n) 23 16 == 0)
    || (at_ Reg.GX_CS_CLASS_CFG).any (fun c => decide (wfld (rgi v Reg.GX_CS_CLASS_CFG c) 15 0 < 64))
    || (at_ Reg.GX_CS_SHAPER_RATE ++ at_ Reg.GX_CS_SHAPER_BURST).any (shaperBad v per)
    || (at_ Reg.GX_CS_METER_CFG).any (meterBad v per)
    || (at_ Reg.GX_CS_GCL_CFG).any (listBad v)

/-- R514. -/
def pwBad (v : State) : Bool :=
  let t := rg v Reg.GX_PW_THROTTLE
  decide (4 < wfld (rg v Reg.GX_PW_TARGET) 2 0) || decide (12 < wfld t 19 16) || wfld t 15 8 == 0 || wfld t 7 0 == 0
    || decide (680 < wfld (rg v Reg.GX_PW_LIMIT) 9 0)

/-- A block's check of the shadows as they stand; `per` is the PERIOD that R287 uses. -/
def commitBad (s : State) (per b : Nat) : Bool :=
  let vals := commitVals s b
  let v := makeLive vals s
  match b with
  | 0x1 => tickCommitBad s (period v) (guardClk v)
  | 0x3 => xlBad v
  | 0x6 => tpBad v
  | 0x7 => cfBad v
  | 0x8 => ethBad v vals
  | 0x9 => csBad v vals per
  | 0x12 => pwBad v
  | _ => false

/-! ### The commit write (R41, R68, R546) -/

/-- A block rejects its set. -/
def commitReject (b : CommitBlock) (s : State) : State := b.reject.elim s (fun e => raise e.1 e.2 s)

/-- An accepted write makes or replaces the block's pending set. -/
def commitMake (b : Nat) (seq : Word) (group : Bool) (atTick : BitVec 64) (s : State) : State :=
  { s with commits := mapSet s.commits b { seq := seq, vals := commitVals s b, group := group, atTick := atTick } }

/-- A write of a sequence number to a commit register (R68). -/
def commitWrite (b : CommitBlock) (seq : Word) (s : State) : State :=
  if commitBad s (period s) b.block then commitReject b s
  else commitMake b.block seq false (if b.block = 0x1 then activateTick s else 0) s

/-- Offsets that the window serves (R470, R504): all while the adapter is up, a few asleep and in recovery. -/
def served (s : State) (off : Nat) : Bool :=
  powered s && match s.fw.boot with
    | .ready => !(asleep s) || answersAsleep off
    | .recovery => off == Reg.GX_ID || off / 0x10000 == 0x11
    | _ => false

/-- COMMIT_WRITE (R68): a write of `seq` to the commit register at `off`. -/
def execCommitWrite (off : Nat) (seq : Word) (s : State) : Res :=
  .next (match commitBlocks.find? (fun b => b.reg == off) with
    | some b => whenOk (served s off) (commitWrite b seq) s
    | none => s)

/-- TICK_COMMIT_WRITE (R41). -/
def execTickCommitWrite (seq : Word) (s : State) : Res :=
  .next (whenOk (served s Reg.GX_TICK_COMMIT)
    (commitWrite ⟨0x1, Reg.GX_TICK_COMMIT, some (Reg.GX_TICK_EVENTS, 3)⟩ seq) s)

/-- A group commit (R546): one rejection keeps every block's set as it was. -/
def commitMulti (blocks : Word) (s : State) : State :=
  let named := (commitBlocks.zipIdx.filter (fun e => blocks.getLsbD e.2))
  let seq := rg s Reg.GX_COMMIT_MULTI_SEQ
  let per := if blocks.getLsbD 0 then period (makeLive (commitVals s 0x1) s) else period s
  let bad := named.filter (fun e => commitBad s per e.1.block)
  if named.isEmpty then s
  else
    let s := { s with gl := { s.gl with rejected := (bad.map (fun e => 2 ^ e.2)).sum } }
    if bad.isEmpty then
      let t := if blocks.getLsbD 0 then activateTick s else 0
      named.foldl (fun s e => commitMake e.1.block seq true t s) s
    else bad.foldl (fun s e => commitReject e.1 s) s

/-- COMMIT_MULTI (R546): a write of GX_COMMIT_MULTI. -/
def execCommitMulti (value : Word) (s : State) : Res :=
  .next (whenOk (served s Reg.GX_COMMIT_MULTI) (commitMulti value) s)

/-! ### A set takes effect -/

/-- Classes of a port that lose their flow control: after a change of MODE every class of the old mode. -/
def classesLost (old new : State) (p : Nat) : List Nat :=
  if fcMode old p = fcMode new p then (flowClasses old p).filter (fun k => !((flowClasses new p).contains k))
  else flowClasses old p

/-- The first half of R242, under the old settings: pauses of classes that are no longer controlled end, and quanta 0
is sent for those that the adapter had paused. -/
def flowRelease (new : State) (p : Nat) (s : State) : State :=
  let lost := classesLost s new p
  let kept := fun (l : List Nat) => l.filter (fun k => !(lost.contains k))
  let e := ethPort s p
  let s := (e.pausedTx.filter (lost.contains ·)).foldl (fun s k => sendPause p k 0 s) s
  modEth p (fun e => { e with pausedRx := kept e.pausedRx, pausedTx := kept e.pausedTx, pauseSeen := kept e.pauseSeen }) s

/-- The committed list of a port (Table 9.4). -/
def committedList (s : State) (p : Nat) : GateList :=
  let c := rgi s Reg.GX_CS_GCL_CFG p
  let entry := fun i =>
    let w := rgi s Reg.GX_CS_GCL_ENTRY (idx2 p i)
    (wfld w 31 24, wfld w 23 0)
  { enable := c.getLsbD 31, compat := c.getLsbD 30, guardMode := wfld c 29 28, length := wfld c 27 21, cycleTk := wfld c 15 0
    guardNs := wfld (rgi s Reg.GX_CS_GCL_GUARD p) 15 0
    base := (rgi s Reg.GX_CS_GCL_BASE_HI p).toNat * 2 ^ 32 + (rgi s Reg.GX_CS_GCL_BASE_LO p).toNat
    cycleNs := (rgi s Reg.GX_CS_GCL_CYCLE_NS p).toNat
    entries := (List.range 64).map entry }

/-- R277, R280, R283: what a set of the scheduling block changes besides its registers. -/
def csCommitted (old : State) (vals : NMap Word) (s : State) : State :=
  let changed := fun offs i => offs.any (fun off => rgi old off i != rgi s off i)
  let at_ := fun (offs : List Nat) => (offs.flatMap (setPositions vals)).eraseDups.filter (changed offs)
  let s1 := (at_ [Reg.GX_CS_SHAPER_RATE, Reg.GX_CS_SHAPER_BURST]).foldl (fun s i =>
    let full := 8 * wfld (rgi s Reg.GX_CS_SHAPER_BURST i) 23 0
    { s with cs := { s.cs with shapers := mapPut 0 s.cs.shapers i (full : Nat) } }) s
  let s2 := (at_ [Reg.GX_CS_METER_CFG, Reg.GX_CS_METER_CIR, Reg.GX_CS_METER_PIR, Reg.GX_CS_METER_CBS,
      Reg.GX_CS_METER_PBS]).foldl (fun s i =>
    let full := fun off => ((8 * wfld (rgi s off i) 23 0 : Nat) : Int)
    { s with cs := { s.cs with meters := mapSet s.cs.meters i (full Reg.GX_CS_METER_CBS, full Reg.GX_CS_METER_PBS) } }) s1
  ((List.range 32).filter (fun p => committedList old p != committedList s2 p)).foldl (fun s p =>
    updGcl p (fun g => { g with next := some (committedList s p) }) s) s2

/-- Slots at or above NODE_IDS stay invalid (Table 3.12). -/
def closeSlots (s : State) : State :=
  ((List.range 8).drop s.lz.run.nodeIds).foldl (fun s k =>
    putReg (Reg.GX_XL_NODE_ID + 4 * k) (rg s (Reg.GX_XL_NODE_ID + 4 * k) &&& 0x7FFFFFFF) s) s

/-- One pending set takes effect: its values become live and the commit register returns its number (R67). -/
def commitTake (b : CommitBlock) (c : CommitSet) (s : State) : State :=
  let old := s
  let new := makeLive c.vals s
  let s := if b.block = 0x8 then (List.range 32).foldl (fun s p =>
      if isEthPort s p then flowRelease new p s else s) s else s
  let s := putReg b.reg c.seq (makeLive c.vals { s with commits := mapErase s.commits b.block })
  match b.block with
  | 0x1 => tickCommitted c.atTick s
  | 0x3 =>
    let s := closeSlots s
    if anySlot s then s else { s with fw := { s.fw with joined := false } }
  | 0x8 => (List.range 32).foldl (fun s p =>
      if isEthPort s p && rgi old Reg.GX_ETH_FC_CTRL p != rgi s Reg.GX_ETH_FC_CTRL p then flowCheck p s else s) s
  | 0x9 => csCommitted old c.vals s
  | 0x12 => psRequest (psOf (wfld (rg s Reg.GX_PW_TARGET) 2 0)) s
  | _ => s

/-- Every pending set for which a test holds takes effect, all at one edge, in the order of Table 20.1. -/
def commitsTake (due : CommitSet → Bool) (s : State) : State :=
  let old := s
  let s := commitBlocks.foldl (fun s b =>
    match mapGet s.commits b.block with
    | some c => if due c then commitTake b c s else s
    | none => s) s
  tickResize old s

/-- The set is due at an edge with this count: at the next edge, or once the count has reached its tick (R41). -/
def setDue (count : BitVec 64) (c : CommitSet) : Bool := c.atTick == 0 || decide (c.atTick.toNat ≤ count.toNat)

/-- COMMIT_APPLY (R67): the sets that wait for the next edge. -/
def execCommitApply (s : State) : Res := .next (whenOk (powered s) (commitsTake (fun c => c.atTick == 0)) s)

/-- TICK_COMMIT_ACTIVATE (R41): the sets whose activation tick the count has reached. -/
def execTickCommitActivate (s : State) : Res :=
  .next (whenOk (powered s) (commitsTake (fun c => c.atTick != 0 && setDue s.tick.count c)) s)

end Sys2Proof.Machine
end

