-- ==== Sys2Proof/Machine/Inval.lean ====
section
/-! DEFINITION. The commands of the translation block: INVALIDATE and the end of a table walk (R91, R98 to R103). -/

namespace Sys2Proof.Machine

/-- Take an accepted INVALIDATE (Table 3.10): mark what it names. -/
def invalidate (slot : Nat) (s : State) : State :=
  match mgmtOp s slot 0x12 with
  | none => s
  | some o =>
    if o.started then s
    else
      let e := o.entry
      markStarted 0 slot (invalidateStart slot (ef e 16 1) (ef e 17 3 % 2 ^ 20) (ef e 24 8) (ef e 20 4) s)

/-- INVALIDATE (R99). -/
def execInvalidate (slot : Nat) (s : State) : Res := .next (whenOk (working s) (invalidate slot) s)

/-- An earlier INVALIDATE of the management ring has not ended. -/
def earlierInval (s : State) (slot : Nat) : Bool :=
  (ringOf s 0).any (fun g => (g.ops.takeWhile (fun o => o.slot != slot)).any (fun o =>
    entryOpcode o.entry == 0x12 && o.done.isNone))

/-- INVALIDATE_COMPLETE (R101): with no use left on the entries that it marked, they are removed and it completes;
a RANGE of no pages waits for every earlier INVALIDATE. -/
def execInvalidateComplete (slot : Nat) (s : State) : Res :=
  .next (whenOk (working s) (fun s =>
    match s.xl.invals.find? (fun v => v.slot == slot) with
    | none => s
    | some v =>
      if !(invalDone s v) || (v.zero && earlierInval s slot) then s
      else mgmtDone slot stOk (invalRemove v s)) s)

/-- A walk ends: `reads` are the table entries that it read from outside this adapter's tiers, by address.  Its
result fills the caches, a fault is kept with the tile that waits, and the operation goes on; a walk overtaken by an
INVALIDATE fills nothing: its result serves the tile alone, or, where the INVALIDATE covers it, not even that, and the
tile is translated again (R95, R99). -/
def walkComplete (n : Nat) (reads : NMap (BitVec 128)) (s : State) : State :=
  match mapGet s.xl.walks n with
  | none => s
  | some w =>
    let full := decide (32 ≤ s.xl.walks.length)
    let result := walkVa s w.space w.inst w.va reads
    let s := { s with xl := { s.xl with walks := mapErase s.xl.walks n } }
    let s := match result with
      | .leaf e _ =>
        if !w.stale then fillFromWalk w reads result s
        else if w.missed.any (fun m => inScope m.1 m.2.1 m.2.2.1 m.2.2.2 e) then s
        else { s with xl := { s.xl with held := s.xl.held ++ [(w.owner, e)] } }
      | .fault c _ _ => (fun s => updRun w.owner (fun r => { r with tiles := r.tiles.map (fun t =>
          let hit := fun (sd : Option Side) =>
            sd.any (fun x => decide (x.va ≤ w.va) && decide (w.va < x.va + x.len)) && t.state == .waiting
          let sides := tileSides s r t
          let fs := (if hit sides.1 then [(0, w.va, c)] else []) ++ (if hit sides.2 then [(1, w.va, c)] else [])
          { t with faults := t.faults ++ fs }) }) s) (fillFromWalk w reads result s)
    let s := progressRun w.owner s
    if full then (s.tp.runs.map Prod.fst).foldl (fun s k => progressRun k s) s else s

/-- WALK_COMPLETE (R91). -/
def execWalkComplete (n : Nat) (reads : NMap (BitVec 128)) (s : State) : Res :=
  .next (whenOk (working s) (walkComplete n reads) s)

end Sys2Proof.Machine
end

