-- ==== Sys2Proof/Machine/Pins.lean ====
section
/-! DEFINITION. Module power, COLD_RST_N and the PTP port (R558, R563 to R567). -/

namespace Sys2Proof.Machine

/-- POWER_UP (R564): VIN stands at the turn-on level with PWR_EN high, and the inrush charge begins, unless an
overcurrent turn-off is latched (Table 21.3). -/
def execPowerUp (s : State) : Res :=
  .next (whenOk (!s.pins.pwrGood) (fun s =>
    { s with pins := { s.pins with vinOk := true, pwrEn := true, charging := !s.pins.ocLatched } }) s)

/-- POWER_GOOD (R564): the charge is complete and the rails are up; ACC_REFCLK runs, and a cold reset is due. -/
def execPowerGood (s : State) : Res :=
  .next (whenOk s.pins.charging (fun s =>
    coldBegin { s with pins := { s.pins with pwrGood := true, charging := false, accRefclk := true } }) s)

/-- What is left without power: what flash, OTP and the repair record hold. -/
def unpowered (s : State) : State :=
  let record := s.re.record
  let s := coldState s
  { s with mem := {}, re := { s.re with record := record }
           fw := { s.fw with coldDue := true }
           pw := {}
           pins := { s.pins with pwrGood := false, charging := false, accRefclk := false } }

/-- POWER_LOSS (R194, R565): cause 0 a turn-off by the input voltage or its removal, 1 an overcurrent, which stays
latched until PWR_EN falls or VIN is removed, 2 PWR_EN falls. -/
def powerLoss (cause : Nat) (s : State) : State :=
  let held := s.pins.coldHeld
  let s := unpowered s
  { s with pins := { s.pins with
      coldHeld := held
      vinOk := s.pins.vinOk && cause != 0
      pwrEn := s.pins.pwrEn && cause != 2
      ocLatched := cause == 1 || s.pins.ocLatched && cause != 0 && cause != 2 } }

/-- POWER_LOSS (R565). -/
def execPowerLoss (cause : Nat) (s : State) : Res := .next (powerLoss cause s)

/-- COLD_RST_N_ASSERT (R566): held low for 10 us, the pin holds the adapter in reset until it rises. -/
def execColdRstNAssert (s : State) : Res :=
  .next (coldBegin { s with pins := { s.pins with coldHeld := true } })

/-- PTP_PORT_LINK_CHANGE (R558). -/
def execPtpPortLinkChange (up : Bool) (s : State) : Res :=
  .next (whenOk (powered s && s.fw.boot == .ready) (fun s =>
    ptpMoved (ptpSource s) { s with pins := { s.pins with ptpPortUp := up } }) s)

end Sys2Proof.Machine
end

