-- ==== Sys2Proof/Machine/RegWrite.lean ====
section
/-! DEFINITION. Writes of the register window and of the instance pages, the reads that latch, and the interrupt
registers (R5, R7, R28, R539, R540, R544, R545, R547 to R551).  Offsets from 0x0400_0000 up are those of the instance
pages: instance n's begins at 0x0400_0000 + n · 0x1_0000. -/

namespace Sys2Proof.Machine

/-! ### Addresses -/

/-- The instance whose page an offset lies in, and the offset in the page. -/
def pageOf (off : Nat) : Option (Nat × Nat) :=
  if 0x04000000 ≤ off then some ((off - 0x04000000) / 0x10000, off % 0x10000) else none

/-- An access of this offset acts: the window while it is served, a page while its instance exists (R504, R534, R549). -/
def accessed (s : State) (off : Nat) : Bool :=
  match pageOf off with
  | none => served s off
  | some (n, _) => running s && (inst s n).state != .disabled

/-- The row of a live address. -/
def liveInfo (off : Nat) : Option RegInfo :=
  match pageOf off with
  | none => regInfo off
  | some (_, o) => regInfo (0x04000000 + o)

/-- The position exists: the PCIe block has 5 ports, and there are 768 shapers. -/
def positionOk (off idx : Nat) : Bool :=
  if off / 0x10000 = 0xD && decide (off < Reg.GX_PC_EVENTS) then decide (idx ≤ 4)
  else if off = Reg.GX_CS_SHAPER_RATE || off = Reg.GX_CS_SHAPER_BURST then decide (idx < 768)
  else true

/-- Key of the position that an access of a live address reaches now. -/
def accessKey (s : State) (off : Nat) (i : RegInfo) : Nat := if i.ix.isEmpty then off else regKey off (regIndex s i.ix)

/-! ### Writes -/

/-- The value of a register's live fields after a write (Table 0.4): CMT fields stand. -/
def writtenLive (i : RegInfo) (old v : Word) : Word :=
  let sets := (i.rw ||| i.rws) &&& ~~~i.w1s
  let kept := old &&& ~~~sets
  (kept ||| (v &&& sets)) &&& ~~~(v &&& (i.w1c ||| i.w1s))

/-- A write of a live address (R544): the shadows of its CMT fields, and every other field as its access type says. -/
def writeLive (key : Nat) (i : RegInfo) (v : Word) (s : State) : State :=
  let s := putReg key (writtenLive i (regAt s key) v) s
  if i.cmt = 0 then s else putShadow key ((shadowAt s key &&& ~~~i.cmt) ||| (v &&& i.cmt)) s

/-- A write of a shadow address (R544). -/
def writeShadow (key : Nat) (i : RegInfo) (v : Word) (s : State) : State :=
  putShadow key ((shadowAt s key &&& ~~~i.cmt) ||| (v &&& i.cmt)) s

/-- Registers whose writes are rows of their own: the commit registers and those that act when they are written. -/
def ownRowRegs : List Nat :=
  commitBlocks.map (·.reg) ++
  [Reg.GX_INT_ENABLE, Reg.GX_CF_PORT_CTRL, Reg.GX_CF_FENCE_DATA, Reg.GX_ETH_UNODE_ROUTE, Reg.GX_CV_RUNNING_LO,
   Reg.GX_CV_RUNNING_HI, Reg.GX_FW_HEARTBEAT] ++ cvConfigRegs

/-- The write is a row of its own: of a register above, or of one that acts on some values only. -/
def ownRow (s : State) (off : Nat) (v : Word) : Bool :=
  ownRowRegs.contains off
    || (off == Reg.GX_PW_FLOCK && (wfld v 1 0 == 1 || wfld v 1 0 == 2))
    || (off == Reg.GX_PC_PORT_CTRL && wfld v 1 0 != 0 && decide (1 ≤ wfld (rg s Reg.GX_PC_PORT_INDEX) 2 0))
    || (off == Reg.GX_Q_MGMT_CTRL && v.getLsbD 0 != (rg s Reg.GX_Q_MGMT_CTRL).getLsbD 0)
    || (pageOf off).any (fun e => e.2 == 0x24)

/-- A write of an Ethernet counter page: of the half-range words, which are W1C; counters cannot be written (R258, R259). -/
def counterWrite (off : Nat) (v : Word) (s : State) : State :=
  let p := (off - 0x81000) / 0x200
  let at_ := (off - 0x81000) % 0x200
  let mask : BitVec 64 := if at_ = 0x1F8 then v.setWidth 64 else if at_ = 0x1FC then v.setWidth 64 <<< 32 else 0
  if mask = 0 then s else modEth p (fun e => { e with half := e.half &&& ~~~mask }) s

/-- A write of a word of a function's MSI-X table; a vector that it unmasks sends what is pending (R548). -/
def msixWrite (fn word : Nat) (v : Word) (s : State) : State :=
  if word / 4 < msixVectors fn then
    let v := if word % 4 = 3 then v &&& 1 else if word % 4 = 0 then v &&& 0xFFFFFFFC else v
    let key := 1024 * fn + word
    let dflt : Word := if word % 4 = 3 then 1 else 0
    msixSend fn (word / 4) { s with gl := { s.gl with msixTable := mapPut dflt s.gl.msixTable key v } }
  else s

/-- Base and size fields of the management rings: while ACTIVE is 1 a write of them is ignored (R133). -/
def mgmtHeld (s : State) (off : Nat) : Bool :=
  s.q.mgmtActive && [Reg.GX_Q_MGMT_SQ_LO, Reg.GX_Q_MGMT_SQ_HI, Reg.GX_Q_MGMT_CQ_LO, Reg.GX_Q_MGMT_CQ_HI,
    Reg.GX_Q_MGMT_CTRL].contains off

/-- A 4-byte write of the window or a page. -/
def regWrite (off : Nat) (v : Word) (s : State) : State :=
  if ownRow s off v || mgmtHeld s off then s
  else
    match liveInfo off with
    | some i =>
      let key := accessKey s off i
      if positionOk off (key / 2 ^ 32) then writeLive key i v s else s
    | none =>
      match pageOf off with
      | some (n, o) => if 0xC000 ≤ o ∧ o < 0xC400 then msixWrite n ((o - 0xC000) / 4) v s else s
      | none =>
        if 0x81000 ≤ off ∧ off < 0x85000 then counterWrite off v s
        else
          match regInfo (off - 0x100) with
          | some i =>
            let key := accessKey s (off - 0x100) i
            if 0x100 ≤ off && i.cmt != 0 && positionOk (off - 0x100) (key / 2 ^ 32) then writeShadow key i v s else s
          | none => s

/-- REGISTER_WRITE (R5, R540, R544): a 4-byte unit; `full` tells that all its bytes are enabled.  An 8-byte write is
two of these. -/
def execRegisterWrite (off : Nat) (v : Word) (full : Bool) (s : State) : Res :=
  .next (whenOk (accessed s off && full && off % 4 == 0) (regWrite off v) s)

/-! ### Interrupts (R548, R551) -/

/-- A write of GX_INT_ENABLE: a source that is asserted and becomes enabled raises its vector. -/
def enableWrite (v : Word) (s : State) : State :=
  let old := rg s Reg.GX_INT_ENABLE
  let s := putReg Reg.GX_INT_ENABLE (v &&& 0x7FFFF) s
  (List.range 19).foldl (fun s i =>
    if v.getLsbD i && !old.getLsbD i && sourceAsserted s i then intFire i s else s) s

/-- A write of a page's GX_INST_INT_ENABLE. -/
def pageEnableWrite (n : Nat) (v : Word) (s : State) : State :=
  let key := pageKey Reg.GX_INST_INT_ENABLE n
  let old := regAt s key
  let s := putReg key (v &&& 0xF) s
  (List.range 4).foldl (fun s i =>
    if v.getLsbD i && !old.getLsbD i && (regAt s (pageKey Reg.GX_INST_INT_STATUS n)).getLsbD i
    then msixRaise n (wfld (regAt s (pageKey Reg.GX_INST_INT_VECTOR n)) (8 * i + 5) (8 * i)) s else s) s

/-- INT_ENABLE_WRITE (R548): of GX_INT_ENABLE, or of an instance's page (R551). -/
def execIntEnableWrite (page : Option Nat) (v : Word) (s : State) : Res :=
  .next (match page with
    | none => whenOk (served s Reg.GX_INT_ENABLE) (enableWrite v) s
    | some n => whenOk (accessed s (pageKey Reg.GX_INST_INT_ENABLE n)) (pageEnableWrite n v) s)

/-- Unmask a vector, or the whole function: what is pending and open now is sent. -/
def unmask (fn : Nat) (vector : Option Nat) (s : State) : State :=
  match vector with
  | some v => msixWrite fn (4 * v + 3) 0 s
  | none =>
    (List.range (msixVectors fn)).foldl (fun s v => msixSend fn v s)
      { s with gl := { s.gl with msixOn := insertNew s.gl.msixOn fn } }

/-- MSIX_VECTOR_UNMASK (R548): of one vector, or (none) of a function's MSI-X as a whole. -/
def execMsixVectorUnmask (fn : Nat) (vector : Option Nat) (s : State) : Res :=
  .next (whenOk (powered s && s.fw.boot == .ready && (inst s fn).state != .disabled) (unmask fn vector) s)

/-! ### Reads that latch (R28, R375, R395, R429, R461) -/

/-- The value of a _LO/_HI pair other than the tick counter, the Ethernet counters and a check-value unit's. -/
def pairValue (s : State) (off : Nat) : Option Nat :=
  let slot := (mapGet s.ce.slots (wfld (rg s Reg.GX_CE_SLOT_INDEX) 12 0)).getD {}
  let i := inst s (wfld (rg s Reg.GX_VI_INDEX) 8 0)
  if off = Reg.GX_AT_TOKENS_LO then some s.kn.tokens
  else if off = Reg.GX_PC_MULE_BYTES_LO then some ((mapGet s.pc.mules (wfld (rg s Reg.GX_PC_MULE_INDEX) 4 0)).getD 0)
  else if off = Reg.GX_CE_BYTES_LO then some s.ce.bytes
  else if off = Reg.GX_CE_SLOT_USED_LO then some slot.used
  else if off = Reg.GX_CE_SLOT_LIMIT_LO then some slot.limit
  else if off = Reg.GX_VI_MIGRATION_ID_LO then some i.migrationId.toNat
  else if off = Reg.GX_VI_FREEZE_EDGE_LO then some i.freezeEdge.toNat
  else none

/-- Set the latch of a pair's _HI register. -/
def latchHigh (off : Nat) (hi : Word) (s : State) : State :=
  let n := wfld (rg s Reg.GX_VI_INDEX) 8 0
  if off = Reg.GX_AT_TOKENS_LO then { s with kn := { s.kn with tokensHi := hi } }
  else if off = Reg.GX_PC_MULE_BYTES_LO then { s with pc := { s.pc with latches := mapPut 0 s.pc.latches off hi } }
  else if off = Reg.GX_CE_BYTES_LO then { s with ce := { s.ce with bytesHi := hi } }
  else if off = Reg.GX_CE_SLOT_USED_LO then { s with ce := { s.ce with usedHi := hi } }
  else if off = Reg.GX_CE_SLOT_LIMIT_LO then { s with ce := { s.ce with limitHi := hi } }
  else if off = Reg.GX_VI_MIGRATION_ID_LO then setInst n { inst s n with migLatch := hi } s
  else if off = Reg.GX_VI_FREEZE_EDGE_LO then setInst n { inst s n with edgeLatch := hi } s
  else s

/-- LATCHED_LO_READ (R28, R375, R395, R429, R461): the low word is returned and the high word latched. -/
def execLatchedLoRead (off : Nat) (s : State) : Res :=
  .next (whenOk (accessed s off) (fun s =>
    match pairValue s off with
    | some x =>
      emit (.readData (BitVec.ofNat 64 (x % 2 ^ 32))) (latchHigh off (BitVec.ofNat 32 (x / 2 ^ 32)) s)
    | none => s) s)

end Sys2Proof.Machine
end

