-- ==== Sys2Proof/Machine/Spdm.lean ====
section
/-! DEFINITION. The SPDM responder and the MCTP endpoint (R489, R560).  What DSP0274 lays down itself, its message
bytes, certificates and signatures, is not in the specification; an answer carries what the specification names. -/

namespace Sys2Proof.Machine

/-- The responder is there: on the sideband through the MCTP endpoint, on HST once SPDM_HST is agreed (R489, R560). -/
def spdmServed (s : State) (hst : Bool) : Bool :=
  running s && (!hst || s.fw.features.getLsbD 1 && s.pc.hstUp)

/-- Send an answer. -/
def spdmOut (hst : Bool) (r : SpdmReply) (s : State) : State := emit (.spdm hst r) s

/-- Error codes of DSP0274 (PRESUMED, assumption 18). -/
abbrev spdmInvalid : Nat := 0x01
abbrev spdmInvalidSession : Nat := 0x02
abbrev spdmBusy : Nat := 0x03
abbrev spdmUnexpected : Nat := 0x04
abbrev spdmUnsupported : Nat := 0x07
abbrev spdmVersionMismatch : Nat := 0x41

/-- A request: while Bantam 0 restarts it is answered with ERROR Busy (R475). -/
def spdmRequest (hst : Bool) (f : State → State) (s : State) : Res :=
  .next (whenOk (spdmServed s hst) (fun s =>
    if bantamBusy s 0 then spdmOut hst (.error spdmBusy) s else f s) s)

/-- A request that needs a negotiated connection. -/
def spdmAfter (hst : Bool) (f : State → State) (s : State) : State :=
  if s.spdm.negotiated then f s else spdmOut hst (.error spdmUnexpected) s

/-- A request within an established session. -/
def spdmWithin (hst : Bool) (session : Nat) (f : State → State) (s : State) : State :=
  if mapGet s.spdm.sessions session = some true then f s else spdmOut hst (.error spdmInvalidSession) s

/-- GET_VERSION (R489): a connection begins anew. -/
def execGetVersion (hst : Bool) (s : State) : Res :=
  spdmRequest hst (fun s => spdmOut hst (.version [0x12, 0x13]) { s with spdm := { version := 1 } }) s

/-- GET_CAPABILITIES (R489): the request's version is the connection's. -/
def execGetCapabilities (hst : Bool) (version : Nat) (s : State) : Res :=
  spdmRequest hst (fun s =>
    if s.spdm.version = 0 then spdmOut hst (.error spdmUnexpected) s
    else if version ≠ 0x12 ∧ version ≠ 0x13 then spdmOut hst (.error spdmVersionMismatch) s
    else spdmOut hst .capabilities { s with spdm := { s.spdm with version := version, gotCapabilities := true } }) s

/-- NEGOTIATE_ALGORITHMS (R489): `offered` tells that the request offers the fixed algorithms. -/
def execNegotiateAlgorithms (hst offered : Bool) (s : State) : Res :=
  spdmRequest hst (fun s =>
    if !s.spdm.gotCapabilities then spdmOut hst (.error spdmUnexpected) s
    else if !offered then spdmOut hst (.error spdmInvalid) s
    else spdmOut hst .algorithms { s with spdm := { s.spdm with negotiated := true } }) s

/-- GET_DIGESTS (R489): slot 0 alone is populated. -/
def execGetDigests (hst : Bool) (s : State) : Res :=
  spdmRequest hst (spdmAfter hst (spdmOut hst (.digests 1))) s

/-- GET_CERTIFICATE (R489). -/
def execGetCertificate (hst : Bool) (slot offset length : Nat) (s : State) : Res :=
  spdmRequest hst (spdmAfter hst
    (spdmOut hst (if slot = 0 then .certificate 0 offset length else .error spdmInvalid))) s

/-- CHALLENGE (R489). -/
def execChallenge (hst : Bool) (slot : Nat) (s : State) : Res :=
  spdmRequest hst (spdmAfter hst (spdmOut hst (if slot = 0 then .challengeAuth 0 else .error spdmInvalid))) s

/-- The values of a measurement block that the specification names (Table 17.11). -/
def measureBlock (s : State) (i : Nat) : List Nat :=
  let u := activeBundle s
  match i with
  | 3 => [(u.map (·.release)).getD 0, (u.map (·.svn)).getD 0, s.fw.fusedSvn, s.fw.agreed]
  | 4 => [s.lz.run.buildId.toNat]
  | 5 => [lcCode s.sec.lc, s.sec.ownerRows, if s.sec.debugOpen then 1 else 0]
  | 6 => [(rg s Reg.GX_ID).toNat]
  | _ => []

/-- GET_MEASUREMENTS (R489): index 0 asks for the number of blocks, 0xFF for all. -/
def execGetMeasurements (hst : Bool) (index : Nat) (s : State) : Res :=
  spdmRequest hst (spdmAfter hst (fun s =>
    let all := (List.range 7).map (· + 1)
    if index = 0 then spdmOut hst (.measurements [(0, [7])]) s
    else if index = 0xFF then spdmOut hst (.measurements (all.map (fun i => (i, measureBlock s i)))) s
    else if index ≤ 7 then spdmOut hst (.measurements [(index, measureBlock s index)]) s
    else spdmOut hst (.error spdmInvalid) s)) s

/-- KEY_EXCHANGE (R489): a session begins under an identifier. -/
def execKeyExchange (hst : Bool) (slot session : Nat) (s : State) : Res :=
  spdmRequest hst (spdmAfter hst (fun s =>
    if slot ≠ 0 then spdmOut hst (.error spdmInvalid) s
    else spdmOut hst (.keyExchangeRsp session)
      { s with spdm := { s.spdm with sessions := mapSet s.spdm.sessions session false } })) s

/-- FINISH (R489): `good` tells that its verify data is right. -/
def execFinish (hst : Bool) (session : Nat) (good : Bool) (s : State) : Res :=
  spdmRequest hst (fun s =>
    if mapGet s.spdm.sessions session ≠ some false then spdmOut hst (.error spdmInvalidSession) s
    else if !good then
      spdmOut hst (.error spdmInvalid) { s with spdm := { s.spdm with sessions := mapErase s.spdm.sessions session } }
    else spdmOut hst (.finishRsp session)
      { s with spdm := { s.spdm with sessions := mapSet s.spdm.sessions session true
                                     keyUpdates := mapSet s.spdm.keyUpdates session 0 } }) s

/-- HEARTBEAT (R489). -/
def execHeartbeat (hst : Bool) (session : Nat) (s : State) : Res :=
  spdmRequest hst (spdmWithin hst session (spdmOut hst (.heartbeatAck session))) s

/-- KEY_UPDATE (R489). -/
def execKeyUpdate (hst : Bool) (session : Nat) (s : State) : Res :=
  spdmRequest hst (spdmWithin hst session (fun s =>
    let n := (mapGet s.spdm.keyUpdates session).getD 0 + 1
    spdmOut hst (.keyUpdateAck session) { s with spdm := { s.spdm with keyUpdates := mapSet s.spdm.keyUpdates session n } })) s

/-- END_SESSION (R489). -/
def execEndSession (hst : Bool) (session : Nat) (s : State) : Res :=
  spdmRequest hst (spdmWithin hst session (fun s =>
    spdmOut hst (.endSessionAck session)
      { s with spdm := { s.spdm with sessions := mapErase s.spdm.sessions session
                                     keyUpdates := mapErase s.spdm.keyUpdates session } })) s

/-- SPDM_UNSUPPORTED_REQUEST (R489). -/
def execSpdmUnsupportedRequest (hst : Bool) (s : State) : Res :=
  spdmRequest hst (spdmOut hst (.error spdmUnsupported)) s

/-- MCTP_CONTROL_MESSAGE (R560): the bus owner assigns the endpoint's EID; the endpoint answers while Bantam 0 runs. -/
def execMctpControlMessage (eid : Nat) (s : State) : Res :=
  .next (whenOk (running s && !(bantamBusy s 0)) (fun s =>
    emit (.mctp eid) { s with pins := { s.pins with eid := eid } }) s)

end Sys2Proof.Machine
end

