-- ==== Sys2Proof/Machine/Transmit.lean ====
section
/-! DEFINITION. The transmit scheduler: what goes next on the links and Ethernet ports, trains, the cells packed into
UDP frames, RoCEv2 packets, and the sender's half of the grant exchange (R199 to R201, R254 to R257, R263 to R267). -/

namespace Sys2Proof.Machine

/-! ### Choosing by classes, instances and queue pairs (R263, R264) -/

/-- Something that may go next: its class, instance, queue pair and size. -/
structure Cand (α : Type) where
  cls : Nat
  inst : Nat
  qp : Nat
  size : Nat
  it : α

/-- Deficit round robin over keys in rising order, each with its size and quantum: the key served, and every deficit
after it.  A key that has nothing to send keeps none. -/
def drr (last : Option Nat) (deficit : Nat → Int) (cands : List (Nat × Nat × Nat)) : Option (Nat × List (Nat × Int)) :=
  let visits := fun (c : Nat × Nat × Nat) =>
    max 1 (((c.2.1 : Int) - deficit c.1).toNat / c.2.2 + (if ((c.2.1 : Int) - deficit c.1).toNat % c.2.2 = 0 then 0 else 1))
  match cands.find? (fun c => last == some c.1 && decide ((c.2.1 : Int) ≤ deficit c.1)) with
  | some c => some (c.1, cands.map (fun x => (x.1, deficit x.1 - (if x.1 = c.1 then (c.2.1 : Int) else 0))))
  | none =>
    let order := cands.filter (fun c => last.any (· < c.1)) ++ cands.filter (fun c => !(last.any (· < c.1)))
    let win := order.foldl (fun (b : Option (Nat × Nat × Nat)) c =>
      match b with
      | some w => if visits c < visits w then some c else b
      | none => some c) none
    win.map (fun w =>
      let v := visits w
      let before := order.takeWhile (fun c => c.1 != w.1)
      let gain := fun (c : Nat × Nat × Nat) => if before.any (fun b => b.1 == c.1) || c.1 == w.1 then v else v - 1
      (w.1, cands.map (fun c =>
        (c.1, deficit c.1 + ((c.2.2 * gain c : Nat) : Int) - (if c.1 = w.1 then (c.2.1 : Int) else 0)))))

/-- Put the deficits of a group of keys in place of those it had. -/
def regroup (lo n : Nat) (m : NMap Int) (new : List (Nat × Int)) : NMap Int :=
  new.foldl (fun m e => mapPut 0 m e.1 e.2) (m.filter (fun e => !(decide (lo ≤ e.1) && decide (e.1 < lo + n))))

/-- STRICT and QUANTUM of a class, WEIGHT and CLASS of an instance (Table 9.4). -/
def classStrict (s : State) (c : Nat) : Bool := (rgi s Reg.GX_CS_CLASS_CFG c).getLsbD 31
def classQuantum (s : State) (c : Nat) : Nat := wfld (rgi s Reg.GX_CS_CLASS_CFG c) 15 0
def instWeight (s : State) (i : Nat) : Nat := wfld (rgi s Reg.GX_CS_INST_CFG i) 23 16
def instClass (s : State) (i : Nat) : Nat := wfld (rgi s Reg.GX_CS_INST_CFG i) 31 29

/-- The choice within a class: instances by deficit round robin, queue pairs by turns (R264 steps 5, 6). -/
def pickInClass {α : Type} (ck cls : Nat) (cands : List (Cand α)) (s : State) : Option (Cand α × State) :=
  let insts := (cands.map (·.inst)).foldl insertNew []
  let inner := insts.mergeSort.filterMap (fun i =>
    let mine := cands.filter (fun c => c.inst == i)
    (nextTurn (mapGet s.cs.qpPos (512 * ck + i)) (mine.map (·.qp))).bind (fun q => mine.find? (fun c => c.qp == q)))
  let keyed := inner.map (fun c => (512 * ck + c.inst, c.size, classQuantum s cls * instWeight s c.inst / 16))
  (drr (mapGet s.cs.instPos ck) (fun k => (mapGet s.cs.instDef k).getD 0) keyed).bind (fun w =>
    (inner.find? (fun c => 512 * ck + c.inst == w.1)).map (fun c =>
      (c, { s with cs := { s.cs with
        instDef := regroup (512 * ck) 512 s.cs.instDef w.2, instPos := mapSet s.cs.instPos ck w.1
        qpPos := mapSet s.cs.qpPos (512 * ck + c.inst) c.qp } })))

/-- The choice among what is eligible on a line (0 the cell links, p + 1 Ethernet port p): STRICT classes from the
highest down, the others by deficit round robin (R264 step 4). -/
def pick {α : Type} (line : Nat) (cands : List (Cand α)) (s : State) : Option (Cand α × State) :=
  let classes := ((List.range 8).filter (fun c => cands.any (fun x => x.cls == c)))
  let of := fun (c : Nat) => pickInClass (8 * line + c) c (cands.filter (fun x => x.cls == c)) s
  match (classes.filter (classStrict s)).getLast? with
  | some c => of c
  | none =>
    let heads := classes.filterMap (fun c => (of c).map (fun x => (c, x)))
    let keyed := heads.map (fun h => (8 * line + h.1, h.2.1.size, classQuantum s h.1))
    (drr (mapGet s.cs.classPos line) (fun k => (mapGet s.cs.classDef k).getD 0) keyed).bind (fun w =>
      (heads.find? (fun h => 8 * line + h.1 == w.1)).map (fun h =>
        let s := h.2.2
        (h.2.1, { s with cs := { s.cs with
          classDef := regroup (8 * line) 8 s.cs.classDef w.2, classPos := mapSet s.cs.classPos line w.1 } })))

/-! ### Trains (R199 to R201) -/

/-- The cells behind the first of a train: consecutive, in one destination page, and only the first and the last
may be partial. -/
def trainMore (room : Nat) (fill page : Nat → Nat) (last : Nat) (first : Bool) (rest : List Nat) : List Nat :=
  match rest with
  | [] => []
  | d :: t =>
    if d = last + 1 ∧ room ≠ 0 ∧ page d = page last ∧ (first ∨ fill last = 64) then
      d :: trainMore (room - 1) fill page d false t
    else []

/-- The next train of the given cells, in index order. -/
def trainTake (most : Nat) (fill page : Nat → Nat) (cells : List Nat) : List Nat :=
  match cells with
  | [] => []
  | c :: t => c :: trainMore (most - 1) fill page c true t

/-- Cut cells into trains. -/
def trains (fuel most : Nat) (fill page : Nat → Nat) (cells : List Nat) : List (List Nat) :=
  match fuel with
  | 0 => []
  | k + 1 =>
    match trainTake most fill page cells with
    | [] => []
    | h => h :: trains k most fill page (cells.drop h.length)

/-- FILL + 1 of cell k of a message, and its destination page. -/
def msgFill (r : OpRun) (t : Tile) (k : Nat) : Nat := if k < dataCells r t then (cellSpan t.dst t.len k).2 else 64
def msgPage (r : OpRun) (t : Tile) (k : Nat) : Nat :=
  if r.kind = .write ∨ r.kind = .writeReduce then
    (t.dst + (cellSpan t.dst t.len (min k (dataCells r t - 1))).1) / 4096
  else 0

/-- A message of one standalone cell (R201). -/
def msgAlone (kind : RunKind) (cells : Nat) : Bool :=
  kind == .atomic || (kind == .read || kind == .attn) && decide (cells ≤ 1)

/-- The next train, or the standalone cell, of a message. -/
def msgTrain (r : OpRun) (t : Tile) (most : Nat) (cells : List Nat) : List Nat :=
  if msgAlone r.kind 2 then cells.take 1 else trainTake most (msgFill r t) (msgPage r t) cells

/-- FILL + 1 of cell k of a response. -/
def respData (p : RespRec) : Nat := lineCount p.lineOff p.data.length
def respFill (p : RespRec) (k : Nat) : Nat := if k < respData p then (cellSpan p.lineOff p.data.length k).2 else 64

/-- Bytes that cells take on the wire as one train, or as a standalone cell. -/
def loadBytes (alone : Bool) (n : Nat) : Nat := if alone then 80 else 80 + 68 * n

/-- What a queue pair sends next: cells of a message that has begun, of a response, or of a tile not yet sent. -/
inductive Load where
  | msg (msn : Nat) (cells : List Nat)
  | resp (msn : Nat) (cells : List Nat)
  | fresh (key tile : Nat) (cells : List Nat)
  deriving DecidableEq, Repr

/-- Bytes of a load. -/
def loadSize (s : State) (qpn : Nat) (l : Load) : Nat :=
  match l with
  | .msg msn cells => loadBytes ((msgOf s qpn msn).any (fun m => msgAlone m.kind m.cells)) cells.length
  | .resp msn cells => loadBytes ((respOf s qpn msn).any (fun p => p.kind == 8 && p.cells == 1)) cells.length
  | .fresh key tile cells =>
    loadBytes ((runOf s key).any (fun r => (r.tiles[tile]?).any (fun t => msgAlone r.kind (msgCells s r tile t)))) cells.length

/-- The run and tile of a message. -/
def msgTile (s : State) (m : Msg) : Option (OpRun × Tile) := (runOf s m.run).bind (fun r => (r.tiles[m.tile]?).map (fun t => (r, t)))

/-- Responses of a queue pair that the adapter sends in trains. -/
def qpResps (s : State) (qpn : Nat) : List RespRec :=
  (s.tp.resps.filter (fun e => e.2.qpn == qpn && (e.2.kind == 4 || e.2.kind == 8) && e.2.ready)).map Prod.snd

/-- Retransmitted cells of a queue pair, lowest MSN first (R264 step 2). -/
def retxLoad (s : State) (qpn most : Nat) : Option Load :=
  match (qpMsgs s qpn).find? (fun m => !(m.resend.isEmpty) && m.rnrAt.isNone) with
  | some m => (msgTile s m).map (fun x => .msg m.msn (msgTrain x.1 x.2 most m.resend.mergeSort))
  | none =>
    ((qpResps s qpn).find? (fun p => !(p.resend.isEmpty))).map (fun p =>
      .resp p.msn (trainTake most (respFill p) (fun _ => 0) p.resend.mergeSort))

/-- The next tile of a queue pair that may be sent a first time: operations and tiles in order, WINDOW, eight MSNs
past an ATOMIC or ATTN at most (R171), a free message record, and a slot that takes new charges (R415). -/
def freshTile (s : State) (qpn : Nat) (q : Qp) : Option (Nat × Nat × OpRun × Tile) :=
  let ms := qpMsgs s qpn
  let responding := ms.filter (fun m => m.kind == .read || m.kind == .atomic)
  if qpWindow q ≤ ms.length ∨ recordsFree s = 0
      ∨ (q.typ ≤ 1 ∧ ms.any (fun m => (m.kind == .atomic || m.kind == .attn) && decide (m.msn + 8 ≤ q.nextMsn)))
      ∨ (q.typ = 2 ∧ 16 ≤ responding.length) then none
  else
    let next := (qpRuns s qpn).findSome? (fun key =>
      (runOf s key).bind (fun r =>
        if r.stopped.isSome then none
        else
          (r.tiles.zipIdx.find? (fun t => (t.1.state == .waiting || t.1.state == .ready) && decide (t.2 < runLimit r))).map
            (fun t => (key, t.2, r, t.1))))
    next.filter (fun x => x.2.2.2.state == .ready && (txSlot s qpn x.2.2.1.kind).all (fun n => !(chargeWaits s n)))

/-- Messages of a queue pair that are not sent whole, oldest first. -/
def unsentMsgs (s : State) (qpn : Nat) : List Msg :=
  (s.tp.msgs.filter (fun e => e.2.qpn == qpn && decide (e.2.next < e.2.cells) && e.2.rnrAt.isNone)).map Prod.snd

/-- New cells of a queue pair: its responses, the message in progress, the next tile. -/
def newLoad (s : State) (qpn : Nat) (q : Qp) (most : Nat) : Option Load :=
  match (qpResps s qpn).find? (fun p => decide (p.next < p.cells)) with
  | some p => some (.resp p.msn (trainTake most (respFill p) (fun _ => 0) ((List.range p.cells).drop p.next)))
  | none =>
    match (unsentMsgs s qpn).head? with
    | some m => (msgTile s m).map (fun x => .msg m.msn (msgTrain x.1 x.2 most ((List.range m.cells).drop m.next)))
    | none =>
      (freshTile s qpn q).map (fun x =>
        .fresh x.1 x.2.1 (msgTrain x.2.2.1 x.2.2.2 most (List.range (msgCells s x.2.2.1 x.2.1 x.2.2.2))))

/-! ### Sending a train or cell -/

/-- An item of cells of one message (R197, R199). -/
def mkItem (s : State) (q : Qp) (kind msn total : Nat) (alone : Bool) (first : Nat) (outs : List CellOut) : Option WireItem :=
  (instUnit s q.inst).bind (fun x =>
    let hdr := fun (form : Nat) =>
      mkHdr ⟨form, q.peerNode, x.1, x.2.2, ownEpoch s x.2.1 x.2.2, kind, q.peerQpn, msn % 65536⟩
    match outs with
    | [] => none
    | o :: _ =>
      let last := (outs.getLast?).getD o
      let base : WireItem := { node := q.peerNode, unit := q.peerUnit, hdr := hdr 0, pay := mkPay o.bytes, inst := q.inst, udp := q.typ == 1 }
      if alone then some base
      else
        let t : TrainHdr := ⟨first, total - 1, outs.length - 1, o.fill - 1, last.fill - 1, last.tail, o.addr⟩
        some { base with hdr := hdr 1, pay := mkTrain t, cells := outs.map (fun c => mkPay c.bytes) })

/-- Give an item to this adapter itself: its peer is one of its own node identities (R77). -/
def localItem (i : WireItem) (x : RecvReads) (s : State) : State :=
  let h := readHdr i.hdr
  if h.form = 1 then
    let (s, ok) := takeTrainHead h i.pay s
    if ok then i.cells.zipIdx.foldl (fun s e => takeKind (trainCell h (readTrain i.pay) e.2 e.1) x s) s else s
  else takeStandalone h i.pay (fun c s => takeKind c x s) s

/-- Pack an item into the frame that an entry fills, or hold it (R216, R256). -/
def packUdp (i : WireItem) (s : State) : State :=
  let bytes := (itemBytesList { i with hdr := freshEpoch s i.hdr }).flatten
  match if mayLeave s i then chooseUnode s i.node else none with
  | none => holdItem { i with udp := true } s
  | some (k, u) =>
    let s := if areaRoom s u < u.fill.length + bytes.length || u.fillInst != i.inst then flushUnode k s else s
    let u := (mapGet s.eth.unodes k).getD u
    { s with eth := { s.eth with unodes := mapSet s.eth.unodes k { u with fill := u.fill ++ bytes, fillInst := i.inst } }
             cs := { s.cs with unodePos := k } }

/-- Most cells of a train toward a queue pair's peer: what a cell frame holds bounds it over UDP (R254, R257). -/
def mostCells (s : State) (q : Qp) : Nat :=
  if q.typ = 1 then
    match (unodesOf s q.peerNode).map (fun e => (areaRoom s e.2 - 80) / 68) with
    | [] => 64
    | l => max 1 (l.foldl min 64)
  else 64

/-- Send an item of a queue pair: to this adapter, by UDP, or by its best link. -/
def sendItem (q : Qp) (i : WireItem) (x : RecvReads) (s : State) : State :=
  if (nodeSlot s q.peerNode).isSome then localItem i x s
  else if q.typ = 1 then packUdp i s else routeItem i s

/-- Bytes that a cell whose source is refused carries: free values, since R183 states none (assumption 16). -/
def lostBytes (s : State) (n : Nat) : List Byte := (List.range n).map (Config.badByte s.freeCount)

/-- Cells of a message as they leave: none while a source read waits. -/
def msgOuts (s : State) (m : Msg) (r : OpRun) (t : Tile) (cells : List Nat) : Option (List (CellOut × Nat)) :=
  cells.foldl (fun acc k =>
    acc.bind (fun l =>
      (msgCell s m.run m.tile r t m.msn k).map (fun o =>
        match o with
        | .ok c => l ++ [(c, if c.bad then stMemUncorrectable else 0)]
        | .error st =>
          let (off, n) := cellSpan t.dst t.len k
          l ++ [({ bytes := lostBytes s n, fill := n, addr := cellAddr r t off }, st)]))) (some [])

/-- Send cells of a message. -/
def sendMsg (qpn : Nat) (q : Qp) (msn : Nat) (cells : List Nat) (retx : Bool) (x : RecvReads) (s : State) : State :=
  match (msgOf s qpn msn).bind (fun m => (msgTile s m).map (fun y => (m, y))) with
  | none => s
  | some (m, r, t) =>
    match msgOuts s m r t cells with
    | none => s
    | some outs =>
      let first := cells.headD 0
      match mkItem s q (cellKind r.kind) msn m.cells (msgAlone m.kind m.cells) first (outs.map Prod.fst) with
      | none => s
      | some i =>
        let data := ((outs.map Prod.fst).take (dataCells r t - first)).map (·.bytes)
        let s := if r.data.isNone && dataCells r t != 0 then muleMove false retx (first == 0) data.flatten s else s
        let s := if (txSlot s qpn r.kind).isSome then cryptCount data.flatten.length s else s
        let own := ((outs.map Prod.snd).find? (· != 0)).getD 0
        let s := updTile m.run m.tile (fun t => { t with own := if t.own = 0 then own else t.own })
          { s with freeCount := if own = 0 then s.freeCount else s.freeCount + 1 }
        let path := if q.typ = 1 then none else chooseLink s q.peerNode retx m.path
        let s := if retx then
            bumpBy Reg.GX_TP_RETX_CNT cells.length (updMsg qpn msn (fun m =>
              { m with resend := m.resend.filter (fun c => !(cells.contains c)) }) s)
          else updMsg qpn msn (fun m => { m with next := first + cells.length, path := m.path.or path }) s
        sendItem q { i with retx := retx, avoid := if retx then m.path else none } x s

/-- Bytes of a response: those of a READ are read again for a retransmission (R183). -/
def respBytes (s : State) (p : RespRec) (retx : Bool) : Option (List Byte) :=
  if p.kind = 4 && retx then
    (readRuns s (rxOwner p.qpn p.msn) (p.runs.map (fun x => (x.1, x.2.1, x.2.2, 0)))).map Prod.fst
  else some p.data

/-- Cell k of a response. -/
def respOut (s : State) (q : Qp) (p : RespRec) (bs : List Byte) (k : Nat) : CellOut :=
  let slot := if p.kind = 4 then qpSlot s p.qpn 0 else none
  let msn := p.msn % 2 ^ 32
  let crypt := fun (j : Nat) =>
    let (off, n) := cellSpan p.lineOff p.data.length j
    match slot with
    | some x => cellCrypt (keySlot s x) msn j (slice bs off n)
    | none => slice bs off n
  if k < respData p then
    { bytes := crypt k, fill := (cellSpan p.lineOff p.data.length k).2, addr := (cellSpan p.lineOff p.data.length k).1 }
  else if p.kind = 4 then
    match slot with
    | some x =>
      { bytes := msgTag (keySlot s x) msn q.peerQpn 4 bs.length 0 ((List.range (respData p)).map crypt), fill := 64
        addr := p.data.length }
    | none => { bytes := [], fill := 64, addr := p.data.length }
  else { bytes := leBytes 1 p.status ++ List.replicate 7 0 ++ leBytes 8 p.aux, fill := 64, addr := 0, tail := true }

/-- Send cells of a response. -/
def sendResp (qpn : Nat) (q : Qp) (msn : Nat) (cells : List Nat) (retx : Bool) (x : RecvReads) (s : State) : State :=
  match respOf s qpn msn with
  | none => s
  | some p =>
    match respBytes s p retx with
    | none => s
    | some bs =>
      let s := dropGot (rxOwner qpn msn) s
      let outs := cells.map (respOut s q p bs)
      match mkItem s q p.kind msn p.cells (p.kind == 8 && p.cells == 1) (cells.headD 0) outs with
      | none => s
      | some i =>
        let n := ((outs.take (respData p - cells.headD 0)).map (·.fill)).sum
        let s := if p.kind = 4 && (qpSlot s qpn 0).isSome then cryptCount n s else s
        let s := if p.kind = 4 && retx then muleMove false true false (outs.map (·.bytes)).flatten s else s
        let path := if q.typ = 1 then none else chooseLink s q.peerNode retx p.path
        let s := if retx then
            bumpBy Reg.GX_TP_RETX_CNT cells.length
              (putResp { p with resend := p.resend.filter (fun c => !(cells.contains c)) } s)
          else putResp { p with next := cells.headD 0 + cells.length, path := p.path.or path } s
        sendItem q { i with retx := retx, avoid := if retx then p.path else none } x s

/-- A tile becomes a message (R166, R176, R425): its MSN, its charge, its first deadline.  A charge that is not taken
cuts the operation (R426), and so does a source that is refused before anything is sent. -/
def startMsg (qpn : Nat) (q : Qp) (key i cells span : Nat) (s : State) : State × Bool :=
  match (runOf s key).bind (fun r => (r.tiles[i]?).map (fun t => (r, t))) with
  | none => (s, false)
  | some (r, t) =>
    let refused := match if isRoce q then none else msgCell s key i r t q.nextMsn 0 with
      | some (.error st) => st
      | _ => 0
    if refused ≠ 0 then (checkRun key (cutRun key i refused 0 0 s), false)
    else
      let slot := txSlot s qpn r.kind
      let fills := (List.range (dataCells r t)).map (msgFill r t)
      let (s, ok) := match slot with
        | some n => charge n (msgBlocks (keySlot s n).mode fills) s
        | none => (s, true)
      if !ok then (checkRun key (cutRun key i stKeyExhausted 0 0 s), false)
      else
        let m : Msg := { qpn := qpn, msn := q.nextMsn, run := key, tile := i, kind := r.kind, cells := cells, bytes := t.len
                         deadline := s.tick.count.toNat + qpRto s q, charged := slot.isSome }
        let s := updTile key i (fun t => { t with state := .sent, msn := q.nextMsn }) s
        let s := updQp qpn (fun q => { q with nextMsn := q.nextMsn + span }) s
        ({ s with tp := { s.tp with msgs := mapSet s.tp.msgs (msgKey qpn q.nextMsn) m } }, true)

/-- Send a load of a queue pair. -/
def sendLoad (qpn : Nat) (l : Load) (retx : Bool) (x : RecvReads) (s : State) : State :=
  match qpOf s qpn with
  | none => s
  | some q =>
    match l with
    | .msg msn cells => sendMsg qpn q msn cells retx x s
    | .resp msn cells => sendResp qpn q msn cells retx x s
    | .fresh key i cells =>
      let total := ((runOf s key).bind (fun r => (r.tiles[i]?).map (fun t => msgCells s r i t))).getD 0
      let (s, ok) := startMsg qpn q key i total 1 s
      if ok then sendMsg qpn q q.nextMsn cells false x s else s

/-- The queue pairs that send cells: READY, their instance running what it has started. -/
def cellQps (s : State) (typ : Nat) : List (Nat × Qp) :=
  s.tp.qps.filter (fun e => e.2.typ == typ && e.2.state == .ready && instSends s e.2.inst)

/-- A queue pair's load may go on a cell link (R264 step 3). -/
def linkOk (s : State) (q : Qp) : Bool :=
  (nodeSlot s q.peerNode).isSome || shaperOk s (256 + q.inst) && decide (0 < allowance s q.peerNode)

/-- Retransmissions on the cell links: queue pairs take turns (R264 step 2). -/
def linkRetx (x : RecvReads) (s : State) : Option State :=
  let cands := (cellQps s 0).filterMap (fun e => if linkOk s e.2 then (retxLoad s e.1 64).map (fun l => (e.1, l)) else none)
  (nextTurn (mapGet s.cs.qpPos (512 * 8)) (cands.map Prod.fst)).bind (fun k =>
    (cands.find? (fun c => c.1 == k)).map (fun c =>
      sendLoad c.1 c.2 true x { s with cs := { s.cs with qpPos := mapSet s.cs.qpPos (512 * 8) k } }))

/-- New cells on the cell links (R264 steps 4 to 6). -/
def linkNew (x : RecvReads) (s : State) : Option State :=
  let cands := (cellQps s 0).filterMap (fun e =>
    if linkOk s e.2 then (newLoad s e.1 e.2 64).map (fun l =>
      ({ cls := instClass s e.2.inst, inst := e.2.inst, qp := e.1, size := loadSize s e.1 l, it := l } : Cand Load)) else none)
  (pick 0 cands s).map (fun w => sendLoad w.1.qp w.1.it false x w.2)

/-! ### RoCEv2 packets (R246 to R252) -/

/-- Bytes of a SEND over all its tiles. -/
def opBytes (s : State) (key : Nat) (r : OpRun) : ReadRes :=
  r.tiles.foldl (fun acc t =>
    match acc with
    | .got bs bad =>
      match tileBytes s key r t 0 t.len with
      | .got b bad' => .got (bs ++ b) (bad || bad')
      | y => y
    | y => y) (.got [] false)

/-- Packet k of a message: opcode, PSN, extended headers and payload, and whether the source was met as
uncorrectable; none while a source read waits. -/
def rocePacket (s : State) (q : Qp) (m : Msg) (r : OpRun) (t : Tile) (k : Nat) : Option (Nat × Nat × List Byte × List Byte × Bool) :=
  let mtu := pmtu s (ahPort q)
  let reth := fun (va len : Nat) => beBytes 8 va ++ beBytes 4 (ahKeyA q) ++ beBytes 4 len
  let place := fun (one first mid last : Nat) =>
    if m.cells = 1 then one else if k = 0 then first else if k + 1 = m.cells then last else mid
  match r.kind with
  | .write =>
    match tileBytes s m.run r t (mtu * k) (min mtu (t.len - mtu * k)) with
    | .got bs bad => some (place 10 6 7 8, m.msn + k, if k = 0 then reth t.dst t.len else [], bs, bad)
    | .refused _ => some (place 10 6 7 8, m.msn + k, if k = 0 then reth t.dst t.len else [],
        lostBytes s (min mtu (t.len - mtu * k)), true)
    | .wait => none
  | .read => some (12, m.msn + m.respCnt, reth (t.src + mtu * m.respCnt) (t.len - mtu * m.respCnt), [], false)
  | .atomic =>
    let ops := if r.op = 0 then beBytes 8 r.operA ++ beBytes 8 0 else beBytes 8 r.operB ++ beBytes 8 r.operA
    some (if r.op = 0 then 20 else 19, m.msn, beBytes 8 t.src ++ beBytes 4 (ahKeyA q) ++ ops, [], false)
  | .send =>
    match opBytes s m.run r with
    | .wait => none
    | .refused _ => some (4, m.msn + k, [], [], true)
    | .got bs bad =>
      let pay := slice bs (mtu * k) mtu
      let imm := if r.imm ≠ 0 && k + 1 == m.cells then beBytes 4 r.imm else []
      if q.typ = 3 then
        some (if r.imm = 0 then 0x64 else 0x65, m.msn, beBytes 4 (ahKeyA q) ++ [0] ++ beBytes 3 m.qpn ++ imm, pay, bad)
      else some (if r.imm = 0 then place 4 0 1 2 else place 5 0 1 3, m.msn + k, imm, pay, bad)
  | _ => none

/-- Queue packet k of a RoCEv2 message; false while it waits. -/
def sendRoce (qpn : Nat) (q : Qp) (msn k : Nat) (retx : Bool) (s : State) : State × Bool :=
  match (msgOf s qpn msn).bind (fun m => (msgTile s m).map (fun y => (m, y))) with
  | none => (s, false)
  | some (m, r, t) =>
    match rocePacket s q m r t k with
    | none => (s, false)
    | some (op, psn, ext, pay, bad) =>
      let p := ahPort q
      let bytes := if ahRaw q then pay
        else roceFrame s qpn p q.roce.remote op (ahQpn q) (psn % 2 ^ 24) (q.typ == 2 && k + 1 == m.cells) false ext pay
      if !(packetRoom s bytes.length) then (s, false)
      else
        let pri := if ahRaw q then framePri (readEth bytes) else remPri q.roce.remote
        let s := if pay.isEmpty then s else muleMove false retx (k == 0) pay s
        let s := if bad then updTile m.run m.tile (fun t => { t with own := stMemUncorrectable })
            { s with freeCount := s.freeCount + 1 } else s
        let s := updMsg qpn msn (fun m =>
          if retx then { m with resend := m.resend.filter (· != k) } else { m with next := k + 1 }) s
        (queueFrame p pri { bytes := bytes, pacer := some qpn, inst := q.inst, msgs := [(qpn, msn)] } s, true)

/-- Cut short a SEND that cannot go out whole: a packet sequence leaves only when every tile is translated (R96). -/
def cutRoce (s : State) (qpn : Nat) : State :=
  (qpRuns s qpn).foldl (fun s key =>
    match runOf s key with
    | some r =>
      if r.kind == .send && r.cut.any (fun c => c.tile != 0) && r.tiles.all (fun t => t.state != .sent && t.state != .done) then
        checkRun key (updRun key (fun r => { r with cut := r.cut.map (fun c => { c with tile := 0 }) }) s)
      else s
    | none => s) s

/-- The next packet of a RoCEv2 queue pair: a resent one, the next of the message in progress, the next tile; none
while an RNR NAK holds it back. -/
def roceStep (qpn : Nat) (q : Qp) (s : State) : Option State :=
  let ms := qpMsgs s qpn
  if ms.any (fun m => m.rnrAt.isSome) then none
  else
    let done := fun (x : State × Bool) => if x.2 then some x.1 else none
    match ms.find? (fun m => !(m.resend.isEmpty)) with
    | some m => done (sendRoce qpn q m.msn (m.resend.foldl min (m.resend.headD 0)) true s)
    | none =>
      match (unsentMsgs s qpn).head? with
      | some m => done (sendRoce qpn q m.msn m.next false s)
      | none =>
        match freshTile s qpn q with
        | none => none
        | some (key, i, r, t) =>
          let mtu := pmtu s (ahPort q)
          let whole := r.kind != .send || r.tiles.all (fun t => t.state == .ready)
          let len := if r.kind = .send then runTotal r else t.len
          let n := if r.kind = .write ∨ (r.kind = .send ∧ q.typ = 2) then packets mtu len else 1
          let span := if r.kind = .read then packets mtu len else n
          if !whole then none
          else
            let (s, ok) := startMsg qpn q key i n span s
            if ok then done (sendRoce qpn q q.nextMsn 0 false s) else some s

/-- Queue the next packet of some RoCEv2 queue pair, by turns. -/
def roceNew (s : State) : Option State :=
  let qps := s.tp.qps.filter (fun e => isRoce e.2 && e.2.state == .ready && instSends s e.2.inst)
  let s := qps.foldl (fun s e => cutRoce s e.1) s
  let last := (mapGet s.cs.qpPos (512 * 9)).getD 0
  let order := qps.filter (fun e => decide (last < e.1)) ++ qps.filter (fun e => decide (e.1 ≤ last))
  order.findSome? (fun e =>
    (qpOf s e.1).bind (fun q => (roceStep e.1 q s).map (fun s =>
      { s with cs := { s.cs with qpPos := mapSet s.cs.qpPos (512 * 9) e.1 } })))

/-- Pack the next train or cell of some CELL_UDP queue pair, by turns, retransmissions first. -/
def udpNew (x : RecvReads) (s : State) : Option State :=
  let last := (mapGet s.cs.qpPos (512 * 10)).getD 0
  let qps := cellQps s 1
  let order := qps.filter (fun e => decide (last < e.1)) ++ qps.filter (fun e => decide (e.1 ≤ last))
  let loads := order.filterMap (fun e => (retxLoad s e.1 (mostCells s e.2)).map (fun l => (e.1, l, true)))
    ++ order.filterMap (fun e => (newLoad s e.1 e.2 (mostCells s e.2)).map (fun l => (e.1, l, false)))
  (loads.find? (fun l => packetRoom s (loadSize s l.1 l.2.1))).map (fun l =>
    sendLoad l.1 l.2.1 l.2.2 x { s with cs := { s.cs with qpPos := mapSet s.cs.qpPos (512 * 10) l.1 } })

/-! ### Frames (R231, R264) -/

/-- Length of a frame on the wire (R230), and what it is charged (R276). -/
def frameLen (f : TxFrame) : Nat := max 60 f.bytes.length + 4
def frameCharge (s : State) (p : Nat) (f : TxFrame) : Int := (frameLen f : Int) + portOverhead s p

/-- A frame may start on a port (R264 step 3). -/
def frameOk (s : State) (p pri clk : Nat) (f : TxFrame) : Bool :=
  gateOk s p pri clk (frameCharge s p f) && !(txPaused s p pri) && shaperOk s (8 * p + pri) && shaperOk s (256 + f.inst)
    && f.pacer.all (fun k => decide (0 < (rateCtl s k p).tokens))

/-- The frames of a priority that may go next: the oldest of each instance and pacer. -/
def frameHeads (l : List TxFrame) : List (Nat × TxFrame) :=
  l.zipIdx.foldl (fun acc f =>
    if acc.any (fun x => x.2.inst == f.1.inst && x.2.pacer == f.1.pacer) then acc else acc ++ [(f.2, f.1)]) []

/-- Send one frame of a port's queues, if one may start. -/
def portFrame (p clk : Nat) (s : State) : Option State :=
  let cands : List (Cand (Nat × Nat × TxFrame)) := (List.range 8).flatMap (fun pri =>
    ((frameHeads ((mapGet (ethPort s p).tx pri).getD [])).filter (fun f => frameOk s p pri clk f.2)).map (fun f =>
      { cls := pri, inst := f.2.inst, qp := f.2.pacer.getD 0, size := frameLen f.2, it := (pri, f.1, f.2) }))
  (pick (p + 1) cands s).map (fun w =>
    let (pri, i, f) := w.1.it
    let s := w.2
    let n := frameCharge s p f
    let s := modEth p (fun e =>
      let left := ((mapGet e.tx pri).getD []).eraseIdx i
      { e with tx := if left.isEmpty then mapErase e.tx pri else mapSet e.tx pri left }) s
    let s := chargeShaper (8 * p + pri) n (chargeShaper (256 + f.inst) n s)
    let s := match f.pacer with
      | some k => chargePacer k p n s
      | none => s
    let s := if f.cell then ethCount p 29 1 s else s
    let now := s.tick.count.toNat
    let s := f.msgs.foldl (fun s m =>
      match qpOf s m.1 with
      | some q => updMsg m.1 m.2 (fun x => { x with deadline := now + qpRto s q * 2 ^ min x.tries 3 }) s
      | none => s) s
    udSent f (ethOut p f.bytes s))

/-- Send one frame of the Ethernet ports. -/
def anyFrame (clk : Nat) (s : State) : Option State :=
  ((List.range (portCount s.lz.run.widthMode)).filter (fun p => isEthPort s p && (ethPort s p).link)).findSome?
    (fun p => portFrame p clk s)

/-! ### The selection -/

/-- Send the oldest control cell (R264 step 1): to this adapter, in a cell frame of its own, or by a link. -/
def sendControl (x : RecvReads) (s : State) : Option State :=
  match s.tp.control with
  | [] => none
  | c :: rest =>
    let s := { s with tp := { s.tp with control := rest } }
    let i : WireItem := { node := c.node, unit := c.unit, hdr := c.hdr, pay := c.pay
                          udp := (c.qpn.bind (qpOf s)).any (fun q => q.typ == 1) }
    some (
      if (nodeSlot s c.node).isSome then localItem i x s
      else if !i.udp then routeControl i s
      else
        match if mayLeave s i then chooseUnode s i.node else none with
        | some (_, u) => ethCount u.port 29 1 (ethOut u.port (cellFrame s u (slotBytes (freshEpoch s i.hdr) i.pay)) s)
        | none => holdItem i s)

/-- Send the frame that some UDP node entry has been filling. -/
def flushOne (s : State) : Option State :=
  (s.eth.unodes.find? (fun e => !(e.2.fill.isEmpty))).map (fun e => flushUnode e.1 s)

/-- Send every frame that is being filled (R256: no later than 64 clk after its first slot). -/
def flushAll (s : State) : State :=
  (s.eth.unodes.filter (fun e => !(e.2.fill.isEmpty))).foldl (fun s e => flushUnode e.1 s) s

/-- One choice of the transmit engine at `clk` after the tick's edge (R264): control traffic; a frame that may start
on an Ethernet port; on the cell links retransmissions, then new cells; then the next cells and packets are made
into frames. -/
def transmit (clk : Nat) (x : RecvReads) (s : State) : State :=
  ((sendControl x s).orElse fun _ => (anyFrame clk s).orElse fun _ => (linkRetx x s).orElse fun _ =>
    (linkNew x s).orElse fun _ => (udpNew x s).orElse fun _ => (roceNew s).orElse fun _ => flushOne s).getD s

/-- TRANSMIT_SELECT (R264): `x` holds what the reads for RECV entries return when the adapter sends to itself. -/
def execTransmitSelect (clk : Nat) (x : RecvReads) (s : State) : Res := .next (whenOk (working s) (transmit clk x) s)

/-- Route again what is held: for links, and for UDP (R216); what waits on a link goes on. -/
def retryAll (s : State) : State :=
  let udp := s.cf.held.filter (·.udp)
  let s := retryHeld { s with cf := { s.cf with held := s.cf.held.filter (fun i => !i.udp) } }
  let s := udp.foldl (fun s i => packUdp i s) s
  (upPorts s).foldl (fun s p => drainQueue (cport s p).queue.length p s) s

/-- NO_ROUTE_RETRY (R215, R216). -/
def execNoRouteRetry (s : State) : Res := .next (whenOk (working s) retryAll s)

/-! ### The sender's half of the exchange (R267) -/

/-- Slot bytes of cells cut into trains. -/
def trainBytes (fill page : Nat → Nat) (cells : List Nat) : Nat :=
  80 * (trains cells.length 64 fill page cells).length + 68 * cells.length

/-- Slot bytes that a queue pair has queued: retransmitted, and new. -/
def qpDemand (s : State) (qpn : Nat) : Nat × Nat :=
  let ms := qpMsgs s qpn
  let cut := fun (m : Msg) (l : List Nat) => match msgTile s m with
    | some (r, t) => if msgAlone m.kind m.cells then 80 * l.length else trainBytes (msgFill r t) (msgPage r t) l
    | none => 0
  let resp := fun (p : RespRec) (l : List Nat) =>
    if p.kind = 8 && p.cells = 1 then 80 * l.length else trainBytes (respFill p) (fun _ => 0) l
  let re := (ms.map (fun m => cut m m.resend.mergeSort)).sum
    + ((qpResps s qpn).map (fun p => resp p p.resend.mergeSort)).sum
  let tiles := (qpRuns s qpn).flatMap (fun key => match runOf s key with
    | some r => if r.stopped.isSome then [] else
        (r.tiles.zipIdx.filter (fun t => t.1.state == .ready && decide (t.2 < runLimit r))).map (fun t =>
          let n := msgCells s r t.2 t.1
          if msgAlone r.kind n then 80 else trainBytes (msgFill r t.1) (msgPage r t.1) (List.range n))
    | none => [])
  let new := ((unsentMsgs s qpn).map (fun m => cut m ((List.range m.cells).drop m.next))).sum
    + ((qpResps s qpn).map (fun p => resp p ((List.range p.cells).drop p.next))).sum + tiles.sum
  (re, new)

/-- DEMAND and RETX toward each destination node: what is queued, less the allowance live (Table 9.2). -/
def demands (s : State) : List (Nat × Nat × Nat) :=
  let qps := (cellQps s 0).filter (fun e => (nodeSlot s e.2.peerNode).isNone)
  let nodes := (qps.map (fun e => e.2.peerNode)).foldl insertNew []
  (nodes.map (fun d =>
    let mine := (qps.filter (fun e => e.2.peerNode == d)).map (fun e => qpDemand s e.1)
    let re := (mine.map Prod.fst).sum
    let all := re + (mine.map Prod.snd).sum
    let demand := ((all : Int) - allowance s d).toNat
    (d, demand, min re demand))).filter (fun x => x.2.1 != 0)

/-- REQUEST_SEND (R267): one REQUEST to each destination, the largest demands first, 4,096 at most. -/
def requestSend (s : State) : State :=
  if (rg s Reg.GX_CS_GRANT).getLsbD 31 && s.fw.joined then
    let w := wfld (rg s Reg.GX_CS_GRANT) 23 16
    (((demands s).mergeSort (fun a b => decide (b.2.1 ≤ a.2.1))).take 4096).foldl (fun s x =>
      sendSched x.1 0 (mkPay (leBytes 8 x.2.1 ++ leBytes 8 x.2.2 ++ leBytes 1 w)) s) s
  else s

end Sys2Proof.Machine
end

