-- ==== Sys2Proof/Machine/TickEdge.lean ====
section
/-! DEFINITION. The tick edge (R29 to R32): the six steps in their order, with every deadline that is due. -/

namespace Sys2Proof.Machine

/-! ### Step 1: the telemetry of the tick that ends (R29, R218) -/

/-- Codes of Tables 1.4 and 7.5. -/
def alignCode (a : AlignState) : Nat :=
  match a with
  | .free => 0
  | .acquire => 1
  | .aligned => 2
  | .holdover => 3
def linkCode (l : LinkState) : Nat :=
  match l with
  | .disabled => 0
  | .training => 1
  | .fecLock => 2
  | .identify => 3
  | .up => 4
  | .fenced => 5

/-- A use of a port's rate in the tick that ends, 0 to 255: 25 bytes per ns and active lane (assumption 19). -/
def portUse (s : State) (bytes : NMap Nat) (p : Nat) : Nat :=
  let room := activeLanes s p * 25 * 125 * period s
  let n := 255 * (mapGet bytes p).getD 0
  if room = 0 then 0
  else min 255 (n / room + (if n % room != 0 && Config.useRound n room then 1 else 0))

/-- The counters whose difference over a tick the published map shows. -/
def pubCounters (s : State) : Nat × Nat × Nat :=
  ((rg s Reg.GX_TP_RETX_CNT).toNat, (rg s Reg.GX_CF_STALE_EPOCH_CNT).toNat, (rg s Reg.GX_CF_FENCED_DROP_CNT).toNat)

/-- PORT[p] of the published map. -/
def pubPort (s : State) (p : Nat) : List Byte :=
  let c := cport s p
  leBytes 2 (min 65535 (queuedBytes s p / 1024)) ++ leBytes 1 (portUse s s.cf.txBytes p)
    ++ leBytes 1 (c.plane % 8 + 8 * linkCode c.state + (if c.narrowed then 64 else 0))

/-- The published map (Table 7.8): it tells of the tick that ends. -/
def pubMap (s : State) : List Byte :=
  let now := pubCounters s
  let gone := fun (a b : Nat) => leBytes 4 (a - b)
  leBytes 8 s.tick.count.toNat ++ leBytes 4 (wfld (rg s Reg.GX_XL_NODE_ID) 22 0)
    ++ leBytes 1 (alignCode s.tick.align) ++ leBytes 1 (upPorts s).length ++ leBytes 2 0
    ++ leBytes 4 s.cf.mapGen ++ leBytes 4 0
    ++ (List.range 32).flatMap (pubPort s) ++ (List.range 32).flatMap (fun p => leBytes 1 (portUse s s.cf.rxBytes p))
    ++ leBytes 8 s.cs.demandSum ++ leBytes 8 s.cs.grantedSum
    ++ gone now.1 s.cf.seen.1 ++ leBytes 4 (s.cf.retries.map Prod.snd).sum
    ++ gone now.2.1 s.cf.seen.2.1 ++ gone now.2.2 s.cf.seen.2.2 ++ leBytes 40 0

/-- The tick's telemetry has been taken: its counts begin anew. -/
def latchTelemetry (s : State) : State :=
  { s with cf := { s.cf with seen := pubCounters s, txBytes := [], rxBytes := [], retries := [] } }

/-! ### Step 3: commits, the consolidated map and what waits for an edge -/

/-- A loaded consolidated map governs from this edge (R220). -/
def mapEdge (s : State) : State :=
  match s.cf.mapNext with
  | none => s
  | some (gen, planes, levels) =>
    { s with cf := { s.cf with mapGen := gen, planeMask := planes, levels := levels, mapNext := none, mapLoaded := true } }

/-- What becomes live at step 3. -/
def liveEdge (s : State) : State :=
  let s := whenOk (running s) partialApply s
  let s := throttleEdge (commitsTake (setDue s.tick.count) s)
  psHeld s

/-! ### Step 4: deadlines -/

/-- Apply an operation to each of a list. -/
def each {α : Type} (l : List α) (f : α → State → State) (s : State) : State := l.foldl (fun s x => f x s) s

/-- IDENTIFY of every port counts its ticks (R208). -/
def identEdge (p : Nat) (s : State) : State :=
  if (cport s p).state == .identify then
    identExpire p (updCport p (fun c => { c with identTicks := c.identTicks + 1 }) s)
  else s

/-- The transport's deadlines (R182, R183). -/
def transportEdge (s : State) : State :=
  let s := each (s.tp.msgs.map (fun e => (e.2.qpn, e.2.msn))) (fun k s =>
    retransmit k.1 k.2 (respRecTimeout k.1 k.2 (missingRespNack k.1 k.2 (rnrResend k.1 k.2 s)))) s
  let s := each (s.tp.recs.map (fun e => (e.2.qpn, e.2.msn))) (fun k s => recordTimeout k.1 k.2 (missingNack k.1 k.2 s)) s
  each (s.tp.resps.map (fun e => (e.2.qpn, e.2.msn))) (fun k => recordTimeout k.1 k.2) s

/-- The instances' deadlines (R445, R447, R450). -/
def instanceEdge (s : State) : State :=
  each (s.vi.insts.map Prod.fst) (fun n s => thawActivate n (freezeComplete n (freezeActivate n s))) s

/-- Every deadline that has come at the new count. -/
def deadlineEdge (s : State) : State :=
  let s := coreSwapBegin (coreLosses (sweepUses s))
  let s := each (List.range 32) identEdge s
  let s := transportEdge (herdsDeadlines s)
  let s := each ((List.range 32).filter (isEthPort s)) ganderEdge s
  let s := parkProgress (parkEdge (instanceEdge s))
  each (s.ce.slots.map Prod.fst) keyChange (rateUpdate s)

/-! ### Step 5: budgets -/

/-- Polls that wait are served first: those of doorbells, then those of intervals in the order in which they became
due, of which ties go by ring (R150).  A POLLS of 0 stops all. -/
def pollRefill (s : State) : State :=
  let polls := wfld (rg s Reg.GX_Q_POLL_BUDGET) 15 0 * (16 - s.pw.level) / 16
  let order := s.q.deferred.filter (·.2) ++ s.q.deferred.filter (fun d => !d.2)
  let wait := order.drop (polls - s.q.issued.length)
  { s with q := { s.q with budget := polls, issued := (s.q.issued ++ order.map Prod.fst).take polls
                           deferred := (s.q.issued.drop polls).map (fun r => (r, true)) ++ wait } }

/-- The budget in clk of a unit in the tick that begins (R31, R510). -/
def unitBudget (s : State) : Nat := (s.tick.lengthClk - guardClk s) * (16 - s.pw.level) / 16

/-- Excess of slices that had not finished at the edge (R32): it is charged to the unit's new budget, beside what it
still owes. -/
def overrunEdge (overruns : List (Nat × Nat)) (s : State) : State :=
  let b := unitBudget s
  let owed := (s.tick.debts.map (fun e => (e.1, e.2 - b))).filter (fun e => e.2 != 0)
  let debts := overruns.foldl (fun m o => mapPut 0 m o.1 ((mapGet m o.1).getD 0 + o.2)) owed
  each overruns (fun _ s => raise Reg.GX_TICK_EVENTS 4 (bump Reg.GX_TICK_OVERRUN_CNT s))
    { s with tick := { s.tick with debts := debts } }

/-- A unit that owes more than its budget dispatches no slice (R32).  Units 0 to 127 are the engines, 128 the
collective engine. -/
def unitStalled (s : State) (u : Nat) : Bool := decide (unitBudget s < (mapGet s.tick.debts u).getD 0)

/-- Every budget of the new tick. -/
def budgetEdge (s : State) : State :=
  let s := meterRefill (shaperRefill (pacerRefill (grantCompute (allowEdge (dropUnsent (pollRefill s))))))
  each ((List.range 32).filter (isEthPort s)) gclEdge s

/-! ### Step 6: what the new tick begins with -/

/-- A time in ns of one in thirds of a ns (assumption 19). -/
def nsOf (x : Int) : Int := if x % 3 = 0 then x / 3 else Config.nsRound x

/-- Payload of a tick-alignment cell (R210); SEND_DELAY is a matter of timing (assumption 20). -/
def alignPay (s : State) (p : Nat) : BitVec 512 :=
  let ns := (nsOf s.tick.offset % 2 ^ 32).toNat
  mkPay (leBytes 8 s.tick.count.toNat ++ leBytes 1 (alignCode s.tick.align)
    ++ leBytes 1 (Config.sendDelay p s.tick.count.toNat % 64) ++ leBytes 2 0 ++ leBytes 4 ns)

/-- The tick's alignment cells: to every peer with ALIGN_CAP (R34, R210), and to the UDP nodes (R256). -/
def alignCells (s : State) : State :=
  let s := each ((upPorts s).filter (fun p => (cport s p).peerAlign)) (fun p s =>
    emit (.control p (ctlHdr 1) (alignPay s p)) s) s
  if s.fw.joined && (rg s Reg.GX_ETH_CELL_UDP).getLsbD 19 then
    each (s.eth.unodes.filter (fun e => e.2.valid && e.2.delay != 0 && (ethPort s e.2.port).link)) (fun e s =>
      ethOut e.2.port (cellFrame s e.2 (slotBytes (ctlHdr 1) (alignPay s (32 + e.1)))) s) s
  else s

/-- Write a part of the published map. -/
def pubWrite (off : Nat) (bs : List Byte) (s : State) : State :=
  let base := (rg s Reg.GX_CF_PUB_HI).toNat * 2 ^ 32 + (rg s Reg.GX_CF_PUB_LO).toNat
  if wfld (rg s Reg.GX_CF_PUB_CFG) 1 0 = 1 then
    if rangeInInstance s 0 (base + off) bs.length then (tierPut (base + off) bs s).1 else s
  else emit (.busWrite 0 (BitVec.ofNat 64 (base + off)) bs) s

/-- Publish the map of the tick that has ended: bytes 8 to 255 first, then bytes 0 to 7 (R218). -/
def publish (map : List Byte) (s : State) : State :=
  let cfg := rg s Reg.GX_CF_PUB_CFG
  if cfg.getLsbD 31 then
    let entry := 256 * (leAt map 0 8 % 2 ^ wfld cfg 11 8)
    pubWrite entry (map.take 8) (pubWrite (entry + 8) (map.drop 8) s)
  else s

/-- Work of the new tick. -/
def dispatchEdge (map : List Byte) (reads : NMap (BitVec 128)) (s : State) : State :=
  let s := { s with q := { s.q with rings := s.q.rings.map (fun e => (e.1, { e.2 with polled := true })) }
                    eth := { s.eth with cnpQps := [], cnpNodes := [] }, tp := { s.tp with rnrSent := [] } }
  let s := retryAll (requestSend (publish map (alignCells s)))
  let s := flushAll (each (s.tp.runs.map Prod.fst) progressRun s)
  let s := if s.pw.clamped || unitStalled s 128 then s else herdsDispatch reads s
  fwMail s

/-! ### The edge -/

/-- The cold-reset wipe goes on for the tick that has ended (R126). -/
def wipeEdge (s : State) : State :=
  if s.mem.phase = 0 then s
  else
    let clk := s.mem.wipeClk + s.tick.lengthClk
    { s with mem := { s.mem with wipeClk := clk, t2Clean := min 1024 ((clk - 131072) / 1310720)
                                 phase := if clk < 131072 then 1 else if clk < tier1Clk then 2 else 3 } }

/-- Steps 4 to 6 of R29. -/
def workEdge (map : List Byte) (reads : NMap (BitVec 128)) (overruns : List (Nat × Nat)) (s : State) : State :=
  dispatchEdge map reads (overrunEdge overruns (budgetEdge (deadlineEdge s)))

/-- The tick edge (R29).  Before BOOT reads READY the counter and the wipe alone go on. -/
def tickEdge (reads : NMap (BitVec 128)) (overruns : List (Nat × Nat)) (s : State) : State :=
  let s := wipeEdge s
  if s.fw.boot != .ready then
    let s := beginTick (s.tick.count + 1) 0 s
    emit (.tickOut s.tick.count) s
  else
    let map := pubMap s
    let s := alignEdge (latchTelemetry s)
    let s := liveEdge (emit (.tickOut s.tick.count) s)
    if asleep s || s.gl.fatalHalt then s
    else
      let s := fwResume (joinEdge (mapEdge s))
      whenOk (working s) (workEdge map reads overruns) s

/-- TICK_EDGE (R29 to R32): `reads` are the table entries that the walks of the edge's work fetch, `overruns` the
units whose slices had not finished and their excess in clk. -/
def execTickEdge (reads : NMap (BitVec 128)) (overruns : List (Nat × Nat)) (s : State) : Res :=
  .next (whenOk (powered s && !s.fw.coldDue) (tickEdge reads overruns) s)

end Sys2Proof.Machine
end

