-- ==== Sys2Proof/Machine/Unit.lean ====
section
/-! DEFINITION. The end of a Lanzil action (R61), and the bonded Flocks: their forming (R58) and their unit actions at
the home and at a member (R70, R71). -/

namespace Sys2Proof.Machine

/-- The end of a running action (R61, R63, R465): an error ends it; a verified partial image waits for its edge; a
verified full image becomes the boot image, and a warm reset follows. -/
def lzActionEnd (image : List Byte) (v : Verdict) (s : State) : State :=
  match actionCheck image v s with
  | some e => lzEnd e s
  | none =>
    match s.lz.action with
    | 2 =>
      let tick := (lzSection image 6).bind (fun d => (lzDirs image).findIdx? (fun x => x == d.1))
      let r : Reload := ⟨parseImage image s.lz.run, (lzSection image 2).isSome, tick⟩
      { s with lz := { s.lz with held := some r } }
    | 3 => warmBegin 2 (lzEnd ⟨0, 0, 0⟩ (storeImage image s))
    | _ => lzEnd ⟨0, 0, 0⟩ s

/-- LZ_ACTION_END (R61): `image` is the staged image as it was read, of STAGE_LEN bytes. -/
def execLzActionEnd (image : List Byte) (v : Verdict) (s : State) : Res :=
  .next (whenOk (running s && s.lz.action != 0 && s.lz.held.isNone
      && image.length == (rg s Reg.GX_LZ_STAGE_LEN).toNat) (lzActionEnd image v) s)

/-- BOND_FORM (R58): every member of the bond holds a matching image and has been reached over a link in UP. -/
def execBondForm (flock : Nat) (s : State) : Res :=
  .next (whenOk (running s && !((upPorts s).isEmpty) && !(s.lz.formed.contains flock)
      && (flockOf s.lz.run flock).any (fun f => (bondOf s f).isSome))
    (fun s => { s with lz := { s.lz with formed := s.lz.formed ++ [flock] } }) s)

/-- BOND_ACTION_ACK (R70): a member's acknowledgement. -/
def execBondActionAck (flock member : Nat) (s : State) : Res :=
  .next (whenOk (running s && s.lz.unitActions.any (fun u => u.flock == flock && u.waiting.contains member))
    (fun s => parkProgress (unitAcked flock member s)) s)

/-- Fence a coordinate under a new epoch (R71): its entry of the fence table, or the lowest empty one. -/
def fenceMember (node unit : Nat) (s : State) : State :=
  let old : Option (Nat × FenceEntry) := s.cf.fences.find? (fun e => e.2.node == node && e.2.unit == unit && e.2.state != 0)
  let idx := match old with
    | some e => some e.1
    | none => (List.range 16384).find? (fun i => ((mapGet s.cf.fences i).map FenceEntry.state).getD 0 == 0)
  match idx with
  | none => s
  | some i =>
    let epoch := (old.map (fun e => e.2.epoch + 1)).getD 1
    retryHeld { s with cf := { s.cf with
      fences := mapSet s.cf.fences i ⟨node, unit, 2, min 63 epoch⟩, fencedAt := s.tick.count.toNat } }

/-- BOND_ACK_TIMEOUT (R71): the member at a coordinate has not acknowledged within 256 tk. -/
def bondTimeout (flock member node unit : Nat) (s : State) : State :=
  let bond := ((flockOf s.lz.run flock).map (·.bond)).getD 0
  let mark := fun (u : UnitAction) => if u.flock = flock then { u with degraded := true } else u
  let s := fenceMember node unit s
  let s := { s with lz := { s.lz with unitActions := s.lz.unitActions.map mark
                                      fencedMembers := s.lz.fencedMembers ++ [(bond, member)] } }
  parkProgress (unitAcked flock member s)

/-- BOND_ACK_TIMEOUT (R71): `node` and `unit` are the member's coordinate. -/
def execBondAckTimeout (flock member node unit : Nat) (s : State) : Res :=
  .next (whenOk (running s && s.lz.unitActions.any (fun u => u.flock == flock && u.waiting.contains member
      && decide (u.sentAt.toNat + 256 ≤ s.tick.count.toNat))) (bondTimeout flock member node unit) s)

/-- Instances of this adapter at or beneath a Flock. -/
def instsBeneath (s : State) (flock : Nat) : List Nat :=
  (s.lz.run.insts.filter (fun e => beneath s.lz.run flock e.2)).map Prod.fst

/-- A member carries a unit action out on its leaves (R70). -/
def unitCarry (flock : Nat) (kind : UnitActionKind) (s : State) : State :=
  match kind with
  | .park => parkEdge { s with dom := { s.dom with parked := insertNew s.dom.parked flock } }
  | .unpark =>
    let s := { s with dom := { s.dom with parked := s.dom.parked.filter (· != flock) } }
    (engineDomains s flock).foldl (fun s d => setCond d .on s) s
  | .halt => (instsBeneath s flock).foldl (fun s n => enterHalted n 0 s) s
  | .reset => (instsBeneath s flock).foldl (fun s n => resetBegin n .squash false [] s) s
  | .fence => { s with lz := { s.lz with fenced := insertNew s.lz.fenced flock } }

/-- BOND_UNIT_ACTION_RECEIVE (R70): the home's message reaches this member, which acts and acknowledges. -/
def execBondUnitActionReceive (flock : Nat) (kind : UnitActionKind) (s : State) : Res :=
  .next (whenOk (running s && (flockOf s.lz.run flock).any (fun f => (bondOf s f).any (fun b => b.index != 0)))
    (fun s => emit (.unitAck flock kind) (unitCarry flock kind s)) s)

end Sys2Proof.Machine
end

