-- ==== Sys2Proof/Machine/Dispatch.lean ====
section
/-! DEFINITION. The dispatch: one arm per command, each one call of the command's meaning. -/

namespace Sys2Proof.Machine

def exec (i : Instr) (s : State) : Host.Outcome State Fault Refusal :=
  match i with
  | .powerUp => Sys2Proof.Machine.execPowerUp s
  | .powerGood => Sys2Proof.Machine.execPowerGood s
  | .powerLoss cause => Sys2Proof.Machine.execPowerLoss cause s
  | .coldRstNAssert => Sys2Proof.Machine.execColdRstNAssert s
  | .coldReset selfTestOk copyAOk copyBOk straps => Sys2Proof.Machine.execColdReset selfTestOk copyAOk copyBOk straps s
  | .firmwareBoot x => Sys2Proof.Machine.execFirmwareBoot x s
  | .wipeDone => Sys2Proof.Machine.execWipeDone s
  | .warmReset x scans => Sys2Proof.Machine.execWarmReset x scans s
  | .gxCtrlWarmReset value => Sys2Proof.Machine.execGxCtrlWarmReset value s
  | .hostLinkLoss => Sys2Proof.Machine.execHostLinkLoss s
  | .hstLinkUp rate width => Sys2Proof.Machine.execHstLinkUp rate width s
  | .flrVf n => Sys2Proof.Machine.execFlrVf n s
  | .flrPf => Sys2Proof.Machine.execFlrPf s
  | .vfEnableChange enable numVfs => Sys2Proof.Machine.execVfEnableChange enable numVfs s
  | .tickEdge reads overruns => Sys2Proof.Machine.execTickEdge reads overruns s
  | .commitApply => Sys2Proof.Machine.execCommitApply s
  | .tickCommitActivate => Sys2Proof.Machine.execTickCommitActivate s
  | .commitWrite off seq => Sys2Proof.Machine.execCommitWrite off seq s
  | .tickCommitWrite seq => Sys2Proof.Machine.execTickCommitWrite seq s
  | .commitMulti value => Sys2Proof.Machine.execCommitMulti value s
  | .tickCountLoRead => Sys2Proof.Machine.execTickCountLoRead s
  | .tickAlignCellReceive port pay late => Sys2Proof.Machine.execTickAlignCellReceive port pay late s
  | .ptpMessageReceive port offset => Sys2Proof.Machine.execPtpMessageReceive port offset s
  | .ptpLock => Sys2Proof.Machine.execPtpLock s
  | .ptpLockLost => Sys2Proof.Machine.execPtpLockLost s
  | .alignAcquired => Sys2Proof.Machine.execAlignAcquired s
  | .alignLost => Sys2Proof.Machine.execAlignLost s
  | .alignInputTimeout => Sys2Proof.Machine.execAlignInputTimeout s
  | .holdoverTimeout => Sys2Proof.Machine.execHoldoverTimeout s
  | .lzVerify requester => Sys2Proof.Machine.execLzVerify requester s
  | .lzPartial requester => Sys2Proof.Machine.execLzPartial requester s
  | .lzFull requester => Sys2Proof.Machine.execLzFull requester s
  | .partialReloadApply => Sys2Proof.Machine.execPartialReloadApply s
  | .granuleWipeDone g => Sys2Proof.Machine.execGranuleWipeDone g s
  | .bondForm flock => Sys2Proof.Machine.execBondForm flock s
  | .bondActionAck flock member => Sys2Proof.Machine.execBondActionAck flock member s
  | .bondAckTimeout flock member node unit => Sys2Proof.Machine.execBondAckTimeout flock member node unit s
  | .invalidate slot => Sys2Proof.Machine.execInvalidate slot s
  | .invalidateComplete slot => Sys2Proof.Machine.execInvalidateComplete slot s
  | .walkComplete n reads => Sys2Proof.Machine.execWalkComplete n reads s
  | .scrubPass corrected => Sys2Proof.Machine.execScrubPass corrected s
  | .errorDetected x => Sys2Proof.Machine.execErrorDetected x s
  | .rowRepairDone bank => Sys2Proof.Machine.execRowRepairDone bank s
  | .pcSwapComplete stack pc => Sys2Proof.Machine.execPcSwapComplete stack pc s
  | .frameRetireRedirect frame => Sys2Proof.Machine.execFrameRetireRedirect frame s
  | .coreSwapBegin => Sys2Proof.Machine.execCoreSwapBegin s
  | .coreSwapComplete => Sys2Proof.Machine.execCoreSwapComplete s
  | .dumpComplete x => Sys2Proof.Machine.execDumpComplete x s
  | .dumpTimeout => Sys2Proof.Machine.execDumpTimeout s
  | .staleRequestDiscard part epoch => Sys2Proof.Machine.execStaleRequestDiscard part epoch s
  | .dumpRegion slot => Sys2Proof.Machine.execDumpRegion slot s
  | .ringRegister slot => Sys2Proof.Machine.execRingRegister slot s
  | .ringShutdown slot entries owns failed => Sys2Proof.Machine.execRingShutdown slot entries owns failed s
  | .mgmtEnable value => Sys2Proof.Machine.execMgmtEnable value s
  | .mgmtDisable entries => Sys2Proof.Machine.execMgmtDisable entries s
  | .sqPoll ring entry failed => Sys2Proof.Machine.execSqPoll ring entry failed s
  | .entryAccept ring => Sys2Proof.Machine.execEntryAccept ring s
  | .cqReservationCheck ring own failed => Sys2Proof.Machine.execCqReservationCheck ring own failed s
  | .doorbell n ring => Sys2Proof.Machine.execDoorbell n ring s
  | .completionRelease ring failed => Sys2Proof.Machine.execCompletionRelease ring failed s
  | .qpCreate slot remote failed => Sys2Proof.Machine.execQpCreate slot remote failed s
  | .qpModifyReconnect slot remote failed => Sys2Proof.Machine.execQpModifyReconnect slot remote failed s
  | .qpModifyTimers slot => Sys2Proof.Machine.execQpModifyTimers slot s
  | .qpModifyError slot => Sys2Proof.Machine.execQpModifyError slot s
  | .qpDestroy slot => Sys2Proof.Machine.execQpDestroy slot s
  | .write ring slot => Sys2Proof.Machine.execWrite ring slot s
  | .read ring slot => Sys2Proof.Machine.execRead ring slot s
  | .send ring slot => Sys2Proof.Machine.execSend ring slot s
  | .atomic ring slot => Sys2Proof.Machine.execAtomic ring slot s
  | .writeReduce ring slot => Sys2Proof.Machine.execWriteReduce ring slot s
  | .attn ring slot => Sys2Proof.Machine.execAttn ring slot s
  | .fence ring slot => Sys2Proof.Machine.execFence ring slot s
  | .decodeAttn ring slot reads => Sys2Proof.Machine.execDecodeAttn ring slot reads s
  | .prefillAppend ring slot reads => Sys2Proof.Machine.execPrefillAppend ring slot reads s
  | .kvGather ring slot reads => Sys2Proof.Machine.execKvGather ring slot reads s
  | .tierMove ring slot => Sys2Proof.Machine.execTierMove ring slot s
  | .collective ring slot => Sys2Proof.Machine.execCollective ring slot s
  | .recv qpn x => Sys2Proof.Machine.execRecv qpn x s
  | .trainReceive port hdr pay => Sys2Proof.Machine.execTrainReceive port hdr pay s
  | .dataCellReceive port slot => Sys2Proof.Machine.execDataCellReceive port slot s
  | .reduceCellReceive port slot => Sys2Proof.Machine.execReduceCellReceive port slot s
  | .sendCellReceive port slot x => Sys2Proof.Machine.execSendCellReceive port slot x s
  | .readReqReceive port slot => Sys2Proof.Machine.execReadReqReceive port slot s
  | .readRespReceive port slot => Sys2Proof.Machine.execReadRespReceive port slot s
  | .atomicReqReceive port slot => Sys2Proof.Machine.execAtomicReqReceive port slot s
  | .atomicRespReceive port slot => Sys2Proof.Machine.execAtomicRespReceive port slot s
  | .attnReqReceive port slot => Sys2Proof.Machine.execAttnReqReceive port slot s
  | .attnRespReceive port slot => Sys2Proof.Machine.execAttnRespReceive port slot s
  | .ackReceive port slot => Sys2Proof.Machine.execAckReceive port slot s
  | .nackMissingReceive port slot => Sys2Proof.Machine.execNackMissingReceive port slot s
  | .nackRnrReceive port slot => Sys2Proof.Machine.execNackRnrReceive port slot s
  | .nackMovedReceive port slot => Sys2Proof.Machine.execNackMovedReceive port slot s
  | .nackQpErrorReceive port slot => Sys2Proof.Machine.execNackQpErrorReceive port slot s
  | .respAckReceive port slot => Sys2Proof.Machine.execRespAckReceive port slot s
  | .readExecute qpn msn => Sys2Proof.Machine.execReadExecute qpn msn s
  | .atomicPerform qpn msn => Sys2Proof.Machine.execAtomicPerform qpn msn s
  | .attnKernelStart qpn msn reads => Sys2Proof.Machine.execAttnKernelStart qpn msn reads s
  | .recvComplete qpn => Sys2Proof.Machine.execRecvComplete qpn s
  | .missingNackSend qpn msn resp => Sys2Proof.Machine.execMissingNackSend qpn msn resp s
  | .recordTimeout qpn msn resp => Sys2Proof.Machine.execRecordTimeout qpn msn resp s
  | .retransmitTimeout qpn msn => Sys2Proof.Machine.execRetransmitTimeout qpn msn s
  | .rnrResend qpn msn => Sys2Proof.Machine.execRnrResend qpn msn s
  | .codewordReceive port lcw slots corrected lane => Sys2Proof.Machine.execCodewordReceive port lcw slots corrected lane s
  | .spareLaneSwap port => Sys2Proof.Machine.execSpareLaneSwap port s
  | .receiverDetect port => Sys2Proof.Machine.execReceiverDetect port s
  | .trainingSuccess port => Sys2Proof.Machine.execTrainingSuccess port s
  | .trainingAttemptTimeout port => Sys2Proof.Machine.execTrainingAttemptTimeout port s
  | .fecLock port now => Sys2Proof.Machine.execFecLock port now s
  | .fecLockTimeout port => Sys2Proof.Machine.execFecLockTimeout port s
  | .identReceive port pay now => Sys2Proof.Machine.execIdentReceive port pay now s
  | .identRoundTimeout port now => Sys2Proof.Machine.execIdentRoundTimeout port now s
  | .identTimeout port => Sys2Proof.Machine.execIdentTimeout port s
  | .codewordLockLoss port => Sys2Proof.Machine.execCodewordLockLoss port s
  | .portAdminDown down => Sys2Proof.Machine.execPortAdminDown down s
  | .portRestart => Sys2Proof.Machine.execPortRestart s
  | .transmitSelect clk x => Sys2Proof.Machine.execTransmitSelect clk x s
  | .noRouteRetry => Sys2Proof.Machine.execNoRouteRetry s
  | .cmapLoad header levels headerAgain failed => Sys2Proof.Machine.execCmapLoad header levels headerAgain failed s
  | .fenceTableWrite value => Sys2Proof.Machine.execFenceTableWrite value s
  | .ethLinkUp port lanes => Sys2Proof.Machine.execEthLinkUp port lanes s
  | .ethLinkDown port => Sys2Proof.Machine.execEthLinkDown port s
  | .ethFrameReceive port frame corrected uncorrectable x => Sys2Proof.Machine.execEthFrameReceive port frame corrected uncorrectable x s
  | .xoffRepeat port pri => Sys2Proof.Machine.execXoffRepeat port pri s
  | .pauseFrameReceive port frame => Sys2Proof.Machine.execPauseFrameReceive port frame s
  | .pauseExpiry port pri => Sys2Proof.Machine.execPauseExpiry port pri s
  | .ganderTxTrip port pri => Sys2Proof.Machine.execGanderTxTrip port pri s
  | .ganderTxClear port pri => Sys2Proof.Machine.execGanderTxClear port pri s
  | .ganderRxTrip port pri => Sys2Proof.Machine.execGanderRxTrip port pri s
  | .ganderRxClear port pri => Sys2Proof.Machine.execGanderRxClear port pri s
  | .rocePacketReceive port x => Sys2Proof.Machine.execRocePacketReceive port x s
  | .cnpReceive port => Sys2Proof.Machine.execCnpReceive port s
  | .cellFrameReceive port late x => Sys2Proof.Machine.execCellFrameReceive port late x s
  | .ethCounterLoRead port counter => Sys2Proof.Machine.execEthCounterLoRead port counter s
  | .unodeRouteWrite value remote failed => Sys2Proof.Machine.execUnodeRouteWrite value remote failed s
  | .requestReceive port hdr pay => Sys2Proof.Machine.execRequestReceive port hdr pay s
  | .grantReceive port hdr pay => Sys2Proof.Machine.execGrantReceive port hdr pay s
  | .schedCnpReceive port hdr pay => Sys2Proof.Machine.execSchedCnpReceive port hdr pay s
  | .gclEntryAdvance port => Sys2Proof.Machine.execGclEntryAdvance port s
  | .gclListSwitch port => Sys2Proof.Machine.execGclListSwitch port s
  | .herdDefine slot list failed => Sys2Proof.Machine.execHerdDefine slot list failed s
  | .herdDissolve slot => Sys2Proof.Machine.execHerdDissolve slot s
  | .collectiveSlotAcquire herd => Sys2Proof.Machine.execCollectiveSlotAcquire herd s
  | .stepDeadlineMiss herd seq => Sys2Proof.Machine.execStepDeadlineMiss herd seq s
  | .herdPieceReceive qpn reads => Sys2Proof.Machine.execHerdPieceReceive qpn reads s
  | .herdSkipReceive qpn => Sys2Proof.Machine.execHerdSkipReceive qpn s
  | .herdVoteReceive qpn => Sys2Proof.Machine.execHerdVoteReceive qpn s
  | .herdAbortReceive qpn => Sys2Proof.Machine.execHerdAbortReceive qpn s
  | .herdCommitReceive qpn => Sys2Proof.Machine.execHerdCommitReceive qpn s
  | .herdDecideAbortReceive qpn => Sys2Proof.Machine.execHerdDecideAbortReceive qpn s
  | .holdTimeout herd seq => Sys2Proof.Machine.execHoldTimeout herd seq s
  | .collectiveComplete herd seq => Sys2Proof.Machine.execCollectiveComplete herd seq s
  | .herdMembershipChange herd => Sys2Proof.Machine.execHerdMembershipChange herd s
  | .workItemEnd key item engine reads => Sys2Proof.Machine.execWorkItemEnd key item engine reads s
  | .kernelComplete key => Sys2Proof.Machine.execKernelComplete key s
  | .accReceiverDetect port => Sys2Proof.Machine.execAccReceiverDetect port s
  | .accLinkUp port rate width => Sys2Proof.Machine.execAccLinkUp port rate width s
  | .accEnumerate port vendor device bars => Sys2Proof.Machine.execAccEnumerate port vendor device bars s
  | .accLinkDown port => Sys2Proof.Machine.execAccLinkDown port s
  | .accErrFatal port => Sys2Proof.Machine.execAccErrFatal port s
  | .accAdminDown value => Sys2Proof.Machine.execAccAdminDown value s
  | .accRestart value => Sys2Proof.Machine.execAccRestart value s
  | .accRequestReceive port => Sys2Proof.Machine.execAccRequestReceive port s
  | .pcieFlushComplete port ok => Sys2Proof.Machine.execPcieFlushComplete port ok s
  | .pcieReadCompletion what outcome bytes => Sys2Proof.Machine.execPcieReadCompletion what outcome bytes s
  | .pcieCompletionTimeout what => Sys2Proof.Machine.execPcieCompletionTimeout what s
  | .cvClear => Sys2Proof.Machine.execCvClear s
  | .cvStart => Sys2Proof.Machine.execCvStart s
  | .cvStop => Sys2Proof.Machine.execCvStop s
  | .cvStreamBoundary source index => Sys2Proof.Machine.execCvStreamBoundary source index s
  | .cvConfigWrite off v => Sys2Proof.Machine.execCvConfigWrite off v s
  | .cvBytesLoRead => Sys2Proof.Machine.execCvBytesLoRead s
  | .cvSelfTestDone unit pass => Sys2Proof.Machine.execCvSelfTestDone unit pass s
  | .keyLoad slot record failed => Sys2Proof.Machine.execKeyLoad slot record failed s
  | .keyRekey slot record failed => Sys2Proof.Machine.execKeyRekey slot record failed s
  | .keyErase slot => Sys2Proof.Machine.execKeyErase slot s
  | .keyChangeApply n => Sys2Proof.Machine.execKeyChangeApply n s
  | .instanceResetDrain slot => Sys2Proof.Machine.execInstanceResetDrain slot s
  | .instanceResetSquash slot => Sys2Proof.Machine.execInstanceResetSquash slot s
  | .instanceResetDiscard slot => Sys2Proof.Machine.execInstanceResetDiscard slot s
  | .instanceResetComplete n scans => Sys2Proof.Machine.execInstanceResetComplete n scans s
  | .instanceFreeze slot => Sys2Proof.Machine.execInstanceFreeze slot s
  | .freezeActivate n => Sys2Proof.Machine.execFreezeActivate n s
  | .freezeComplete n => Sys2Proof.Machine.execFreezeComplete n s
  | .instanceThaw slot => Sys2Proof.Machine.execInstanceThaw slot s
  | .thawActivate n => Sys2Proof.Machine.execThawActivate n s
  | .instanceSaveState slot reads => Sys2Proof.Machine.execInstanceSaveState slot reads s
  | .instanceSaveMemory slot reads => Sys2Proof.Machine.execInstanceSaveMemory slot reads s
  | .instanceRestoreState slot reads table failed => Sys2Proof.Machine.execInstanceRestoreState slot reads table failed s
  | .instanceRestoreMemory slot reads => Sys2Proof.Machine.execInstanceRestoreMemory slot reads s
  | .mbxOutPost n => Sys2Proof.Machine.execMbxOutPost n s
  | .mbxOutTaken n => Sys2Proof.Machine.execMbxOutTaken n s
  | .mbxInPost n => Sys2Proof.Machine.execMbxInPost n s
  | .mbxInDone n => Sys2Proof.Machine.execMbxInDone n s
  | .mbxBufferWrite n inbound off v => Sys2Proof.Machine.execMbxBufferWrite n inbound off v s
  | .fwVerify => Sys2Proof.Machine.execFwVerify s
  | .fwInstall => Sys2Proof.Machine.execFwInstall s
  | .activateRolling => Sys2Proof.Machine.execActivateRolling s
  | .activateWarm => Sys2Proof.Machine.execActivateWarm s
  | .commitSvn => Sys2Proof.Machine.execCommitSvn s
  | .restartBantam bantam => Sys2Proof.Machine.execRestartBantam bantam s
  | .lcChange => Sys2Proof.Machine.execLcChange s
  | .kekInstall => Sys2Proof.Machine.execKekInstall s
  | .watchdogExpiry bantam ms => Sys2Proof.Machine.execWatchdogExpiry bantam ms s
  | .bantamRestartComplete digestOk ms => Sys2Proof.Machine.execBantamRestartComplete digestOk ms s
  | .fwActivationResume => Sys2Proof.Machine.execFwActivationResume s
  | .fwHello => Sys2Proof.Machine.execFwHello s
  | .joinDomain => Sys2Proof.Machine.execJoinDomain s
  | .hostBeat value ms => Sys2Proof.Machine.execHostBeat value ms s
  | .hostSilent ms => Sys2Proof.Machine.execHostSilent ms s
  | .getVersion hst => Sys2Proof.Machine.execGetVersion hst s
  | .getCapabilities hst version => Sys2Proof.Machine.execGetCapabilities hst version s
  | .negotiateAlgorithms hst offered => Sys2Proof.Machine.execNegotiateAlgorithms hst offered s
  | .getDigests hst => Sys2Proof.Machine.execGetDigests hst s
  | .getCertificate hst slot offset length => Sys2Proof.Machine.execGetCertificate hst slot offset length s
  | .challenge hst slot => Sys2Proof.Machine.execChallenge hst slot s
  | .getMeasurements hst index => Sys2Proof.Machine.execGetMeasurements hst index s
  | .keyExchange hst slot session => Sys2Proof.Machine.execKeyExchange hst slot session s
  | .finish hst session good => Sys2Proof.Machine.execFinish hst session good s
  | .heartbeat hst session => Sys2Proof.Machine.execHeartbeat hst session s
  | .keyUpdate hst session => Sys2Proof.Machine.execKeyUpdate hst session s
  | .endSession hst session => Sys2Proof.Machine.execEndSession hst session s
  | .spdmUnsupportedRequest hst => Sys2Proof.Machine.execSpdmUnsupportedRequest hst s
  | .drbgReseed => Sys2Proof.Machine.execDrbgReseed s
  | .psExitComplete => Sys2Proof.Machine.execPsExitComplete s
  | .asleepAccess write off => Sys2Proof.Machine.execAsleepAccess write off s
  | .domainIdleTimeout domain => Sys2Proof.Machine.execDomainIdleTimeout domain s
  | .domainWake domain => Sys2Proof.Machine.execDomainWake domain s
  | .flockPark value => Sys2Proof.Machine.execFlockPark value s
  | .flockUnpark value => Sys2Proof.Machine.execFlockUnpark value s
  | .inputSample sensor degC mv voltBad sampleW avgW => Sys2Proof.Machine.execInputSample sensor degC mv voltBad sampleW avgW s
  | .demandDecrease => Sys2Proof.Machine.execDemandDecrease s
  | .emergencyBegin => Sys2Proof.Machine.execEmergencyBegin s
  | .emergencyEnd => Sys2Proof.Machine.execEmergencyEnd s
  | .thermalTrip sensor degC => Sys2Proof.Machine.execThermalTrip sensor degC s
  | .intEnableWrite page v => Sys2Proof.Machine.execIntEnableWrite page v s
  | .msixVectorUnmask fn vector => Sys2Proof.Machine.execMsixVectorUnmask fn vector s
  | .instTickLoRead n => Sys2Proof.Machine.execInstTickLoRead n s
  | .latchedLoRead off => Sys2Proof.Machine.execLatchedLoRead off s
  | .registerWrite off v full => Sys2Proof.Machine.execRegisterWrite off v full s
  | .ppsPulse => Sys2Proof.Machine.execPpsPulse s
  | .ptpPortLinkChange up => Sys2Proof.Machine.execPtpPortLinkChange up s
  | .mctpControlMessage eid => Sys2Proof.Machine.execMctpControlMessage eid s
  | .accErrorMessage port => Sys2Proof.Machine.execAccErrorMessage port s
  | .bondUnitActionReceive flock kind => Sys2Proof.Machine.execBondUnitActionReceive flock kind s
  | .lzActionEnd image v => Sys2Proof.Machine.execLzActionEnd image v s
  | .fwActionEnd x => Sys2Proof.Machine.execFwActionEnd x s

end Sys2Proof.Machine
end

