-- ==== Sys2Proof/Machine/RegRead.lean ====
section
/-! DEFINITION. What a read of the register window or of an instance page returns (R5, R67, R539, R549): a view of the
state.  A read without a row of its own changes nothing, so it is no command. -/

namespace Sys2Proof.Machine

/-- Bit i for every member i of a list. -/
def bitsOf (l : List Nat) : Nat := l.eraseDups.foldl (fun n i => n + 2 ^ i) 0

/-- Bit 0 or 1 for a condition. -/
def bit01 (b : Bool) : Nat := if b then 1 else 0

/-- Codes of the states that registers show (Tables 6.3, 13.2, 14.3, 16.1, 18.4). -/
def qpCode (q : QpState) : Nat :=
  match q with
  | .ready => 1
  | .error => 2
  | .movedWait => 3
def accCode (a : AccState) : Nat :=
  match a with
  | .down => 0
  | .training => 1
  | .enumerating => 2
  | .ready => 3
  | .contained => 4
def cvCode (c : CvRun) : Nat :=
  match c with
  | .stopped => 0
  | .armed => 1
  | .running => 2
  | .stopping => 3
def instCode (i : InstState) : Nat :=
  match i with
  | .disabled => 0
  | .ready => 1
  | .halted => 2
  | .resetting => 3
  | .freezing => 4
  | .frozen => 5
def condCode (c : Cond) : Nat :=
  match c with
  | .on => 0
  | .idle => 1
  | .retention => 2
  | .off => 3

/-- BOOT of GX_FW_STATUS. -/
def bootCode (b : BootState) : Nat :=
  match b with
  | .rom => 0
  | .loading => 1
  | .ready => 2
  | .recovery => 3

/-- The tick block's and the Lanzil block's status. -/
def tickRead (s : State) (off : Nat) : Option Nat :=
  if off = Reg.GX_TICK_COUNT_LO then some (s.tick.count.toNat % 2 ^ 32)
  else if off = Reg.GX_TICK_COUNT_HI then some s.tick.hiLatch.toNat
  else if off = Reg.GX_TICK_STATUS then
    some (alignCode s.tick.align + 4 * bit01 s.tick.ptpLocked + 8 * min 32 s.tick.nbrCount)
  else if off = Reg.GX_TICK_OFFSET then some (nsOf s.tick.offset % 2 ^ 32).toNat
  else if off = Reg.GX_LZ_ACTIVE_LO then some (s.lz.run.buildId.toNat % 2 ^ 32)
  else if off = Reg.GX_LZ_ACTIVE_HI then some (s.lz.run.buildId.toNat / 2 ^ 32)
  else if off = Reg.GX_XL_INVAL_PENDING then some s.xl.invals.length
  else none

/-- GX_MEM_GMAP_DATA of a granule of a tier. -/
def gmapRead (s : State) (tier g : Nat) : Nat :=
  let key := if tier = 0 then g else 4096 + g
  if (if tier = 0 then 4096 else 16384) ≤ g || s.re.now.withdrawn.contains (tier, g) then 3 * 2 ^ 30
  else
    let wiping := s.mem.wiping.contains key || !(granuleClean s key)
    bit01 wiping * 2 ^ 29 + (if (s.mem.retire.map Prod.snd).contains key then 2 * 2 ^ 30
      else match mapGet s.mem.owner key with
        | some f => 2 ^ 30 + f
        | none => 0)

/-- The memory block's status (Table 4.5). -/
def memRead (s : State) (off : Nat) : Option Nat :=
  let ix := rg s Reg.GX_MEM_GMAP_INDEX
  if off = Reg.GX_MEM_STATUS then
    some (s.mem.phase + 2 ^ 16 * (16 * s.mem.t2Clean))
  else if off = Reg.GX_MEM_T1_AVAIL then some (avail1 s)
  else if off = Reg.GX_MEM_T2_AVAIL then some (avail2 s)
  else if off = Reg.GX_MEM_GMAP_DATA then some (gmapRead s (wfld ix 16 16) (wfld ix 13 0))
  else if off = Reg.GX_MEM_SPARES then
    let full := (List.range 16).filter (fun p =>
      (s.re.now.frames.filter (fun f => f / (1024 * 16384) == p)).length == 512)
    some (bitsOf (s.re.now.pcs.map Prod.fst) + 2 ^ 16 * bitsOf full)
  else none

/-- The status of queues and transport (Tables 5.11, 6.12); `n` is the page's instance. -/
def queueRead (s : State) (off : Nat) : Option Nat :=
  let qpn := wfld (rg s Reg.GX_TP_QP_INDEX) 15 0
  if off = Reg.GX_Q_RINGS_ACTIVE then some s.q.rings.length
  else if off = Reg.GX_Q_MGMT_CTRL then
    some ((rg s off).toNat % 2 ^ 31 + bit01 s.q.mgmtActive * 2 ^ 31)
  else if off = Reg.GX_TP_QP_COUNT then some s.tp.qps.length
  else if off = Reg.GX_TP_RECORDS_FREE then some (recordsFree s)
  else if off = Reg.GX_TP_QP_STATE then
    match mapGet s.tp.qps qpn with
    | none => some 0
    | some q =>
      let out := (outstanding s).filter (fun m => m.qpn == qpn)
      some (q.inst + 2 ^ 13 * (out.map (·.tries)).foldl max 0 + 2 ^ 17 * out.length + 2 ^ 30 * qpCode q.state)
  else none

/-- The status of the ports (Tables 7.10, 8.10). -/
def portRead (s : State) (off i : Nat) : Option Nat :=
  let c := cport s i
  let e := ethPort s i
  if off = Reg.GX_CF_PORT_STATUS then
    some (bitsOf c.fencedLanes + 2 ^ 17 * bit01 c.narrowed + 2 ^ 18 * bit01 c.peerAlign + 2 ^ 19 * bit01 c.rttLong
      + 2 ^ 20 * bit01 c.spareUsed + 2 ^ 21 * bit01 c.peerSwitch + 2 ^ 22 * c.plane + 2 ^ 25 * activeLanes s i
      + 2 ^ 29 * linkCode c.state)
  else if off = Reg.GX_CF_PORT_TIMING then some (c.rtt + 2 ^ 16 * c.delay)
  else if off = Reg.GX_CF_PORT_PEER then some (c.peerId + 2 ^ 31 * bit01 c.peerKnown)
  else if off = Reg.GX_CF_CMAP_GEN then some s.cf.mapGen
  else if off = Reg.GX_CF_FENCE_DATA then
    some (((mapGet s.cf.fences (wfld (rg s Reg.GX_CF_FENCE_INDEX) 13 0)).map (fun f => f.epoch + 64 * f.state)).getD 0)
  else if off = Reg.GX_CF_FENCE_ENTRY then
    some (((mapGet s.cf.fences (wfld (rg s Reg.GX_CF_FENCE_INDEX) 13 0)).map (fun f => f.unit + 64 * f.node)).getD 0)
  else if off = Reg.GX_ETH_GANDER_STATUS then some (bitsOf e.txStorm + 256 * bitsOf e.rxStorm)
  else if off = Reg.GX_ETH_HALF_PORTS then some (bitsOf ((List.range 32).filter (fun p => (ethPort s p).half != 0)))
  else if off = Reg.GX_ETH_PORT_STATUS then
    let w := ethLanes s i
    some (bit01 e.link + 2 * (if e.link then (if w = 8 then 4 else if w = 4 then 3 else w) else 0)
      + 16 * bit01 e.narrowed + 256 * bitsOf e.pausedRx + 65536 * bitsOf e.pausedTx)
  else if off = Reg.GX_ETH_RAW_QP then some ((e.rawQp.map (· + 65536)).getD 0)
  else if off = Reg.GX_CS_SHAPER_TOKENS then
    let t := shaperTokens s i
    some ((if t % 8 = 0 then t / 8 else Config.tokenBytes t) % 2 ^ 32).toNat
  else if off = Reg.GX_CS_GCL_STATUS then
    let g := gclOf s i
    let gates := if g.run.enable then ((g.run.entries[g.entry]?).map Prod.fst).getD 255 else 255
    some (g.entry + 64 * bit01 g.next.isSome + 256 * gates)
  else none

/-- The status of collectives, kernels and the PCIe ports (Tables 10.8, 12.12, 13.5). -/
def unitRead (s : State) (off i : Nat) : Option Nat :=
  let h := mapGet s.hd.herds i
  let a := (mapGet s.pc.acc (i - 1)).getD {}
  let bar := wfld (rg s Reg.GX_PC_BAR_INDEX) 2 0
  let b := a.bars.find? (fun b => b.index == bar)
  let window := b.any (fun b => a.winSize != 0 && b.addr == a.winBase)
  if off = Reg.GX_HD_HERD_STATUS then
    some ((h.map (fun h => 16 * (h.colls.filter (fun e => e.2.slotAt.isSome)).length + 256 * (h.gen % 256)
      + 65536 * h.active.length + 2 ^ 29 * bit01 h.priv + 2 ^ 30 * (if h.broken then 2 else 1))).getD 0)
  else if off = Reg.GX_HD_HERD_SEQ then some ((h.map (·.doneSeq)).getD 0)
  else if off = Reg.GX_HD_COUNT then
    some (s.hd.herds.length + 65536 * (s.hd.herds.filter (fun e => e.2.priv)).length)
  else if off = Reg.GX_HD_STAGE_FREE then some (stageFree s)
  else if off = Reg.GX_AT_ACTIVE then some s.kn.kernels.length
  else if off = Reg.GX_AT_TOKENS_HI then some s.kn.tokensHi.toNat
  else if off = Reg.GX_PC_PORT_STATUS then
    if i = 0 then
      some (if s.pc.hstUp then 3 * 2 ^ 29 + s.pc.hstRate * 2 ^ 26 + s.pc.hstWidth * 2 ^ 21
        + bit01 (Config.flitMode 0 s.pc.hstRate) * 2 ^ 20 else 0)
    else
      let up := a.state == .ready || a.state == .enumerating
      some (accCode a.state * 2 ^ 29 + (if up then a.rate * 2 ^ 26 + a.width * 2 ^ 21
        + bit01 (Config.flitMode i a.rate) * 2 ^ 20 else 0))
  else if off = Reg.GX_PC_ACC_ID then some (a.vendor + 65536 * a.device)
  else if off = Reg.GX_PC_BAR_BASE_LO then some ((b.map (·.addr % 2 ^ 32)).getD 0)
  else if off = Reg.GX_PC_BAR_BASE_HI then some ((b.map (·.addr / 2 ^ 32)).getD 0)
  else if off = Reg.GX_PC_BAR_INFO then
    some ((b.map (fun b => b.size.log2 + 64 * bit01 window + 128)).getD 0)
  else if off = Reg.GX_PC_MULE_BYTES_HI then some ((mapGet s.pc.latches Reg.GX_PC_MULE_BYTES_LO).getD 0).toNat
  else none

/-- The status of check-value units and key slots (Tables 14.7, 15.11). -/
def codeRead (s : State) (off i : Nat) : Option Nat :=
  let u := cvUnit s i
  let k := keySlot s i
  if off = Reg.GX_CV_STATUS then some (cvCode u.state)
  else if off = Reg.GX_CV_BYTES_LO then some (u.bytes.toNat % 2 ^ 32)
  else if off = Reg.GX_CV_BYTES_HI then some (u.snapBytes.toNat / 2 ^ 32)
  else if off = Reg.GX_CV_RUNNING_LO then some (u.snapRunning.toNat % 2 ^ 32)
  else if off = Reg.GX_CV_RUNNING_HI then some (u.snapRunning.toNat / 2 ^ 32)
  else if off = Reg.GX_CV_RESULT_LO then some (u.snapResult.toNat % 2 ^ 32)
  else if off = Reg.GX_CV_RESULT_HI then some (u.snapResult.toNat / 2 ^ 32)
  else if off = Reg.GX_CE_SLOT_STATUS then
    some (k.inst + 2 ^ 24 * k.binding + 2 ^ 26 * bit01 k.aes256 + 2 ^ 27 * k.mode + 2 ^ 30 * k.state)
  else if off = Reg.GX_CE_SLOT_QPN then some k.qpn
  else if off = Reg.GX_CE_SLOT_USED_HI then some s.ce.usedHi.toNat
  else if off = Reg.GX_CE_SLOT_LIMIT_HI then some s.ce.limitHi.toNat
  else if off = Reg.GX_CE_SLOTS_ACTIVE then some (s.ce.slots.filter (fun e => e.2.state != 0)).length
  else if off = Reg.GX_CE_CORES then some (bitsOf ((List.range 12).filter (fun c => !(s.re.now.fencedAes.contains c))))
  else if off = Reg.GX_CE_BYTES_HI then some s.ce.bytesHi.toNat
  else none

/-- The status of instances in the window (Table 16.10). -/
def instRead (s : State) (off n : Nat) : Option Nat :=
  let i := inst s n
  if off = Reg.GX_VI_STATE then
    some (instCode i.state + 8 * bit01 (instBonded s n) + 16 * bit01 i.restored
      + 65536 * (instFlock s.lz.run n).getD 0)
  else if off = Reg.GX_VI_USE_RINGS then some (ringCount s n)
  else if off = Reg.GX_VI_USE_QPS then some (s.tp.qps.filter (fun e => e.2.inst == n)).length
  else if off = Reg.GX_VI_USE_HERDS then some (s.hd.herds.filter (fun e => e.2.inst == n)).length
  else if off = Reg.GX_VI_USE_SLOTS then some (s.ce.slots.filter (fun e => e.2.inst == n && e.2.state != 0)).length
  else if off = Reg.GX_VI_MBX_STATUS then some (bit01 i.outFull + 2 * bit01 i.inFull)
  else if Reg.GX_VI_MBX_PENDING ≤ off ∧ off < Reg.GX_VI_MBX_PENDING + 64 then
    let base := 8 * (off - Reg.GX_VI_MBX_PENDING)
    some (bitsOf ((List.range 32).filter (fun k => (inst s (base + k)).outFull)))
  else if off = Reg.GX_VI_MIGRATION_ID_HI then some i.migLatch.toNat
  else if off = Reg.GX_VI_FREEZE_EDGE_HI then some i.edgeLatch.toNat
  else none

/-- The firmware block's status (Table 17.15). -/
def fwRead (s : State) (off : Nat) : Option Nat :=
  let svn := fun (b : Option Bundle) => (b.map (·.svn)).getD 0
  let other := if s.fw.activeB then s.fw.bankA else s.fw.bankB
  if off = Reg.GX_FW_STATUS then some (s.fw.state + 16 * bootCode s.fw.boot + 2 ^ 16 * s.fw.result + 2 ^ 24 * s.fw.detail)
  else if off = Reg.GX_FW_BANKS then
    some (svn (activeBundle s) + 2 ^ 8 * svn other + 2 ^ 16 * s.fw.fusedSvn + 2 ^ 29 * bit01 s.fw.fallback
      + 2 ^ 30 * bit01 s.fw.pending + 2 ^ 31 * bit01 s.fw.activeB)
  else if off = Reg.GX_FW_RELEASE then some (((activeBundle s).map (·.release)).getD 0)
  else if off = Reg.GX_FW_IFACE then some (s.fw.agreed + 65536 * ((activeBundle s).map (·.ifaceHigh)).getD 0)
  else if off = Reg.GX_FW_FEATURES_LO then some (s.fw.features.toNat % 2 ^ 32)
  else if off = Reg.GX_FW_FEATURES_HI then some (s.fw.features.toNat / 2 ^ 32)
  else if off = Reg.GX_FW_LC then
    some (lcCode s.sec.lc + 16 * (s.sec.ownerRows - 1) + 64 * bit01 s.sec.owned + 2 ^ 8 * s.sec.transitionsLeft
      + 2 ^ 13 * bit01 s.sec.kek.isSome + 2 ^ 14 * bit01 s.sec.debugOpen)
  else if Reg.GX_FW_NONCE ≤ off ∧ off < Reg.GX_FW_NONCE + 16 then
    some (s.sec.nonce.toNat / 2 ^ (8 * (off - Reg.GX_FW_NONCE)) % 2 ^ 32)
  else if off = Reg.GX_FW_JOIN then some (joinUnmet s + 2 ^ 31 * bit01 s.fw.joined)
  else if off = Reg.GX_FW_BANTAM then some (bitsOf (s.fw.restarting.toList ++ s.fw.waiting))
  else none

/-- The power block's status (Table 18.8). -/
def powerRead (s : State) (off : Nat) : Option Nat :=
  let d := mapGet s.dom.conds (wfld (rg s Reg.GX_PW_DOMAIN_INDEX) 7 0)
  if off = Reg.GX_PW_STATUS then
    some (psCode s.pw.ps + 8 * bit01 s.pw.exit.isSome + 2 ^ 8 * s.pw.cause + 2 ^ 11 * bit01 s.pw.emergency
      + 2 ^ 12 * s.pw.level + 2 ^ 16 * s.pw.result)
  else if off = Reg.GX_PW_INPUT then some (s.pw.avgW + 2 ^ 16 * s.pw.mv)
  else if off = Reg.GX_PW_TEMP then some (s.pw.degC + 2 ^ 8 * s.pw.sensor)
  else if off = Reg.GX_PW_DOMAIN_STATUS then some (5 * condCode (d.getD .on))
  else if off = Reg.GX_PW_FLOCK then some ((rg s off).toNat + 4 * bit01 s.dom.parkRun.isSome)
  else none

/-- The status of repairs, the log and dumps (Table 19.9). -/
def relRead (s : State) (off : Nat) : Option Nat :=
  let r := s.re.now
  let inUse := fun (n : Nat) (gone : List Nat) => bitsOf ((List.range n).filter (fun k => !(gone.contains k)))
  if off = Reg.GX_RE_CORES then
    some (r.spareMap.getD 0 + 32 * bit01 r.spareMap.isSome + 64 * bit01 r.spareBad + 256 * bitsOf r.lost)
  else if off = Reg.GX_RE_CORE_FENCED then some (bitsOf r.fencedCores)
  else if off = Reg.GX_RE_MULES then some (inUse 32 r.fencedMules)
  else if off = Reg.GX_RE_CVU then some (inUse 32 r.fencedCvu)
  else if off = Reg.GX_RE_DEGRADED then
    some (bit01 (!r.lost.isEmpty) + 2 * bit01 (!(r.withdrawn.isEmpty && r.withdrawnFrames.isEmpty))
      + 4 * bit01 s.re.portDegraded + 8 * bit01 (!r.fencedAes.isEmpty) + 16 * bit01 (!r.fencedMules.isEmpty)
      + 32 * bit01 (!r.fencedCvu.isEmpty) + 64 * bit01 s.re.pcieDegraded)
  else if off = Reg.GX_RE_LOG_STATUS then some (s.re.logCount + 65536 * s.re.logHead)
  else if Reg.GX_RE_LOG_DATA ≤ off ∧ off < Reg.GX_RE_LOG_DATA + 32 then
    some (leAt (logAt s (wfld (rg s Reg.GX_RE_LOG_INDEX) 7 0)) (off - Reg.GX_RE_LOG_DATA) 4)
  else if off = Reg.GX_RE_DUMP_STATUS then
    some (s.re.dumpState + 8 * bit01 s.re.dumpReg.hostValid + 16 * bit01 s.re.dumpReg.tierValid + 65536 * (s.re.dumpSeq % 65536))
  else if off = Reg.GX_RE_REPAIR_STATUS then
    some (bit01 s.re.loaded + 2 * bit01 s.re.copyABad + 4 * bit01 s.re.copyBBad + 256 * r.trips)
  else none

/-- The global registers (Table 20.2). -/
def globalRead (s : State) (off : Nat) : Option Nat :=
  if off = Reg.GX_ID then some 0x64000100
  else if off = Reg.GX_STATUS then some (s.gl.resetCause + 16 * bit01 s.gl.adapterHalt + 32 * bit01 s.gl.fatalHalt)
  else if off = Reg.GX_COMMIT_MULTI_STATUS then
    some (s.gl.rejected + 2 ^ 31 * bit01 (s.commits.any (fun c => c.2.group)))
  else if off = Reg.GX_INT_STATUS then some (intStatus s)
  else none

/-- A status register that the state gives, of the position that its index registers select. -/
def statusRead (s : State) (off i : Nat) : Option Nat :=
  globalRead s off <|> tickRead s off <|> memRead s off <|> queueRead s off <|> portRead s off i <|> unitRead s off i
    <|> codeRead s off i <|> instRead s off i <|> fwRead s off <|> powerRead s off <|> relRead s off
    <|> (pairValue s off).map (· % 2 ^ 32)

/-- A word of an instance page (Tables 5.11, 16.9, 20.4). -/
def pageRead (s : State) (n o : Nat) : Nat :=
  let i := inst s n
  let pageReg := 0x04000000 + o
  if pageReg = Reg.GX_INST_Q_STATUS then bit01 (i.state == .halted) + 2 * i.reason
  else if pageReg = Reg.GX_INST_STATE then instCode i.state
  else if pageReg = Reg.GX_INST_MBX_STATUS then bit01 i.outFull + 2 * bit01 i.inFull
  else if pageReg = Reg.GX_INST_ID then 0x64000100
  else if pageReg = Reg.GX_INST_SELF then n + 65536 * msixVectors n
  else if pageReg = Reg.GX_INST_TICK_LO then s.tick.count.toNat % 2 ^ 32
  else if pageReg = Reg.GX_INST_TICK_HI then ((mapGet s.tick.pageLatch n).getD 0).toNat
  else if 0x1000 ≤ o ∧ o < 0x1800 then ((mapGet i.mboxOut (o - 0x1000)).getD 0).toNat
  else if 0x1800 ≤ o ∧ o < 0x2000 then ((mapGet i.mboxIn (o - 0x1800)).getD 0).toNat
  else if 0xC000 ≤ o ∧ o < 0xC400 then (msixWord s n ((o - 0xC000) / 16) ((o - 0xC000) / 4 % 4)).toNat
  else (regAt s (pageKey pageReg n)).toNat

/-- A word of an Ethernet counter page (R258, R259). -/
def counterRead (s : State) (o : Nat) : Nat :=
  let e := ethPort s (o / 0x200)
  let a := o % 0x200
  if a = 0x1F8 then e.half.toNat % 2 ^ 32
  else if a = 0x1FC then e.half.toNat / 2 ^ 32
  else if a % 8 = 0 then (mapGet e.counters (a / 8)).getD 0 % 2 ^ 32
  else (mapGet e.latches (a / 8)).getD 0

/-- What a 4-byte read of an address returns: a shadow address the shadow, a live address the live value, and an address
without a register 0 (R5, R67, R539). -/
def regRead (s : State) (off : Nat) : Word :=
  match pageOf off with
  | some (n, o) => BitVec.ofNat 32 (pageRead s n o)
  | none =>
    if 0x81000 ≤ off ∧ off < 0x85000 then BitVec.ofNat 32 (counterRead s (off - 0x81000))
    else if 0x200000 ≤ off ∧ off < 0x400000 then
      let n := (off - 0x200000) / 0x1000
      let o := off % 0x1000
      let buf := if o < 0x800 then (inst s n).mboxOut else (inst s n).mboxIn
      if n = 0 then 0 else (mapGet buf (o % 0x800)).getD 0
    else
      match regInfo off with
      | some i =>
        let key := accessKey s off i
        match statusRead s off (key / 2 ^ 32) with
        | some x => BitVec.ofNat 32 x
        | none => regAt s key
      | none =>
        match regInfo (off - 0x100) with
        | some i => if i.cmt = 0 then 0 else shadowAt s (accessKey s (off - 0x100) i)
        | none => 0

/-- What a read gets: where the window or the page does not serve the address it reads 0 (R470, R504, R549). -/
def windowRead (s : State) (off : Nat) : Word := if accessed s off then regRead s off else 0

end Sys2Proof.Machine
end

