-- ==== Sys2Proof/Safety.lean ====
section
/-! DEFINITION. What counts as a safe state and what a command may leave changed, in the terms that the statements use. -/

namespace Sys2Proof.Machine

/-- The two memories keep their canonical form: addresses rise and no listed byte is 0. -/
abbrev memoryOk (s : State) : Prop := memWf s.mem.bytes ∧ memWf s.mem.stores

/-- `t` is `s` but for the registers of a list, the vectors that are pending and what has been sent: what setting
event bits and raising their interrupts may change (R547, R548). -/
def eventsOnly (s t : State) (ks : List Nat) : Prop :=
  t = { s with regs := t.regs, gl := { s.gl with msixPending := t.gl.msixPending }, out := t.out } ∧
  ∀ k, k ∉ ks → regAt t k = regAt s k

/-- An accepted management command of an OPCODE, which has not ended, stands at a slot of ring 0 (R131). -/
abbrev waitsAt (s : State) (slot opcode : Nat) (o : Op) : Prop := mgmtOp s slot opcode = some o ∧ o.head = slot

/-- The entry at a slot of a ring has its completion, with a status (R138). -/
abbrev endsWith (s : State) (ring slot status : Nat) : Prop :=
  (opAt s ring slot).bind (fun o => o.done.map (fun c => c.status)) = some status

/-- A saturating counter has counted n more. -/
abbrev counted (s t : State) (off n : Nat) : Prop := (rg t off).toNat = min 0xFFFFFFFF ((rg s off).toNat + n)

/-- The MSN of a cell that comes to a queue pair as responder (R177). -/
abbrev rxMsn (q : Qp) (c : CellIn) : Nat := extend 16 q.expected c.msn

/-- A slot on a port gives a cell of a kind to the transport (R197 to R202, R223): a standalone one that passes the source checks, or the
cell of a train whose head has been let in. -/
def slotGives (s : State) (port kind : Nat) (slot : SlotIn) (c : CellIn) : Prop :=
  match slot with
  | .cell hdr pay => (readHdr hdr).form = 0 ∧ (readHdr hdr).kind = kind ∧ kind < 12 ∧ standaloneBad kind = false ∧
      slotCheck s (readHdr hdr) = 0 ∧ c = cellOf (readHdr hdr) pay
  | .train k pay => ∃ hdr head, (cport s port).train = some (hdr, head) ∧ (readHdr hdr).kind = kind ∧
      k ≤ (readTrain head).countM1 ∧ (cport s port).trainOk = true ∧ c = trainCell (readHdr hdr) (readTrain head) k pay

/-- The first cell of a new message, which passes every check of R177 and R178 that needs no address, on a queue pair that does not
decrypt. -/
structure NewCell (s : State) (c : CellIn) (q : Qp) : Prop where
  context : qpOf s c.dqpn = some q
  peer : q.peerNode = c.srcNode ∧ q.peerUnit = c.srcUnit
  typ : q.typ ≤ 1
  ready : q.state = .ready
  unit : (inst s q.inst).state = .ready
  window : q.expected ≤ rxMsn q c ∧ rxMsn q c < q.expected + 4096 ∧ q.winBits.contains (rxMsn q c) = false
  fresh : recOf s c.dqpn (rxMsn q c) = none
  room : q.statuses.length < 16 ∧ recordsFree s ≠ 0
  allowed : rxDenied s q c.kind = false
  plain : qpSlot s c.dqpn 1 = none

/-- The bytes of a cell lie in tier memory that the access may reach, and none of them is withdrawn, uncorrectable or being wiped
(R80, R112, R120, R124). -/
def tierOpen (s : State) (node off n : Nat) : Prop :=
  accessStatus s node off = 0 ∧ apertureOf off = none ∧ memStalls s off = false ∧
  ∀ i, i < n → badAt s (off + i) = false ∧ withdrawnAt s (off + i) = false

/-- A cell of a queue pair's peer that comes to it as requester, in READY (R178). -/
def fromPeer (s : State) (c : CellIn) (q : Qp) : Prop := reqQp c s = some q ∧ q.state = .ready

/-- Counter i of an Ethernet port has counted n more, modulo 2^48 (R258). -/
def ethCounted (s t : State) (p i n : Nat) : Prop :=
  (mapGet (ethPort t p).counters i).getD 0 = ((mapGet (ethPort s p).counters i).getD 0 + n) % 2 ^ 48

/-- The oldest SEND that has arrived on a queue pair of a Herd, at its position in a collective: rank j sent it, and R306 finds no fault in
it. -/
structure NextWord (s : State) (qpn : Nat) (m : HerdMsg) (h : Nat) (d : Herd) (p : HerdPos) (c : Coll) (j : Nat) : Prop where
  oldest : s.hd.inbox.find? (fun x => x.qpn == qpn) = some m
  pair : (qpOf s qpn).bind (·.herd) = some h
  place : ((mapGet s.hd.pos qpn).getD []).find? (fun x => x.ssn == m.ssn) = some p
  herd : mapGet s.hd.herds h = some d
  coll : collOf s h p.seq = some c
  rank : j = qpn - d.qpBase

end Sys2Proof.Machine
end

