-- ==== Sys2Proof/Certificates/Slice0/Obligations.lean ====
section
/-! DEFINITION. The statements for the provers.  A command's statement says that it answers a next state and what that
state holds, for every state and every operand that meet the conditions of its rule. -/

open Sys2Proof Sys2Proof.Machine

/-! ### The step -/

/-- A step takes the command at the front of the queue and carries it out on the state with the rest of the queue; on an empty queue
the block idles, which is the model's choice (log entry 3). -/
def Obligations.StepRunsTheFrontCommand : Prop :=
  (∀ (c : Instr) (rest : List Instr) (s : State),
    step { s with pending := c :: rest } = exec c { s with pending := rest }) ∧
  (∀ s : State, s.pending = [] → step s = .next s)

/-- Reset (R5, R27, R36): every register position reads its table's reset value, no shadow differs and no set is pending; the
tick counter is 0 and the alignment FREE; memory, rings, queue pairs, Herds, kernels and the queue of commands are
empty. -/
def Obligations.ResetStateHoldsTheResetValues : Prop :=
  (∀ key, regAt State.reset key = keyReset key) ∧ (∀ key, shadowAt State.reset key = keyReset key) ∧
  State.reset.commits = [] ∧ State.reset.tick.count = 0 ∧ State.reset.tick.align = .free ∧
  State.reset.mem.bytes = [] ∧ State.reset.mem.stores = [] ∧ State.reset.q.rings = [] ∧ State.reset.tp.qps = [] ∧
  State.reset.hd.herds = [] ∧ State.reset.kn.kernels = [] ∧ State.reset.pending = [] ∧
  regRead State.reset Reg.GX_ID = 0x64000100 ∧ regRead State.reset Reg.GX_TICK_PERIOD = 16 ∧
  regRead State.reset Reg.GX_Q_POLL_BUDGET = 1024

/-! ### Power and resets -/

/-- POWER_UP, POWER_GOOD, POWER_LOSS, COLD_RST_N_ASSERT and COLD_RESET (R125, R462, R469, R564 to R567, R569): the inrush charge begins; its end raises PWR_GOOD
and starts ACC_REFCLK, and a cold reset is due; a loss of power lets PWR_GOOD fall and leaves no memory, ring or queue pair, sends nothing, and keeps
flash, fuses and the life cycle; COLD_RST_N holds the adapter with PWR_GOOD as it was.  Below 95 °C a cold reset leaves every memory reading 0 with its
wipe in the first phase, BOOT ROM, the tick counter 0, every register at its reset value but the reliability events, and ACC_PERST_N asserted; at 95 °C
and above the adapter stays in reset. -/
def Obligations.PowerPinsAndColdReset : Prop :=
  (∀ s : State, s.pins.pwrGood = false →
    ∃ t, exec .powerUp s = .next t ∧ t.pins.vinOk = true ∧ t.pins.charging = !s.pins.ocLatched ∧
      t = { s with pins := t.pins }) ∧
  (∀ s : State, s.pins.charging = true →
    ∃ t, exec .powerGood s = .next t ∧ t.pins.pwrGood = true ∧ t.pins.accRefclk = true ∧ t.pins.charging = false ∧
      t.fw.coldDue = true ∧ t = { s with pins := t.pins, fw := t.fw }) ∧
  (∀ (cause : Nat) (s : State),
    ∃ t, exec (.powerLoss cause) s = .next t ∧ t.pins.pwrGood = false ∧ t.mem.bytes = [] ∧ t.mem.stores = [] ∧
      t.q.rings = [] ∧ t.tp.qps = [] ∧ t.regs = [] ∧ t.out = s.out ∧ t.lz.slotA = s.lz.slotA ∧ t.lz.slotB = s.lz.slotB ∧
      t.fw.bankA = s.fw.bankA ∧ t.fw.bankB = s.fw.bankB ∧ t.fw.fusedSvn = s.fw.fusedSvn ∧ t.sec.lc = s.sec.lc ∧
      t.re.record = s.re.record ∧ t.pending = s.pending) ∧
  (∀ s : State,
    ∃ t, exec .coldRstNAssert s = .next t ∧ t.pins.coldHeld = true ∧ t.pins.pwrGood = s.pins.pwrGood ∧
      t.fw.coldDue = true ∧ powered t = false ∧ t = { s with pins := t.pins, fw := t.fw }) ∧
  (∀ (ok a b : Bool) (straps : Nat) (s : State),
    s.pins.pwrGood = true → s.fw.coldDue = true ∨ s.pins.coldHeld = true → s.pw.degC < 95 →
    ∃ t, exec (.coldReset ok a b straps) s = .next t ∧ t.mem.bytes = [] ∧ t.mem.stores = [] ∧ t.mem.phase = 1 ∧
      t.fw.boot = .rom ∧ t.fw.coldDue = false ∧ t.tick.count = 0 ∧ t.tick.align = .free ∧ t.q.rings = [] ∧
      t.tp.qps = [] ∧ t.pins.accPerst = [0, 1, 2, 3] ∧ t.pins.thermtrip = false ∧ t.gl.resetCause = 0 ∧
      t.sec.lc = s.sec.lc ∧ t.fw.fusedSvn = s.fw.fusedSvn ∧ t.pending = s.pending ∧
      (∀ key, key ≠ Reg.GX_RE_EVENTS → regAt t key = keyReset key)) ∧
  (∀ (ok a b : Bool) (straps : Nat) (s : State),
    s.pins.pwrGood = true → s.fw.coldDue = true ∨ s.pins.coldHeld = true → 95 ≤ s.pw.degC →
    ∃ t, exec (.coldReset ok a b straps) s = .next t ∧ t.pins.hotHold = true ∧ powered t = false ∧
      t = { s with pins := t.pins, fw := t.fw })

/-- FIRMWARE_BOOT (R469, R470): the active bundle boots where it verifies, and the other one where it alone does, which
becomes active and sets FALLBACK; with neither the adapter enters recovery, where no port, instance or ring exists. -/
def Obligations.FirmwareBootChoosesTheBank : Prop :=
  (∀ (x : BootIn) (s : State), powered s = true → s.fw.coldDue = false → s.fw.boot = .rom → s.fw.warmDue = none →
    s.re.captured = [] →
    bankBoots s x s.fw.activeB = true →
    ∃ t, exec (.firmwareBoot x) s = .next t ∧ t.fw.boot = .ready ∧ t.fw.activeB = s.fw.activeB ∧ t.fw.fallback = false) ∧
  (∀ (x : BootIn) (s : State), powered s = true → s.fw.coldDue = false → s.fw.boot = .rom → s.fw.warmDue = none →
    s.re.captured = [] →
    bankBoots s x s.fw.activeB = false → bankBoots s x (!s.fw.activeB) = true →
    ∃ t, exec (.firmwareBoot x) s = .next t ∧ t.fw.boot = .ready ∧ t.fw.activeB = (!s.fw.activeB) ∧ t.fw.fallback = true) ∧
  (∀ (x : BootIn) (s : State), powered s = true → s.fw.coldDue = false → s.fw.boot = .rom → s.fw.warmDue = none →
    s.re.captured = [] →
    bankBoots s x s.fw.activeB = false → bankBoots s x (!s.fw.activeB) = false →
    ∃ t, exec (.firmwareBoot x) s = .next t ∧ t.fw.boot = .recovery ∧ (∀ c ∈ t.lz.run.ports, c.enable = false) ∧
      t.lz.run.insts = [] ∧ t.q.rings = [] ∧ t.mem.phase = 3)

/-- The causes of a warm reset on a running adapter (R379, R462, R471, R486, R543): each leaves the adapter LOADING with its
RESET_CAUSE: 3 a write of GX_CTRL with KEY 0x5A and WARM_RESET 1, 1 an FLR of the physical function, 4 the loss of
the host link, which also removes every ring in host memory and sets HOST_LOST; a write with another KEY changes
nothing.  WARM_RESET, with a warm reset due and the active bundle good, makes the adapter READY again; the tier memories are
as they were (outside PS4), and so are the life cycle and the fuses. -/
def Obligations.WarmResetsAndTheirCauses : Prop :=
  (∀ (value : Word) (s : State), running s = true → s.fw.coldDue = false → value.toNat / 2 ^ 24 = 0x5A → value.getLsbD 0 = true →
    ∃ t, exec (.gxCtrlWarmReset value) s = .next t ∧ t.fw.boot = .loading ∧ t.fw.warmDue = some 3 ∧ t.gl.resetCause = 3 ∧
      t = { s with fw := t.fw, gl := t.gl }) ∧
  (∀ (value : Word) (s : State), value.toNat / 2 ^ 24 ≠ 0x5A → exec (.gxCtrlWarmReset value) s = .next s) ∧
  (∀ s : State, running s = true → s.fw.coldDue = false →
    ∃ t, exec .flrPf s = .next t ∧ t.fw.boot = .loading ∧ t.fw.warmDue = some 1 ∧ t.gl.resetCause = 1 ∧
      t = { s with fw := t.fw, gl := t.gl }) ∧
  (∀ s : State, running s = true → s.fw.coldDue = false → s.fw.warmDue = none →
    ∃ t, exec .hostLinkLoss s = .next t ∧ t.fw.boot = .loading ∧ t.fw.warmDue = some 4 ∧ t.gl.resetCause = 4 ∧
      t.pc.hstUp = false ∧ (rg t Reg.GX_FW_EVENTS).getLsbD 8 = true ∧ t.q.mgmtActive = false ∧
      (∀ e ∈ t.q.rings, e.2.loc ≠ 0)) ∧
  (∀ (x : BootIn) (s : State) (cause : Nat), powered s = true → s.fw.warmDue = some cause → s.pw.ps ≠ .ps4 → s.q.rings = [] →
      s.re.captured = [] →
      bankBoots s x s.fw.activeB = true →
      ∃ t, exec (.warmReset x []) s = .next t ∧ t.fw.boot = .ready ∧ t.fw.warmDue = none ∧ t.mem.bytes = s.mem.bytes ∧
        t.mem.bad = s.mem.bad ∧ t.sec.lc = s.sec.lc ∧ t.fw.fusedSvn = s.fw.fusedSvn ∧ t.tick.count = 0)

/-! ### The tick, its alignment and its reads -/

/-- PTP_LOCK and PTP_LOCK_LOST (R36, R37): a lock takes FREE to ACQUIRE, unless EPOCH_BEHIND bars it, and HOLDOVER to ALIGNED;
its loss takes ALIGNED to HOLDOVER and sets PTP_LOST; nothing but the tick block, its events and interrupts
changes. -/
def Obligations.PtpLockMovesTheAlignment : Prop :=
  (∀ s : State, running s = true → s.fw.restarting ≠ some 2 →
    ∃ t, exec .ptpLock s = .next t ∧ t.tick.ptpLocked = true ∧
      (s.tick.align = .free → s.tick.behind = false → t.tick.align = .acquire) ∧
      (s.tick.align = .free → s.tick.behind = true → t.tick.align = .free) ∧
      (s.tick.align = .holdover → t.tick.align = .aligned) ∧
      (s.tick.align = .acquire → t.tick.align = .acquire) ∧ (s.tick.align = .aligned → t.tick.align = .aligned) ∧
      t = { s with tick := t.tick, regs := t.regs, gl := t.gl, out := t.out }) ∧
  (∀ s : State, powered s = true → s.tick.ptpLocked = true →
    ∃ t, exec .ptpLockLost s = .next t ∧ t.tick.ptpLocked = false ∧ (rg t Reg.GX_TICK_EVENTS).getLsbD 5 = true ∧
      (s.tick.align = .aligned → t.tick.align = .holdover) ∧ (s.tick.align ≠ .aligned → t.tick.align = s.tick.align) ∧
      t = { s with tick := t.tick, regs := t.regs, gl := t.gl, out := t.out })

/-- ALIGN_ACQUIRED, ALIGN_LOST, ALIGN_INPUT_TIMEOUT and HOLDOVER_TIMEOUT (R36, Table 1.4): each transition happens once its
count of ticks is reached, 16, 4, 16 and 512, and not before. -/
def Obligations.AlignmentTransitionsNeedTheirTicks : Prop :=
  (∀ s : State, powered s = true → s.tick.align = .acquire → 16 ≤ s.tick.inTol →
    ∃ t, exec .alignAcquired s = .next t ∧ t.tick.align = .aligned ∧ (rg t Reg.GX_TICK_EVENTS).getLsbD 1 = true) ∧
  (∀ s : State, s.tick.align ≠ .acquire ∨ s.tick.inTol < 16 → exec .alignAcquired s = .next s) ∧
  (∀ s : State, powered s = true → s.tick.align = .aligned ∨ s.tick.align = .holdover → 4 ≤ s.tick.outTol →
    ∃ t, exec .alignLost s = .next t ∧ t.tick.align = .acquire ∧ (rg t Reg.GX_TICK_EVENTS).getLsbD 0 = true) ∧
  (∀ s : State, s.tick.outTol < 4 → exec .alignLost s = .next s) ∧
  (∀ s : State, powered s = true → s.tick.align = .acquire → 16 ≤ s.tick.noInput →
    ∃ t, exec .alignInputTimeout s = .next t ∧ t.tick.align = .free) ∧
  (∀ s : State, s.tick.align ≠ .acquire ∨ s.tick.noInput < 16 → exec .alignInputTimeout s = .next s) ∧
  (∀ s : State, powered s = true → s.tick.align = .holdover → 512 ≤ s.tick.noNbr →
    ∃ t, exec .holdoverTimeout s = .next t ∧ t.tick.align = .free ∧ (rg t Reg.GX_TICK_EVENTS).getLsbD 0 = true) ∧
  (∀ s : State, s.tick.align ≠ .holdover ∨ s.tick.noNbr < 512 → exec .holdoverTimeout s = .next s)

/-- TICK_ALIGN_CELL_RECEIVE and PTP_MESSAGE_RECEIVE (R35, R210, R229): an aligned neighbour's cell on a link in UP puts the
local edge less the arrival, plus the link delay and SEND_DELAY, into the estimate (in thirds of a ns: 3 for a ns, 2
for a clk), an unaligned neighbour's none; the client's offset is taken on its port while it is locked; the PTP
port's link and pulses follow. -/
def Obligations.AlignmentInputs : Prop :=
  (∀ (p : Nat) (pay : BitVec 512) (late : Int) (s : State), running s = true → p < 32 → linkUp s p = true →
    2 ≤ leAt (payBytes pay) 8 1 % 4 →
    ∃ t, exec (.tickAlignCellReceive p pay late) s = .next t ∧
      mapGet t.tick.nbrOffsets p
        = some (late + 3 * ((cport s p).delay : Int) + 2 * ((leAt (payBytes pay) 9 1 % 64 : Nat) : Int)) ∧
      (s.tick.align = .free → s.tick.behind = false → t.tick.align = .acquire)) ∧
  (∀ (p : Nat) (pay : BitVec 512) (late : Int) (s : State), running s = true → p < 32 → linkUp s p = true →
    leAt (payBytes pay) 8 1 % 4 < 2 →
    ∃ t, exec (.tickAlignCellReceive p pay late) s = .next t ∧ t.tick.nbrOffsets = s.tick.nbrOffsets ∧
      t.tick.align = s.tick.align ∧ t = { s with tick := t.tick }) ∧
  (∀ (x : Int) (s : State), running s = true → s.fw.restarting ≠ some 2 → s.pins.ptpPortUp = true → s.tick.ptpLocked = true →
    ∃ t, exec (.ptpMessageReceive 32 (some x)) s = .next t ∧ t.tick.ptpOffset = some x ∧ t = { s with tick := t.tick }) ∧
  (∀ (up : Bool) (s : State), powered s = true → s.fw.boot = .ready →
    ∃ t, exec (.ptpPortLinkChange up) s = .next t ∧ t.pins.ptpPortUp = up ∧
      (s.pins.ptpPortUp = true → up = false → t.tick.ptpLocked = false)) ∧
  (∀ s : State, powered s = true → s.tick.ptpLocked = true →
    ∃ t, exec .ppsPulse s = .next t ∧ t.out = s.out ++ [.ppsOut] ∧ t = { s with pins := t.pins, out := t.out })

/-- TICK_COUNT_LO_READ, INST_TICK_LO_READ and LATCHED_LO_READ (R28, R375, R395, R429, R461, R550): the low word is returned, and the high word of the same moment
goes to the latch of the window or of that page, which the read of the _HI register then returns; nothing else changes. -/
def Obligations.LatchedPairsReadAsOneValue : Prop :=
  (∀ s : State, powered s = true → s.fw.boot ≠ .recovery →
    ∃ t, exec .tickCountLoRead s = .next t ∧
      t.out = s.out ++ [.readData ((s.tick.count.setWidth 32).setWidth 64)] ∧
      regRead t Reg.GX_TICK_COUNT_HI = (s.tick.count >>> 32).setWidth 32 ∧
      t = { s with tick := { s.tick with hiLatch := t.tick.hiLatch }, out := t.out }) ∧
  (∀ (n : Nat) (s : State), running s = true → (inst s n).state ≠ .disabled → n < 512 →
    ∃ t, exec (.instTickLoRead n) s = .next t ∧
      t.out = s.out ++ [.readData ((s.tick.count.setWidth 32).setWidth 64)] ∧
      regRead t (Reg.GX_INST_TICK_HI + 0x10000 * n) = (s.tick.count >>> 32).setWidth 32 ∧
      (∀ m, m ≠ n → mapGet t.tick.pageLatch m = mapGet s.tick.pageLatch m) ∧
      t = { s with tick := { s.tick with pageLatch := t.tick.pageLatch }, out := t.out }) ∧
  (∀ s : State, regRead s Reg.GX_TICK_COUNT_HI = s.tick.hiLatch) ∧ State.reset.tick.hiLatch = 0 ∧
  (∀ (off x : Nat) (s : State), accessed s off = true → pairValue s off = some x → (rg s Reg.GX_VI_INDEX).toNat < 512 →
      (rg s Reg.GX_CE_SLOT_INDEX).toNat < 8192 →
      ∃ t, exec (.latchedLoRead off) s = .next t ∧ t.out = s.out ++ [.readData (BitVec.ofNat 64 (x % 2 ^ 32))] ∧
        regRead t (off + 4) = BitVec.ofNat 32 (x / 2 ^ 32) ∧ t.regs = s.regs ∧ t.mem = s.mem)

/-- TICK_EDGE (R27, R29): the counter rises by one at every edge at which alignment makes no step: before BOOT reads READY,
where nothing else but the wipe and the tick block changes, and in FREE. -/
def Obligations.TickEdgeCounts : Prop :=
  (∀ (reads : NMap (BitVec 128)) (overruns : List (Nat × Nat)) (s : State), powered s = true → s.fw.coldDue = false →
    s.fw.boot ≠ .ready →
    ∃ t, exec (.tickEdge reads overruns) s = .next t ∧ t.tick.count = s.tick.count + 1 ∧
      t.out = s.out ++ [.tickOut (s.tick.count + 1)] ∧ t = { s with tick := t.tick, mem := t.mem, out := t.out } ∧
      t.mem.bytes = s.mem.bytes ∧ t.mem.stores = s.mem.stores) ∧
  (∀ (reads : NMap (BitVec 128)) (overruns : List (Nat × Nat)) (s : State), powered s = true → s.fw.coldDue = false →
    s.fw.boot = .ready → s.tick.align = .free →
    ∃ t, exec (.tickEdge reads overruns) s = .next t ∧ t.tick.count = s.tick.count + 1)

/-- The length of a tick that nothing corrects (R26): PERIOD times 187.5 clk, and for an odd PERIOD the two lengths that lie half a clk beside it, in
turn, the shorter one first after a change of PERIOD; two ticks together always last PERIOD times 375 clk. -/
def Obligations.TickLengthAveragesThePeriod : Prop :=
  (∀ p : Nat, 0 < p → plainTickClk p false + plainTickClk p true = 375 * p ∧ plainTickClk p false = 375 * p / 2 ∧
    plainTickClk p true = (375 * p + 1) / 2) ∧
  (∀ (now : BitVec 64) (s : State), (beginTick now 0 s).tick.lengthClk = plainTickClk (period s) s.tick.longNext ∧
    (beginTick now 0 s).tick.longNext = (period s % 2 == 1 && !s.tick.longNext)) ∧
  (∀ old s : State, period old ≠ period s → (tickResize old s).tick.longNext = (period s % 2 == 1)) ∧
  State.reset.tick.longNext = false

/-! ### Commits -/

/-- COMMIT_WRITE (R67, R68): a write of a commit register whose block's check passes makes the block's pending set of the
shadows as they stand and changes no live value; a failing one keeps every pending set as it was and sets the
block's COMMIT_REJECT. -/
def Obligations.CommitWriteMakesOrRejectsASet : Prop :=
  (∀ (b : CommitBlock) (seq : Word) (s : State), b ∈ commitBlocks → b.block ≠ 0x1 → served s b.reg = true →
    commitBad s (period s) b.block = false →
    ∃ t, exec (.commitWrite b.reg seq) s = .next t ∧ t = { s with commits := t.commits } ∧
      mapGet t.commits b.block = some { seq := seq, vals := commitVals s b.block } ∧
      (∀ k, k ≠ b.block → mapGet t.commits k = mapGet s.commits k)) ∧
  (∀ (b : CommitBlock) (seq : Word) (s : State), b ∈ commitBlocks → served s b.reg = true →
    commitBad s (period s) b.block = true →
    ∃ t, exec (.commitWrite b.reg seq) s = .next t ∧ t.commits = s.commits ∧
      (∀ r, b.reject = some r → (rg t r.1).getLsbD r.2 = true) ∧ t = { s with regs := t.regs, gl := t.gl, out := t.out })

/-- TICK_COMMIT_WRITE and TICK_COMMIT_ACTIVATE (R33, R41): the set waits for the next edge, or with ACTIVATE nonzero for that tick; an ACTIVATE that the counter has
reached, a PERIOD outside 4 to 64 or a GUARD that does not fit is rejected; once the count has reached its tick the set takes effect: the commit register
returns its number and the anchor pair is the activation tick and the live EPOCH; before that tick nothing happens. -/
def Obligations.TickCommitWaitsForItsTick : Prop :=
  (∀ (seq : Word) (s : State), served s Reg.GX_TICK_COMMIT = true → commitBad s (period s) 0x1 = false →
    ∃ t, exec (.tickCommitWrite seq) s = .next t ∧ t = { s with commits := t.commits } ∧
      mapGet t.commits 0x1 = some { seq := seq, vals := commitVals s 0x1, atTick := activateTick s }) ∧
  (∀ (seq : Word) (s v : State), served s Reg.GX_TICK_COMMIT = true → v = makeLive (commitVals s 0x1) s →
    (activateTick s ≠ 0 ∧ (activateTick s).toNat ≤ s.tick.count.toNat) ∨ period v < 4 ∨ 64 < period v ∨
      guardFits (period v) (guardClk v) = false →
    ∃ t, exec (.tickCommitWrite seq) s = .next t ∧ t.commits = s.commits ∧ (rg t Reg.GX_TICK_EVENTS).getLsbD 3 = true) ∧
  (∀ (c : CommitSet) (s : State), powered s = true → s.commits = [(0x1, c)] → c.atTick ≠ 0 → c.vals = [] →
    c.atTick.toNat ≤ s.tick.count.toNat →
    ∃ t, exec .tickCommitActivate s = .next t ∧ t.commits = [] ∧ rg t Reg.GX_TICK_COMMIT = c.seq ∧
      t.tick.anchorTick = c.atTick ∧
      t.tick.anchorTime = rg s Reg.GX_TICK_EPOCH_HI ++ rg s Reg.GX_TICK_EPOCH_LO ∧ t.tick.behind = false) ∧
  (∀ (c : CommitSet) (s : State), s.commits = [(0x1, c)] → s.tick.count.toNat < c.atTick.toNat →
    exec .tickCommitActivate s = .next s)

/-- COMMIT_MULTI (R546): the blocks whose bits are written get their sets in one group when every check passes; when one
fails none of them does, and REJECTED names the failing blocks. -/
def Obligations.GroupCommitIsAllOrNothing : Prop :=
  (∀ (v : Word) (s : State), served s Reg.GX_COMMIT_MULTI = true → v.getLsbD 0 = false →
    (∀ i b, commitBlocks[i]? = some b → v.getLsbD i = true → commitBad s (period s) b.block = false) →
    (∃ i, i < 9 ∧ v.getLsbD i = true) →
    ∃ t, exec (.commitMulti v) s = .next t ∧ t.gl.rejected = 0 ∧ t.regs = s.regs ∧
      ∀ i b, commitBlocks[i]? = some b → v.getLsbD i = true →
        mapGet t.commits b.block
          = some { seq := rg s Reg.GX_COMMIT_MULTI_SEQ, vals := commitVals s b.block, group := true }) ∧
  (∀ (v : Word) (s : State) (i : Nat) (b : CommitBlock), served s Reg.GX_COMMIT_MULTI = true → v.getLsbD 0 = false →
    commitBlocks[i]? = some b → v.getLsbD i = true → commitBad s (period s) b.block = true →
    ∃ t, exec (.commitMulti v) s = .next t ∧ t.commits = s.commits ∧ t.gl.rejected.testBit i = true)

/-- COMMIT_APPLY (R67): a pending set of the memory, queue, transport or cell-fabric block that waits for the next edge becomes
live whole: each listed register holds the set's committed bits and keeps its other bits, every other register but
the commit register keeps its value, and the commit register returns the set's number. -/
def Obligations.CommitAppliesTheWholeSet : Prop :=
  ∀ (b : CommitBlock) (c : CommitSet) (s : State), b ∈ commitBlocks → b.block ∈ [0x4, 0x5, 0x6, 0x7] → powered s = true →
    s.commits = [(b.block, c)] → c.atTick = 0 → mapSorted c.vals → (∀ e ∈ c.vals, e.1 ≠ b.reg) →
    (∀ e ∈ c.vals, blockOf e.1 = b.block) →
    ∃ t, exec .commitApply s = .next t ∧ t.commits = [] ∧ rg t b.reg = c.seq ∧
      (∀ e ∈ c.vals, regAt t e.1 = (regAt s e.1 &&& ~~~(cmtMask e.1)) ||| (e.2 &&& cmtMask e.1)) ∧
      (∀ k, k ≠ b.reg → (∀ e ∈ c.vals, e.1 ≠ k) → regAt t k = regAt s k) ∧
      t = { s with regs := t.regs, commits := [] }

/-! ### Registers and interrupts -/

/-- REGISTER_WRITE (R5, R67, R540, R544) of a register of the window that has no index and no row of its own: its CMT bits stay
live as they are and go to the shadow, its other bits follow their access types, and no other register changes; a
write that does not enable all bytes of its unit changes nothing, and neither does a write of the management rings' bases
and sizes while ACTIVE is 1 (R133). -/
def Obligations.RegisterWriteFollowsTheAccessTypes : Prop :=
  (∀ (off : Nat) (i : RegInfo) (v : Word) (s : State), off < 0x04000000 → off % 4 = 0 → served s off = true →
    regInfo off = some i → i.ix = [] → ownRow s off v = false → mgmtHeld s off = false → positionOk off 0 = true →
    ∃ t, exec (.registerWrite off v true) s = .next t ∧ regAt t off = writtenLive i (regAt s off) v ∧
      (i.cmt ≠ 0 → shadowAt t off = (shadowAt s off &&& ~~~i.cmt) ||| (v &&& i.cmt)) ∧
      (∀ k, k ≠ off → regAt t k = regAt s k ∧ shadowAt t k = shadowAt s k) ∧
      t = { s with regs := t.regs, shadows := t.shadows }) ∧
  (∀ (off : Nat) (v : Word) (s : State), exec (.registerWrite off v false) s = .next s) ∧
  (∀ (off : Nat) (v : Word) (full : Bool) (s : State), mgmtHeld s off = true → exec (.registerWrite off v full) s = .next s)

/-- What the access types do to single bits of a written register (R5, Table 0.4): RW and RWS bits take the written bit, W1C
bits are cleared by a 1 and kept by a 0, and every other bit is kept. -/
def Obligations.AccessTypesBitByBit : Prop :=
  ∀ (i : RegInfo) (old v : Word) (k : Nat), k < 32 → i.w1s = 0 → i.w1c &&& (i.rw ||| i.rws) = 0 →
    ((i.rw ||| i.rws).getLsbD k = true → (writtenLive i old v).getLsbD k = v.getLsbD k) ∧
    (i.w1c.getLsbD k = true → (writtenLive i old v).getLsbD k = (old.getLsbD k && !v.getLsbD k)) ∧
    ((i.rw ||| i.rws ||| i.w1c).getLsbD k = false → (writtenLive i old v).getLsbD k = old.getLsbD k)

/-- INT_ENABLE_WRITE and MSIX_VECTOR_UNMASK (R548, R551): enabling an asserted source of the window or of a page makes its
vector pending while MSI-X is masked; unmasking a pending vector of an unmasked function sends its message, with the
table's address and data, and clears its pending bit; unmasking the function lets it send. -/
def Obligations.EnablingAndUnmaskingInterrupts : Prop :=
  (∀ (v : Word) (src : Nat) (s : State), served s Reg.GX_INT_ENABLE = true → s.gl.msixOn = [] → src < 19 →
    v.getLsbD src = true → (rg s Reg.GX_INT_ENABLE).getLsbD src = false → sourceAsserted s src = true →
    ∃ t, exec (.intEnableWrite none v) s = .next t ∧ rg t Reg.GX_INT_ENABLE = v &&& 0x7FFFF ∧
      wfld (rg s (Reg.GX_INT_VECTOR + 4 * src)) 5 0 ∈ t.gl.msixPending ∧
      t = { s with regs := t.regs, gl := t.gl }) ∧
  (∀ (n bit : Nat) (v : Word) (s : State), accessed s (pageKey Reg.GX_INST_INT_ENABLE n) = true → s.gl.msixOn = [] →
    bit < 4 → v.getLsbD bit = true → (regAt s (pageKey Reg.GX_INST_INT_ENABLE n)).getLsbD bit = false →
    (regAt s (pageKey Reg.GX_INST_INT_STATUS n)).getLsbD bit = true →
    wfld (regAt s (pageKey Reg.GX_INST_INT_VECTOR n)) (8 * bit + 5) (8 * bit) < msixVectors n →
    ∃ t, exec (.intEnableWrite (some n) v) s = .next t ∧
      64 * n + wfld (regAt s (pageKey Reg.GX_INST_INT_VECTOR n)) (8 * bit + 5) (8 * bit) ∈ t.gl.msixPending) ∧
  (∀ (fn v : Nat) (s : State), powered s = true → s.fw.boot = .ready → (inst s fn).state ≠ .disabled →
    v < msixVectors fn → fn ∈ s.gl.msixOn → 64 * fn + v ∈ s.gl.msixPending →
    ∃ t, exec (.msixVectorUnmask fn (some v)) s = .next t ∧
      t.out = s.out ++ [.msix fn v (msixWord s fn v 1 ++ msixWord s fn v 0) (msixWord s fn v 2)] ∧
      64 * fn + v ∉ t.gl.msixPending ∧ t = { s with gl := t.gl, out := t.out }) ∧
  (∀ (fn : Nat) (s : State), powered s = true → s.fw.boot = .ready → (inst s fn).state ≠ .disabled →
    ∃ t, exec (.msixVectorUnmask fn none) s = .next t ∧ fn ∈ t.gl.msixOn)

/-! ### Lanzil images and bonded Flocks -/

/-- LZ_VERIFY, LZ_PARTIAL and LZ_FULL (R61, R62): the physical function's write with a staged image and no action running
starts the action, with STATE VERIFYING; while one runs, the write leaves it running and reads RESULT BUSY; another
requester's write changes nothing.  With STAGE_LEN 0 the action ends with BAD_HEADER. -/
def Obligations.LanzilActionsStartOnce : Prop :=
  (∀ (c : Instr) (kind : Nat) (s : State), (c, kind) ∈ [(.lzVerify 0, 1), (.lzPartial 0, 2), (.lzFull 0, 3)] →
    running s = true → s.lz.action = 0 → rg s Reg.GX_LZ_STAGE_LEN ≠ 0 →
    ∃ t, exec c s = .next t ∧ rg t Reg.GX_LZ_STATUS = 1 ∧
      eventsOnly { s with lz := { s.lz with action := kind } } t [Reg.GX_LZ_STATUS]) ∧
  (∀ (c : Instr) (s : State), c ∈ [.lzVerify 0, .lzPartial 0, .lzFull 0] → running s = true → s.lz.action ≠ 0 →
    ∃ t, exec c s = .next t ∧ wfld (rg t Reg.GX_LZ_STATUS) 15 8 = 8 ∧ eventsOnly s t [Reg.GX_LZ_STATUS]) ∧
  (∀ (c : Instr) (s : State), c ∈ [.lzVerify 0, .lzPartial 0, .lzFull 0] → running s = true → s.lz.action = 0 →
    rg s Reg.GX_LZ_STAGE_LEN = 0 →
    ∃ t, exec c s = .next t ∧ wfld (rg t Reg.GX_LZ_STATUS) 15 8 = 1 ∧ wfld (rg t Reg.GX_LZ_STATUS) 2 0 = 3) ∧
  (∀ (c : Instr) (r : Nat) (s : State), r ≠ 0 → c ∈ [.lzVerify r, .lzPartial r, .lzFull r] → exec c s = .next s)

/-- LZ_ACTION_END (R59, R61, R73): an image whose signatures fail ends the action with BAD_RSA or BAD_MLDSA and changes no
structure; a verified image ends VERIFY with OK; a verified partial image of ports alone is held for its edge; a verified full image becomes the
boot image in the slot that did not hold it, and the adapter is LOADING with RESET_CAUSE 2. -/
def Obligations.LanzilActionsEndByTheCheck : Prop :=
  (∀ (image : List Byte) (v : Verdict) (s : State), running s = true → s.lz.action ≠ 0 → s.lz.held = none →
    image.length = (rg s Reg.GX_LZ_STAGE_LEN).toNat → lzHeaderBad image = false →
    (s.lz.action = 2 → lzPartial image = true) → (s.lz.action = 3 → lzPartial image = false) → v.rsa = false →
    ∃ t, exec (.lzActionEnd image v) s = .next t ∧ wfld (rg t Reg.GX_LZ_STATUS) 15 8 = 2 ∧
      wfld (rg t Reg.GX_LZ_STATUS) 2 0 = 3 ∧ (rg t Reg.GX_LZ_EVENTS).getLsbD 0 = true ∧
      (rg t Reg.GX_LZ_EVENTS).getLsbD 1 = true ∧
      eventsOnly { s with lz := { s.lz with action := 0 } } t [Reg.GX_LZ_STATUS, Reg.GX_LZ_EVENTS]) ∧
  (∀ (image : List Byte) (v : Verdict) (s : State), running s = true → s.lz.action = 1 → s.lz.held = none →
    image.length = (rg s Reg.GX_LZ_STAGE_LEN).toNat → actionCheck image v s = none →
    ∃ t, exec (.lzActionEnd image v) s = .next t ∧ rg t Reg.GX_LZ_STATUS = 3 ∧ (rg t Reg.GX_LZ_EVENTS).getLsbD 0 = true ∧
      eventsOnly { s with lz := { s.lz with action := 0 } } t [Reg.GX_LZ_STATUS, Reg.GX_LZ_EVENTS]) ∧
  (∀ (image : List Byte) (v : Verdict) (s : State), running s = true → s.lz.action = 2 → s.lz.held = none →
    image.length = (rg s Reg.GX_LZ_STAGE_LEN).toNat → actionCheck image v s = none →
    ∃ t, exec (.lzActionEnd image v) s = .next t ∧ t.lz.held.map Reload.next = some (parseImage image s.lz.run) ∧
      t = { s with lz := { s.lz with held := t.lz.held } }) ∧
  (∀ (image : List Byte) (v : Verdict) (s : State), running s = true → s.lz.action = 3 → s.lz.held = none →
    image.length = (rg s Reg.GX_LZ_STAGE_LEN).toNat → actionCheck image v s = none →
    ∃ t, exec (.lzActionEnd image v) s = .next t ∧ t.lz.newestB = (!s.lz.newestB) ∧
      (if s.lz.newestB then t.lz.slotA = image ∧ t.lz.slotB = s.lz.slotB
       else t.lz.slotB = image ∧ t.lz.slotA = s.lz.slotA) ∧
      t.fw.boot = .loading ∧ t.fw.warmDue = some 2 ∧ t.gl.resetCause = 2 ∧ t.lz.run = s.lz.run)

/-- PARTIAL_RELOAD_APPLY (R63, R64, R66): an emergency holds the reload with STATE PENDING; a tree that touches a busy Flock is
turned away and leaves the structure; a reload of ports alone, while PTP runs on its own port, makes the new structure the running one at the edge, with result OK,
and leaves the tick block and the memory as they are. -/
def Obligations.PartialReloadAtItsEdge : Prop :=
  (∀ (r : Reload) (s : State), running s = true → s.lz.held = some r → s.pw.emergency = true →
    ∃ t, exec .partialReloadApply s = .next t ∧ rg t Reg.GX_LZ_STATUS = 2 ∧ t.lz = s.lz ∧
      eventsOnly s t [Reg.GX_LZ_STATUS]) ∧
  (∀ (r : Reload) (e : LzErr) (s : State), running s = true → s.lz.held = some r → s.pw.emergency = false → r.tree = true →
    reloadErr s r.next = some e → e.result ≠ 0 →
    ∃ t, exec .partialReloadApply s = .next t ∧ (rg t Reg.GX_LZ_EVENTS).getLsbD 1 = true ∧
      eventsOnly { s with lz := { s.lz with action := 0, held := none } } t [Reg.GX_LZ_STATUS, Reg.GX_LZ_EVENTS]) ∧
  (∀ (r : Reload) (s : State), running s = true → s.lz.held = some r → s.pw.emergency = false → r.tree = false →
    r.tick = none → s.pins.ptpPortUp = true →
    ∃ t, exec .partialReloadApply s = .next t ∧ t.lz.run = r.next ∧ t.lz.held = none ∧ t.lz.action = 0 ∧
      rg t Reg.GX_LZ_STATUS = 3 ∧ (rg t Reg.GX_LZ_EVENTS).getLsbD 0 = true ∧ t.mem = s.mem ∧ t.vi = s.vi ∧
      t.tick = s.tick ∧ t.commits = s.commits)

/-- Bonded Flocks (R58, R70, R71): BOND_FORM forms a bonded Flock once a cell link is up; a member's acknowledgement takes it
from those the action waits for; after 256 tk without one the member is fenced at its coordinate in the fence table;
and a member that receives a fence fences the Flock and acknowledges. -/
def Obligations.BondsFormAndAct : Prop :=
  (∀ (flock : Nat) (f : Flock) (b : LzBond) (s : State), running s = true → upPorts s ≠ [] → s.lz.formed.contains flock = false →
    flockOf s.lz.run flock = some f → bondOf s f = some b →
    exec (.bondForm flock) s = .next { s with lz := { s.lz with formed := s.lz.formed ++ [flock] } }) ∧
  (∀ (flock member : Nat) (u : UnitAction) (s : State), running s = true → s.lz.unitActions = [u] → u.flock = flock →
    member ∈ u.waiting → u.kind = .reset →
    ∃ t, exec (.bondActionAck flock member) s = .next t ∧
      t.lz.unitActions = [{ u with waiting := u.waiting.filter (· != member) }]) ∧
  (∀ (flock member node unit : Nat) (u : UnitAction) (s : State), running s = true → s.lz.unitActions = [u] → u.flock = flock →
    member ∈ u.waiting → u.sentAt.toNat + 256 ≤ s.tick.count.toNat → u.kind = .reset →
    s.cf.fences = [] →
    ∃ t, exec (.bondAckTimeout flock member node unit) s = .next t ∧
      (∃ i e, mapGet t.cf.fences i = some e ∧ e.node = node ∧ e.unit = unit ∧ e.state = 2) ∧
      t.lz.fencedMembers = s.lz.fencedMembers ++ [(((flockOf s.lz.run flock).map (·.bond)).getD 0, member)] ∧
      (∀ a ∈ t.lz.unitActions, a.degraded = true ∧ member ∉ a.waiting)) ∧
  (∀ (flock : Nat) (f : Flock) (b : LzBond) (s : State), running s = true → flockOf s.lz.run flock = some f →
    bondOf s f = some b → b.index ≠ 0 →
    ∃ t, exec (.bondUnitActionReceive flock .fence) s = .next t ∧ flock ∈ t.lz.fenced ∧
      t.out = s.out ++ [.unitAck flock .fence] ∧ t = { s with lz := { s.lz with fenced := t.lz.fenced }, out := t.out })

/-! ### Memory -/

/-- The ends of the memory block's own work (R112, R119, R121 to R123, R126): each takes what has ended from the work that runs, sets
its event, and changes nothing else; a scrub pass adds what it corrected to GX_MEM_CE_CNT. -/
def Obligations.MemoryBlockWorkEnds : Prop :=
  (∀ s : State, powered s = true → s.mem.phase ≠ 0 →
    ∃ t, exec .wipeDone s = .next t ∧ (rg t Reg.GX_MEM_EVENTS).getLsbD 0 = true ∧
      eventsOnly { s with mem := { s.mem with phase := 0, t2Clean := 1024 } } t [Reg.GX_MEM_EVENTS]) ∧
  (∀ (g : Nat) (s : State), powered s = true → g ∈ s.mem.wiping →
    exec (.granuleWipeDone g) s = .next { s with mem := { s.mem with wiping := s.mem.wiping.filter (· != g) } }) ∧
  (∀ (n : Nat) (s : State), running s = true → rg s Reg.GX_MEM_SCRUB ≠ 0 → 0 < n →
    (rg s Reg.GX_MEM_CE_CNT).toNat + n < 2 ^ 32 →
    ∃ t, exec (.scrubPass n) s = .next t ∧ (rg t Reg.GX_MEM_CE_CNT).toNat = (rg s Reg.GX_MEM_CE_CNT).toNat + n ∧
      (rg t Reg.GX_MEM_EVENTS).getLsbD 1 = true ∧ eventsOnly s t [Reg.GX_MEM_EVENTS, Reg.GX_MEM_CE_CNT]) ∧
  (∀ (bank : Nat) (s : State), running s = true → bank ∈ s.mem.rowBusy →
    ∃ t, exec (.rowRepairDone bank) s = .next t ∧ (rg t Reg.GX_MEM_EVENTS).getLsbD 3 = true ∧
      eventsOnly { s with mem := { s.mem with rowBusy := s.mem.rowBusy.filter (· != bank) } } t [Reg.GX_MEM_EVENTS]) ∧
  (∀ (stack pc : Nat) (s : State), running s = true → (stack, pc) ∈ s.mem.pcRun →
    ∃ t, exec (.pcSwapComplete stack pc) s = .next t ∧ (stack, pc) ∈ t.re.now.pcs ∧ (stack, pc) ∈ t.re.record.pcs ∧
      (rg t Reg.GX_MEM_EVENTS).getLsbD 4 = true ∧ t.mem.bytes = s.mem.bytes ∧
      eventsOnly { s with mem := { s.mem with pcRun := t.mem.pcRun }, re := t.re } t [Reg.GX_MEM_EVENTS]) ∧
  (∀ (frame : Nat) (s : State), running s = true → frame ∈ s.mem.frameRun →
    ∃ t, exec (.frameRetireRedirect frame) s = .next t ∧ frame ∈ t.re.now.frames ∧ frame ∈ t.re.record.frames ∧
      (rg t Reg.GX_MEM_EVENTS).getLsbD 5 = true ∧ t.mem.bytes = s.mem.bytes ∧
      eventsOnly { s with mem := { s.mem with frameRun := t.mem.frameRun }, re := t.re } t [Reg.GX_MEM_EVENTS])

/-! ### Translation -/

/-- INVALIDATE, INVALIDATE_COMPLETE and WALK_COMPLETE (R91, R99, R101): from acceptance on every cached translation of the scope is dying,
so that no lookup of the scope hits it, the others stand, and walks that run under it fill nothing; it completes OK once none of what
it marked is in use, and what it marked is gone; a walk that reaches a large leaf fills the L2 with it, then its operation goes on. -/
def Obligations.InvalidatesAndWalks : Prop :=
  (∀ (slot : Nat) (o : Op) (s : State), working s = true → waitsAt s slot 0x12 o → o.started = false →
    ∃ t, exec (.invalidate slot) s = .next t ∧
      (∀ e ∈ s.xl.l2, inScope (ef o.entry 16 1) (ef o.entry 17 3 % 2 ^ 20) (ef o.entry 24 8) (ef o.entry 20 4) e = true →
        { e with dying := true } ∈ t.xl.l2) ∧
      (∀ e ∈ s.xl.l2, inScope (ef o.entry 16 1) (ef o.entry 17 3 % 2 ^ 20) (ef o.entry 24 8) (ef o.entry 20 4) e = false →
        e ∈ t.xl.l2) ∧
      (ef o.entry 16 1 = 0 → ∀ va, ef o.entry 24 8 ≤ va → va < ef o.entry 24 8 + 4096 * ef o.entry 20 4 →
        l2Find t (ef o.entry 17 3 % 2 ^ 20) va = none) ∧
      (ef o.entry 16 1 = 1 → ∀ va, l2Find t (ef o.entry 17 3 % 2 ^ 20) va = none) ∧
      (ef o.entry 16 1 = 2 → (∀ sp va, l2Find t sp va = none) ∧ t.xl.spaceCache = [] ∧ t.xl.walkCache = [] ∧
        ∀ w ∈ t.xl.walks, w.2.stale = true) ∧
      t = { s with xl := t.xl, q := t.q } ∧ (∀ r, r ≠ 0 → ringOf t r = ringOf s r)) ∧
  (∀ (slot : Nat) (o : Op) (v : Inval) (s : State), working s = true → waitsAt s slot 0x12 o →
    s.xl.invals.find? (fun v => v.slot == slot) = some v → invalDone s v = true → v.zero = false →
    ∃ t, exec (.invalidateComplete slot) s = .next t ∧ endsWith t 0 slot stOk ∧
      (∀ e ∈ t.xl.l2, e.id ∉ v.marked) ∧ (∀ x ∈ t.xl.invals, x.slot ≠ slot) ∧
      t = { s with xl := t.xl, q := t.q }) ∧
  (∀ (n : Nat) (reads : NMap (BitVec 128)) (w : Walk) (e : XlEntry) (tables : List (Nat × Nat × BitVec 64)) (s : State),
    working s = true → mapGet s.xl.walks n = some w → w.stale = false → s.xl.walks.length < 32 → s.xl.l2.length < 16 →
    walkVa s w.space w.inst w.va reads = .leaf e tables → 16 < e.size →
    ∃ s', exec (.walkComplete n reads) s = .next (progressRun w.owner s') ∧ mapGet s'.xl.walks n = none ∧
      (∃ x ∈ s'.xl.l2, x.space = e.space ∧ x.vbase = e.vbase ∧ x.size = e.size ∧ x.node = e.node ∧ x.offset = e.offset ∧
        x.read = e.read ∧ x.write = e.write ∧ x.atomic = e.atomic ∧ x.dying = e.dying) ∧
      s' = { s with xl := s'.xl })

/-! ### Reliability -/

/-- ERROR_DETECTED, CV_SELF_TEST_DONE and STALE_REQUEST_DISCARD (R120, R121, R515, R518, R519, R528, R533): a passed retry is a transient
fault, counted and logged; an uncorrectable tier-1 error with a spare row left marks its codeword and starts a row repair;
while Bantam 5 restarts the error is captured; one without a lasting action is fatal and its dump begins; a failed self-test
fences the unit; a stale request is counted. -/
def Obligations.ErrorsAreClassified : Prop :=
  (∀ (x : ErrorIn) (s : State), running s = true → s.re.dumping = false → x.cls ∈ [4, 5, 7, 8, 9, 11, 12, 14] →
    bantamBusy s 5 = false → x.retryOk = true →
    ∃ t, exec (.errorDetected x) s = .next t ∧ counted s t Reg.GX_RE_TRANSIENT_CNT 1 ∧
      (rg t Reg.GX_RE_EVENTS).getLsbD 0 = true ∧
      (∃ e, mapGet t.re.log s.re.logHead = some e ∧ e.partClass = x.cls ∧ e.kind = x.kind ∧ e.index = x.index ∧
        e.outcome = 0 ∧ e.action = 0 ∧ e.tick = s.tick.count) ∧
      t.re.logHead = (s.re.logHead + 1) % 256 ∧ t.re.now = s.re.now ∧ t.re.record = s.re.record ∧
      eventsOnly { s with re := t.re } t [Reg.GX_RE_EVENTS, Reg.GX_RE_TRANSIENT_CNT]) ∧
  (∀ (x : ErrorIn) (s : State), running s = true → s.re.dumping = false → x.cls = 2 → x.kind = 1 → x.retryOk = false →
    bantamBusy s 5 = false → rowsUsed s 2 x.bank < 4 →
    ∃ t, exec (.errorDetected x) s = .next t ∧ x.detail / 32 ∈ t.mem.bad ∧ x.bank ∈ t.mem.rowBusy ∧
      t.re.record.rows = s.re.now.rows ++ [(2, x.bank)] ∧ counted s t Reg.GX_MEM_UE_CNT 1 ∧
      counted s t Reg.GX_RE_LASTING_CNT 1 ∧ (rg t Reg.GX_MEM_EVENTS).getLsbD 2 = true ∧
      (rg t Reg.GX_RE_EVENTS).getLsbD 1 = true ∧ t.mem.bytes = s.mem.bytes ∧ t.mem.stores = s.mem.stores) ∧
  (∀ (x : ErrorIn) (s : State), running s = true → s.re.dumping = false → x.cls ∈ [4, 5, 7, 8, 9, 11, 12, 14] →
    bantamBusy s 5 = true → alreadyCaptured x s = false →
    exec (.errorDetected x) s = .next { s with re := { s.re with captured := s.re.captured ++ [.raw x] } }) ∧
  (∀ (x : ErrorIn) (s : State), running s = true → s.re.dumping = false → x.cls = 14 → bantamBusy s 5 = false →
    x.retryOk = false → s.re.fatalTimes = [] →
    ∃ t, exec (.errorDetected x) s = .next t ∧ t.re.dumping = true ∧ t.re.dumpState = 1 ∧ t.gl.fatalHalt = false ∧
      counted s t Reg.GX_RE_FATAL_CNT 1 ∧ (rg t Reg.GX_RE_EVENTS).getLsbD 6 = true) ∧
  (∀ (unit : Nat) (s : State), running s = true → (cvUnit s unit).testing = true → bantamBusy s 5 = false →
    ∃ t, exec (.cvSelfTestDone unit false) s = .next t ∧ unit ∈ t.re.now.fencedCvu ∧ unit ∈ t.re.record.fencedCvu ∧
      (cvUnit t unit).testing = false ∧ partEpoch t (96 + unit) = (partEpoch s (96 + unit) + 1) % 16 ∧
      (rg t Reg.GX_RE_EVENTS).getLsbD 3 = true ∧ counted s t Reg.GX_RE_LASTING_CNT 1) ∧
  (∀ (unit : Nat) (s : State), running s = true → (cvUnit s unit).testing = true → bantamBusy s 5 = false →
    ∃ t, exec (.cvSelfTestDone unit true) s = .next t ∧ t.re.now = s.re.now ∧ (cvUnit t unit).testing = false ∧
      counted s t Reg.GX_RE_TRANSIENT_CNT 1) ∧
  (∀ (part epoch : Nat) (s : State), running s = true → partEpoch s part ≠ epoch % 16 →
    ∃ t, exec (.staleRequestDiscard part epoch) s = .next t ∧ counted s t Reg.GX_RE_STALE_CNT 1 ∧
      (rg t Reg.GX_RE_EVENTS).getLsbD 4 = true ∧ eventsOnly s t [Reg.GX_RE_EVENTS, Reg.GX_RE_STALE_CNT])

/-- CORE_SWAP_BEGIN, CORE_SWAP_COMPLETE, DUMP_REGION, DUMP_COMPLETE and DUMP_TIMEOUT (R521, R533, R535, R537): a swap raises the
core's epoch and copies, then the spare serves the core, whose L1 is empty; a host region of 4 MiB is registered; the dump goes to it while
the host link is up, and a warm reset with cause 6 follows; a dump that runs out of time is LOST. -/
def Obligations.SparesAndDumps : Prop :=
  (∀ (w : CoreSwap) (s : State), working s = true → s.re.swap = some w → w.copying = false →
    ∃ t, exec .coreSwapBegin s = .next t ∧ t.re.swap = some { w with copying := true } ∧
      partEpoch t w.lk = (partEpoch s w.lk + 1) % 16 ∧
      t = { s with re := { s.re with swap := t.re.swap, epochs := t.re.epochs } }) ∧
  (∀ (w : CoreSwap) (s : State), working s = true → s.re.swap = some w → w.copying = true → s.re.coreQueue = [] →
    ∃ t, exec .coreSwapComplete s = .next t ∧ t.re.swap = none ∧ t.re.now.spareMap = some w.lk ∧
      w.px ∈ t.re.now.fencedCores ∧ t.re.record.spareMap = some w.lk ∧ (∀ e ∈ t.xl.l1, e.1 ≠ w.lk) ∧
      (rg t Reg.GX_RE_EVENTS).getLsbD 2 = true ∧ t.mem = s.mem ∧
      eventsOnly { s with re := t.re, xl := { s.xl with l1 := t.xl.l1 } } t [Reg.GX_RE_EVENTS]) ∧
  (∀ (slot : Nat) (o : Op) (s : State), working s = true → waitsAt s slot 0x1D o → ef o.entry 28 1 = 1 →
    0x400000 ≤ ef o.entry 24 4 → s.re.dumpState ≠ 3 →
    ∃ t, exec (.dumpRegion slot) s = .next t ∧ endsWith t 0 slot stOk ∧ t.re.dumpReg.hostValid = true ∧
      t.re.dumpReg.hostAddr = BitVec.ofNat 64 (ef o.entry 16 8) ∧ t.re.dumpReg.tierValid = false ∧
      t = { s with re := { s.re with dumpReg := t.re.dumpReg }, q := t.q }) ∧
  (∀ (slot : Nat) (o : Op) (s : State), working s = true → waitsAt s slot 0x1D o → ef o.entry 28 1 = 1 →
    ef o.entry 24 4 < 0x400000 →
    ∃ t, exec (.dumpRegion slot) s = .next t ∧ endsWith t 0 slot stAborted ∧ t = { s with q := t.q }) ∧
  (∀ (x : DumpIn) (s : State), powered s = true → s.re.dumping = true → s.re.dumpReg.hostValid = true → s.pc.hstUp = true →
    x.hostOk = true → s.gl.fatalHalt = false → s.fw.coldDue = false → s.fw.boot = .ready →
    ∃ t, exec (.dumpComplete x) s = .next t ∧ t.re.dumping = false ∧ t.re.dumpState = 2 ∧ t.fw.warmDue = some 6 ∧
      t.fw.boot = .loading ∧ t.gl.resetCause = 6 ∧ (rg t Reg.GX_RE_EVENTS).getLsbD 7 = true ∧
      (∃ l, t.out = s.out ++ .busWrite 0 s.re.dumpReg.hostAddr (dumpBytes x s) :: .flushRead 0 :: l) ∧ t.mem = s.mem) ∧
  (∀ s : State, powered s = true → s.re.dumping = true →
    ∃ t, exec .dumpTimeout s = .next t ∧ t.re.dumping = false ∧ t.re.dumpState = 4 ∧
      (rg t Reg.GX_RE_EVENTS).getLsbD 8 = true ∧ t.mem = s.mem)

/-! ### Rings -/

/-- MGMT_ENABLE, MGMT_DISABLE, RING_REGISTER and RING_SHUTDOWN (R131 to R133, R157): the management rings take their bases and sizes of 3 to
12; another size sets MGMT_INVALID and registers none; disabling removes both; a ring that R132 does not refuse is
registered as its entry says; a CQ that no ring uses and an SQ without work are removed. -/
def Obligations.RingsAreRegisteredAndRemoved : Prop :=
  (∀ (v : Word) (s : State), running s = true → s.q.mgmtActive = false → (rg s Reg.GX_Q_MGMT_CTRL).getLsbD 0 = false →
    v.getLsbD 0 = true → 3 ≤ wfld v 8 5 → wfld v 8 5 ≤ 12 → 3 ≤ wfld v 12 9 → wfld v 12 9 ≤ 12 →
    ∃ t, exec (.mgmtEnable v) s = .next t ∧ t.q.mgmtActive = true ∧
      (∃ g, ringOf t 0 = some g ∧ g.kind = .sq ∧ g.loc = 0 ∧ g.log2 = wfld v 8 5 ∧ g.cq = 1 ∧ g.polled = true ∧
        g.base = rg s Reg.GX_Q_MGMT_SQ_HI ++ rg s Reg.GX_Q_MGMT_SQ_LO) ∧
      (∃ g, ringOf t 1 = some g ∧ g.kind = .cq ∧ g.loc = 0 ∧ g.log2 = wfld v 12 9 ∧
        g.base = rg s Reg.GX_Q_MGMT_CQ_HI ++ rg s Reg.GX_Q_MGMT_CQ_LO) ∧
      eventsOnly { s with q := t.q } t [Reg.GX_Q_MGMT_CTRL]) ∧
  (∀ (v : Word) (s : State), running s = true → s.q.mgmtActive = false → (rg s Reg.GX_Q_MGMT_CTRL).getLsbD 0 = false →
    v.getLsbD 0 = true → (wfld v 8 5 < 3 ∨ 12 < wfld v 8 5 ∨ wfld v 12 9 < 3 ∨ 12 < wfld v 12 9) →
    ∃ t, exec (.mgmtEnable v) s = .next t ∧ t.q = s.q ∧ (rg t Reg.GX_Q_EVENTS).getLsbD 4 = true ∧
      eventsOnly s t [Reg.GX_Q_MGMT_CTRL, Reg.GX_Q_EVENTS]) ∧
  (∀ (entries : List (BitVec 512)) (s : State), running s = true → (rg s Reg.GX_Q_MGMT_CTRL).getLsbD 0 = true →
    s.q.mgmtActive = true →
    ∃ t, exec (.mgmtDisable entries) s = .next t ∧ t.q.mgmtActive = false ∧ ringOf t 0 = none ∧ ringOf t 1 = none ∧
      (rg t Reg.GX_Q_MGMT_CTRL).getLsbD 0 = false) ∧
  (∀ (slot : Nat) (o : Op) (s : State), working s = true → waitsAt s slot 0x10 o →
    registerRefused s (ringFromEntry slot o.entry).1 (ringFromEntry slot o.entry).2 = false →
    ringCount s (ringFromEntry slot o.entry).2.inst
      < wfld (rgi s Reg.GX_VI_QUOTA_RINGS (ringFromEntry slot o.entry).2.inst) 14 0 →
    ∃ t, exec (.ringRegister slot) s = .next t ∧ endsWith t 0 slot stOk ∧
      ringOf t (ringFromEntry slot o.entry).1 = some (ringFromEntry slot o.entry).2 ∧
      (inst t (ringFromEntry slot o.entry).2.inst).ringed = true ∧
      (∀ r, r ≠ 0 → r ≠ (ringFromEntry slot o.entry).1 → ringOf t r = ringOf s r) ∧
      t = { s with q := t.q, vi := t.vi }) ∧
  (∀ (slot : Nat) (o : Op) (s : State), working s = true → waitsAt s slot 0x10 o →
    registerRefused s (ringFromEntry slot o.entry).1 (ringFromEntry slot o.entry).2 = true →
    ∃ t, exec (.ringRegister slot) s = .next t ∧ endsWith t 0 slot stAborted ∧
      (∀ r, r ≠ 0 → ringOf t r = ringOf s r) ∧ t = { s with q := t.q }) ∧
  (∀ (slot : Nat) (o : Op) (g : Ring) (entries : List (BitVec 512)) (owns : List Bool) (failed : Bool) (s : State),
    working s = true → waitsAt s slot 0x11 o → ringOf s (ef o.entry 16 2 % 2 ^ 15) = some g → g.kind = .cq →
    (∀ x ∈ s.q.rings, x.2.kind ≠ .cq → x.2.cq ≠ ef o.entry 16 2 % 2 ^ 15) →
    ∃ t, exec (.ringShutdown slot entries owns failed) s = .next t ∧ endsWith t 0 slot stOk ∧
      ringOf t (ef o.entry 16 2 % 2 ^ 15) = none ∧ t = { s with q := t.q }) ∧
  (∀ (slot : Nat) (o : Op) (g : Ring) (s : State), working s = true → waitsAt s slot 0x11 o → mapSorted s.q.rings →
    ringOf s (ef o.entry 16 2 % 2 ^ 15) = some g → g.kind = .sq → g.ops = [] → g.fetched = none → g.loc = 0 →
    g.shutting = none → (inst s g.inst).state = .ready → 2 ≤ ef o.entry 16 2 % 2 ^ 15 → s.tp.runs = [] → s.kn.kernels = [] →
    s.hd.herds = [] →
    ∃ t, exec (.ringShutdown slot [] [] false) s = .next t ∧ endsWith t 0 slot stOk ∧
      ringOf t (ef o.entry 16 2 % 2 ^ 15) = none)

/-- SQ_POLL, CQ_RESERVATION_CHECK, DOORBELL, ENTRY_ACCEPT and COMPLETION_RELEASE (R138 to R142, R148 to R154): a poll that finds OWN 1 holds the entry
and restores the interval, one that finds OWN 0 backs off up to the maximum; both use the budget; a check that finds OWN 1 reserves
the slot; a doorbell of the instance's own SQ makes it due and a bad one is counted; a sound entry is accepted in order, a malformed one
halts its instance; a completion is written behind its OWN byte, which is written last before the entry is returned. -/
def Obligations.EntriesGoThroughRings : Prop :=
  (∀ (r : Nat) (entry : BitVec 512) (failed : Bool) (g : Ring) (s : State), working s = true → ringOf s r = some g → 2 ≤ r →
    sqServed s r g = true → g.reserved = true → g.fetched = none → s.q.issued = [] → 0 < s.q.budget →
    slotReadFails s g (g.nextFetch % ringSize g) 64 failed = false →
    ∃ t g', exec (.sqPoll r entry failed) s = .next t ∧ counted s t Reg.GX_Q_POLL_CNT 1 ∧ t.q.budget = s.q.budget - 1 ∧
      ringOf t r = some g' ∧
      ((slotRead s g (g.nextFetch % ringSize g) entry).getLsbD 0 = true →
        g' = { g with interval := g.pollInt, doorbell := false,
                      fetched := some (slotRead s g (g.nextFetch % ringSize g) entry) }) ∧
      ((slotRead s g (g.nextFetch % ringSize g) entry).getLsbD 0 = false → g.doorbell = false →
        g' = { g with interval := min g.maxInt (if g.interval = 0 then 1 else 2 * g.interval) }) ∧
      (∀ k, k ≠ r → ringOf t k = ringOf s k) ∧ t = { s with q := t.q, regs := t.regs }) ∧
  (∀ (r : Nat) (own failed : Bool) (g c : Ring) (s : State), working s = true → ringOf s r = some g → 2 ≤ r →
    sqServed s r g = true → g.reserved = false → ringOf s g.cq = some c → g.cq ≠ r → s.q.issued = [] → 0 < s.q.budget →
    slotReadFails s c (c.resNext % ringSize c) 32 failed = false → cqOwn s c (c.resNext % ringSize c) own = true →
    ∃ t, exec (.cqReservationCheck r own failed) s = .next t ∧ ringOf t r = some { g with reserved := true } ∧
      ringOf t g.cq = some { c with resNext := c.resNext + 1 } ∧ t.q.budget = s.q.budget - 1) ∧
  (∀ (n r : Nat) (g : Ring) (s : State), running s = true → (inst s n).state ≠ .disabled → ringOf s (r % 32768) = some g →
    g.inst = n → g.kind = .sq →
    ∃ t, exec (.doorbell n r) s = .next t ∧ ringOf t (r % 32768) = some { g with doorbell := true } ∧ t.regs = s.regs) ∧
  (∀ (n r : Nat) (s : State), running s = true → (inst s n).state ≠ .disabled →
    (∀ g, ringOf s (r % 32768) = some g → g.inst ≠ n ∨ g.kind = .rq) →
    ∃ t, exec (.doorbell n r) s = .next t ∧ counted s t Reg.GX_Q_DOORBELL_BAD_CNT 1 ∧
      (rg t Reg.GX_Q_EVENTS).getLsbD 3 = true ∧ eventsOnly s t [Reg.GX_Q_EVENTS, Reg.GX_Q_DOORBELL_BAD_CNT]) ∧
  (∀ (r : Nat) (e : BitVec 512) (g : Ring) (s : State), working s = true → ringOf s r = some g → g.fetched = some e →
    g.reserved = true → bantamBusy s 1 = false → (inst s g.inst).state = .ready → bondWaits s g.inst = false →
    e.getLsbD 1 = true → e.getLsbD 2 = true → entryReason s r g e = none → entryOpcode e ≠ 9 → 7 < entryOpcode e →
    ∃ t g', exec (.entryAccept r) s = .next t ∧ ringOf t r = some g' ∧ g'.nextFetch = g.nextFetch + 1 ∧
      g'.reserved = false ∧ g'.fetched = none ∧ g'.openChain = none ∧
      g'.ops = g.ops ++ [{ slot := g.nextFetch % ringSize g, entry := e, head := g.nextFetch % ringSize g }] ∧
      t = { s with q := t.q } ∧ (∀ k, k ≠ r → ringOf t k = ringOf s k)) ∧
  (∀ (r reason : Nat) (e : BitVec 512) (g : Ring) (s : State), working s = true → 2 ≤ r → ringOf s r = some g →
    g.fetched = some e → g.reserved = true → bantamBusy s 1 = false → (inst s g.inst).state = .ready →
    bondWaits s g.inst = false → entryReason s r g e = some reason →
    ∃ t, exec (.entryAccept r) s = .next t ∧ (inst t g.inst).state = .halted ∧ (inst t g.inst).reason = reason ∧
      (rg t Reg.GX_Q_EVENTS).getLsbD 0 = true) ∧
  (∀ (r : Nat) (o : Op) (c : Completion) (g q : Ring) (s : State), working s = true → 2 ≤ r → ringOf s r = some g →
    headReady g = some (o, c) → (inst s g.inst).state ≠ .halted → ringOf s g.cq = some q → g.cq ≠ r → g.loc = 0 →
    q.loc = 0 → s.pc.hstUp = true →
    ∃ t, exec (.completionRelease r false) s = .next t ∧
      t.out = s.out ++
        [.busWrite 0 (BitVec.ofNat 64 (q.base.toNat + 32 * (q.wrNext % ringSize q) + 1)) ((completionBytes r o c).drop 1),
         .busWrite 0 (BitVec.ofNat 64 (q.base.toNat + 32 * (q.wrNext % ringSize q))) ((completionBytes r o c).take 1),
         .busWrite 0 (BitVec.ofNat 64 (g.base.toNat + 64 * o.slot)) (leBytes 1 (ef o.entry 0 1 / 2 * 2))] ∧
      (∃ g', ringOf t r = some g' ∧ g'.ops = g.ops.drop 1 ∧ g'.nextDone = g.nextDone + 1) ∧
      t = { s with q := t.q, out := t.out })

/-! ### Queue pairs and operations -/

/-- QP_CREATE, QP_MODIFY and QP_DESTROY (R162 to R165): a creation that R163 does not refuse makes the context of its body, in READY;
a refused one changes no context; RECONNECT leaves ERROR or MOVED_WAIT with the new bases; TIMERS changes the timers and the
window alone; ERROR puts a READY queue pair into ERROR; DESTROY frees the context of an idle one. -/
def Obligations.QueuePairsAreMadeChangedAndFreed : Prop :=
  (∀ (slot : Nat) (o : Op) (remote : BitVec 256) (failed : Bool) (s : State), working s = true → waitsAt s slot 0x13 o →
    qpRefused s (entryQpn o.entry) (qpBody o.entry) = false → isRoce (qpBody o.entry) = false →
    qpCount s (qpBody o.entry).inst < wfld (rgi s Reg.GX_VI_QUOTA_QPS (qpBody o.entry).inst) 16 0 →
    ∃ t, exec (.qpCreate slot remote failed) s = .next t ∧ endsWith t 0 slot stOk ∧
      qpOf t (entryQpn o.entry) = some (qpBody o.entry) ∧ (qpBody o.entry).state = .ready ∧
      (∀ n, n ≠ entryQpn o.entry → qpOf t n = qpOf s n) ∧ t = { s with tp := { s.tp with qps := t.tp.qps }, q := t.q }) ∧
  (∀ (slot : Nat) (o : Op) (remote : BitVec 256) (failed : Bool) (s : State), working s = true → waitsAt s slot 0x13 o →
    qpRefused s (entryQpn o.entry) (qpBody o.entry) = true →
    ∃ t, exec (.qpCreate slot remote failed) s = .next t ∧ endsWith t 0 slot stAborted ∧ t = { s with q := t.q }) ∧
  (∀ (slot : Nat) (o : Op) (q : Qp) (remote : BitVec 256) (failed : Bool) (s : State), working s = true → waitsAt s slot 0x14 o →
    ef o.entry 16 1 = 1 → qpOf s (entryQpn o.entry) = some q → q.herd = none → q.state ≠ .ready → isRoce q = false →
    ∃ t q', exec (.qpModifyReconnect slot remote failed) s = .next t ∧ endsWith t 0 slot stOk ∧
      qpOf t (entryQpn o.entry) = some q' ∧ q'.state = .ready ∧ q'.nextMsn = msnBase (ef o.entry 32 4) ∧
      q'.expected = msnBase (ef o.entry 36 4) ∧ q'.winBits = [] ∧ q'.statuses = [] ∧ q'.recvs = [] ∧ q'.typ = q.typ ∧
      q'.access = q.access ∧ q'.sq = q.sq ∧ q'.rq = q.rq ∧ q'.inst = q.inst ∧
      (∀ e ∈ t.tp.recs, e.2.qpn ≠ entryQpn o.entry) ∧ (∀ e ∈ t.tp.msgs, e.2.qpn ≠ entryQpn o.entry)) ∧
  (∀ (slot : Nat) (o : Op) (q : Qp) (s : State), working s = true → waitsAt s slot 0x14 o → ef o.entry 16 1 = 2 →
    qpOf s (entryQpn o.entry) = some q → q.herd = none →
    ∃ t, exec (.qpModifyTimers slot) s = .next t ∧ endsWith t 0 slot stOk ∧
      qpOf t (entryQpn o.entry) = some
        { q with rto := ef o.entry 40 1, retry := ef o.entry 41 1 % 16, rnrDelay := ef o.entry 42 1
                 rnrLimit := ef o.entry 43 1, window := ef o.entry 44 2 } ∧
      (∀ n, n ≠ entryQpn o.entry → qpOf t n = qpOf s n) ∧ t = { s with tp := { s.tp with qps := t.tp.qps }, q := t.q }) ∧
  (∀ (slot : Nat) (o : Op) (q : Qp) (s : State), working s = true → waitsAt s slot 0x14 o → ef o.entry 16 1 = 3 →
    qpOf s (entryQpn o.entry) = some q → q.herd = none → q.state = .ready → q.sq ≠ 0 → q.recvs = [] →
    (∀ e ∈ s.tp.runs, e.2.ring ≠ 0) →
    ∃ t q', exec (.qpModifyError slot) s = .next t ∧ endsWith t 0 slot stOk ∧ qpOf t (entryQpn o.entry) = some q' ∧
      q'.state = .error ∧ (rg t Reg.GX_TP_EVENTS).getLsbD 0 = true) ∧
  (∀ (slot : Nat) (o : Op) (q : Qp) (s : State), working s = true → waitsAt s slot 0x15 o →
    qpOf s (entryQpn o.entry) = some q → q.herd = none → qpBusy s (entryQpn o.entry) q = false →
    ∃ t, exec (.qpDestroy slot) s = .next t ∧ endsWith t 0 slot stOk ∧ qpOf t (entryQpn o.entry) = none ∧
      (∀ n, n ≠ entryQpn o.entry → qpOf t n = qpOf s n))

/-- WRITE, READ, SEND, ATOMIC, WRITE_REDUCE, ATTN and FENCE (R166, R169, R185, R186): an operation that may start becomes a run with the
tiles of its entry, a SEND with the next SSN, and goes on from there; a WRITE, READ or WRITE_REDUCE of no bytes completes OK at once; on
a queue pair in ERROR it completes with RETRY_EXCEEDED; a FENCE completes once every earlier entry has. -/
def Obligations.OperationsStart : Prop :=
  (∀ (c : Instr) (code : Nat) (kind : RunKind) (ring slot : Nat) (o : Op) (g : Ring) (q : Qp) (s : State),
    (c, code, kind) ∈ [(.write ring slot, 1, .write), (.read ring slot, 2, .read), (.send ring slot, 3, .send),
      (.atomic ring slot, 4, .atomic), (.writeReduce ring slot, 5, .writeReduce), (.attn ring slot, 6, .attn)] →
    working s = true → mayStartOp s ring slot = some o → ringOf s ring = some g → entryOpcode o.entry = code →
    qpOf s (entryQpn o.entry) = some q → q.state = .ready → saSpent s (entrySa o.entry) = false →
    (code = 1 → tierSlot s (entrySa o.entry) = none) → (code ∈ [1, 2, 5] → entryLength o.entry ≠ 0) →
    ∃ s' r, exec c s = .next (progressRun (opKey ring slot) s') ∧ runOf s' (opKey ring slot) = some r ∧ r.kind = kind ∧
      r.ring = ring ∧ r.slot = o.slot ∧ r.qpn = entryQpn o.entry ∧ r.inst = q.inst ∧ r.space = g.space ∧
      r.tiles = (makeRun s ring g o q kind).tiles ∧
      (code = 3 → r.ssn = q.sendSsn ∧ qpOf s' (entryQpn o.entry) = some { q with sendSsn := q.sendSsn + 1 }) ∧
      (code ≠ 3 → qpOf s' (entryQpn o.entry) = some q) ∧ s' = { s with q := s'.q, tp := s'.tp }) ∧
  (∀ (c : Instr) (code : Nat) (ring slot : Nat) (o : Op) (q : Qp) (s : State),
    (c, code) ∈ [(.write ring slot, 1), (.read ring slot, 2), (.writeReduce ring slot, 5)] → working s = true →
    mayStartOp s ring slot = some o → opAt s ring slot = some o → entryOpcode o.entry = code →
    qpOf s (entryQpn o.entry) = some q → q.state = .ready → saSpent s (entrySa o.entry) = false → (code = 1 → tierSlot s (entrySa o.entry) = none) → entryLength o.entry = 0 →
    ∃ t, exec c s = .next t ∧ endsWith t ring slot stOk ∧ t = { s with q := t.q }) ∧
  (∀ (c : Instr) (code : Nat) (ring slot : Nat) (o : Op) (q : Qp) (s : State),
    (c, code) ∈ [(.read ring slot, 2), (.send ring slot, 3), (.atomic ring slot, 4), (.writeReduce ring slot, 5),
      (.attn ring slot, 6)] → working s = true → mayStartOp s ring slot = some o → opAt s ring slot = some o →
    entryOpcode o.entry = code →
    qpOf s (entryQpn o.entry) = some q → q.state = .error →
    ∃ t, exec c s = .next t ∧ endsWith t ring slot stRetryExceeded ∧ t = { s with q := t.q }) ∧
  (∀ (ring slot : Nat) (g : Ring) (o : Op) (q : Qp) (rest : List Op) (s : State), working s = true → ringOf s ring = some g →
    g.ops = o :: rest → o.slot = slot → o.head = slot → entryOpcode o.entry = 7 → o.done = none → o.malformed = none →
    g.shutting = none → instFinishes s g.inst = true → qpOf s (entryQpn o.entry) = some q → q.state = .ready →
    ∃ t, exec (.fence ring slot) s = .next t ∧ endsWith t ring slot stOk ∧ t = { s with q := t.q }) ∧
  (∀ (ring slot : Nat) (g : Ring) (o x : Op) (q : Qp) (rest : List Op) (s : State), working s = true → ringOf s ring = some g →
    g.ops = x :: o :: rest → x.slot ≠ slot → o.slot = slot → o.head = slot → entryOpcode o.entry = 7 → x.done = none →
    entryOpcode x.entry ≤ 7 → entryQpn x.entry = entryQpn o.entry → qpOf s (entryQpn o.entry) = some q → q.state = .ready →
    exec (.fence ring slot) s = .next s)

/-- The tiles of a transfer (R94, R167): they cover its bytes without a gap, both addresses in step; none is empty, none crosses a 256 KiB boundary of the
source or, where the destination is an address of the local SPACE or of a peer, of the destination, nor a 128 KiB boundary of the finer side. -/
def Obligations.TilesCoverTheTransfer : Prop :=
  ∀ (src dst len : Nat) (dstVa : Bool) (fine : Option Nat),
    (((cutTransfer (cutFuel len) src dst len dstVa fine).map (·.len)).sum = len) ∧
    (∀ (i : Nat) (t : Tile), (cutTransfer (cutFuel len) src dst len dstVa fine)[i]? = some t →
      t.src = src + (((cutTransfer (cutFuel len) src dst len dstVa fine).take i).map (·.len)).sum ∧
      t.dst = dst + (((cutTransfer (cutFuel len) src dst len dstVa fine).take i).map (·.len)).sum ∧
      0 < t.len ∧ t.src % 0x40000 + t.len ≤ 0x40000 ∧ (dstVa = true → t.dst % 0x40000 + t.len ≤ 0x40000) ∧
      (∀ a, fine = some a → (a + (t.src - src)) % 0x20000 + t.len ≤ 0x20000))

/-! ### Kernels -/

/-- DECODE_ATTN, PREFILL_APPEND, KV_GATHER, TIER_MOVE, ATTN_KERNEL_START, WORK_ITEM_END and KERNEL_COMPLETE (R341, R362, R364, R370): an entry that may
start becomes a kernel with its sequence list, and none of its items has ended; an ATTN's kernel starts at the responder, or fails
REMOTE_ACCESS; an item of a move adds the bytes it moved; a kernel whose items have ended completes OK, with its BYTES and WORK. -/
def Obligations.KernelsStartWorkAndComplete : Prop :=
  (∀ (c : Instr) (kind ring slot : Nat) (reads : NMap (BitVec 128)) (o : Op) (g : Ring) (d : KSeq) (ds : List KSeq) (s s' : State),
    (c, kind) ∈ [(.decodeAttn ring slot reads, 1), (.prefillAppend ring slot reads, 2), (.kvGather ring slot reads, 3)] →
    working s = true → mayStartOp s ring slot = some o → ringOf s ring = some g → entryOpcode o.entry = 8 →
    ef o.entry 32 1 = kind → readSeqs (newKernel ring slot kind g o) reads s = .ok s' (.ok (d :: ds)) →
    (kernelItems { newKernel ring slot kind g o with seqs := d :: ds }).any (fun x => x.1 == 0) = true →
    ∃ t, exec c s = .next t ∧
      mapGet t.kn.kernels (opKey ring slot) = some { newKernel ring slot kind g o with seqs := d :: ds } ∧
      t = { s' with kn := t.kn, q := t.q }) ∧
  (∀ (ring slot : Nat) (o : Op) (g : Ring) (s : State), working s = true → mayStartOp s ring slot = some o →
    ringOf s ring = some g → entryOpcode o.entry = 8 → ef o.entry 32 1 = 4 →
    ∃ t, exec (.tierMove ring slot) s = .next t ∧ mapGet t.kn.kernels (opKey ring slot) = some (newKernel ring slot 4 g o) ∧
      t = { s with kn := t.kn, q := t.q }) ∧
  (∀ (qpn msn kind plen len : Nat) (rest : List (Nat × Nat × Nat)) (reads : NMap (BitVec 128)) (q : Qp) (r : RespRec) (s : State),
    working s = true → qpOf s qpn = some q → respOf s qpn msn = some r → r.runs = (kind, plen, len) :: rest → q.state = .ready →
    msn ≤ q.expected → r.kind = 8 → r.ready = false → instFinishes s q.inst = true →
    mapGet s.kn.kernels (rxOwner qpn msn) = none → packetRoom s len = true → 4 < kind →
    ∃ t k, exec (.attnKernelStart qpn msn reads) s = .next t ∧ mapGet t.kn.kernels (rxOwner qpn msn) = some k ∧
      k.attn = some (qpn, msn) ∧ k.inst = q.inst ∧ k.len = len ∧ k.fail = some (0xFFFF, stRemoteAccess, 0, 0) ∧
      t = { s with kn := t.kn }) ∧
  (∀ (qpn msn kind plen len : Nat) (rest : List (Nat × Nat × Nat)) (reads : NMap (BitVec 128)) (q : Qp) (r : RespRec) (s : State),
    working s = true → qpOf s qpn = some q → respOf s qpn msn = some r → r.runs = (kind, plen, len) :: rest → q.state = .ready →
    msn ≤ q.expected → r.kind = 8 → r.ready = false → instFinishes s q.inst = true →
    mapGet s.kn.kernels (rxOwner qpn msn) = none → packetRoom s len = false →
    ∃ t, exec (.attnKernelStart qpn msn reads) s = .next t ∧ (rg t Reg.GX_AT_EVENTS).getLsbD 1 = true ∧
      eventsOnly s t [Reg.GX_AT_EVENTS]) ∧
  (∀ (key item engine n : Nat) (reads : NMap (BitVec 128)) (k : Kernel) (w : Nat × Nat × Nat) (s s' : State), working s = true →
    mapGet s.kn.kernels key = some k → kernelKey k = key → k.kind = 4 → (kernelItems k)[item]? = some w →
    item = k.done.length → k.done.contains item = false → itemWanted k w.1 = true → instFinishes s k.inst = true →
    engineOk s k engine = true → moveItem { k with core := some (engine / 8) } item reads s = .ok s' n →
    ∃ t, exec (.workItemEnd key item engine reads) s = .next t ∧
      mapGet t.kn.kernels key = some { k with done := k.done ++ [item], bytes := k.bytes + n } ∧ t = { s' with kn := t.kn }) ∧
  (∀ (key : Nat) (k : Kernel) (o : Op) (s : State), working s = true → mapGet s.kn.kernels key = some k → k.attn = none →
    k.stopped = none → k.fail = none → k.force = 0 → kernelOver k = true → opAt s k.ring k.slot = some o → o.head = k.slot →
    o.done = none →
    ∃ t, exec (.kernelComplete key) s = .next t ∧ mapGet t.kn.kernels key = none ∧ endsWith t k.ring k.slot stOk ∧
      counted s t Reg.GX_AT_DONE_CNT 1) ∧
  (∀ (key qpn msn : Nat) (k : Kernel) (r : RespRec) (s : State), working s = true → mapGet s.kn.kernels key = some k →
    k.attn = some (qpn, msn) → k.stopped = none → k.fail = none → k.force = 0 → kernelOver k = true →
    respOf s qpn msn = some r →
    ∃ t r', exec (.kernelComplete key) s = .next t ∧ mapGet t.kn.kernels key = none ∧ respOf t qpn msn = some r' ∧
      r'.ready = true ∧ r'.data = k.held ∧ r'.status = stOk ∧ r'.aux = k.work + 0xFFFF * 2 ^ 32)

/-! ### Cells -/

/-- What comes before a transport cell is taken (R202, R223): a standalone cell or a train head from a fenced source is counted and
nothing else of the fabric changes; a sound head lets its train's cells in; a cell of a train whose head was discarded changes neither
memory nor a queue pair. -/
def Obligations.SourcesAreCheckedFirst : Prop :=
  (∀ (port : Nat) (hdr : BitVec 96) (pay : BitVec 512) (s : State), cellsIn s port = true → (readHdr hdr).form = 1 →
    slotCheck s (readHdr hdr) = 0 → trainBad (readHdr hdr) pay = false →
    ∃ t, exec (.trainReceive port hdr pay) s = .next t ∧ (cport t port).train = some (hdr, pay) ∧
      (cport t port).trainOk = true ∧ t.mem = s.mem ∧ t.tp = s.tp) ∧
  (∀ (port : Nat) (hdr : BitVec 96) (pay : BitVec 512) (s : State), cellsIn s port = true → (readHdr hdr).form = 1 →
    slotCheck s (readHdr hdr) = 2 →
    ∃ t, exec (.trainReceive port hdr pay) s = .next t ∧ (cport t port).trainOk = false ∧
      counted s t Reg.GX_CF_FENCED_DROP_CNT 1 ∧ t.mem = s.mem ∧ t.tp = s.tp) ∧
  (∀ (c : Instr) (port kind : Nat) (hdr : BitVec 96) (pay : BitVec 512) (s : State),
    (c, kind) ∈ [(.readReqReceive port (.cell hdr pay), 3), (.atomicReqReceive port (.cell hdr pay), 5),
      (.attnReqReceive port (.cell hdr pay), 7), (.ackReceive port (.cell hdr pay), 9)] →
    cellsIn s port = true → (readHdr hdr).form = 0 → (readHdr hdr).kind = kind → slotCheck s (readHdr hdr) = 3 →
    ∃ t, exec c s = .next t ∧ counted s t Reg.GX_CF_STALE_EPOCH_CNT 1 ∧ t.mem = s.mem ∧ t.tp = s.tp ∧ t.q = s.q) ∧
  (∀ (c : Instr) (port kind k : Nat) (hdr : BitVec 96) (head pay : BitVec 512) (s : State),
    (c, kind) ∈ [(.dataCellReceive port (.train k pay), 0), (.reduceCellReceive port (.train k pay), 1),
      (.sendCellReceive port (.train k pay) {}, 2)] → cellsIn s port = true →
    (cport s port).train = some (hdr, head) → (cport s port).trainOk = false →
    ∃ t, exec c s = .next t ∧ t.mem = s.mem ∧ t.tp = s.tp ∧ t.q = s.q)

/-- DATA_CELL_RECEIVE, REDUCE_CELL_RECEIVE and SEND_CELL_RECEIVE (R166, R172, R176 to R178, R335), for the first cell of a message of several cells: the record
notes it, and its bytes go to the node offset of its ADDR, a REDUCE's after the reduction with what stood there, and to no other byte; the
queue pair stands.  A SEND's tail tells its length and IMM to the entry of its SSN. -/
def Obligations.DataCellsReachMemory : Prop :=
  (∀ (port : Nat) (slot : SlotIn) (c : CellIn) (q : Qp) (s : State), cellsIn s port = true → slotGives s port 0 slot c →
    NewCell s c q → 0 < c.cnt → tierOpen s (c.addr / 2 ^ 41) (c.addr % 2 ^ 41) c.fill → c.fill ≤ 64 →
    ∃ t r, exec (.dataCellReceive port slot) s = .next t ∧ recOf t c.dqpn (rxMsn q c) = some r ∧ r.got = [c.idx] ∧
      r.cnt = c.cnt ∧ r.status = 0 ∧ r.bytes = c.fill ∧ qpOf t c.dqpn = some q ∧
      (∀ i, i < c.fill → byteAt t.mem.bytes (c.addr % 2 ^ 41 + i) = (payBytes c.pay).getD i 0) ∧
      (∀ a, a < c.addr % 2 ^ 41 ∨ c.addr % 2 ^ 41 + c.fill ≤ a → byteAt t.mem.bytes a = byteAt s.mem.bytes a) ∧
      t.mem.stores = s.mem.stores) ∧
  (∀ (port : Nat) (slot : SlotIn) (c : CellIn) (q : Qp) (s : State), cellsIn s port = true → slotGives s port 1 slot c →
    NewCell s c q → 0 < c.cnt → tierOpen s c.dstNode (c.addr % 2 ^ 41) c.fill → c.fill ≤ 64 → reduceBad c = false →
    (∀ a, badAt s a = false ∧ withdrawnAt s a = false) →
    ∃ t r, exec (.reduceCellReceive port slot) s = .next t ∧ recOf t c.dqpn (rxMsn q c) = some r ∧ r.got = [c.idx] ∧
      r.status = 0 ∧ qpOf t c.dqpn = some q ∧
      t.mem.bytes = bytesSet s.mem.bytes (c.addr % 2 ^ 41)
        (reduceBytes (fld c.addr 56 49) (fld (fld c.addr 48 41) 3 0) (fld (fld c.addr 48 41) 6 6 == 1)
          (bytesAt s.mem.bytes (c.addr % 2 ^ 41) c.fill) ((payBytes c.pay).take c.fill)).1 (fun _ => true)) ∧
  (∀ (port : Nat) (slot : SlotIn) (x : RecvReads) (c : CellIn) (q : Qp) (e : RecvEntry) (s : State), cellsIn s port = true →
    slotGives s port 2 slot c → NewCell s c q → c.cnt = 1 → c.tail = true → q.herd = none → q.rq ≠ 0 → q.recvs = [e] →
    e.ssn = q.recvSsn → extend 16 q.recvSsn (c.addr % 2 ^ 16) = q.recvSsn → e.fault = none → e.len = 0 →
    tailReserved false (payBytes c.pay) = false → leAt (payBytes c.pay) 0 4 = 0 →
    ∃ t r q', exec (.sendCellReceive port slot x) s = .next t ∧ recOf t c.dqpn (rxMsn q c) = some r ∧ r.got = [c.idx] ∧
      r.ssn = q.recvSsn ∧ r.imm = leAt (payBytes c.pay) 4 4 ∧ qpOf t c.dqpn = some q' ∧
      q'.recvs.map (fun e => (e.ssn, e.total, e.imm)) = [(q.recvSsn, some 0, leAt (payBytes c.pay) 4 4)] ∧
      t.mem.bytes = s.mem.bytes)

/-- The last cell of a message (R176, R177, R180, R181): a DATA message of one cell, at EXPECTED, leaves no record, EXPECTED one higher, no status, and one more
ACK among the control cells; a duplicate is counted and writes no memory; an ATTN request's message leaves the response record of a kernel that has not run. -/
def Obligations.WholeMessagesAdvanceTheWindow : Prop :=
  (∀ (port : Nat) (slot : SlotIn) (c : CellIn) (q : Qp) (u : Nat × Nat × Nat) (s : State), cellsIn s port = true →
    slotGives s port 0 slot c → NewCell s c q → c.cnt = 0 → c.idx = 0 →
    tierOpen s (c.addr / 2 ^ 41) (c.addr % 2 ^ 41) c.fill → c.fill ≤ 64 → rxMsn q c = q.expected → q.winBits = [] →
    q.statuses = [] → q.herd = none → s.pc.acc = [] → instUnit s q.inst = some u → q.peerQpn < 65536 →
    ∃ t q' h p, exec (.dataCellReceive port slot) s = .next t ∧ recOf t c.dqpn (rxMsn q c) = none ∧
      qpOf t c.dqpn = some q' ∧ q'.expected = q.expected + 1 ∧ q'.winBits = [] ∧ q'.statuses = [] ∧
      t.tp.control = s.tp.control ++ [⟨q.peerNode, q.peerUnit, h, p, some c.dqpn⟩] ∧ (readHdr h).kind = 9 ∧
      (∀ i, i < c.fill → byteAt t.mem.bytes (c.addr % 2 ^ 41 + i) = (payBytes c.pay).getD i 0)) ∧
  (∀ (port : Nat) (slot : SlotIn) (c : CellIn) (q : Qp) (s : State), cellsIn s port = true → slotGives s port 0 slot c →
    qpOf s c.dqpn = some q → q.peerNode = c.srcNode → q.peerUnit = c.srcUnit → q.typ ≤ 1 → q.state = .ready →
    (inst s q.inst).state = .ready → rxMsn q c < q.expected →
    ∃ t, exec (.dataCellReceive port slot) s = .next t ∧ counted s t Reg.GX_TP_DUP_CNT 1 ∧ t.mem = s.mem ∧
      qpOf t c.dqpn = some q ∧ t.tp.recs = s.tp.recs) ∧
  (∀ (port : Nat) (slot : SlotIn) (c : CellIn) (q : Qp) (s : State), cellsIn s port = true → slotGives s port 7 slot c →
    NewCell s c q → c.cnt = 0 → c.idx = 0 → requestBad c = false → q.herd = none → s.pc.acc = [] →
    ∃ t r, exec (.attnReqReceive port slot) s = .next t ∧ recOf t c.dqpn (rxMsn q c) = none ∧
      respOf t c.dqpn (rxMsn q c) = some r ∧ r.kind = 8 ∧ r.ready = false ∧
      r.runs = [(leAt (payBytes c.pay) 0 1, leAt (payBytes c.pay) 2 2, leAt (payBytes c.pay) 4 4)] ∧ t.mem = s.mem)

/-- READ_REQ_RECEIVE, ATOMIC_REQ_RECEIVE, READ_EXECUTE and ATOMIC_PERFORM (R168, R171, R176): a request of one cell is recorded and waits for its execution; the
execution of a READ makes a response with the bytes as they stand, that of an ATOMIC writes the new value and keeps the prior one as its
result; both complete the message.  MISSING_NACK_SEND asks for what has not come, and RECORD_TIMEOUT frees a quiet incomplete record. -/
def Obligations.RequestsAreRecordedAndExecuted : Prop :=
  (∀ (c' : SlotIn → Instr) (port kind : Nat) (slot : SlotIn) (c : CellIn) (q : Qp) (s : State),
    (kind = 3 ∧ c' = .readReqReceive port) ∨ (kind = 5 ∧ c' = .atomicReqReceive port) → cellsIn s port = true →
    slotGives s port kind slot c → NewCell s c q → c.cnt = 0 → c.idx = 0 → requestBad c = false →
    (kind = 3 → runRejected s (leAt (payBytes c.pay) 0 8) (leAt (payBytes c.pay) 8 4) = false) →
    (kind = 5 → accessStatus s (leAt (payBytes c.pay) 0 8 / 2 ^ 41) (leAt (payBytes c.pay) 0 8 % 2 ^ 41) = 0) →
    ∃ t r, exec (c' slot) s = .next t ∧ recOf t c.dqpn (rxMsn q c) = some r ∧ r.got = [0] ∧ r.pays = [(0, c.pay)] ∧
      r.status = 0 ∧ r.executed = false ∧ qpOf t c.dqpn = some q ∧ t.mem = s.mem) ∧
  (∀ (qpn msn : Nat) (r : RxRec) (p : BitVec 512) (bs : List Byte) (s : State), working s = true →
    mayExecute s qpn msn 3 = some r → r.pays = [(0, p)] → readRuns s (rxOwner qpn msn) [readRun p] = some (bs, 0) →
    qpSlot s qpn 0 = none → s.pc.acc = [] → r.qpn = qpn → r.msn = msn →
    ∃ t x, exec (.readExecute qpn msn) s = .next t ∧ respOf t qpn msn = some x ∧ x.kind = 4 ∧ x.data = bs ∧ x.status = 0 ∧
      x.next = 0 ∧ recOf t qpn msn = none ∧ t.mem = s.mem) ∧
  (∀ (qpn msn : Nat) (r : RxRec) (b : List Byte) (s : State), working s = true → mayExecute s qpn msn 5 = some r →
    b = payBytes ((mapGet r.pays 0).getD 0) → leAt b 8 1 ≤ 16 → s.pc.acc = [] →
    tierOpen s (leAt b 0 8 / 2 ^ 41) (leAt b 0 8 % 2 ^ 41) (leAt b 8 1) →
    ∃ t x, exec (.atomicPerform qpn msn) s = .next t ∧ respOf t qpn msn = some x ∧ x.kind = 6 ∧
      x.data = bytesAt s.mem.bytes (leAt b 0 8 % 2 ^ 41) (leAt b 8 1) ∧ recOf t qpn msn = none ∧
      t.mem.bytes = bytesSet s.mem.bytes (leAt b 0 8 % 2 ^ 41)
        (leBytes (leAt b 8 1) (atomicNew (leAt b 9 1) (leAt b 8 1)
          (leNat (bytesAt s.mem.bytes (leAt b 0 8 % 2 ^ 41) (leAt b 8 1))) (leAt b 16 16) (leAt b 32 16))) (fun _ => true)) ∧
  (∀ (qpn msn : Nat) (r : RxRec) (q : Qp) (u : Nat × Nat × Nat) (s : State), working s = true → recOf s qpn msn = some r →
    r.cnt < 256 → r.got.length ≤ r.cnt → (∃ i, i ≤ r.cnt ∧ i ∉ r.got) → nackDue s r.lastTick = true → qpOf s qpn = some q →
    instUnit s q.inst = some u → q.peerQpn < 65536 →
    ∃ t h p, exec (.missingNackSend qpn msn false) s = .next t ∧ counted s t Reg.GX_TP_NACK_CNT 1 ∧
      t.tp.control = s.tp.control ++ [⟨q.peerNode, q.peerUnit, h, p, some qpn⟩] ∧ (readHdr h).kind = 10 ∧
      leAt (payBytes p) 4 1 = 0 ∧ recOf t qpn msn = some r) ∧
  (∀ (qpn msn : Nat) (r : RxRec) (s : State), working s = true → recOf s qpn msn = some r → r.got.length ≤ r.cnt →
    recExpired s r.lastTick = true →
    ∃ t, exec (.recordTimeout qpn msn false) s = .next t ∧ recOf t qpn msn = none ∧ t.mem = s.mem)

/-- RECV and RECV_COMPLETE (R138, R168, R172): a receive entry handed over in the queue pair's ring is fetched with its buffer under the next SSN; the
entry of the oldest SEND that is whole, once every MSN up to its last is complete, gets its completion with RECV, IMM and the SEND's bytes. -/
def Obligations.ReceiveEntriesAreFetchedAndCompleted : Prop :=
  (∀ (qpn : Nat) (x : RecvReads) (q : Qp) (g c : Ring) (s : State), working s = true → qpOf s qpn = some q → q.rq ≠ 0 →
    q.state = .ready → q.recvs.length < 64 → ringOf s q.rq = some g → ringOf s g.cq = some c → g.cq ≠ q.rq →
    g.shutting = none → instWorks s g.inst = true → g.reserved = true →
    slotReadFails s g (g.nextFetch % ringSize g) 64 x.failed = false →
    (slotRead s g (g.nextFetch % ringSize g) (x.slots.headD 0)).getLsbD 0 = true →
    recvMalformed (slotRead s g (g.nextFetch % ringSize g) (x.slots.headD 0)) = none →
    ∃ t q' g' e, exec (.recv qpn x) s = .next t ∧ qpOf t qpn = some q' ∧ q'.recvs = q.recvs ++ [e] ∧
      e.ssn = q.recvSsn + q.recvs.length ∧ e.slot = g.nextFetch % ringSize g ∧
      e.buf = ef (slotRead s g (g.nextFetch % ringSize g) (x.slots.headD 0)) 16 8 ∧
      e.len = entryLength (slotRead s g (g.nextFetch % ringSize g) (x.slots.headD 0)) ∧ e.space = g.space ∧
      ringOf t q.rq = some g' ∧ g'.nextFetch = g.nextFetch + 1 ∧ g'.reserved = false ∧ t.mem = s.mem) ∧
  (∀ (qpn total : Nat) (q : Qp) (e : RecvEntry) (rest : List RecvEntry) (o : Op) (s : State), working s = true →
    qpOf s qpn = some q → q.recvs = e :: rest → e.total = some total → q.state = .ready → q.herd = none →
    e.lastMsn < q.expected → s.pc.acc = [] → e.fault = none → e.status = 0 → total ≤ e.len → opAt s q.rq e.slot = some o →
    o.head = e.slot → o.done = none → (∀ g, ringOf s q.rq = some g → (g.ops.filter (fun x => x.head == e.slot)) = [o]) →
    ∃ t q' o' d, exec (.recvComplete qpn) s = .next t ∧ qpOf t qpn = some q' ∧ q'.recvs = rest ∧
      q'.recvSsn = q.recvSsn + 1 ∧ opAt t q.rq e.slot = some o' ∧ o'.done = some d ∧ d.status = stOk ∧ d.recv = true ∧
      d.imm = e.imm ∧ d.bytes = total ∧ t.mem = s.mem)

/-- ACK_RECEIVE, NACK_*_RECEIVE and RESP_ACK_RECEIVE (R164, R171, R180, R183, R184, R186): an ACK over the one message of a WRITE completes the operation OK; one over a READ's
request marks it acknowledged; MISSING marks what came and resends the rest of what was sent; RNR holds the message for RNR_DELAY; MOVED and QP_ERROR take
the queue pair to MOVED_WAIT and ERROR; RESP_ACK frees the result. -/
def Obligations.AcknowledgementsActOnMessages : Prop :=
  (∀ (port : Nat) (slot : SlotIn) (c : CellIn) (q : Qp) (m : Msg) (r : OpRun) (o : Op) (tl : Tile) (s : State),
    cellsIn s port = true → slotGives s port 9 slot c → fromPeer s c q → ackReserved (payBytes c.pay) = false →
    s.tp.msgs = [(msgKey c.dqpn m.msn, m)] → m.qpn = c.dqpn → m.next ≠ 0 → m.kind = .write → m.tile = 0 →
    m.msn ≤ extend 32 q.nextMsn (leAt (payBytes c.pay) 0 4) → extend 32 q.nextMsn (leAt (payBytes c.pay) 4 4) ≤ m.msn →
    (∀ i, i < 3 → leAt (payBytes c.pay) (44 + 8 * i) 1 < 128) → runOf s m.run = some r → r.tiles = [tl] → tl.own = 0 → r.stopped = none →
    r.cut = none → r.force = 0 → s.pc.acc = [] → opAt s r.ring r.slot = some o → o.head = r.slot → o.done = none →
    ∃ t, exec (.ackReceive port slot) s = .next t ∧ msgOf t c.dqpn m.msn = none ∧ runOf t m.run = none ∧
      endsWith t r.ring r.slot stOk ∧ t.mem = s.mem) ∧
  (∀ (port : Nat) (slot : SlotIn) (c : CellIn) (q : Qp) (m : Msg) (s : State), cellsIn s port = true →
    slotGives s port 9 slot c → fromPeer s c q → ackReserved (payBytes c.pay) = false →
    s.tp.msgs = [(msgKey c.dqpn m.msn, m)] → m.qpn = c.dqpn → m.next ≠ 0 → m.kind = .read →
    m.msn ≤ extend 32 q.nextMsn (leAt (payBytes c.pay) 0 4) → extend 32 q.nextMsn (leAt (payBytes c.pay) 4 4) ≤ m.msn →
    (∀ i, i < 3 → leAt (payBytes c.pay) (44 + 8 * i) 1 < 128) →
    ∃ t, exec (.ackReceive port slot) s = .next t ∧ msgOf t c.dqpn m.msn = some { m with acked := true } ∧ t.q = s.q) ∧
  (∀ (port : Nat) (slot : SlotIn) (c : CellIn) (q : Qp) (m : Msg) (s : State), cellsIn s port = true →
    slotGives s port 10 slot c → fromPeer s c q → nackBad (payBytes c.pay) = false → leAt (payBytes c.pay) 4 1 = 0 →
    leAt (payBytes c.pay) 6 1 % 2 = 0 → msgOf s c.dqpn (extend 32 q.nextMsn (leAt (payBytes c.pay) 0 4)) = some m →
    ∃ t m', exec (.nackMissingReceive port slot) s = .next t ∧
      msgOf t c.dqpn (extend 32 q.nextMsn (leAt (payBytes c.pay) 0 4)) = some m' ∧
      (∀ i, i ∈ m'.marks ↔ i ∈ m.marks ∨ i ∈ nackMarks (payBytes c.pay)) ∧
      (∀ i, i ∈ m'.resend ↔ i ∈ m.resend ∨ i ∈ chunkUnmarked (leAt (payBytes c.pay) 5 1) m.next m'.marks) ∧
      m' = { m with marks := m'.marks, resend := m'.resend } ∧ t.q = s.q) ∧
  (∀ (port : Nat) (slot : SlotIn) (c : CellIn) (q : Qp) (m : Msg) (s : State), cellsIn s port = true →
    slotGives s port 10 slot c → fromPeer s c q → nackBad (payBytes c.pay) = false → leAt (payBytes c.pay) 4 1 = 1 →
    msgOf s c.dqpn (extend 32 q.nextMsn (leAt (payBytes c.pay) 0 4)) = some m → m.rnrAt = none → m.next ≠ 0 →
    qpRnrLimit s q = 255 ∨ m.rnr < qpRnrLimit s q →
    ∃ t m', exec (.nackRnrReceive port slot) s = .next t ∧
      msgOf t c.dqpn (extend 32 q.nextMsn (leAt (payBytes c.pay) 0 4)) = some m' ∧ m'.marks = [] ∧ m'.resend = [] ∧
      m'.rnr = m.rnr + 1 ∧ m'.rnrAt = some (s.tick.count.toNat + qpRnrDelay s q) ∧ t.q = s.q) ∧
  (∀ (c' : SlotIn → Instr) (port kind : Nat) (st : QpState) (bit : Nat) (slot : SlotIn) (c : CellIn) (q : Qp) (s : State),
    (kind = 2 ∧ st = .movedWait ∧ bit = 1 ∧ c' = .nackMovedReceive port) ∨
      (kind = 3 ∧ st = .error ∧ bit = 0 ∧ c' = .nackQpErrorReceive port) → cellsIn s port = true →
    slotGives s port 10 slot c → fromPeer s c q → nackBad (payBytes c.pay) = false → leAt (payBytes c.pay) 4 1 = kind →
    ∃ t q', exec (c' slot) s = .next t ∧ qpOf t c.dqpn = some q' ∧ q'.state = st ∧ q'.recvs = [] ∧
      (rg t Reg.GX_TP_EVENTS).getLsbD bit = true ∧ (∀ e ∈ t.tp.msgs, e.2.qpn ≠ c.dqpn) ∧ t.mem = s.mem) ∧
  (∀ (port : Nat) (slot : SlotIn) (c : CellIn) (q : Qp) (p : RespRec) (s : State), cellsIn s port = true →
    slotGives s port 11 slot c → qpOf s c.dqpn = some q → q.peerNode = c.srcNode → q.peerUnit = c.srcUnit →
    allZero ((payBytes c.pay).drop 4) = true →
    respOf s c.dqpn (extend 32 q.expected (leAt (payBytes c.pay) 0 4)) = some p → p.kind ≠ 4 →
    ∃ t, exec (.respAckReceive port slot) s = .next t ∧
      respOf t c.dqpn (extend 32 q.expected (leAt (payBytes c.pay) 0 4)) = none ∧ t.mem = s.mem ∧ t.q = s.q)

/-- READ_RESP_RECEIVE, ATOMIC_RESP_RECEIVE, ATTN_RESP_RECEIVE, RETRANSMIT_TIMEOUT and RNR_RESEND (R166, R171, R182, R183, R370): a response cell that does not end its message is
marked and its bytes go to the tile; an ATOMIC's result ends its message and is answered with a RESP_ACK; at its deadline a message goes
again with a longer one, and past its retries the queue pair is in ERROR; RNR_DELAY later every cell goes again. -/
def Obligations.ResponsesAndRetries : Prop :=
  (∀ (port : Nat) (slot : SlotIn) (c : CellIn) (q : Qp) (m : Msg) (s : State), cellsIn s port = true →
    slotGives s port 4 slot c → fromPeer s c q → msgOf s c.dqpn (extend 16 q.nextMsn c.msn) = some m → m.kind = .read →
    qpSlot s c.dqpn 1 = none → c.addr + c.fill ≤ msgTileLen s m → c.addr < 2 ^ 32 →
    (∀ tl, (runOf s m.run).bind (fun r => r.tiles[m.tile]?) = some tl → rangeStalls s tl.dstPages (tl.dst + c.addr) c.fill = false) →
    m.respCnt = 0 ∨ m.respCnt = c.cnt + 1 → m.respGot.contains c.idx = false → m.respGot.length < c.cnt →
    ∃ t m' s', exec (.readRespReceive port slot) s = .next t ∧ msgOf t c.dqpn (extend 16 q.nextMsn c.msn) = some m' ∧
      m'.respGot = m.respGot ++ [c.idx] ∧ m'.respCnt = c.cnt + 1 ∧ m'.acked = true ∧
      t.mem = (respWrite m c.addr c.begins ((payBytes c.pay).take c.fill) s').1.mem ∧ s'.mem = s.mem ∧
      s'.tp.runs = s.tp.runs ∧ s'.lz = s.lz ∧ s'.vi = s.vi ∧ s'.pc.acc = s.pc.acc) ∧
  (∀ (port : Nat) (slot : SlotIn) (c : CellIn) (q : Qp) (m : Msg) (u : Nat × Nat × Nat) (s : State), cellsIn s port = true →
    slotGives s port 6 slot c → fromPeer s c q → allZero ((payBytes c.pay).drop 16) = true →
    msgOf s c.dqpn (extend 16 q.nextMsn c.msn) = some m → m.kind = .atomic →
    (∀ tl, (runOf s m.run).bind (fun r => r.tiles[m.tile]?) = some tl → rangeStalls s tl.dstPages tl.dst tl.len = false) →
    instUnit s q.inst = some u → q.peerQpn < 65536 →
    ∃ t h p s', exec (.atomicRespReceive port slot) s = .next t ∧ msgOf t c.dqpn (extend 16 q.nextMsn c.msn) = none ∧
      t.tp.control = s.tp.control ++ [⟨q.peerNode, q.peerUnit, h, p, some c.dqpn⟩] ∧ (readHdr h).kind = 11 ∧
      t.mem = (respWrite m 0 true ((payBytes c.pay).take (msgTileLen s m)) s').1.mem ∧ s'.mem = s.mem ∧
      s'.tp.runs = s.tp.runs ∧ s'.lz = s.lz ∧ s'.vi = s.vi ∧ s'.pc.acc = s.pc.acc) ∧
  (∀ (port : Nat) (slot : SlotIn) (c : CellIn) (q : Qp) (m : Msg) (s : State), cellsIn s port = true →
    slotGives s port 8 slot c → fromPeer s c q → msgOf s c.dqpn (extend 16 q.nextMsn c.msn) = some m → m.kind = .attn →
    c.tail = false → c.addr + c.fill ≤ msgTileLen s m → c.addr < 2 ^ 32 →
    (∀ tl, (runOf s m.run).bind (fun r => r.tiles[m.tile]?) = some tl → rangeStalls s tl.dstPages (tl.dst + c.addr) c.fill = false) →
    m.respCnt = 0 ∨ m.respCnt = c.cnt + 1 → m.respGot.contains c.idx = false → m.respGot.length < c.cnt →
    ∃ t m' s', exec (.attnRespReceive port slot) s = .next t ∧ msgOf t c.dqpn (extend 16 q.nextMsn c.msn) = some m' ∧
      m'.respGot = m.respGot ++ [c.idx] ∧ m'.respCnt = c.cnt + 1 ∧
      t.mem = (respWrite m c.addr c.begins ((payBytes c.pay).take c.fill) s').1.mem ∧ s'.mem = s.mem ∧
      s'.tp.runs = s.tp.runs ∧ s'.lz = s.lz ∧ s'.vi = s.vi ∧ s'.pc.acc = s.pc.acc) ∧
  (∀ (qpn msn : Nat) (q : Qp) (m : Msg) (s : State), working s = true → qpOf s qpn = some q → msgOf s qpn msn = some m →
    q.typ ≤ 1 → q.state = .ready → m.next ≠ 0 → m.deadline ≤ s.tick.count.toNat → m.tries < qpRetry s q →
    ∃ t m', exec (.retransmitTimeout qpn msn) s = .next t ∧ msgOf t qpn msn = some m' ∧ m'.tries = m.tries + 1 ∧
      m'.deadline = s.tick.count.toNat + qpRto s q * 2 ^ min (m.tries + 1) 3 ∧ m'.resend ≠ [] ∧ m'.next = m.next ∧
      t = { s with tp := { s.tp with msgs := t.tp.msgs } }) ∧
  (∀ (qpn msn : Nat) (q : Qp) (m : Msg) (s : State), working s = true → qpOf s qpn = some q → msgOf s qpn msn = some m →
    q.typ ≤ 1 → q.state = .ready → m.next ≠ 0 → m.deadline ≤ s.tick.count.toNat → m.tries = qpRetry s q →
    ∃ t q', exec (.retransmitTimeout qpn msn) s = .next t ∧ qpOf t qpn = some q' ∧ q'.state = .error ∧
      (rg t Reg.GX_TP_EVENTS).getLsbD 0 = true) ∧
  (∀ (qpn msn at_ : Nat) (q : Qp) (m : Msg) (s : State), working s = true → qpOf s qpn = some q → q.typ ≤ 1 →
    msgOf s qpn msn = some m → m.rnrAt = some at_ → at_ ≤ s.tick.count.toNat →
    ∃ t, exec (.rnrResend qpn msn) s = .next t ∧
      msgOf t qpn msn = some { m with rnrAt := none, next := m.cells, resend := List.range m.cells } ∧
      t = { s with tp := { s.tp with msgs := t.tp.msgs } })

/-! ### Cell links -/

/-- The bring-up of a cell link (R207 to R209, Table 7.5): each event moves the port from its state to the next and leaves the other ports as they
are; three failed attempts fence it; a round that is answered counts; when both ends have said DONE the link is UP with half the round trip as its
delay and the peer's credit; a lost lock trains again. -/
def Obligations.CellLinksComeUp : Prop :=
  (∀ (p : Nat) (s : State), powered s = true → isCellPort s p = true → (cport s p).state = .training →
    ∃ t, exec (.receiverDetect p) s = .next t ∧ cport t p = { cport s p with detected := true } ∧
      (∀ j, j ≠ p → cport t j = cport s j) ∧ t = { s with cf := { s.cf with ports := t.cf.ports } }) ∧
  (∀ (p : Nat) (s : State), powered s = true → (cport s p).state = .training → (cport s p).detected = true →
    ∃ t, exec (.trainingSuccess p) s = .next t ∧ cport t p = { cport s p with state := .fecLock, attempts := 0 } ∧
      (∀ j, j ≠ p → cport t j = cport s j) ∧ t = { s with cf := { s.cf with ports := t.cf.ports } }) ∧
  (∀ (p : Nat) (s : State), powered s = true → (cport s p).state = .training → (cport s p).detected = true →
    (cport s p).attempts < 2 →
    ∃ t, exec (.trainingAttemptTimeout p) s = .next t ∧
      cport t p = { cport s p with attempts := (cport s p).attempts + 1 } ∧
      t = { s with cf := { s.cf with ports := t.cf.ports } }) ∧
  (∀ (p : Nat) (s : State), powered s = true → (cport s p).state = .training → (cport s p).detected = true →
    2 ≤ (cport s p).attempts →
    ∃ t, exec (.trainingAttemptTimeout p) s = .next t ∧ (cport t p).state = .fenced ∧
      (rg t Reg.GX_CF_EVENTS).getLsbD 4 = true ∧ (∀ j, j ≠ p → cport t j = cport s j)) ∧
  (∀ (p now : Nat) (s : State), powered s = true → (cport s p).state = .fecLock →
    ∃ t pay, exec (.fecLock p now) s = .next t ∧ (cport t p).state = .identify ∧ (cport t p).rounds = 0 ∧
      t.out = s.out ++ [.control p (ctlHdr 2) pay] ∧ leAt (payBytes pay) 16 8 = now % 2 ^ 64 ∧
      (∀ j, j ≠ p → cport t j = cport s j)) ∧
  (∀ (p : Nat) (s : State), powered s = true → (cport s p).state = .fecLock →
    ∃ t, exec (.fecLockTimeout p) s = .next t ∧ cport t p = { cport s p with state := .training } ∧
      t = { s with cf := { s.cf with ports := t.cf.ports } }) ∧
  (∀ (p : Nat) (pay : BitVec 512) (now : Nat) (s : State), p < 32 → powered s = true → (cport s p).state = .identify →
    fld (leAt (payBytes pay) 3 1) 2 2 = 1 → fld (leAt (payBytes pay) 3 1) 3 3 = 0 → (cport s p).gotDone = false →
    leAt (payBytes pay) 10 1 = (cport s p).rounds → (cport s p).rounds < 8 →
    ∃ t, exec (.identReceive p pay now) s = .next t ∧ (cport t p).rounds = (cport s p).rounds + 1 ∧
      (cport t p).state = .identify ∧ (cport t p).peerKnown = true ∧ (cport t p).peerId = leAt (payBytes pay) 4 4 % 2 ^ 23 ∧
      (cport t p).plane = leAt (payBytes pay) 1 1 % 8 ∧ ((cport s p).rounds = 7 → (cport t p).sentDone = true)) ∧
  (∀ (p : Nat) (pay : BitVec 512) (now : Nat) (s : State), p < 32 → powered s = true → (cport s p).state = .identify →
    fld (leAt (payBytes pay) 3 1) 2 2 = 0 → fld (leAt (payBytes pay) 3 1) 3 3 = 1 → (cport s p).sentDone = true →
    s.cf.held = [] →
    ∃ t, exec (.identReceive p pay now) s = .next t ∧ (cport t p).state = .up ∧ (cport t p).delay = (cport s p).rtt / 2 ∧
      (cport t p).credit = 8 * leAt (payBytes pay) 8 2 ∧ (rg t Reg.GX_CF_EVENTS).getLsbD 0 = true) ∧
  (∀ (p now : Nat) (s : State), powered s = true → (cport s p).state = .identify → (cport s p).rounds < 8 →
    ∃ t, exec (.identRoundTimeout p now) s = .next t ∧ (cport t p).rounds = (cport s p).rounds + 1 ∧
      (cport t p).state = .identify) ∧
  (∀ (p : Nat) (s : State), powered s = true → (cport s p).state = .identify → 64 ≤ (cport s p).identTicks →
    ∃ t, exec (.identTimeout p) s = .next t ∧ (cport t p).state = .training ∧ (cport t p).rounds = 0 ∧
      t = { s with cf := { s.cf with ports := t.cf.ports } }) ∧
  (∀ (p : Nat) (s : State), powered s = true → (cport s p).state = .up →
    ∃ t, exec (.codewordLockLoss p) s = .next t ∧ (cport t p).state = .training ∧ (cport t p).retry = [] ∧
      (rg t Reg.GX_CF_EVENTS).getLsbD 1 = true ∧ eventsOnly { s with cf := { s.cf with ports := t.cf.ports } } t [Reg.GX_CF_EVENTS])

/-- PORT_ADMIN_DOWN, PORT_RESTART, CODEWORD_RECEIVE and SPARE_LANE_SWAP (R203 to R208, R212): ADMIN_DOWN disables the indexed port and its clearing trains it; RESTART
trains a fenced one; a good counted slot advances the LSN and the link control word returns credit; a bad slot is counted, sends a NAK of the
last good LSN and waits for RESYNC; the retuned spare takes the fenced lane's place. -/
def Obligations.CellPortsAreControlled : Prop :=
  (∀ (p : Nat) (s : State), running s = true → p = wfld (rg s Reg.GX_CF_PORT_INDEX) 4 0 → isCellPort s p = true →
    (cport s p).state ≠ .fenced →
    ∃ t, exec (.portAdminDown true) s = .next t ∧ (cport t p).state = .disabled ∧ (rgi t Reg.GX_CF_PORT_CTRL p).getLsbD 0 = true ∧
      (∀ j, j ≠ p → cport t j = cport s j)) ∧
  (∀ (p : Nat) (s : State), running s = true → p = wfld (rg s Reg.GX_CF_PORT_INDEX) 4 0 → isCellPort s p = true →
    (cport s p).state = .disabled →
    ∃ t, exec (.portAdminDown false) s = .next t ∧ (cport t p).state = .training ∧
      (rgi t Reg.GX_CF_PORT_CTRL p).getLsbD 0 = false) ∧
  (∀ (p : Nat) (s : State), running s = true → p = wfld (rg s Reg.GX_CF_PORT_INDEX) 4 0 → isCellPort s p = true →
    (cport s p).state = .fenced →
    ∃ t, exec .portRestart s = .next t ∧ (cport t p).state = .training ∧ (cport t p).detected = false ∧
      t = { s with cf := { s.cf with ports := t.cf.ports } }) ∧
  (∀ (p n : Nat) (lcw : BitVec 20) (lane : Option Nat) (s : State), powered s = true → (cport s p).state = .up →
    (cport s p).waitResync = false → (cport s p).suspect = none → (cport s p).retry = [] → (cport s p).queue = [] →
    fld lcw.toNat 6 6 = 0 →
    ∃ t, exec (.codewordReceive p lcw [.good true n] false lane) s = .next t ∧
      (cport t p).rxLsn = ((cport s p).rxLsn + 1) % 2048 ∧ (cport t p).credit = (cport s p).credit + 8 * fld lcw.toNat 5 0 ∧
      (cport t p).state = .up ∧ t = { s with cf := t.cf }) ∧
  (∀ (p : Nat) (lcw : BitVec 20) (rest : List LinkSlot) (lane : Option Nat) (s : State), powered s = true →
    (cport s p).state = .up → (cport s p).waitResync = false → (cport s p).suspect = none → (cport s p).retry = [] →
    (cport s p).queue = [] → fld lcw.toNat 6 6 = 0 →
    ∃ t, exec (.codewordReceive p lcw (.bad :: rest) false lane) s = .next t ∧ counted s t Reg.GX_CF_CRC_ERR_CNT 1 ∧
      t.out = s.out ++ [.nak p (((cport s p).rxLsn + 2047) % 2048)] ∧ (cport t p).waitResync = true ∧
      (cport t p).rxLsn = (cport s p).rxLsn ∧ (cport t p).state = .up) ∧
  (∀ (p l : Nat) (s : State), powered s = true → (cport s p).state = .up → (cport s p).spareWait = some l →
    ∃ t, exec (.spareLaneSwap p) s = .next t ∧ cport t p = { cport s p with spareWait := none, spareUsed := true } ∧
      (rg t Reg.GX_CF_EVENTS).getLsbD 2 = true ∧
      eventsOnly { s with cf := { s.cf with ports := t.cf.ports } } t [Reg.GX_CF_EVENTS])

/-- TRANSMIT_SELECT, NO_ROUTE_RETRY, CMAP_LOAD and FENCE_TABLE_WRITE (R204, R205, R215, R220 to R222, R264): the link of least score among those that reach the node is chosen; a
control cell goes first, by that link, under the next LSN and one credit; without a route what is held stays held; a map whose two headers
agree on a new even GENERATION is taken for the next edge; a fence entry is stored unless another holds its coordinate. -/
def Obligations.RoutesMapsAndFences : Prop :=
  (∀ (s : State) (node p : Nat) (retx : Bool) (avoid : Option Nat), chooseLink s node retx avoid = some p →
    p ∈ routeCands s node retx avoid ∧ ∀ j ∈ routeCands s node retx avoid, linkScore s node p ≤ linkScore s node j) ∧
  (∀ (clk p : Nat) (x : RecvReads) (c : CtlCell) (rest : List CtlCell) (s : State), working s = true → s.tp.control = c :: rest →
    nodeSlot s c.node = none → (∀ n q, c.qpn = some n → qpOf s n = some q → q.typ ≠ 1) → s.fw.joined = true →
    fenceOf s c.node c.unit = none → chooseLink s c.node false none = some p → (cport s p).queue = [] → linkUp s p = true →
    1 ≤ (cport s p).credit → retrySlots (cport s p) + 1 ≤ retryRoom s →
    ∃ t i l, exec (.transmitSelect clk x) s = .next t ∧ t.tp.control = rest ∧
      t.out = s.out ++ .slot p (cport s p).txLsn i :: l ∧ i.node = c.node ∧ i.pay = c.pay ∧ i.cells = [] ∧
      (cport t p).txLsn = ((cport s p).txLsn + 1) % 2048 ∧ (cport t p).credit = (cport s p).credit - 1 ∧
      (cport t p).retry = (cport s p).retry ++ [((cport s p).txLsn, i)] ∧ (cport t p).queue = []) ∧
  (∀ s : State, working s = true → s.fw.joined = false →
    ∃ t, exec .noRouteRetry s = .next t ∧ (∀ i, i ∈ t.cf.held ↔ i ∈ s.cf.held) ∧ t = { s with cf := { s.cf with held := t.cf.held } }) ∧
  (∀ (p : Nat) (i : WireItem) (s : State), working s = true → s.cf.held = [i] → i.udp = false → s.fw.joined = true →
    fenceOf s i.node i.unit = none → chooseLink s i.node i.retx i.avoid = some p →
    ∃ t, exec .noRouteRetry s = .next t ∧ t.cf.held = [] ∧ t.cf.rotor = (p + 1) % 32) ∧
  (∀ (h l : List Byte) (s : State), working s = true → (rg s Reg.GX_CF_CMAP_CFG).getLsbD 31 = true →
    wfld (rg s Reg.GX_CF_CMAP_CFG) 1 0 ≠ 1 → s.pc.hstUp = true → leAt h 0 4 % 2 = 0 → leAt h 0 4 ≠ s.cf.mapGen →
    ∃ t, exec (.cmapLoad h l h false) s = .next t ∧
      t.cf.mapNext = some (leAt h 0 4, leAt h 4 1, readLevels (l.take 8192)) ∧ (rg t Reg.GX_CF_EVENTS).getLsbD 6 = true ∧
      eventsOnly { s with cf := { s.cf with mapNext := t.cf.mapNext } } t [Reg.GX_CF_EVENTS]) ∧
  (∀ (v : Word) (idx node unit : Nat) (s : State), running s = true → idx = wfld (rg s Reg.GX_CF_FENCE_INDEX) 13 0 →
    node = wfld (rg s Reg.GX_CF_FENCE_COORD) 28 6 → unit = wfld (rg s Reg.GX_CF_FENCE_COORD) 5 0 → wfld v 7 6 = 2 →
    s.cf.held = [] → (∀ e ∈ s.cf.fences, e.1 ≠ idx → e.2.state ≠ 0 → e.2.node ≠ node ∨ e.2.unit ≠ unit) →
    ∃ t, exec (.fenceTableWrite v) s = .next t ∧ mapGet t.cf.fences idx = some ⟨node, unit, 2, wfld v 5 0⟩ ∧
      (∀ j, j ≠ idx → mapGet t.cf.fences j = mapGet s.cf.fences j) ∧
      t = { s with cf := { s.cf with fences := t.cf.fences, fencedAt := s.tick.count.toNat } }) ∧
  (∀ (v : Word) (e : Nat × FenceEntry) (s : State), running s = true → e ∈ s.cf.fences →
    e.1 ≠ wfld (rg s Reg.GX_CF_FENCE_INDEX) 13 0 → e.2.node = wfld (rg s Reg.GX_CF_FENCE_COORD) 28 6 →
    e.2.unit = wfld (rg s Reg.GX_CF_FENCE_COORD) 5 0 → e.2.state ≠ 0 → wfld v 7 6 ≠ 0 →
    ∃ t, exec (.fenceTableWrite v) s = .next t ∧ (rg t Reg.GX_CF_EVENTS).getLsbD 8 = true ∧ eventsOnly s t [Reg.GX_CF_EVENTS])

/-! ### Ethernet -/

/-- ETH_LINK_UP, ETH_LINK_DOWN, ETH_FRAME_RECEIVE, PAUSE_FRAME_RECEIVE, PAUSE_EXPIRY and XOFF_REPEAT (R227, R232, R236, R240, R241, R258): a link comes up on its lanes and its loss ends
every pause; a frame with a bad FCS and one that the filter refuses are counted alone; a PTP frame is held; a PAUSE frame stops the port and one
with quanta 0, or the end of its time, starts it; XOFF goes again. -/
def Obligations.EthernetReceivesAndPauses : Prop :=
  (∀ (p lanes : Nat) (s : State), running s = true → isEthPort s p = true → (ethPort s p).link = false → bantamBusy s 2 = false →
    0 < lanes → lanes = ethLanes s p →
    ∃ t, exec (.ethLinkUp p lanes) s = .next t ∧ (ethPort t p).link = true ∧ (rg t Reg.GX_ETH_EVENTS).getLsbD 5 = true ∧
      (∀ j, j ≠ p → ethPort t j = ethPort s j) ∧ t.mem = s.mem) ∧
  (∀ (p : Nat) (s : State), running s = true → isEthPort s p = true → (ethPort s p).link = true →
    ∃ t, exec (.ethLinkDown p) s = .next t ∧ (ethPort t p).link = false ∧ (ethPort t p).pausedRx = [] ∧
      (rg t Reg.GX_ETH_EVENTS).getLsbD 6 = true ∧ (∀ j, j ≠ p → ethPort t j = ethPort s j)) ∧
  (∀ (p corrected : Nat) (frame : List Byte) (x : RecvReads) (s : State), ethUp s p = true → 64 ≤ frame.length →
    frame.length ≤ portMtu s p → fcsGood frame = false →
    ∃ t, exec (.ethFrameReceive p frame corrected 0 x) s = .next t ∧ ethCounted s t p 11 1 ∧ ethCounted s t p 30 corrected ∧
      (ethPort t p).rx = (ethPort s p).rx ∧ t.mem = s.mem ∧ t.q = s.q ∧ t.tp = s.tp) ∧
  (∀ (p corrected : Nat) (frame : List Byte) (x : RecvReads) (s : State), ethUp s p = true → 64 ≤ frame.length →
    frame.length ≤ portMtu s p → fcsGood frame = true →
    rxRoom s p (framePri (readEth (frame.take (frame.length - 4)))) ((frame.length + 255) / 256 * 256) = true →
    macAccepts s p (readEth (frame.take (frame.length - 4))).dst = false →
    ∃ t, exec (.ethFrameReceive p frame corrected 0 x) s = .next t ∧ ethCounted s t p 13 1 ∧
      (ethPort t p).rx = (ethPort s p).rx ∧ t.mem = s.mem ∧ t.q = s.q ∧ t.tp = s.tp) ∧
  (∀ (p corrected : Nat) (frame : List Byte) (x : RecvReads) (s : State), ethUp s p = true → 64 ≤ frame.length →
    frame.length ≤ portMtu s p → fcsGood frame = true →
    rxRoom s p (framePri (readEth (frame.take (frame.length - 4)))) ((frame.length + 255) / 256 * 256) = true →
    macAccepts s p (readEth (frame.take (frame.length - 4))).dst = true →
    classifyFrame s p (readEth (frame.take (frame.length - 4))) = .ptp →
    ∃ t, exec (.ethFrameReceive p frame corrected 0 x) s = .next t ∧ ethCounted s t p 1 1 ∧
      (ethPort t p).rx = (ethPort s p).rx ++ [⟨.ptp, framePri (readEth (frame.take (frame.length - 4))),
        (frame.length + 255) / 256, frame.take (frame.length - 4)⟩] ∧ t.mem = s.mem) ∧
  (∀ (p : Nat) (frame : List Byte) (h : EthHead) (s : State), ethUp s p = true → 64 ≤ frame.length → frame.length ≤ portMtu s p →
    fcsGood frame = true → h = readEth (frame.take (frame.length - 4)) →
    rxRoom s p (framePri h) ((frame.length + 255) / 256 * 256) = true → macAccepts s p h.dst = true →
    classifyFrame s p h = .flow → beAt h.body 0 2 = 1 → fcMode s p = 1 →
    ∃ t, exec (.pauseFrameReceive p frame) s = .next t ∧ ethCounted s t p 5 1 ∧
      (0 ∈ (ethPort t p).pausedRx ↔ beAt h.body 2 2 ≠ 0) ∧ t.mem = s.mem) ∧
  (∀ (p pri : Nat) (s : State), running s = true → isEthPort s p = true → pri ∈ (ethPort s p).pausedRx →
    ∃ t, exec (.pauseExpiry p pri) s = .next t ∧ pri ∉ (ethPort t p).pausedRx ∧
      (∀ k, k ≠ pri → (k ∈ (ethPort t p).pausedRx ↔ k ∈ (ethPort s p).pausedRx)) ∧
      t = { s with eth := t.eth }) ∧
  (∀ (p pri : Nat) (s : State), running s = true → isEthPort s p = true → (ethPort s p).link = true →
    pri ∈ (ethPort s p).pausedTx →
    ∃ t f, exec (.xoffRepeat p pri) s = .next t ∧ .frame p f ∈ t.out ∧ ethCounted s t p (40 + pri) 1 ∧
      ethCounted s t p 21 1 ∧ pri ∈ (ethPort t p).pausedTx ∧ t.mem = s.mem)

/-- GANDER_TX_TRIP, GANDER_TX_CLEAR, GANDER_RX_TRIP, GANDER_RX_CLEAR, ETH_COUNTER_LO_READ and UNODE_ROUTE_WRITE (R243, R244, R258, R262, R274): a class stopped for more than DETECT_TK
edges trips, its frames are discarded, and RESTORE_TK quiet ticks clear it; the adapter's own pauses trip likewise and end; a counter's low word returns
while its high word is latched; a UDP node entry is stored with its rate controller anew. -/
def Obligations.GanderCountersAndNodes : Prop :=
  (∀ (p k : Nat) (s : State), running s = true → isEthPort s p = true → ganderOn s p = true → k ∉ (ethPort s p).txStorm →
    detectTk s p < (mapGet (ethPort s p).stuckTk k).getD 0 →
    ∃ t, exec (.ganderTxTrip p k) s = .next t ∧ k ∈ (ethPort t p).txStorm ∧ (rg t Reg.GX_ETH_EVENTS).getLsbD 1 = true ∧
      (∀ pri, pri < 8 → flowPri s p pri = some k → mapGet (ethPort t p).tx pri = none)) ∧
  (∀ (p k : Nat) (s : State), running s = true → isEthPort s p = true → k ∈ (ethPort s p).txStorm →
    restoreTk s p ≤ (mapGet (ethPort s p).quietTk k).getD 0 →
    ∃ t, exec (.ganderTxClear p k) s = .next t ∧ k ∉ (ethPort t p).txStorm ∧ (rg t Reg.GX_ETH_EVENTS).getLsbD 3 = true ∧
      eventsOnly { s with eth := t.eth } t [Reg.GX_ETH_EVENTS]) ∧
  (∀ (p k : Nat) (s : State), running s = true → isEthPort s p = true → ganderOn s p = true → k ∉ (ethPort s p).rxStorm →
    detectTk s p < (mapGet (ethPort s p).heldTk k).getD 0 →
    ∃ t f, exec (.ganderRxTrip p k) s = .next t ∧ k ∈ (ethPort t p).rxStorm ∧ k ∉ (ethPort t p).pausedTx ∧
      .frame p f ∈ t.out ∧ (rg t Reg.GX_ETH_EVENTS).getLsbD 2 = true) ∧
  (∀ (p k : Nat) (s : State), running s = true → isEthPort s p = true → k ∈ (ethPort s p).rxStorm →
    restoreTk s p ≤ (mapGet (ethPort s p).lowTk k).getD 0 →
    ∃ t, exec (.ganderRxClear p k) s = .next t ∧ k ∉ (ethPort t p).rxStorm ∧ (rg t Reg.GX_ETH_EVENTS).getLsbD 3 = true ∧
      eventsOnly { s with eth := t.eth } t [Reg.GX_ETH_EVENTS]) ∧
  (∀ (p i : Nat) (s : State), running s = true → i < 63 →
    ∃ t, exec (.ethCounterLoRead p i) s = .next t ∧
      t.out = s.out ++ [.readData (BitVec.ofNat 64 ((mapGet (ethPort s p).counters i).getD 0 % 2 ^ 32))] ∧
      (mapGet (ethPort t p).latches i).getD 0 = (mapGet (ethPort s p).counters i).getD 0 / 2 ^ 32 ∧
      (ethPort t p).counters = (ethPort s p).counters ∧ t = { s with eth := t.eth, out := t.out }) ∧
  (∀ (v : Word) (remote : BitVec 256) (failed : Bool) (i : Nat) (s : State), running s = true →
    i = wfld (rg s Reg.GX_ETH_UNODE_INDEX) 7 0 → ((mapGet s.eth.unodes i).getD {}).fill = [] →
    ∃ t u, exec (.unodeRouteWrite v remote failed) s = .next t ∧ mapGet t.eth.unodes i = some u ∧
      u.valid = (rgi s Reg.GX_ETH_UNODE_NODE i).getLsbD 31 ∧ u.node = wfld (rgi s Reg.GX_ETH_UNODE_NODE i) 22 0 ∧
      u.remote = wfld v 31 20 ∧ u.port = wfld v 19 15 ∧ u.delay = wfld v 14 0 ∧ rgi t Reg.GX_ETH_UNODE_ROUTE i = v ∧
      mapGet t.cs.rates (65536 + i) = none ∧ (∀ j, j ≠ i → mapGet t.eth.unodes j = mapGet s.eth.unodes j) ∧
      t = { s with regs := t.regs, eth := { s.eth with unodes := t.eth.unodes }, cs := { s.cs with rates := t.cs.rates } })

/-! ### Scheduling and Ethernet transport -/

/-- REQUEST_RECEIVE, GRANT_RECEIVE, SCHED_CNP_RECEIVE, GCL_ENTRY_ADVANCE and GCL_LIST_SWITCH (R266, R268, R269, R274, R282, R283): a REQUEST is pooled and
takes the place of an older one of its pair, and finds no place in a full pool; a GRANT counts unless one of a later tick is there; a CNP marks the
controller of every UDP node entry of its source; a gate list moves to its next entry; the waiting list takes effect at its cycle start. -/
def Obligations.SchedulingCellsAndGateLists : Prop :=
  (∀ (port : Nat) (hdr : BitVec 96) (pay : BitVec 512) (s : State), cellsIn s port = true → (readHdr hdr).form = 3 →
    (readHdr hdr).kind = 0 → slotCheck s (readHdr hdr) = 0 → schedBad 0 pay = false → s.cs.pool.length < 4096 →
    (∀ x ∈ s.cs.pool, x.node = (readHdr hdr).srcNode → x.unit = (readHdr hdr).srcUnit → x.dst ≠ (readHdr hdr).dstNode) →
    ∃ t, exec (.requestReceive port hdr pay) s = .next t ∧
      t.cs.pool = s.cs.pool ++ [⟨(readHdr hdr).srcNode, (readHdr hdr).srcUnit, (readHdr hdr).dstNode,
        (readHdr hdr).dqpn * 65536 + (readHdr hdr).msn, leAt (payBytes pay) 0 8, leAt (payBytes pay) 16 1⟩] ∧
      t.cs.demandSum = s.cs.demandSum + leAt (payBytes pay) 0 8 ∧ t.mem = s.mem ∧ t.tp = s.tp ∧ t.q = s.q) ∧
  (∀ (port : Nat) (hdr : BitVec 96) (pay : BitVec 512) (x : Request) (s : State), cellsIn s port = true →
    (readHdr hdr).form = 3 → (readHdr hdr).kind = 0 → slotCheck s (readHdr hdr) = 0 → schedBad 0 pay = false →
    s.cs.pool = [x] → x.node = (readHdr hdr).srcNode → x.unit = (readHdr hdr).srcUnit → x.dst = (readHdr hdr).dstNode →
    ∃ t, exec (.requestReceive port hdr pay) s = .next t ∧
      t.cs.pool = [if x.tick < (readHdr hdr).dqpn * 65536 + (readHdr hdr).msn then
        ⟨x.node, x.unit, x.dst, (readHdr hdr).dqpn * 65536 + (readHdr hdr).msn, leAt (payBytes pay) 0 8, leAt (payBytes pay) 16 1⟩
        else x]) ∧
  (∀ (port : Nat) (hdr : BitVec 96) (pay : BitVec 512) (s : State), cellsIn s port = true → (readHdr hdr).form = 3 →
    (readHdr hdr).kind = 0 → slotCheck s (readHdr hdr) = 0 → schedBad 0 pay = false → 4096 ≤ s.cs.pool.length →
    (∀ x ∈ s.cs.pool, x.node = (readHdr hdr).srcNode → x.unit = (readHdr hdr).srcUnit → x.dst ≠ (readHdr hdr).dstNode) →
    ∃ t, exec (.requestReceive port hdr pay) s = .next t ∧ t.cs.pool = s.cs.pool ∧ counted s t Reg.GX_CS_REQ_DROP_CNT 1 ∧
      (rg t Reg.GX_CS_EVENTS).getLsbD 0 = true) ∧
  (∀ (port : Nat) (hdr : BitVec 96) (pay : BitVec 512) (s : State), cellsIn s port = true → (readHdr hdr).form = 3 →
    (readHdr hdr).kind = 1 → slotCheck s (readHdr hdr) = 0 → schedBad 1 pay = false →
    (∀ g, mapGet s.cs.grants (leAt (payBytes pay) 12 4) = some g → g.1 ≤ (readHdr hdr).dqpn * 65536 + (readHdr hdr).msn) →
    ∃ t, exec (.grantReceive port hdr pay) s = .next t ∧
      mapGet t.cs.grants (leAt (payBytes pay) 12 4) =
        some ((readHdr hdr).dqpn * 65536 + (readHdr hdr).msn, leAt (payBytes pay) 0 8) ∧
      (∀ n, n ≠ leAt (payBytes pay) 12 4 → mapGet t.cs.grants n = mapGet s.cs.grants n) ∧
      t.cs = { s.cs with grants := t.cs.grants } ∧ t.mem = s.mem ∧ t.tp = s.tp ∧ t.q = s.q) ∧
  (∀ (port : Nat) (hdr : BitVec 96) (pay : BitVec 512) (s : State), cellsIn s port = true → (readHdr hdr).form = 3 →
    (readHdr hdr).kind = 2 → slotCheck s (readHdr hdr) = 0 → schedBad 2 pay = false →
    ∃ t, exec (.schedCnpReceive port hdr pay) s = .next t ∧ counted s t Reg.GX_CS_CELL_CNP_RX_CNT 1 ∧
      (∀ e ∈ unodesOf s (readHdr hdr).srcNode, (mapGet t.cs.rates (65536 + e.1)).map (·.cnp) = some true) ∧
      t.cs = { s.cs with rates := t.cs.rates } ∧ t.mem = s.mem ∧ t.tp = s.tp ∧ t.q = s.q) ∧
  (∀ (port : Nat) (a b : List (Nat × Nat × Nat)) (e e' : Nat × Nat × Nat) (s : State), running s = true →
    isEthPort s port = true → (gclOf s port).run.enable = true → gateSpans s (gclOf s port).run = a ++ e :: e' :: b →
    (∀ x ∈ a, x.1 ≠ e.1) → (gclOf s port).entry = e.1 →
    ∃ t, exec (.gclEntryAdvance port) s = .next t ∧ gclOf t port = { gclOf s port with entry := e'.1 } ∧
      (∀ j, j ≠ port → gclOf t j = gclOf s j) ∧ t = { s with cs := { s.cs with gcls := t.cs.gcls } }) ∧
  (∀ (port : Nat) (n : GateList) (s : State), running s = true → isEthPort s port = true → (gclOf s port).next = some n →
    n.compat = false → s.tick.count.toNat % max 1 n.cycleTk = 0 →
    ∃ t, exec (.gclListSwitch port) s = .next t ∧ (gclOf t port).run = n ∧ (gclOf t port).next = none ∧
      (rg t Reg.GX_CS_EVENTS).getLsbD 2 = true ∧ (∀ j, j ≠ port → gclOf t j = gclOf s j) ∧
      eventsOnly { s with cs := { s.cs with gcls := t.cs.gcls } } t [Reg.GX_CS_EVENTS])

/-- ROCE_PACKET_RECEIVE, CNP_RECEIVE and CELL_FRAME_RECEIVE (R249 to R255, R273, R274): a packet whose queue pair may not take it is counted and changes neither memory nor
a queue pair; a WRITE of no bytes in order takes its PSN and its message counts; a packet after a gap draws one NAK; a CNP marks its
queue pair's controller; a cell frame's REQUEST is pooled, and a congestion mark is counted. -/
def Obligations.PacketsAndFramesAreTaken : Prop :=
  (∀ (port : Nat) (x : RecvReads) (f : RxFrame) (u : UdpPkt) (b : RocePkt) (s s0 : State), working s = true →
    isEthPort s port = true → roceHead s port = some (f, u, b, s0) → b.op ≠ 0x81 → roceOk s0 port b = false →
    ∃ t, exec (.rocePacketReceive port x) s = .next t ∧ ethCounted s0 t port 16 1 ∧ t.mem = s.mem ∧ t.tp = s.tp ∧ t.q = s.q) ∧
  (∀ (port : Nat) (x : RecvReads) (f : RxFrame) (u : UdpPkt) (b : RocePkt) (q : Qp) (s s0 : State), working s = true →
    isEthPort s port = true → roceHead s port = some (f, u, b, s0) → roceOk s0 port b = true → b.op = 10 →
    qpOf s0 b.dqpn = some q → q.typ = 2 → (rocePassed port q f u b s0).2 = true → b.psn = q.expected % 2 ^ 24 →
    q.roce.rxKind = 0 → b.body.length = 16 → beAt b.body 12 4 = 0 →
    ∃ t, exec (.rocePacketReceive port x) s = .next t ∧
      qpOf t b.dqpn = some { q with expected := q.expected + 1
                                    roce := { q.roce with nakSent := false, msn := q.roce.msn + 1, rxKind := 0 } } ∧
      (∀ n, n ≠ b.dqpn → qpOf t n = qpOf s n) ∧ t.mem = s.mem ∧ t.q = s.q) ∧
  (∀ (port : Nat) (x : RecvReads) (f : RxFrame) (u : UdpPkt) (b : RocePkt) (q : Qp) (s s0 : State), working s = true →
    isEthPort s port = true → roceHead s port = some (f, u, b, s0) → roceOk s0 port b = true → b.op ≤ 12 →
    qpOf s0 b.dqpn = some q → q.typ = 2 → (rocePassed port q f u b s0).2 = true →
    b.psn = (q.expected + 1) % 2 ^ 24 → q.roce.nakSent = false →
    ∃ t, exec (.rocePacketReceive port x) s = .next t ∧
      qpOf t b.dqpn = some { q with roce := { q.roce with nakSent := true } } ∧
      (∀ n, n ≠ b.dqpn → qpOf t n = qpOf s n) ∧ t.mem = s.mem ∧ t.q = s.q) ∧
  (∀ (port : Nat) (f : RxFrame) (u : UdpPkt) (b : RocePkt) (q : Qp) (s s0 : State), working s = true →
    isEthPort s port = true → roceHead s port = some (f, u, b, s0) → b.op = 0x81 → qpOf s0 b.dqpn = some q →
    isRoce q = true → ahRaw q = false → ahPort q = port → b.tver = 0 → (rocePassed port q f u b s0).2 = true →
    ∃ t, exec (.cnpReceive port) s = .next t ∧ (mapGet t.cs.rates b.dqpn).map (·.cnp) = some true ∧
      (∀ n, n ≠ b.dqpn → mapGet t.cs.rates n = mapGet s.cs.rates n) ∧ t.mem = s.mem ∧ t.tp = s.tp ∧ t.q = s.q) ∧
  (∀ (port : Nat) (late : Int) (x : RecvReads) (f : RxFrame) (u : UdpPkt) (a : List Byte) (hdr : BitVec 96) (pay : BitVec 512)
    (s s0 : State), working s = true → isEthPort s port = true → takeFrame port .cell s = some (f, s0) →
    readNet (readEth f.bytes) = .udp u → slotArea u = some a → cutSlots a.length a = some [(a, [])] →
    hdr = BitVec.ofNat 96 (beAt a 0 12) → pay = mkPay (slice a 12 64) → leAt a 76 4 = (slotCrc hdr pay).toNat →
    (readHdr hdr).form = 3 → (readHdr hdr).kind = 0 → slotCheck s (readHdr hdr) = 0 → schedBad 0 pay = false → s.cs.pool = [] →
    ∃ t, exec (.cellFrameReceive port late x) s = .next t ∧
      t.cs.pool = [⟨(readHdr hdr).srcNode, (readHdr hdr).srcUnit, (readHdr hdr).dstNode,
        (readHdr hdr).dqpn * 65536 + (readHdr hdr).msn, leAt (payBytes pay) 0 8, leAt (payBytes pay) 16 1⟩] ∧
      (u.ecn = 3 → counted s t Reg.GX_CS_CELL_CE_CNT 1) ∧ (u.ecn ≠ 3 → t.eth = s0.eth) ∧
      t.mem = s.mem ∧ t.tp = s.tp ∧ t.q = s.q)

/-! ### Herds -/

/-- HERD_DEFINE, HERD_DISSOLVE, COLLECTIVE, COLLECTIVE_SLOT_ACQUIRE, STEP_DEADLINE_MISS, HOLD_TIMEOUT, HERD_MEMBERSHIP_CHANGE and COLLECTIVE_COMPLETE (R291
to R295, R298, R300, R307, R309, R313): a definition that R291 admits makes the Herd and its queue pairs, and one that it does not, nothing; a dissolution frees
them; a collective starts with a free slot; a missed step and the hold's end abort it; a fenced member leaves and GEN rises; a collective that may complete does. -/
def Obligations.HerdsAndCollectives : Prop :=
  (∀ (slot : Nat) (o : Op) (list : List (BitVec 64)) (failed : Bool) (ms : List (Nat × Nat × Nat)) (s : State), working s = true →
    waitsAt s slot 0x16 o → memberList s o.entry list failed = some ms →
    herdRefused s (ef o.entry 16 2) (herdBody o.entry ms) = false → herdQuota s (ef o.entry 26 2 % 512) ms.length = true →
    ∃ t, exec (.herdDefine slot list failed) s = .next t ∧ endsWith t 0 slot stOk ∧
      mapGet t.hd.herds (ef o.entry 16 2) = some { herdBody o.entry ms with
        active := activeRanks s (herdBody o.entry ms) (List.range ms.length) } ∧
      (∀ h, h ≠ ef o.entry 16 2 → mapGet t.hd.herds h = mapGet s.hd.herds h) ∧
      (∀ j m, ms[j]? = some m → j ≠ ef o.entry 20 2 → qpOf t (ef o.entry 22 2 + j) =
        some (herdQp (ef o.entry 16 2) (herdBody o.entry ms) j m)) ∧
      t = { s with hd := { s.hd with herds := t.hd.herds }, tp := { s.tp with qps := t.tp.qps }, q := t.q }) ∧
  (∀ (slot : Nat) (o : Op) (list : List (BitVec 64)) (failed : Bool) (ms : List (Nat × Nat × Nat)) (s : State), working s = true →
    waitsAt s slot 0x16 o → memberList s o.entry list failed = some ms →
    herdRefused s (ef o.entry 16 2) (herdBody o.entry ms) = true →
    ∃ t, exec (.herdDefine slot list failed) s = .next t ∧ endsWith t 0 slot stAborted ∧ t = { s with q := t.q }) ∧
  (∀ (slot : Nat) (o : Op) (d : Herd) (s : State), working s = true → waitsAt s slot 0x17 o →
    mapGet s.hd.herds (ef o.entry 16 2) = some d → herdBusy s (ef o.entry 16 2) d = false →
    ∃ t, exec (.herdDissolve slot) s = .next t ∧ endsWith t 0 slot stOk ∧ mapGet t.hd.herds (ef o.entry 16 2) = none ∧
      (∀ h, h ≠ ef o.entry 16 2 → mapGet t.hd.herds h = mapGet s.hd.herds h) ∧
      (∀ n q, qpOf s n = some q → q.herd = some (ef o.entry 16 2) → qpOf t n = none)) ∧
  (∀ (slot : Nat) (o : Op) (d : Herd) (s : State), working s = true → waitsAt s slot 0x17 o →
    mapGet s.hd.herds (ef o.entry 16 2) = some d → herdBusy s (ef o.entry 16 2) d = true →
    ∃ t, exec (.herdDissolve slot) s = .next t ∧ endsWith t 0 slot stAborted ∧ t = { s with q := t.q }) ∧
  (∀ (ring slot : Nat) (o : Op) (g : Ring) (d : Herd) (s : State), working s = true → mayStartOp s ring slot = some o →
    ringOf s ring = some g → entryOpcode o.entry = 9 → mapGet s.hd.herds (ef o.entry 32 2) = some d → d.broken = false →
    (∀ x ∈ g.ops, entryOpcode x.entry = 9 → x.slot = slot) → (∀ e ∈ d.colls, e.2.slotAt.isSome = true) →
    mapGet d.colls (collFromEntry ring o d).seq = none → d.colls.length < d.depth →
    ∃ t, exec (.collective ring slot) s = .next t ∧ collOf t (ef o.entry 32 2) (collFromEntry ring o d).seq =
        some { collFromEntry ring o d with slotAt := some s.tick.count.toNat } ∧
      (∀ n, n ≠ (collFromEntry ring o d).seq → collOf t (ef o.entry 32 2) n = collOf s (ef o.entry 32 2) n) ∧
      t = { s with hd := { s.hd with herds := t.hd.herds }, q := t.q }) ∧
  (∀ (ring slot : Nat) (o : Op) (g : Ring) (d : Herd) (s : State), working s = true → mayStartOp s ring slot = some o →
    ringOf s ring = some g → entryOpcode o.entry = 9 → mapGet s.hd.herds (ef o.entry 32 2) = some d → d.broken = true →
    opAt s ring slot = some o → (∀ x ∈ g.ops, entryOpcode x.entry = 9 → x.slot = slot) → unflushed s (.run (opKey ring slot)) = [] →
    ∃ t, exec (.collective ring slot) s = .next t ∧ endsWith t ring slot stMemberTimeout ∧
      counted s t Reg.GX_HD_TIMEOUT_CNT 1 ∧ (rg t Reg.GX_HD_EVENTS).getLsbD 1 = true) ∧
  (∀ (h n : Nat) (d : Herd) (c : Coll) (s : State), working s = true → mapGet s.hd.herds h = some d →
    d.colls.find? (fun e => e.2.slotAt.isNone) = some (n, c) → mapGet d.colls n = some c →
    (d.colls.filter (fun e => e.2.slotAt.isSome)).length < d.depth →
    ∃ t, exec (.collectiveSlotAcquire h) s = .next t ∧ collOf t h n = some { c with slotAt := some s.tick.count.toNat } ∧
      (∀ j, j ≠ n → collOf t h j = collOf s h j) ∧ t = { s with hd := { s.hd with herds := t.hd.herds } }) ∧
  (∀ (h n j : Nat) (d : Herd) (c : Coll) (s : State), working s = true → mapGet s.hd.herds h = some d → collOf s h n = some c →
    deadlineMissed s.tick.count.toNat d c = some j →
    ∃ t, exec (.stepDeadlineMiss h n) s = .next t ∧ collOf t h n = some { c with abort := some (0, j) } ∧
      rg t Reg.GX_HD_LAST_ABORT = BitVec.ofNat 32 (h * 65536 + j) ∧ rg t Reg.GX_HD_LAST_ABORT_SEQ = BitVec.ofNat 32 n ∧
      t = { s with hd := { s.hd with herds := t.hd.herds }, regs := t.regs }) ∧
  (∀ (h n : Nat) (d : Herd) (c : Coll) (s : State), working s = true → mapGet s.hd.herds h = some d → collOf s h n = some c →
    c.voted = true → c.decision = none → coordinator c ≠ d.rank → c.voteAt + d.hold ≤ s.tick.count.toNat →
    ∃ t, exec (.holdTimeout h n) s = .next t ∧
      collOf t h n = some { c with decision := some 0, abort := c.abort.or (some (0, d.rank)) } ∧
      t = { s with hd := { s.hd with herds := t.hd.herds }, regs := t.regs }) ∧
  (∀ (h gone : Nat) (d : Herd) (s : State), working s = true → s.cf.fencedAt < s.tick.count.toNat →
    mapGet s.hd.herds h = some d →
    d.active.find? (fun j => !((activeRanks s d d.active).contains j)) = some gone →
    ∃ t d', exec (.herdMembershipChange h) s = .next t ∧ mapGet t.hd.herds h = some d' ∧
      d'.active = activeRanks s d d.active ∧ d'.gen = d.gen + 1 ∧ d'.members = d.members ∧
      (rg t Reg.GX_HD_EVENTS).getLsbD 0 = true ∧
      (∀ n c, mapGet d.colls n = some c → c.begun = true → c.abort = none → c.decision ≠ some 2 →
        collOf t h n = some { c with abort := some (1, gone) }) ∧ t.mem = s.mem ∧ t.tp = s.tp ∧ t.q = s.q) ∧
  (∀ (h n st detail aux : Nat) (d : Herd) (c : Coll) (o : Op) (s : State), working s = true → mapGet s.hd.herds h = some d →
    collOf s h n = some c → collVerdict s d c = some (st, detail, aux) → opAt s c.ring c.slot = some o → o.head = c.slot →
    o.done = none → unflushed s (.run (opKey c.ring c.slot)) = [] →
    ∃ t, exec (.collectiveComplete h n) s = .next t ∧ endsWith t c.ring c.slot st ∧ collOf t h n = none ∧
      (st = stOk → counted s t Reg.GX_HD_DONE_CNT 1) ∧ (st = stMemberFenced → counted s t Reg.GX_HD_FENCED_CNT 1) ∧
      t.mem = s.mem ∧ t.tp = s.tp)

/-- HERD_PIECE_RECEIVE, HERD_SKIP_RECEIVE, HERD_VOTE_RECEIVE, HERD_ABORT_RECEIVE, HERD_COMMIT_RECEIVE and HERD_DECIDE_ABORT_RECEIVE (R301, R305 to R309):
the oldest SEND leaves with its position; a piece of an S step that others still owe is staged, a SKIP does nothing else, a VOTE is noted, an ABORT aborts, COMMIT
and DECIDE_ABORT are the decision; a SEND that is not the one expected aborts the collective, by FENCED where only its GEN differs. -/
def Obligations.HerdMessagesAreTaken : Prop :=
  (∀ (cmd : Instr) (qpn code h j : Nat) (m : HerdMsg) (d : Herd) (p : HerdPos) (c : Coll) (s : State),
    (cmd, code) ∈ [(.herdSkipReceive qpn, 1), (.herdVoteReceive qpn, 2), (.herdAbortReceive qpn, 3),
      (.herdCommitReceive qpn, 4), (.herdDecideAbortReceive qpn, 5)] →
    working s = true → NextWord s qpn m h d p c j → fld m.imm 31 28 = code → tailCheck c p m = 0 → c.decision = none →
    c.abort = none →
    ∃ t, exec cmd s = .next t ∧ t.hd.inbox = s.hd.inbox.filter (fun x => !(x.qpn == qpn && x.ssn == m.ssn)) ∧
      collOf t h p.seq = some (match code with
        | 2 => { c with votes := insertNew c.votes j }
        | 3 => { c with abort := some (min 1 (fld m.imm 27 24), j) }
        | 4 => { c with decision := some 2 }
        | 5 => { c with decision := some (min 1 (fld m.imm 27 24)), abort := some (min 1 (fld m.imm 27 24), j) }
        | _ => c) ∧
      t = { s with hd := t.hd, regs := t.regs }) ∧
  (∀ (qpn h j k : Nat) (reads : NMap (BitVec 128)) (m : HerdMsg) (d : Herd) (p : HerdPos) (c : Coll) (us : List (List Byte))
    (s : State), working s = true → NextWord s qpn m h d p c j → fld m.imm 31 28 = 0 → tailCheck c p m = 0 → c.abort = none →
    (stepAt d c p.step).kind = .s →
    unwire c.format false ((pieceUnits (herdRegion s d) d c j d.rank p.step).2 -
      (pieceUnits (herdRegion s d) d c j d.rank p.step).1) m.bytes = some us →
    k ∈ stepFrom d c d.rank p.step → k ≠ j → (p.step, k) ∉ c.got →
    ∃ t, exec (.herdPieceReceive qpn reads) s = .next t ∧
      collOf t h p.seq = some { c with staged := c.staged ++ [(p.step, j, us.flatten)], got := c.got ++ [(p.step, j)] } ∧
      t = { s with hd := t.hd }) ∧
  (∀ (cmd : Instr) (qpn code h j : Nat) (m : HerdMsg) (d : Herd) (p : HerdPos) (c : Coll) (s : State),
    (cmd, code) ∈ [(.herdPieceReceive qpn [], 0), (.herdSkipReceive qpn, 1), (.herdVoteReceive qpn, 2), (.herdAbortReceive qpn, 3),
      (.herdCommitReceive qpn, 4), (.herdDecideAbortReceive qpn, 5)] →
    working s = true → NextWord s qpn m h d p c j → fld m.imm 31 28 = code → tailCheck c p m ≠ 0 → c.decision = none →
    c.abort = none →
    ∃ t, exec cmd s = .next t ∧ (collOf t h p.seq).bind (·.abort) = some (if tailCheck c p m = 1 then 1 else 0, j) ∧
      t.hd.inbox = s.hd.inbox.filter (fun x => !(x.qpn == qpn && x.ssn == m.ssn)) ∧ t = { s with hd := t.hd, regs := t.regs })

/-! ### PCIe -/

/-- The ACC port events, HST_LINK_UP, PCIE_FLUSH_COMPLETE, PCIE_READ_COMPLETION and PCIE_COMPLETION_TIMEOUT (R376, R382 to R386, R390, R394, R567, R568): a port goes DOWN,
TRAINING, ENUMERATING, READY with its BARs assigned; a lost link or a fatal error contains it; ADMIN_DOWN and RESTART act on the indexed port; a flush that returns
lets its work go on, and a failed one fails it; a read's bytes reach its work, all ones at a timeout, which halts the owner of a ring. -/
def Obligations.PciePortsAndAccesses : Prop :=
  (∀ (p : Nat) (s : State), portsServed s = true → p < 4 → (accPort s p).state = .down → (accCtrl s p).getLsbD 0 = false →
    p ∉ s.pins.accPerst →
    ∃ t, exec (.accReceiverDetect p) s = .next t ∧ accPort t p = { accPort s p with state := .training } ∧
      (∀ j, j ≠ p → accPort t j = accPort s j) ∧ t = { s with pc := { s.pc with acc := t.pc.acc } }) ∧
  (∀ (p rate width : Nat) (s : State), portsServed s = true → (accPort s p).state = .training →
    ∃ t, exec (.accLinkUp p rate width) s = .next t ∧
      accPort t p = { accPort s p with state := .enumerating, rate := rate, width := width } ∧
      (∀ j, j ≠ p → accPort t j = accPort s j) ∧ t = { s with pc := { s.pc with acc := t.pc.acc } }) ∧
  (∀ (p vendor device cfg : Nat) (bars : List BarFound) (s : State), portsServed s = true → (accPort s p).state = .enumerating →
    cfg = wfld (rgi s Reg.GX_PC_WIN_CFG (p + 1)) 2 0 →
    ∃ t, exec (.accEnumerate p vendor device bars) s = .next t ∧ (accPort t p).state = .ready ∧
      (accPort t p).bars = assignBars cfg bars ∧ (accPort t p).vendor = vendor ∧ (accPort t p).device = device ∧
      (windowBar cfg bars = none → (accPort t p).winSize = 0) ∧
      (∀ w, windowBar cfg bars = some w → w.is64 = true → (accPort t p).winBase = 0x10000000000 ∧ (accPort t p).winSize = w.size) ∧
      (rg t Reg.GX_PC_EVENTS).getLsbD 0 = true ∧ (∀ j, j ≠ p → accPort t j = accPort s j) ∧
      eventsOnly { s with pc := { s.pc with acc := t.pc.acc } } t [Reg.GX_PC_EVENTS]) ∧
  (∀ (p : Nat) (s : State), running s = true → (accPort s p).state = .ready ∨ (accPort s p).state = .enumerating →
    (accPort s p).flush = none → (accPort s p).dirty = [] →
    ∃ t, exec (.accLinkDown p) s = .next t ∧ accPort t p = { accPort s p with state := .contained } ∧
      (rg t Reg.GX_PC_EVENTS).getLsbD 1 = true ∧ (rg t Reg.GX_PC_EVENTS).getLsbD 2 = true ∧
      (∀ j, j ≠ p → accPort t j = accPort s j) ∧
      eventsOnly { s with pc := { s.pc with acc := t.pc.acc } } t [Reg.GX_PC_EVENTS]) ∧
  (∀ (p : Nat) (s : State), running s = true → (accPort s p).state = .ready → (accPort s p).flush = none →
    (accPort s p).dirty = [] →
    ∃ t, exec (.accErrFatal p) s = .next t ∧ accPort t p = { accPort s p with state := .contained } ∧
      counted s t Reg.GX_PC_ERR_MSG_CNT 1 ∧ (rg t Reg.GX_PC_EVENTS).getLsbD 4 = true ∧
      (rg t Reg.GX_PC_EVENTS).getLsbD 2 = true ∧
      eventsOnly { s with pc := { s.pc with acc := t.pc.acc } } t [Reg.GX_PC_EVENTS, Reg.GX_PC_ERR_MSG_CNT]) ∧
  (∀ (c : Instr) (p cnt bit : Nat) (s : State),
    (c, cnt, bit) ∈ [(.accErrorMessage p, Reg.GX_PC_ERR_MSG_CNT, 4), (.accRequestReceive p, Reg.GX_PC_UR_CNT, 3)] →
    running s = true → (accPort s p).state = .ready ∨ (accPort s p).state = .enumerating →
    ∃ t, exec c s = .next t ∧ counted s t cnt 1 ∧ (rg t Reg.GX_PC_EVENTS).getLsbD bit = true ∧
      eventsOnly s t [Reg.GX_PC_EVENTS, cnt]) ∧
  (∀ (v : Word) (p : Nat) (s : State), running s = true → v.getLsbD 0 = true → v.getLsbD 1 = false → accIndexed s = some p →
    (accPort s p).flush = none → (accPort s p).dirty = [] →
    ∃ t, exec (.accAdminDown v) s = .next t ∧ accPort t p = { accPort s p with state := .down } ∧ accCtrl t p = v &&& 0xD ∧
      (∀ j, j ≠ p → accPort t j = accPort s j) ∧ t = { s with pc := { s.pc with acc := t.pc.acc }, regs := t.regs }) ∧
  (∀ (v : Word) (p : Nat) (s : State), running s = true → v.getLsbD 1 = true → accIndexed s = some p →
    (accPort s p).state = .down ∨ (accPort s p).state = .contained →
    ∃ t, exec (.accRestart v) s = .next t ∧ accPort t p = { accPort s p with state := .training } ∧ accCtrl t p = v &&& 0xD ∧
      t.out = s.out ++ (if (accPort s p).state = .contained then [.accPerst p true, .accPerst p false] else []) ∧
      (∀ j, j ≠ p → accPort t j = accPort s j)) ∧
  (∀ (rate width : Nat) (s : State), powered s = true → s.pc.hstUp = false →
    ∃ t, exec (.hstLinkUp rate width) s = .next t ∧ t.pc = { s.pc with hstUp := true, hstRate := rate, hstWidth := width } ∧
      t.pins = { s.pins with hstPerst := false } ∧ (rg t Reg.GX_PC_EVENTS).getLsbD 0 = true ∧
      eventsOnly { s with pc := t.pc, pins := t.pins } t [Reg.GX_PC_EVENTS]) ∧
  (∀ (p ring slot : Nat) (o : Op) (s : State), working s = true → slot < 65536 → (accPort s p).state = .ready →
    (accPort s p).flush = some [.run (opKey ring slot)] → (accPort s p).waiting = [.run (opKey ring slot)] →
    (accPort s p).dirty = [] → opAt s ring slot = some o → o.head = slot → o.flush = [p] → runOf s (opKey ring slot) = none →
    ∃ t o', exec (.pcieFlushComplete p true) s = .next t ∧
      accPort t p = { accPort s p with flush := none, waiting := [] } ∧ opAt t ring slot = some o' ∧ o'.flush = [] ∧
      o'.done = o.done ∧ (∀ j, j ≠ p → accPort t j = accPort s j)) ∧
  (∀ (p ring slot : Nat) (o : Op) (k : Completion) (s : State), working s = true → slot < 65536 → (accPort s p).state = .ready →
    (accPort s p).flush = some [.run (opKey ring slot)] → (accPort s p).waiting = [.run (opKey ring slot)] →
    (accPort s p).dirty = [] → opAt s ring slot = some o → o.head = slot → o.flush = [p] → o.done = some k →
    runOf s (opKey ring slot) = none →
    ∃ t, exec (.pcieFlushComplete p false) s = .next t ∧ endsWith t ring slot stMemUncorrectable ∧
      (rg t Reg.GX_PC_EVENTS).getLsbD 7 = true ∧ (accPort t p).flush = none ∧ (accPort t p).waiting = []) ∧
  (∀ (owner addr len : Nat) (bs : List Byte) (s : State), working s = true → runOf s owner = none →
    ∃ t, exec (.pcieReadCompletion (.data owner addr len) 0 bs) s = .next t ∧
      t = { s with pc := { s.pc with got := s.pc.got ++ [⟨owner, addr, bs.take len, false⟩] } }) ∧
  (∀ (owner addr len : Nat) (bs : List Byte) (s : State), working s = true → runOf s owner = none →
    ∃ t, exec (.pcieReadCompletion (.data owner addr len) 1 bs) s = .next t ∧
      t.pc = { s.pc with got := s.pc.got ++ [⟨owner, addr, bs.take len, true⟩] } ∧ counted s t Reg.GX_PC_POISON_CNT 1 ∧
      (rg t Reg.GX_PC_EVENTS).getLsbD 6 = true ∧
      eventsOnly { s with pc := t.pc } t [Reg.GX_PC_EVENTS, Reg.GX_PC_POISON_CNT]) ∧
  (∀ (owner addr len : Nat) (s : State), working s = true → runOf s owner = none →
    ∃ t, exec (.pcieCompletionTimeout (.data owner addr len)) s = .next t ∧
      t.pc = { s.pc with got := s.pc.got ++ [⟨owner, addr, List.replicate len 0xFF, true⟩] } ∧
      counted s t Reg.GX_PC_CPL_TIMEOUT_CNT 1 ∧ (rg t Reg.GX_PC_EVENTS).getLsbD 5 = true ∧
      eventsOnly { s with pc := t.pc } t [Reg.GX_PC_EVENTS, Reg.GX_PC_CPL_TIMEOUT_CNT]) ∧
  (∀ (ring slot : Nat) (g : Ring) (s : State), working s = true → 2 ≤ ring → ringOf s ring = some g →
    (inst s g.inst).state = .ready → (inst s g.inst).freeze = none → (inst s g.inst).thaw = none →
    ∃ t, exec (.pcieCompletionTimeout (.ring ring slot)) s = .next t ∧ (inst t g.inst).state = .halted ∧
      (inst t g.inst).reason = 9 ∧ (rg t Reg.GX_Q_EVENTS).getLsbD 0 = true)

/-! ### Check values and keys -/

/-- CV_CLEAR, CV_START, CV_STOP, CV_STREAM_BOUNDARY, CV_CONFIG_WRITE and CV_BYTES_LO_READ (R397 to R402, R518): on the selected unit CLEAR sets RUNNING to
INIT and BYTES to 0, START arms, STOP stops with a snapshot and DONE, at once or at the next boundary, which starts an armed unit;
configuration is written while it is STOPPED; a read of BYTES takes a snapshot; a fenced or tested unit rejects control writes. -/
def Obligations.CheckValueUnits : Prop :=
  (∀ (u : Nat) (s : State), running s = true → u = cvSel s → cvFenced s u = false → (cvUnit s u).testing = false →
    (cvUnit s u).state = .stopped →
    ∃ t, exec .cvClear s = .next t ∧ (cvUnit t u).running = BitVec.ofNat 64 (cvParams s u).init ∧ (cvUnit t u).bytes = 0 ∧
      (cvUnit t u).snapBytes = 0 ∧ (cvUnit t u).state = .stopped ∧ (∀ j, j ≠ u → cvUnit t j = cvUnit s j) ∧
      t = { s with cv := t.cv }) ∧
  (∀ (u : Nat) (s : State), running s = true → u = cvSel s → cvFenced s u = false → (cvUnit s u).testing = false →
    (cvUnit s u).state = .stopped → cvStartBad s u = false →
    ∃ t, exec .cvStart s = .next t ∧ cvUnit t u = { cvUnit s u with state := .armed } ∧
      (∀ j, j ≠ u → cvUnit t j = cvUnit s j) ∧ t = { s with cv := t.cv }) ∧
  (∀ (u : Nat) (s : State), running s = true → u = cvSel s → cvFenced s u = false → (cvUnit s u).testing = false →
    (cvUnit s u).state = .armed →
    ∃ t, exec .cvStop s = .next t ∧ cvUnit t u = { cvSnap (cvParams s u) (cvUnit s u) with state := .stopped } ∧
      (rg t Reg.GX_CV_DONE).getLsbD u = true ∧ eventsOnly { s with cv := t.cv } t [Reg.GX_CV_DONE]) ∧
  (∀ (u : Nat) (s : State), running s = true → u = cvSel s → cvFenced s u = false → (cvUnit s u).testing = false →
    (cvUnit s u).state = .running →
    ∃ t, exec .cvStop s = .next t ∧ cvUnit t u = { cvUnit s u with state := .stopping } ∧ t = { s with cv := t.cv }) ∧
  (∀ (c : Instr) (s : State), c ∈ [.cvClear, .cvStart, .cvStop] → running s = true →
    cvFenced s (cvSel s) = true ∨ (cvUnit s (cvSel s)).testing = true →
    ∃ t, exec c s = .next t ∧ (rg t Reg.GX_CV_EVENTS).getLsbD 0 = true ∧ eventsOnly s t [Reg.GX_CV_EVENTS]) ∧
  (∀ (source index u : Nat) (c : CvUnit) (s : State), running s = true → u < 32 → s.cv = [(u, c)] → c.state = .armed →
    cvWatches s u source index false = true →
    ∃ t, exec (.cvStreamBoundary source index) s = .next t ∧ cvUnit t u = { c with state := .running } ∧
      t = { s with cv := t.cv }) ∧
  (∀ (source index u : Nat) (c : CvUnit) (s : State), running s = true → u < 32 → s.cv = [(u, c)] → c.state = .stopping →
    cvWatches s u source index false = true →
    ∃ t, exec (.cvStreamBoundary source index) s = .next t ∧ cvUnit t u = { cvSnap (cvParams s u) c with state := .stopped } ∧
      (rg t Reg.GX_CV_DONE).getLsbD u = true ∧ eventsOnly { s with cv := t.cv } t [Reg.GX_CV_DONE]) ∧
  (∀ (off u : Nat) (v : Word) (s : State), running s = true → u = cvSel s → cvFenced s u = false →
    (cvUnit s u).state = .stopped → off ∈ cvConfigRegs →
    ∃ t, exec (.cvConfigWrite off v) s = .next t ∧ rgi t off u = v &&& ((regInfo off).map (·.rw)).getD 0 ∧
      (∀ k, k ≠ regKey off u → regAt t k = regAt s k) ∧ t = { s with regs := t.regs }) ∧
  (∀ (off u : Nat) (v : Word) (s : State), running s = true → u = cvSel s → cvFenced s u = false →
    (cvUnit s u).state = .stopped → off = Reg.GX_CV_RUNNING_LO → (cvParams s u).width = 32 →
    ∃ t, exec (.cvConfigWrite off v) s = .next t ∧ (cvUnit t u).running = v.setWidth 64 ∧
      (cvUnit t u).bytes = (cvUnit s u).bytes ∧ t = { s with cv := t.cv }) ∧
  (∀ (u : Nat) (s : State), running s = true → u = cvSel s →
    ∃ t, exec .cvBytesLoRead s = .next t ∧ cvUnit t u = cvSnap (cvParams s u) (cvUnit s u) ∧
      (cvUnit t u).snapBytes = (cvUnit s u).bytes ∧
      t.out = s.out ++ [.readData (((cvUnit s u).bytes.setWidth 32).setWidth 64)] ∧ t = { s with cv := t.cv, out := t.out })

/-- KEY_LOAD, KEY_REKEY, KEY_ERASE and KEY_CHANGE_APPLY (R411 to R415): a load that R414 does not refuse fills the slot, ACTIVE, as its body and record
say; a refused one changes no slot; a rekey and an erasure take effect once nothing holds a charge against the slot, and wait until then. -/
def Obligations.KeysAreLoadedChangedAndErased : Prop :=
  (∀ (slot key salt : Nat) (o : Op) (record : BitVec 512) (s : State), keysServed s = true → waitsAt s slot 0x18 o →
    o.started = false → (keyBody o.entry).action = 0 → keyRefused s (keyBody o.entry) = false →
    keyQuota s (keyBody o.entry).inst = false → s.pc.hstUp = true →
    recordReserved (keyBody o.entry) (entryBytes record) = false →
    recordKey s (keyBody o.entry) (entryBytes record) = some (key, salt) →
    ∃ t, exec (.keyLoad slot record false) s = .next t ∧ endsWith t 0 slot stOk ∧
      keySlot t (keyBody o.entry).slot =
        { state := 1, inst := (keyBody o.entry).inst, binding := (keyBody o.entry).binding
          qpn := if (keyBody o.entry).binding ≤ 1 then (keyBody o.entry).qpn else 0, mode := (keyBody o.entry).mode
          aes256 := (keyBody o.entry).aes256, key := BitVec.ofNat 256 key, salt := BitVec.ofNat 32 salt
          limit := (keyBody o.entry).limit } ∧
      (∀ n, n ≠ (keyBody o.entry).slot → keySlot t n = keySlot s n) ∧
      t = { s with ce := { s.ce with slots := t.ce.slots }, q := t.q }) ∧
  (∀ (c : Instr) (slot action : Nat) (o : Op) (record : BitVec 512) (failed : Bool) (s : State),
    (c, action) ∈ [(.keyLoad slot record failed, 0), (.keyRekey slot record failed, 1), (.keyErase slot, 2)] →
    keysServed s = true → waitsAt s slot 0x18 o → o.started = false → (keyBody o.entry).action = action →
    (keySlot s (keyBody o.entry).slot).change = none → keyRefused s (keyBody o.entry) = true →
    ∃ t, exec c s = .next t ∧ endsWith t 0 slot stAborted ∧ t = { s with q := t.q }) ∧
  (∀ (slot key salt n : Nat) (o : Op) (record : BitVec 512) (s : State), keysServed s = true → waitsAt s slot 0x18 o →
    o.started = false → (keyBody o.entry).action = 1 → n = (keyBody o.entry).slot → (keySlot s n).change = none →
    keyRefused s (keyBody o.entry) = false → s.pc.hstUp = true →
    recordReserved (keyBody o.entry) (entryBytes record) = false →
    recordKey s (keyBody o.entry) (entryBytes record) = some (key, salt) → chargeHeld s n = false → s.tp.runs = [] →
    ∃ t, exec (.keyRekey slot record false) s = .next t ∧ endsWith t 0 slot stOk ∧
      keySlot t n = { keySlot s n with state := 1, key := BitVec.ofNat 256 key, salt := BitVec.ofNat 32 salt
                                       limit := (keyBody o.entry).limit, used := 0, invocation := 0, messages := 0
                                       change := none } ∧
      (∀ j, j ≠ n → keySlot t j = keySlot s j) ∧ t = { s with ce := { s.ce with slots := t.ce.slots }, q := t.q }) ∧
  (∀ (slot n : Nat) (o : Op) (s : State), keysServed s = true → waitsAt s slot 0x18 o → o.started = false →
    (keyBody o.entry).action = 2 → n = (keyBody o.entry).slot → (keySlot s n).change = none →
    keyRefused s (keyBody o.entry) = false → chargeHeld s n = false → s.tp.runs = [] →
    ∃ t, exec (.keyErase slot) s = .next t ∧ endsWith t 0 slot stOk ∧ keySlot t n = {} ∧
      (∀ j, j ≠ n → keySlot t j = keySlot s j) ∧ t = { s with ce := { s.ce with slots := t.ce.slots }, q := t.q }) ∧
  (∀ (slot n : Nat) (o : Op) (s : State), keysServed s = true → waitsAt s slot 0x18 o → o.started = false →
    (keyBody o.entry).action = 2 → n = (keyBody o.entry).slot → (keySlot s n).change = none →
    keyRefused s (keyBody o.entry) = false → chargeHeld s n = true →
    ∃ t c, exec (.keyErase slot) s = .next t ∧ keySlot t n = { keySlot s n with change := some c } ∧ c.slot = slot ∧
      c.erase = true ∧ (opAt t 0 slot).bind (·.done) = none ∧ t = { s with ce := { s.ce with slots := t.ce.slots }, q := t.q }) ∧
  (∀ (n : Nat) (c : KeyChange) (o : Op) (s : State), keysServed s = true → (keySlot s n).change = some c →
    chargeHeld s n = false → opAt s 0 c.slot = some o → o.head = c.slot → o.done = none → s.tp.runs = [] →
    ∃ t, exec (.keyChangeApply n) s = .next t ∧ endsWith t 0 c.slot stOk ∧
      keySlot t n = (if c.erase then {} else { keySlot s n with state := 1, key := c.key, salt := c.salt
                                                                limit := c.limit, used := 0, invocation := 0
                                                                messages := 0, change := none }) ∧
      (∀ j, j ≠ n → keySlot t j = keySlot s j) ∧ t = { s with ce := { s.ce with slots := t.ce.slots }, q := t.q })

/-! ### Instances -/

/-- INSTANCE_RESET in its modes, INSTANCE_RESET_COMPLETE, FLR_VF, VF_ENABLE_CHANGE, and FREEZE and THAW (R430, R440 to R450): a reset puts the instance into RESETTING
in its mode, a DRAIN that meets a SQUASH becomes one; it ends READY, or DISABLED, its keys gone and its memory wiped if asked; a virtual function exists as
the host enables it; FREEZE waits for its edge, FREEZING ends FROZEN once nothing is under way, THAW makes READY. -/
def Obligations.InstancesAreResetFrozenAndThawed : Prop :=
  (∀ (c : Instr) (slot code n : Nat) (mode : ResetMode) (o : Op) (s : State),
    (c, code, mode) ∈ [(.instanceResetDrain slot, 0, .drain), (.instanceResetSquash slot, 1, .squash),
      (.instanceResetDiscard slot, 2, .discard)] → working s = true → waitsAt s slot 0x19 o → ef o.entry 18 1 = code →
    o.started = false → n = bodyInst o.entry → (inst s n).state ≠ .disabled → (mode = .discard → (inst s n).state = .frozen) →
    (inst s n).reset = none →
    ∃ t, exec c s = .next t ∧ (inst t n).state = .resetting ∧
      (inst t n).reset = some ⟨mode, ef o.entry 19 1 % 2 == 1, [slot]⟩ ∧ (∀ j, j ≠ n → inst t j = inst s j)) ∧
  (∀ (slot n : Nat) (o : Op) (r : ResetRun) (s : State), working s = true → waitsAt s slot 0x19 o → ef o.entry 18 1 = 1 →
    o.started = false → n = bodyInst o.entry → (inst s n).state = .resetting → (inst s n).reset = some r → r.mode = .drain →
    ∃ t, exec (.instanceResetSquash slot) s = .next t ∧
      (inst t n).reset = some ⟨.squash, r.wipe || ef o.entry 19 1 % 2 == 1, r.slots ++ [slot]⟩) ∧
  (∀ (c : Instr) (slot code : Nat) (o : Op) (s : State),
    (c, code) ∈ [(.instanceResetDrain slot, 0), (.instanceResetSquash slot, 1), (.instanceResetDiscard slot, 2)] →
    working s = true → waitsAt s slot 0x19 o → ef o.entry 18 1 = code → o.started = false →
    (inst s (bodyInst o.entry)).state = .disabled ∨ code = 2 ∧ (inst s (bodyInst o.entry)).state = .ready →
    ∃ t, exec c s = .next t ∧ endsWith t 0 slot stAborted ∧ t = { s with q := t.q }) ∧
  (∀ (n slot : Nat) (wipe : Bool) (scans : List RingScan) (o : Op) (s : State), working s = true →
    (inst s n).state = .resetting → (inst s n).reset = some ⟨.drain, wipe, [slot]⟩ → workQuiet (instRing s n) s = true →
    instRings s n = [] → instQps s n = [] → (∀ h ∈ s.hd.herds, h.2.inst ≠ n) → (∀ k ∈ s.ce.slots, k.2.inst = n → k.2.change = none) →
    s.lz.unitActions = [] → opAt s 0 slot = some o → o.head = slot → o.done = none →
    ∃ t, exec (.instanceResetComplete n scans) s = .next t ∧ endsWith t 0 slot stOk ∧
      inst t n = { state := if instShould s n then .ready else .disabled } ∧ (∀ j, j ≠ n → inst t j = inst s j) ∧
      (rg t Reg.GX_VI_EVENTS).getLsbD 3 = true ∧ (∀ k ∈ t.ce.slots, k.2.inst ≠ n) ∧ (wipe = false → t.mem = s.mem) ∧
      (wipe = true → ∀ g ∈ instWindow s n 0 ++ instWindow s n 1, ∀ i, i < granuleBytes →
        byteAt t.mem.bytes (granuleStart g + i) = 0)) ∧
  (∀ (n : Nat) (s : State), working s = true → n ≠ 0 → (inst s n).state ≠ .disabled → (inst s n).reset = none →
    ∃ t, exec (.flrVf n) s = .next t ∧ (inst t n).state = .resetting ∧ (inst t n).reset = some ⟨.squash, false, []⟩ ∧
      regAt t (pageKey Reg.GX_INST_INT_ENABLE n) = 0 ∧ regAt t (pageKey Reg.GX_INST_INT_VECTOR n) = 0 ∧
      (∀ e ∈ t.gl.msixTable, e.1 / 1024 ≠ n) ∧ n ∉ t.gl.msixOn) ∧
  (∀ (enable : Bool) (numVfs n : Nat) (s s' : State), working s = true →
    s' = { s with vi := { s.vi with vfEnable := enable, numVfs := numVfs } } → n ≠ 0 → (instFlock s.lz.run n).isSome = true →
    ∃ t, exec (.vfEnableChange enable numVfs) s = .next t ∧ t.vi.vfEnable = enable ∧ t.vi.numVfs = numVfs ∧
      (instShould s' n = true → (inst s n).state = .disabled → (inst t n).state = .ready) ∧
      (instShould s' n = true → (inst s n).state ≠ .disabled → inst t n = inst s n) ∧
      (instShould s' n = false → (inst s n).state = .disabled → inst t n = inst s n) ∧
      (instShould s' n = false → (inst s n).state ≠ .disabled → (inst s n).reset = none → (inst t n).state = .resetting)) ∧
  (∀ (slot n : Nat) (o : Op) (s : State), working s = true → waitsAt s slot 0x1A o → ef o.entry 18 1 = 0 → o.started = false →
    n = bodyInst o.entry → (inst s n).state = .ready → instBonded s n = false → (inst s n).freeze = none →
    (ef o.entry 24 8 = 0 ∨ s.tick.count.toNat < ef o.entry 24 8) →
    ∃ t, exec (.instanceFreeze slot) s = .next t ∧ inst t n = { inst s n with
        freeze := some (slot, if ef o.entry 24 8 = 0 then s.tick.count + 1 else BitVec.ofNat 64 (ef o.entry 24 8)) } ∧
      (∀ j, j ≠ n → inst t j = inst s j) ∧ (opAt t 0 slot).bind (·.done) = none ∧
      t = { s with vi := { s.vi with insts := t.vi.insts }, q := t.q }) ∧
  (∀ (slot n : Nat) (o : Op) (s : State), working s = true → waitsAt s slot 0x1A o → ef o.entry 18 1 = 0 → o.started = false →
    n = bodyInst o.entry → (inst s n).state ≠ .ready ∨ instBonded s n = true ∨
      ef o.entry 24 8 ≠ 0 ∧ ef o.entry 24 8 ≤ s.tick.count.toNat →
    ∃ t, exec (.instanceFreeze slot) s = .next t ∧ endsWith t 0 slot stAborted ∧ t = { s with q := t.q }) ∧
  (∀ (n slot : Nat) (edge : BitVec 64) (s : State), working s = true → (inst s n).freeze = some (slot, edge) →
    (inst s n).state = .ready → edge ≤ s.tick.count → drbgReady s = true →
    ∃ t, exec (.freezeActivate n) s = .next t ∧ inst t n = { inst s n with
        state := .freezing, freezeEdge := edge, migrationId := (Config.drbg s.sec.drbgCount).setWidth 64 } ∧
      (∀ j, j ≠ n → inst t j = inst s j) ∧ t.mem = s.mem ∧ t.tp = s.tp ∧ t.q = s.q) ∧
  (∀ (n slot : Nat) (edge : BitVec 64) (o : Op) (s : State), working s = true → (inst s n).freeze = some (slot, edge) →
    (inst s n).state = .freezing → frozenDue s n = true → opAt s 0 slot = some o → o.head = slot → o.done = none →
    ∃ t, exec (.freezeComplete n) s = .next t ∧ endsWith t 0 slot stOk ∧
      inst t n = { inst s n with state := .frozen, freeze := none } ∧ (∀ j, j ≠ n → inst t j = inst s j) ∧ t.mem = s.mem) ∧
  (∀ (slot n : Nat) (o : Op) (s : State), working s = true → waitsAt s slot 0x1A o → ef o.entry 18 1 = 1 → o.started = false →
    n = bodyInst o.entry → (inst s n).state = .frozen → (inst s n).thaw = none → instOps s n 0x1B = [] → instOps s n 0x1C = [] →
    ∃ t, exec (.instanceThaw slot) s = .next t ∧ inst t n = { inst s n with thaw := some (slot, s.tick.count) } ∧
      (∀ j, j ≠ n → inst t j = inst s j) ∧ (opAt t 0 slot).bind (·.done) = none ∧
      t = { s with vi := { s.vi with insts := t.vi.insts }, q := t.q }) ∧
  (∀ (n slot : Nat) (since : BitVec 64) (o : Op) (s : State), working s = true → (inst s n).thaw = some (slot, since) →
    (inst s n).state = .frozen → since < s.tick.count → opAt s 0 slot = some o → o.head = slot → o.done = none →
    ∃ t, exec (.thawActivate n) s = .next t ∧ endsWith t 0 slot stOk ∧
      inst t n = { inst s n with state := .ready, thaw := none, restored := false } ∧
      (∀ j, j ≠ n → inst t j = inst s j) ∧
      (∀ r g, 2 ≤ r → ringOf s r = some g → g.inst = n → ringOf t r = some { g with interval := g.pollInt, polled := true }) ∧
      t.mem = s.mem ∧ t.tp = s.tp)

/-- MBX_OUT_POST, MBX_OUT_TAKEN, MBX_IN_POST, MBX_IN_DONE, MBX_BUFFER_WRITE, and the parts of INSTANCE_SAVE and INSTANCE_RESTORE (R434 to R437, R451 to R457): a FULL bit
is set by a post and cleared by its taking, each with its event, and a buffer is written only while it is 0; a remote SAVE sends the sealed part as a
WRITE; a RESTORE that opens well and fits writes what the part holds, a STATE part leaving the instance FROZEN; one that is refused changes nothing. -/
def Obligations.MailboxesAndMigration : Prop :=
  (∀ (n : Nat) (s : State), mailbox s n = true → (inst s n).outFull = false →
    ∃ t, exec (.mbxOutPost n) s = .next t ∧ inst t n = { inst s n with outFull := true } ∧
      (n ≠ 0 → (rg t Reg.GX_VI_EVENTS).getLsbD 0 = true) ∧
      eventsOnly { s with vi := { s.vi with insts := t.vi.insts } } t [Reg.GX_VI_EVENTS]) ∧
  (∀ (n : Nat) (s : State), mailbox s n = true → (inst s n).outFull = true →
    ∃ t, exec (.mbxOutTaken n) s = .next t ∧ inst t n = { inst s n with outFull := false } ∧
      (regAt t (pageKey Reg.GX_INST_INT_STATUS n)).getLsbD 1 = true ∧
      eventsOnly { s with vi := { s.vi with insts := t.vi.insts } } t [pageKey Reg.GX_INST_INT_STATUS n]) ∧
  (∀ (n : Nat) (s : State), mailbox s n = true → (inst s n).inFull = false →
    ∃ t, exec (.mbxInPost n) s = .next t ∧ inst t n = { inst s n with inFull := true } ∧
      (regAt t (pageKey Reg.GX_INST_INT_STATUS n)).getLsbD 0 = true ∧
      eventsOnly { s with vi := { s.vi with insts := t.vi.insts } } t [pageKey Reg.GX_INST_INT_STATUS n]) ∧
  (∀ (n : Nat) (s : State), mailbox s n = true → (inst s n).inFull = true →
    ∃ t, exec (.mbxInDone n) s = .next t ∧ inst t n = { inst s n with inFull := false } ∧
      (n ≠ 0 → (rg t Reg.GX_VI_EVENTS).getLsbD 1 = true) ∧
      eventsOnly { s with vi := { s.vi with insts := t.vi.insts } } t [Reg.GX_VI_EVENTS]) ∧
  (∀ (n off : Nat) (inbound : Bool) (v : Word) (s : State), mailbox s n = true → off < 2048 → off % 4 = 0 →
    (if inbound then (inst s n).inFull else (inst s n).outFull) = false →
    ∃ t i, exec (.mbxBufferWrite n inbound off v) s = .next t ∧ inst t n = i ∧
      (mapGet (if inbound then i.mboxIn else i.mboxOut) off).getD 0 = v ∧
      (inbound = true → i = { inst s n with mboxIn := i.mboxIn } ∧
        ∀ a, a ≠ off → mapGet i.mboxIn a = mapGet (inst s n).mboxIn a) ∧
      (inbound = false → i = { inst s n with mboxOut := i.mboxOut } ∧
        ∀ a, a ≠ off → mapGet i.mboxOut a = mapGet (inst s n).mboxOut a) ∧
      (∀ j, j ≠ n → inst t j = inst s j) ∧ t = { s with vi := { s.vi with insts := t.vi.insts } }) ∧
  (∀ (n off : Nat) (inbound : Bool) (v : Word) (s : State),
    (if inbound then (inst s n).inFull else (inst s n).outFull) = true → exec (.mbxBufferWrite n inbound off v) s = .next s) ∧
  (∀ (slot n k : Nat) (reads : NMap (BitVec 128)) (o : Op) (plain : List Byte) (s s1 : State), working s = true →
    waitsAt s slot 0x1B o → ef o.entry 18 1 = 0 → runOf s (opKey 0 slot) = none → n = bodyInst o.entry →
    saveRefused s o.entry n 0 (96 + (stateBody s n).length) = false → ef o.entry 19 1 % 2 = 1 → k = ef o.entry 20 2 - 1 →
    chargeWaits s k = false → plain = partHeader s n 0 0 0 (stateBody s n).length ++ stateBody s n →
    charge k (sealBlocks (keySlot s k) plain.length) (markStarted 0 slot s) = (s1, true) →
    ∃ s' r, exec (.instanceSaveState slot reads) s = .next (progressRun (opKey 0 slot) s') ∧ runOf s' (opKey 0 slot) = some r ∧
      r.kind = .write ∧ r.data = some (sealBlob (keySlot s1 k) 0 plain) ∧ r.qpn = ef o.entry 22 2 ∧ r.force = 0 ∧
      (keySlot s' k).invocation = (keySlot s k).invocation + 1 ∧ s'.mem = s.mem) ∧
  (∀ (slot n k part first count : Nat) (reads : NMap (BitVec 128)) (o : Op) (plain : List Byte) (s s1 : State), working s = true →
    waitsAt s slot 0x1B o → part = ef o.entry 18 1 → part ≠ 0 → runOf s (opKey 0 slot) = none → n = bodyInst o.entry →
    first = ef o.entry 24 4 → count = ef o.entry 28 4 → count ≠ 0 →
    saveRefused s o.entry n part (96 + count * granuleBytes) = false → ef o.entry 19 1 % 2 = 1 → k = ef o.entry 20 2 - 1 →
    chargeWaits s k = false →
    plain = partHeader s n part first count (memBody s n part first count).1.length ++ (memBody s n part first count).1 →
    charge k (sealBlocks (keySlot s k) plain.length) (markStarted 0 slot s) = (s1, true) →
    ∃ s' r, exec (.instanceSaveMemory slot reads) s = .next (progressRun (opKey 0 slot) s') ∧ runOf s' (opKey 0 slot) = some r ∧
      r.kind = .write ∧ r.data = some (sealBlob (keySlot s1 k) 0 plain) ∧ r.qpn = ef o.entry 22 2 ∧
      r.force = (if (memBody s n part first count).2 then stMemUncorrectable else 0) ∧ s'.mem = s.mem) ∧
  (∀ (slot part : Nat) (reads : NMap (BitVec 128)) (o : Op) (s : State), working s = true → waitsAt s slot 0x1B o →
    part = ef o.entry 18 1 → part ≠ 0 → runOf s (opKey 0 slot) = none → ef o.entry 28 4 = 0 →
    ∃ t, exec (.instanceSaveMemory slot reads) s = .next t ∧ t = { s with q := t.q } ∧
      endsWith t 0 slot (if saveRefused s o.entry (bodyInst o.entry) part 96 then stAborted else stOk)) ∧
  (∀ (slot n sa va len : Nat) (reads : NMap (BitVec 128)) (table : List (BitVec 128)) (o o' : Op) (pages : List PageMap)
    (blob plain : List Byte) (pad : Nat) (b : StateBody) (s s1 s2 s3 : State), working s = true → waitsAt s slot 0x1C o →
    ef o.entry 18 1 = 0 → n = bodyInst o.entry → sa = ef o.entry 20 2 → va = ef o.entry 40 8 → len = ef o.entry 48 8 →
    96 ≤ len → targetBad s n = false → instOps s n 0x1C = [] → saSpent s sa = false → tierGcm s sa 3 = true →
    chargeWaits s (sa - 1) = false →
    movePages (ef o.entry 32 4 % 2 ^ 20) va len { read := true } reads (markStarted 0 slot s) = .ok s1 pages →
    readRange s1 (opKey 0 slot) pages va len = .got blob false →
    charge (sa - 1) (sealBlocks (keySlot s1 (sa - 1)) (openLen 4 len)) s1 = (s2, true) →
    s3 = cryptCount (openLen 4 len) (muleMove false false true blob s2) →
    openBlob (keySlot s3 (sa - 1)) blob = (plain, pad, true) → headBad s3 0 plain = false →
    readBody (plain.drop 64) = some b → table.take (ef o.entry 36 2) = [] → bodyRefused s3 n b [] = false →
    bodyOverQuota s3 n b = false → opAt s3 0 slot = some o' → o'.head = slot → o'.done = none →
    unflushed s3 (.run (opKey 0 slot)) = [] →
    ∃ t, exec (.instanceRestoreState slot reads table false) s = .next t ∧ endsWith t 0 slot stOk ∧
      (inst t n).state = .frozen ∧ (inst t n).restored = true ∧ (inst t n).migrationId = BitVec.ofNat 64 (leAt plain 8 8) ∧
      (∀ x ∈ b.rings, ringOf t (ringOfRecord n [] x).1 = some (ringOfRecord n [] x).2) ∧
      (∀ x ∈ b.qps, qpOf t (qpOfRecord n [] x).1 = some (qpOfRecord n [] x).2)) ∧
  (∀ (slot n sa va len part first count : Nat) (reads : NMap (BitVec 128)) (o o' : Op) (pages : List PageMap)
    (blob plain : List Byte) (pad : Nat) (s s1 s2 s3 : State), working s = true → waitsAt s slot 0x1C o →
    part = ef o.entry 18 1 → part ≠ 0 → n = bodyInst o.entry → sa = ef o.entry 20 2 → va = ef o.entry 40 8 →
    len = ef o.entry 48 8 → 96 ≤ len → (inst s n).state = .frozen → (inst s n).restored = true → saSpent s sa = false →
    tierGcm s sa 3 = true → chargeWaits s (sa - 1) = false → windowStalls s n part = false →
    movePages (ef o.entry 32 4 % 2 ^ 20) va len { read := true } reads (markStarted 0 slot s) = .ok s1 pages →
    readRange s1 (opKey 0 slot) pages va len = .got blob false →
    charge (sa - 1) (sealBlocks (keySlot s1 (sa - 1)) (openLen 4 len)) s1 = (s2, true) →
    s3 = cryptCount (openLen 4 len) (muleMove false false true blob s2) →
    openBlob (keySlot s3 (sa - 1)) blob = (plain, pad, true) → headBad s3 part plain = false → first = leAt plain 24 4 →
    count = leAt plain 28 4 → leAt plain 8 8 = (inst s3 n).migrationId.toNat → leAt plain 40 8 = count * granuleBytes →
    first + count ≤ (instWindow s3 n (part - 1)).length → opAt s3 0 slot = some o' → o'.head = slot → o'.done = none →
    unflushed s3 (.run (opKey 0 slot)) = [] →
    ∃ t, exec (.instanceRestoreMemory slot reads) s = .next t ∧ endsWith t 0 slot stOk ∧
      t.mem = (restoreMemory n part first (plain.drop 64) (muleMove true false true (plain.drop 64) s3)).mem) ∧
  (∀ (slot : Nat) (reads : NMap (BitVec 128)) (table : List (BitVec 128)) (failed : Bool) (o : Op) (s : State), working s = true →
    waitsAt s slot 0x1C o → ef o.entry 18 1 = 0 → ef o.entry 48 8 ≠ 0 → targetBad s (bodyInst o.entry) = true →
    ∃ t, exec (.instanceRestoreState slot reads table failed) s = .next t ∧ endsWith t 0 slot stAborted ∧ t = { s with q := t.q })

/-! ### Firmware -/

/-- FW_VERIFY, FW_INSTALL, COMMIT_SVN, LC_CHANGE, KEK_INSTALL, ACTIVATE_ROLLING, ACTIVATE_WARM, RESTART_BANTAM, FW_ACTION_END and FW_ACTIVATION_RESUME (R467, R468, R473,
R477 to R479, R490, R495): an action begins unless another runs, which makes it BUSY, or its length is wrong; it ends with the result of its check, and only a
good one changes flash, the fused version, the life cycle or the KEK; an activation of a pending bank rolls or resets, and waits for the end of an emergency. -/
def Obligations.FirmwareActionsRunAndEnd : Prop :=
  (∀ (c : Instr) (a : FwAction) (s : State), (c, a) ∈ [(.fwVerify, .verify), (.fwInstall, .install), (.commitSvn, .commitSvn),
      (.lcChange, .lcChange), (.kekInstall, .kekInstall)] → fwServed s = true → s.fw.boot = .ready → s.fw.action = none →
    s.fw.deferred = none → bantamBusy s 0 = false → (a = .verify ∨ a = .install → stageLen s ≠ 0) →
    (a = .lcChange → stageLen s = 8340) → (a = .kekInstall → stageLen s = 6724 ∧ s.sec.lc = .deployed) →
    ∃ t, exec c s = .next t ∧
      t = { s with fw := { s.fw with state := 1, result := 0, detail := 0, action := some a, deferred := none } }) ∧
  (∀ (c : Instr) (s : State), c ∈ [.fwVerify, .fwInstall] → fwServed s = true → s.fw.action = none → s.fw.deferred = none →
    bantamBusy s 0 = false → s.fw.boot = .ready → stageLen s = 0 →
    ∃ t, exec c s = .next t ∧ t.fw = { s.fw with state := 3, result := 1, detail := 0, action := none } ∧
      (rg t Reg.GX_FW_EVENTS).getLsbD 0 = true ∧ (rg t Reg.GX_FW_EVENTS).getLsbD 1 = true ∧
      eventsOnly { s with fw := t.fw } t [Reg.GX_FW_EVENTS]) ∧
  (∀ (c : Instr) (b : Nat) (s : State), c ∈ [.fwVerify, .fwInstall, .commitSvn, .lcChange, .kekInstall, .activateRolling,
      .activateWarm, .restartBantam b] → fwServed s = true → s.fw.action ≠ none ∨ s.fw.deferred ≠ none →
    ∃ t, exec c s = .next t ∧ t.fw = { s.fw with result := 7 } ∧ (rg t Reg.GX_FW_EVENTS).getLsbD 0 = true ∧
      (rg t Reg.GX_FW_EVENTS).getLsbD 1 = true ∧ eventsOnly { s with fw := t.fw } t [Reg.GX_FW_EVENTS]) ∧
  (∀ s : State, fwServed s = true → s.fw.boot = .ready → s.fw.action = none → s.fw.deferred = none →
    s.fw.restarting = none → s.fw.waiting = [] → s.fw.pending = true → s.fw.features.getLsbD 0 = true → domainBars s = false →
    s.pw.emergency = false →
    ∃ t, exec .activateRolling s = .next t ∧ t.fw.state = 1 ∧ t.fw.action = some .activateRolling ∧
      t.fw.roll = some { left := [4, 5, 2, 3, 1, 0] } ∧ t.fw.restarting = some 4 ∧ t.fw.restartRoll = true ∧
      counted s t Reg.GX_FW_RESTART_CNT 1 ∧ t = { s with fw := t.fw, regs := t.regs }) ∧
  (∀ s : State, fwServed s = true → s.fw.boot = .ready → s.fw.action = none → s.fw.deferred = none →
    bantamBusy s 0 = false → s.fw.pending = true → domainBars s = false → s.pw.emergency = false → s.fw.coldDue = false →
    ∃ t, exec .activateWarm s = .next t ∧ t.fw = { s.fw with activeB := !s.fw.activeB, pending := false
                                                             warmDue := some 5, boot := .loading } ∧
      t = { s with fw := t.fw, gl := { s.gl with resetCause := 5 } }) ∧
  (∀ (c : Instr) (a : FwAction) (s : State), (c, a) ∈ [(.activateRolling, .activateRolling), (.activateWarm, .activateWarm)] →
    fwServed s = true → s.fw.boot = .ready → s.fw.action = none → s.fw.deferred = none → bantamBusy s 0 = false →
    s.fw.pending = true → s.fw.features.getLsbD 0 = true → domainBars s = false → s.pw.emergency = true →
    ∃ t, exec c s = .next t ∧ t.fw.state = 2 ∧ t.fw.deferred = some a ∧ t.fw.action = none ∧ t.fw.activeB = s.fw.activeB ∧
      (rg t Reg.GX_FW_EVENTS).getLsbD 3 = true) ∧
  (∀ s : State, fwServed s = true → s.fw.deferred = some .activateWarm → s.pw.emergency = false → s.fw.boot = .ready →
    s.fw.coldDue = false →
    ∃ t, exec .fwActivationResume s = .next t ∧ t.fw.activeB = !s.fw.activeB ∧ t.fw.deferred = none ∧
      t.fw.warmDue = some 5 ∧ t.fw.boot = .loading) ∧
  (∀ (b : Nat) (s : State), fwServed s = true → s.fw.boot = .ready → s.fw.action = none → s.fw.deferred = none →
    s.fw.restarting = none → s.fw.waiting = [] → b < 6 →
    ∃ t, exec (.restartBantam b) s = .next t ∧ t.fw.restarting = some b ∧ t.fw.action = some .restartBantam ∧ t.fw.target = b ∧
      t.fw.state = 1 ∧ counted s t Reg.GX_FW_RESTART_CNT 1) ∧
  (∀ (b : Nat) (s : State), fwServed s = true → s.fw.boot = .ready → s.fw.action = none → s.fw.deferred = none →
    bantamBusy s 0 = false → 6 ≤ b →
    ∃ t, exec (.restartBantam b) s = .next t ∧ t.fw = { s.fw with state := 3, result := 5, detail := b, action := none } ∧
      eventsOnly { s with fw := t.fw } t [Reg.GX_FW_EVENTS]) ∧
  (∀ (x : FwEnd) (r : Nat × Nat) (s : State), fwServed s = true → s.fw.action = some .verify →
    r = bundleCheck s x.bytes x.verdict →
    ∃ t, exec (.fwActionEnd x) s = .next t ∧ t.fw = { s.fw with state := 3, result := r.1, detail := r.2, action := none } ∧
      (rg t Reg.GX_FW_EVENTS).getLsbD 0 = true ∧ eventsOnly { s with fw := t.fw } t [Reg.GX_FW_EVENTS]) ∧
  (∀ (x : FwEnd) (s : State), fwServed s = true → s.fw.action = some .install → bundleCheck s x.bytes x.verdict = (0, 0) →
    ∃ t, exec (.fwActionEnd x) s = .next t ∧ t.fw.result = (if x.flashOk then 0 else 9) ∧ t.fw.pending = x.flashOk ∧
      bankOf t (!s.fw.activeB) = (if x.flashOk then some (readBundle x.bytes) else none) ∧
      bankOf t s.fw.activeB = bankOf s s.fw.activeB ∧ t.fw.activeB = s.fw.activeB ∧ t.fw.fusedSvn = s.fw.fusedSvn) ∧
  (∀ (x : FwEnd) (u : Bundle) (s : State), fwServed s = true → s.fw.action = some .commitSvn → activeBundle s = some u →
    ∃ t, exec (.fwActionEnd x) s = .next t ∧ t.fw = { s.fw with fusedSvn := max s.fw.fusedSvn u.svn, state := 3, result := 0
                                                                detail := 0, action := none } ∧
      eventsOnly { s with fw := t.fw } t [Reg.GX_FW_EVENTS]) ∧
  (∀ (x : FwEnd) (s : State), fwServed s = true → s.fw.action = some .lcChange → drbgReady s = true → tokenCheck s x.bytes x.verdict ≠ 0 →
    ∃ t, exec (.fwActionEnd x) s = .next t ∧ t.fw.result = tokenCheck s x.bytes x.verdict ∧ t.fw.state = 3 ∧
      t.sec.lc = s.sec.lc ∧ t.sec.transitionsLeft = s.sec.transitionsLeft ∧ t.sec.nonce = Config.drbg s.sec.drbgCount) ∧
  (∀ (x : FwEnd) (s : State), fwServed s = true → s.fw.action = some .lcChange → drbgReady s = true → tokenCheck s x.bytes x.verdict = 0 →
    leAt x.bytes 7 1 ≠ lcCode s.sec.lc → s.q.rings = [] →
    ∃ t, exec (.fwActionEnd x) s = .next t ∧ t.sec.lc = lcOf (leAt x.bytes 7 1) ∧
      t.sec.transitionsLeft = s.sec.transitionsLeft - 1 ∧ t.fw.coldDue = true ∧ t.fw.boot = .rom ∧
      (leAt x.bytes 7 1 = 2 → t.sec.ownerRows = s.sec.ownerRows + 1 ∧ t.sec.kek = none)) ∧
  (∀ (x : FwEnd) (s : State), fwServed s = true → s.fw.action = some .kekInstall → kekCheck s x.bytes x.verdict = 0 →
    x.flashOk = true →
    ∃ t, exec (.fwActionEnd x) s = .next t ∧ t.sec = { s.sec with kek := some x.kek } ∧ t.fw.result = 0 ∧ t.fw.state = 3 ∧
      eventsOnly { s with fw := t.fw, sec := t.sec } t [Reg.GX_FW_EVENTS])

/-- BANTAM_RESTART_COMPLETE, WATCHDOG_EXPIRY, FW_HELLO, JOIN_DOMAIN, HOST_BEAT, HOST_SILENT and DRBG_RESEED (R473, R474, R481 to R485, R491): a Bantam that comes back ends
its restart, one whose image fails is fatal; a first watchdog restarts its Bantam, one soon after is fatal; a hello is answered with the agreed version;
the adapter joins when no condition is unmet, refuses for a version alone, and leaves without a slot. -/
def Obligations.FirmwareServesTheAdapter : Prop :=
  (∀ (b ms : Nat) (s : State), powered s = true → s.fw.boot = .ready → s.fw.restarting = some b → s.fw.restartRoll = false →
    s.fw.dogs = [] → s.fw.action = some .restartBantam → s.fw.target = b → s.fw.waiting = [] → s.fw.roll = none →
    s.fw.outbox = [] → s.re.captured = [] →
    ∃ t, exec (.bantamRestartComplete true ms) s = .next t ∧ t.fw.restarting = none ∧ t.fw.state = 3 ∧ t.fw.result = 0 ∧
      t.fw.action = none ∧ mapGet t.fw.lastEnd b = some ms ∧
      mapGet t.fw.bantamBank b = some ((mapGet s.fw.bantamBank b).getD s.fw.activeB) ∧
      (b = 1 → ∀ r g, ringOf s r = some g → ringOf t r = some { g with interval := g.pollInt }) ∧ t.mem = s.mem ∧ t.tp = s.tp) ∧
  (∀ (b ms : Nat) (s : State), powered s = true → s.fw.boot = .ready → s.fw.restarting = some b → s.fw.restartRoll = false →
    s.gl.fatalHalt = false → s.re.dumping = false →
    ∃ t, exec (.bantamRestartComplete false ms) s = .next t ∧ counted s t Reg.GX_RE_FATAL_CNT 1 ∧
      (rg t Reg.GX_RE_EVENTS).getLsbD 6 = true ∧ t.fw.restarting = none) ∧
  (∀ (b ms : Nat) (s : State), powered s = true → s.fw.boot = .ready → asleep s = false → s.gl.fatalHalt = false → b < 6 →
    s.fw.restarting = none → s.fw.waiting = [] → mapGet s.fw.lastEnd b = none →
    ∃ t, exec (.watchdogExpiry b ms) s = .next t ∧ t.fw.restarting = some b ∧ t.fw.dogs = s.fw.dogs ++ [b] ∧
      (rg t Reg.GX_FW_EVENTS).getLsbD 4 = true ∧ counted s t Reg.GX_FW_RESTART_CNT 1) ∧
  (∀ (b ms e : Nat) (s : State), powered s = true → s.fw.boot = .ready → asleep s = false → s.gl.fatalHalt = false → b < 6 →
    s.fw.restarting = none → s.fw.waiting = [] → mapGet s.fw.lastEnd b = some e → ms ≤ e + 1000 → s.fw.roll = none →
    s.re.dumping = false →
    ∃ t, exec (.watchdogExpiry b ms) s = .next t ∧ counted s t Reg.GX_RE_FATAL_CNT 1 ∧ t.fw.restarting = none) ∧
  (∀ (m : List Byte) (u : Bundle) (high agreed : Nat) (feats : BitVec 64) (s : State), mailbox s 0 = true →
    (inst s 0).outFull = true → (inst s 0).inFull = true → bantamBusy s 0 = false → activeBundle s = some u →
    m = ((List.range 8).map (fun i => leBytes 4 ((mapGet (inst s 0).mboxOut (4 * i)).getD 0).toNat)).flatten →
    leAt m 0 2 = 0x0101 → leAt m 2 2 = 16 → high = min (leAt m 18 2) u.ifaceHigh →
    agreed = (if max (leAt m 16 2) u.ifaceLow ≤ high then high else 0) → feats = BitVec.ofNat 64 (leAt m 24 8) &&& u.features →
    ∃ t, exec .fwHello s = .next t ∧ t.fw.agreed = agreed ∧ t.fw.features = feats ∧
      t.fw.hello = some (leAt m 16 2, leAt m 18 2, BitVec.ofNat 64 (leAt m 24 8)) ∧ (inst t 0).outFull = false ∧
      (s.fw.outbox = [] → t.fw.outbox = [mailBytes 0x8101 (leAt m 4 4) 0 (leBytes 2 agreed ++ leBytes 2 u.ifaceHigh ++
        leBytes 4 u.release ++ leBytes 8 feats.toNat ++ leBytes 1 u.svn ++ List.replicate 7 0)])) ∧
  (∀ s : State, running s = true → s.fw.joined = false → joinUnmet s = 0 →
    ∃ t, exec .joinDomain s = .next t ∧ t = { s with fw := { s.fw with joined := true, refused := false, mismatch := false } }) ∧
  (∀ s : State, running s = true → s.fw.joined = false → joinUnmet s = 16 → s.fw.refused = false →
    ∃ t, exec .joinDomain s = .next t ∧ t.fw.joined = false ∧ t.fw.refused = true ∧ (rg t Reg.GX_FW_EVENTS).getLsbD 6 = true) ∧
  (∀ s : State, running s = true → s.fw.joined = false → joinUnmet s ≠ 0 → joinUnmet s ≠ 16 →
    ∃ t, exec .joinDomain s = .next t ∧ t = { s with fw := { s.fw with refused := false } }) ∧
  (∀ s : State, running s = true → s.fw.joined = true → anySlot s = false →
    ∃ t, exec .joinDomain s = .next t ∧ t = { s with fw := { s.fw with joined := false } }) ∧
  (∀ (v : Word) (ms : Nat) (s : State), windowUp s = true →
    ∃ t, exec (.hostBeat v ms) s = .next t ∧ rg t Reg.GX_FW_HEARTBEAT = v &&& 0xFFFF0000 ∧ t.fw = { s.fw with beatAt := ms } ∧
      (∀ k, k ≠ Reg.GX_FW_HEARTBEAT → regAt t k = regAt s k) ∧ t = { s with fw := t.fw, regs := t.regs }) ∧
  (∀ (ms limit : Nat) (s : State), running s = true → s.fw.features.getLsbD 3 = true →
    limit = wfld (rg s Reg.GX_FW_HEARTBEAT) 31 16 → limit ≠ 0 → s.fw.beatAt + limit ≤ ms →
    ∃ t, exec (.hostSilent ms) s = .next t ∧ (rg t Reg.GX_FW_EVENTS).getLsbD 7 = true ∧ eventsOnly s t [Reg.GX_FW_EVENTS]) ∧
  (∀ s : State, powered s = true → s.sec.drbgStopped = false → 2 ^ 20 ≤ s.sec.drbgSince →
    ∃ t, exec .drbgReseed s = .next t ∧ t = { s with sec := { s.sec with drbgSince := 0 } })

/-- The SPDM requests and MCTP_CONTROL_MESSAGE (R475, R489, R560): GET_VERSION begins a connection, GET_CAPABILITIES and NEGOTIATE_ALGORITHMS negotiate it; what needs it is
answered then; KEY_EXCHANGE opens a session that a good FINISH establishes and END_SESSION ends; while Bantam 0 restarts every request is answered Busy.  The
error codes are those of DSP0274 (log entry 18). -/
def Obligations.SpdmRequestsAreAnswered : Prop :=
  (∀ (c : Instr) (hst g : Bool) (a b l n : Nat) (s : State), c ∈ [.getVersion hst, .getCapabilities hst a, .negotiateAlgorithms hst g,
      .getDigests hst, .getCertificate hst a b l, .challenge hst a, .getMeasurements hst a, .keyExchange hst a n, .finish hst n g,
      .heartbeat hst n, .keyUpdate hst n, .endSession hst n, .spdmUnsupportedRequest hst] → spdmServed s hst = true →
    bantamBusy s 0 = true →
    ∃ t, exec c s = .next t ∧ t = { s with out := s.out ++ [.spdm hst (.error spdmBusy)] }) ∧
  (∀ (hst : Bool) (s : State), spdmServed s hst = true → bantamBusy s 0 = false →
    ∃ t, exec (.getVersion hst) s = .next t ∧
      t = { s with spdm := { version := 1 }, out := s.out ++ [.spdm hst (.version [0x12, 0x13])] }) ∧
  (∀ (hst : Bool) (v : Nat) (s : State), spdmServed s hst = true → bantamBusy s 0 = false → s.spdm.version ≠ 0 →
    v = 0x12 ∨ v = 0x13 →
    ∃ t, exec (.getCapabilities hst v) s = .next t ∧
      t = { s with spdm := { s.spdm with version := v, gotCapabilities := true }, out := s.out ++ [.spdm hst .capabilities] }) ∧
  (∀ (hst : Bool) (s : State), spdmServed s hst = true → bantamBusy s 0 = false → s.spdm.gotCapabilities = true →
    ∃ t, exec (.negotiateAlgorithms hst true) s = .next t ∧
      t = { s with spdm := { s.spdm with negotiated := true }, out := s.out ++ [.spdm hst .algorithms] }) ∧
  (∀ (c : Instr) (r : SpdmReply) (hst : Bool) (a b i : Nat) (s : State),
    (c, r) ∈ [(.getDigests hst, .digests 1), (.getCertificate hst 0 a b, .certificate 0 a b), (.challenge hst 0, .challengeAuth 0),
      (.getMeasurements hst 0, .measurements [(0, [7])]),
      (.getMeasurements hst 0xFF, .measurements ([1, 2, 3, 4, 5, 6, 7].map (fun k => (k, measureBlock s k)))),
      (.getMeasurements hst (i % 7 + 1), .measurements [(i % 7 + 1, measureBlock s (i % 7 + 1))])] →
    spdmServed s hst = true → bantamBusy s 0 = false → s.spdm.negotiated = true →
    ∃ t, exec c s = .next t ∧ t = { s with out := s.out ++ [.spdm hst r] }) ∧
  (∀ (c : Instr) (hst : Bool) (a b l n : Nat) (s : State), c ∈ [.getDigests hst, .getCertificate hst a b l, .challenge hst a,
      .getMeasurements hst a, .keyExchange hst a n] → spdmServed s hst = true → bantamBusy s 0 = false →
    s.spdm.negotiated = false →
    ∃ t, exec c s = .next t ∧ t = { s with out := s.out ++ [.spdm hst (.error spdmUnexpected)] }) ∧
  (∀ (hst : Bool) (n : Nat) (s : State), spdmServed s hst = true → bantamBusy s 0 = false → s.spdm.negotiated = true →
    ∃ t, exec (.keyExchange hst 0 n) s = .next t ∧ mapGet t.spdm.sessions n = some false ∧
      t = { s with spdm := { s.spdm with sessions := t.spdm.sessions }, out := s.out ++ [.spdm hst (.keyExchangeRsp n)] }) ∧
  (∀ (hst : Bool) (n : Nat) (s : State), spdmServed s hst = true → bantamBusy s 0 = false →
    mapGet s.spdm.sessions n = some false →
    ∃ t, exec (.finish hst n true) s = .next t ∧ mapGet t.spdm.sessions n = some true ∧
      t.out = s.out ++ [.spdm hst (.finishRsp n)] ∧ (∀ j, j ≠ n → mapGet t.spdm.sessions j = mapGet s.spdm.sessions j)) ∧
  (∀ (hst : Bool) (n : Nat) (s : State), spdmServed s hst = true → bantamBusy s 0 = false →
    mapGet s.spdm.sessions n = some true →
    ∃ t, exec (.heartbeat hst n) s = .next t ∧ t = { s with out := s.out ++ [.spdm hst (.heartbeatAck n)] }) ∧
  (∀ (hst : Bool) (n : Nat) (s : State), spdmServed s hst = true → bantamBusy s 0 = false →
    mapGet s.spdm.sessions n = some true →
    ∃ t, exec (.keyUpdate hst n) s = .next t ∧ t.out = s.out ++ [.spdm hst (.keyUpdateAck n)] ∧
      (mapGet t.spdm.keyUpdates n).getD 0 = (mapGet s.spdm.keyUpdates n).getD 0 + 1 ∧ t.spdm.sessions = s.spdm.sessions) ∧
  (∀ (hst : Bool) (n : Nat) (s : State), spdmServed s hst = true → bantamBusy s 0 = false →
    mapGet s.spdm.sessions n = some true →
    ∃ t, exec (.endSession hst n) s = .next t ∧ mapGet t.spdm.sessions n = none ∧
      t.out = s.out ++ [.spdm hst (.endSessionAck n)] ∧ (∀ j, j ≠ n → mapGet t.spdm.sessions j = mapGet s.spdm.sessions j)) ∧
  (∀ (hst : Bool) (s : State), spdmServed s hst = true → bantamBusy s 0 = false →
    ∃ t, exec (.spdmUnsupportedRequest hst) s = .next t ∧
      t = { s with out := s.out ++ [.spdm hst (.error spdmUnsupported)] }) ∧
  (∀ (eid : Nat) (s : State), running s = true → bantamBusy s 0 = false →
    ∃ t, exec (.mctpControlMessage eid) s = .next t ∧
      t = { s with pins := { s.pins with eid := eid }, out := s.out ++ [.mctp eid] })

/-! ### Power -/

/-- PS_EXIT_COMPLETE, ASLEEP_ACCESS, DOMAIN_IDLE_TIMEOUT, DOMAIN_WAKE, FLOCK_PARK, FLOCK_UNPARK, INPUT_SAMPLE, DEMAND_DECREASE, EMERGENCY_BEGIN, EMERGENCY_END and THERMAL_TRIP
(R499, R504, R505, R507, R509, R511 to R513): the exit reaches its target; an access to a sleeping block reads 0 and is counted; a domain goes to its lowest
condition and wakes ON; a park turns a Flock's engines OFF; the clamp, the demands, an emergency and the trip follow the sensors. -/
def Obligations.PowerFollowsItsInputs : Prop :=
  (∀ (target : PowerState) (s : State), powered s = true → asleep s = true → s.pw.exit = some target →
    ∃ t, exec .psExitComplete s = .next t ∧ t.pw = { s.pw with ps := target, exit := none, result := 0 } ∧
      (∀ p, p < 4 → (accCtrl s p).getLsbD 0 = false → (accPort t p).state = .training) ∧
      (rg t Reg.GX_PW_EVENTS).getLsbD 3 = true) ∧
  (∀ (write : Bool) (off : Nat) (s : State), powered s = true → asleep s = true → answersAsleep off = false →
    ∃ t, exec (.asleepAccess write off) s = .next t ∧ counted s t Reg.GX_PW_ASLEEP_CNT 1 ∧
      (rg t Reg.GX_PW_EVENTS).getLsbD 6 = true ∧ (write = false → ∃ l, t.out = s.out ++ l ++ [.readData 0]) ∧
      eventsOnly s t [Reg.GX_PW_EVENTS, Reg.GX_PW_ASLEEP_CNT]) ∧
  (∀ (d : Nat) (s : State), running s = true → d < 236 → alwaysOff s d = false → domainCond s d = .on → domainHeld s d = false →
    ∃ t, exec (.domainIdleTimeout d) s = .next t ∧ domainCond t d = lowestCond s.pw.ps d ∧
      (∀ j, j ≠ d → domainCond t j = domainCond s j) ∧ t = { s with dom := { s.dom with conds := t.dom.conds } }) ∧
  (∀ (d : Nat) (s : State), running s = true → d < 236 → alwaysOff s d = false → domainCond s d ≠ .on →
    ∃ t, exec (.domainWake d) s = .next t ∧ domainCond t d = .on ∧ counted s t Reg.GX_PW_WAKE_CNT 1 ∧
      (∀ j, j ≠ d → domainCond t j = domainCond s j) ∧ t = { s with dom := { s.dom with conds := t.dom.conds }, regs := t.regs }) ∧
  (∀ (v : Word) (f : Nat) (s : State), running s = true → wfld v 1 0 = 1 → f = wfld v 27 16 → (flockOf s.lz.run f).isSome = true →
    s.dom.parkRun = none → resetAbove s f = false → bondedBeneath s f = [] → s.lz.unitActions = [] →
    ∃ t, exec (.flockPark v) s = .next t ∧ f ∈ t.dom.parked ∧ t.dom.parkRun = none ∧ rg t Reg.GX_PW_FLOCK = v &&& 0x0FFF0000 ∧
      (∀ d ∈ engineDomains s f, mapGet t.dom.conds d = some .off) ∧ t.mem = s.mem ∧ t.vi = s.vi) ∧
  (∀ (v : Word) (f : Nat) (s : State), running s = true → wfld v 1 0 = 2 → f = wfld v 27 16 → (flockOf s.lz.run f).isSome = true →
    s.dom.parkRun = none → resetAbove s f = false → bondedBeneath s f = [] → s.lz.unitActions = [] →
    ∃ t, exec (.flockUnpark v) s = .next t ∧ f ∉ t.dom.parked ∧ t.dom.parkRun = none ∧
      (∀ d ∈ engineDomains s f, mapGet t.dom.conds d = none) ∧ t.mem = s.mem ∧ t.vi = s.vi) ∧
  (∀ (sensor degC mv sampleW avgW : Nat) (voltBad : Bool) (s : State), s.pins.pwrGood = true →
    ∃ t, exec (.inputSample sensor degC mv voltBad sampleW avgW) s = .next t ∧
      t.pw = { s.pw with sensor := sensor, degC := degC, mv := mv, voltBad := voltBad, sampleW := sampleW, avgW := avgW
                         clamped := if 820 < sampleW then true else if sampleW < 760 then false else s.pw.clamped } ∧
      (820 < sampleW → s.pw.clamped = false → counted s t Reg.GX_PW_CLAMP_CNT 1) ∧ t = { s with pw := t.pw, regs := t.regs }) ∧
  (∀ s : State, powered s = true → downTk s ≤ s.pw.thermalBelow → s.pw.powerBelow < downTk s →
    ∃ t, exec .demandDecrease s = .next t ∧
      t = { s with pw := { s.pw with thermal := s.pw.thermal - 1, thermalBelow := 0 } }) ∧
  (∀ s : State, powered s = true → s.pw.emergency = false → emergencyCause s ≠ 0 →
    ∃ t, exec .emergencyBegin s = .next t ∧ t.pw.emergency = true ∧ t.pw.cause = emergencyCause s ∧ 12 ≤ t.pw.level ∧
      (rg t Reg.GX_PW_EVENTS).getLsbD 1 = true ∧ eventsOnly { s with pw := t.pw } t [Reg.GX_PW_EVENTS]) ∧
  (∀ s : State, powered s = true → s.pw.emergency = true → 256 ≤ s.pw.clearTicks → s.pw.degC < 105 →
    ∃ t, exec .emergencyEnd s = .next t ∧ t.pw = { s.pw with emergency := false, cause := 0, clearTicks := 0 } ∧
      (rg t Reg.GX_PW_EVENTS).getLsbD 2 = true ∧ eventsOnly { s with pw := t.pw } t [Reg.GX_PW_EVENTS]) ∧
  (∀ (sensor degC : Nat) (s : State), powered s = true → 120 ≤ degC →
    ∃ t, exec (.thermalTrip sensor degC) s = .next t ∧ t.pw.tripped = true ∧ t.pw.sensor = sensor ∧ t.pw.degC = degC ∧
      t.pins.thermtrip = true ∧ t.fw.coldDue = true ∧ t.re.record.trips = min 255 (s.re.now.trips + 1) ∧
      t.re.record.tripOpen = true ∧ powered t = false)

/-! ### Exact sums -/

/-- An exact-sum result does not depend on the order of its contributions (R324, R325, R327): contributions in another order give the same
bytes and the same counts, and accumulators of two parts combine to the accumulator of the whole, which is why trees give what direct exchange gives. -/
def Obligations.ExactSumsIgnoreTheOrder : Prop :=
  (∀ (c : Coll) (n : Nat) (xs ys : List (List Byte)), xs.Perm ys → (∀ x ∈ xs, x.length = n) →
    exactResult c xs = exactResult c ys) ∧
  (∀ (op : Nat) (vs ws : List FVal),
    accCombine op (vs.foldl (fun a v => accCombine op a (accOf v)) {}) (ws.foldl (fun a v => accCombine op a (accOf v)) {}) =
      (vs ++ ws).foldl (fun a v => accCombine op a (accOf v)) {})

/-! ### Invariants -/

/-- Every command keeps both memories in their canonical form: addresses rise and no listed byte is 0, so that equal contents are equal lists. -/
def Obligations.EveryStepKeepsMemoryCanonical : Prop :=
  ∀ s t : State, memoryOk s → step s = .next t → memoryOk t

/-- FUSED_SVN never falls, a decommissioned adapter stays decommissioned, and the erased UDS stays erased (R468, R492, R495). -/
def Obligations.FusesNeverGoBack : Prop :=
  ∀ s t : State, step s = .next t →
    s.fw.fusedSvn ≤ t.fw.fusedSvn ∧ (s.sec.lc = .decommissioned → t.sec.lc = .decommissioned) ∧
      (s.sec.udsErased = true → t.sec.udsErased = true)
end

