-- ==== Sys2Proof/Laws/Maps.lean ====
section
/-! SUPPORT. The tables: what a lookup finds after each operation, and that every operation keeps the keys rising. -/

namespace Sys2Proof.Machine

variable {α : Type}

@[simp] theorem mapGet_nil (k : Nat) : mapGet ([] : NMap α) k = none := rfl

@[simp] theorem mapGet_mapSet_same (m : NMap α) (k : Nat) (v : α) : mapGet (mapSet m k v) k = some v := by
  induction m with
  | nil => simp [mapSet, mapGet]
  | cons e t ih =>
    obtain ⟨j, w⟩ := e
    unfold mapSet
    split
    · simp [mapGet]
    · split
      · simp [mapGet]
      · rename_i h
        simp [mapGet, Ne.symm h, ih]

theorem mapGet_mapSet_ne (m : NMap α) {j k : Nat} (v : α) (h : j ≠ k) : mapGet (mapSet m k v) j = mapGet m j := by
  induction m with
  | nil => simp [mapSet, mapGet, Ne.symm h]
  | cons e t ih =>
    obtain ⟨i, w⟩ := e
    unfold mapSet
    split
    · simp [mapGet, Ne.symm h]
    · split
      · subst_vars
        simp [mapGet, Ne.symm h]
      · simp [mapGet, ih]

theorem mapGet_mapSet (m : NMap α) (j k : Nat) (v : α) :
    mapGet (mapSet m k v) j = if j = k then some v else mapGet m j := by
  split
  · subst_vars; simp
  · rename_i h; exact mapGet_mapSet_ne m v h

@[simp] theorem mapGet_mapErase_same (m : NMap α) (k : Nat) : mapGet (mapErase m k) k = none := by
  induction m with
  | nil => rfl
  | cons e t ih =>
    obtain ⟨j, w⟩ := e
    simp only [mapErase] at ih ⊢
    by_cases h : j = k
    · simp [h, ih]
    · simp [h, mapGet, ih]

theorem mapGet_mapErase_ne (m : NMap α) {j k : Nat} (h : j ≠ k) : mapGet (mapErase m k) j = mapGet m j := by
  induction m with
  | nil => rfl
  | cons e t ih =>
    obtain ⟨i, w⟩ := e
    simp only [mapErase] at ih ⊢
    by_cases hi : i = k
    · subst hi
      simp [mapGet, Ne.symm h, ih]
    · simp [hi, mapGet, ih]

/-- A lookup with the default finds what was put. -/
@[simp] theorem getD_mapPut_same [DecidableEq α] (d : α) (m : NMap α) (k : Nat) (v : α) :
    (mapGet (mapPut d m k v) k).getD d = v := by
  unfold mapPut
  split <;> simp_all

theorem mapGet_mapPut_ne [DecidableEq α] (d : α) (m : NMap α) {j k : Nat} (v : α) (h : j ≠ k) :
    mapGet (mapPut d m k v) j = mapGet m j := by
  unfold mapPut
  split
  · exact mapGet_mapErase_ne m h
  · exact mapGet_mapSet_ne m v h

/-! ### Canonical form -/

/-- Every key of the table after a write is the written one or was there before. -/
theorem mem_mapSet {m : NMap α} {k : Nat} {v : α} {e : Nat × α} (h : e ∈ mapSet m k v) : e = (k, v) ∨ e ∈ m := by
  induction m with
  | nil => simpa [mapSet] using h
  | cons a t ih =>
    obtain ⟨j, w⟩ := a
    unfold mapSet at h
    split at h
    · simpa using h
    · split at h
      · simp only [List.mem_cons] at h
        rcases h with h | h
        · exact .inl h
        · exact .inr (List.mem_cons_of_mem _ h)
      · simp only [List.mem_cons] at h
        rcases h with h | h
        · exact .inr (h ▸ List.mem_cons_self)
        · exact (ih h).imp_right (List.mem_cons_of_mem _)

theorem mapSorted_mapSet {m : NMap α} (k : Nat) (v : α) (h : mapSorted m) : mapSorted (mapSet m k v) := by
  induction m with
  | nil => simp [mapSet, mapSorted]
  | cons a t ih =>
    obtain ⟨j, w⟩ := a
    obtain ⟨ha, ht⟩ := List.pairwise_cons.1 h
    unfold mapSet
    split
    · rename_i hk
      refine List.pairwise_cons.2 ⟨fun e he => ?_, h⟩
      rcases List.mem_cons.1 he with rfl | he
      · exact hk
      · exact Nat.lt_trans hk (ha e he)
    · split
      · subst_vars
        exact List.pairwise_cons.2 ⟨ha, ht⟩
      · refine List.pairwise_cons.2 ⟨fun e he => ?_, ih ht⟩
        rcases mem_mapSet he with rfl | he
        · simp only; omega
        · exact ha e he

theorem mapSorted_mapErase {m : NMap α} (k : Nat) (h : mapSorted m) : mapSorted (mapErase m k) :=
  List.Pairwise.filter _ h

theorem mapSorted_mapPut [DecidableEq α] {m : NMap α} (d : α) (k : Nat) (v : α) (h : mapSorted m) :
    mapSorted (mapPut d m k v) := by
  unfold mapPut
  split
  · exact mapSorted_mapErase k h
  · exact mapSorted_mapSet k v h

/-- What a fold keeps if every step keeps it. -/
theorem foldl_keeps {σ β κ : Type} (key : σ → κ) (f : σ → β → σ) (h : ∀ s b, key (f s b) = key s) (l : List β) (s : σ) :
    key (l.foldl f s) = key s := by
  induction l generalizing s with
  | nil => rfl
  | cons b t ih => rw [List.foldl_cons, ih, h]

/-- What a fold maintains if every step maintains it. -/
theorem foldl_maintains {σ β : Type} (P : σ → Prop) (f : σ → β → σ) (h : ∀ s b, P s → P (f s b)) (l : List β) (s : σ)
    (hs : P s) : P (l.foldl f s) := by
  induction l generalizing s with
  | nil => exact hs
  | cons b t ih => exact ih (f s b) (h s b hs)

end Sys2Proof.Machine
end

