-- ==== Sys2Proof/Laws/Memory.lean ====
section
/-! SUPPORT. Every operation on the memories keeps their canonical form, and a byte reads as what was written last. -/

namespace Sys2Proof.Machine

theorem memWf_nil : memWf [] := ⟨List.Pairwise.nil, by simp⟩

theorem reset_memoryOk : memoryOk State.reset := ⟨memWf_nil, memWf_nil⟩

theorem byteSet_memWf {m : List Host.Cell} (a : Nat) (b : Byte) (h : memWf m) : memWf (byteSet m a b) := by
  refine ⟨mapSorted_mapPut 0 a b h.1, fun c hc => ?_⟩
  unfold byteSet mapPut at hc
  split at hc
  · exact h.2 c (List.mem_filter.1 hc).1
  · rename_i hb
    rcases mem_mapSet hc with rfl | hc
    · exact hb
    · exact h.2 c hc

theorem bytesSet_memWf {m : List Host.Cell} (a : Nat) (bs : List Byte) (ok : Nat → Bool) (h : memWf m) :
    memWf (bytesSet m a bs ok) := by
  induction bs generalizing m a with
  | nil => exact h
  | cons b t ih =>
    unfold bytesSet
    exact ih (a + 1) (by split <;> first | exact byteSet_memWf a b h | exact h)

theorem filter_memWf {m : List Host.Cell} (p : Host.Cell → Bool) (h : memWf m) : memWf (m.filter p) :=
  ⟨List.Pairwise.filter p h.1, fun c hc => h.2 c (List.mem_filter.1 hc).1⟩

theorem bytesWipe_memWf {m : List Host.Cell} (a n : Nat) (h : memWf m) : memWf (bytesWipe m a n) := filter_memWf _ h

theorem tierWrite_memoryOk (off : Nat) (bs : List Byte) {s : State} (h : memoryOk s) : memoryOk (tierWrite off bs s).1 :=
  ⟨bytesSet_memWf off bs _ h.1, h.2⟩

theorem storeWrite_memoryOk (core off : Nat) (bs : List Byte) {s : State} (h : memoryOk s) :
    memoryOk (storeWrite core off bs s).1 := by
  unfold storeWrite
  split
  · exact h
  · exact ⟨h.1, bytesSet_memWf _ bs _ h.2⟩

theorem wipeGranule_memoryOk (g : Nat) {s : State} (h : memoryOk s) : memoryOk (wipeGranule g s) :=
  ⟨bytesWipe_memWf _ _ h.1, h.2⟩

theorem startWipe_memoryOk (gs : List Nat) {s : State} (h : memoryOk s) : memoryOk (startWipe gs s) :=
  foldl_maintains memoryOk (fun s g => wipeGranule g s) (fun _ g hs => wipeGranule_memoryOk g hs) gs s h

theorem wipeRegions_memoryOk (st : Structure) (f : Nat) {s : State} (h : memoryOk s) : memoryOk (wipeRegions st f s) := by
  unfold wipeRegions
  apply foldl_maintains (P := memoryOk) (hs := h)
  intro s l hs
  exact ⟨hs.1, bytesWipe_memWf _ _ hs.2⟩

/-! ### A read after a write -/

@[simp] theorem byteAt_byteSet_same (m : List Host.Cell) (a : Nat) (b : Byte) : byteAt (byteSet m a b) a = b :=
  getD_mapPut_same 0 m a b

theorem byteAt_byteSet_ne (m : List Host.Cell) {a c : Nat} (b : Byte) (h : c ≠ a) : byteAt (byteSet m a b) c = byteAt m c := by
  unfold byteAt byteSet
  rw [mapGet_mapPut_ne 0 m b h]

/-- A byte outside a write reads as before. -/
theorem byteAt_bytesSet_outside (m : List Host.Cell) (a : Nat) (bs : List Byte) (ok : Nat → Bool) {c : Nat}
    (h : c < a ∨ a + bs.length ≤ c) : byteAt (bytesSet m a bs ok) c = byteAt m c := by
  induction bs generalizing m a with
  | nil => rfl
  | cons b t ih =>
    simp only [List.length_cons] at h
    have hne : c ≠ a := by omega
    unfold bytesSet
    rw [ih _ (a + 1) (by omega)]
    split
    · exact byteAt_byteSet_ne m b hne
    · rfl

/-- A byte of a write reads as written, where the write may go. -/
theorem byteAt_bytesSet_inside (m : List Host.Cell) (a : Nat) (bs : List Byte) (ok : Nat → Bool) (i : Nat)
    (h : i < bs.length) (hok : ok (a + i) = true) : byteAt (bytesSet m a bs ok) (a + i) = bs[i] := by
  induction bs generalizing m a i with
  | nil => simp at h
  | cons b t ih =>
    unfold bytesSet
    cases i with
    | zero =>
      rw [byteAt_bytesSet_outside _ _ _ _ (by omega)]
      simp_all
    | succ j =>
      have := ih (if ok a then byteSet m a b else m) (a + 1) j (by simpa using h) (by rwa [Nat.add_right_comm, Nat.add_assoc])
      rw [show a + (j + 1) = a + 1 + j by omega]
      simpa using this

end Sys2Proof.Machine
end

