-- ==== Sys2Proof/Laws/State.lean ====
section
/-! SUPPORT. The parts of the state that the shared updates of registers, interrupts and instances leave as they are. -/

namespace Sys2Proof.Machine

variable (s : State)

@[simp] theorem putReg_pending (k : Nat) (v : Word) : (putReg k v s).pending = s.pending := rfl
@[simp] theorem putReg_out (k : Nat) (v : Word) : (putReg k v s).out = s.out := rfl
@[simp] theorem putReg_shadows (k : Nat) (v : Word) : (putReg k v s).shadows = s.shadows := rfl
@[simp] theorem putReg_commits (k : Nat) (v : Word) : (putReg k v s).commits = s.commits := rfl
@[simp] theorem putReg_tick (k : Nat) (v : Word) : (putReg k v s).tick = s.tick := rfl
@[simp] theorem putReg_lz (k : Nat) (v : Word) : (putReg k v s).lz = s.lz := rfl
@[simp] theorem putReg_gl (k : Nat) (v : Word) : (putReg k v s).gl = s.gl := rfl
@[simp] theorem putReg_xl (k : Nat) (v : Word) : (putReg k v s).xl = s.xl := rfl
@[simp] theorem putReg_mem (k : Nat) (v : Word) : (putReg k v s).mem = s.mem := rfl
@[simp] theorem putReg_freeCount (k : Nat) (v : Word) : (putReg k v s).freeCount = s.freeCount := rfl
@[simp] theorem putReg_q (k : Nat) (v : Word) : (putReg k v s).q = s.q := rfl
@[simp] theorem putReg_tp (k : Nat) (v : Word) : (putReg k v s).tp = s.tp := rfl
@[simp] theorem putReg_cf (k : Nat) (v : Word) : (putReg k v s).cf = s.cf := rfl
@[simp] theorem putReg_eth (k : Nat) (v : Word) : (putReg k v s).eth = s.eth := rfl
@[simp] theorem putReg_cs (k : Nat) (v : Word) : (putReg k v s).cs = s.cs := rfl
@[simp] theorem putReg_hd (k : Nat) (v : Word) : (putReg k v s).hd = s.hd := rfl
@[simp] theorem putReg_kn (k : Nat) (v : Word) : (putReg k v s).kn = s.kn := rfl
@[simp] theorem putReg_ce (k : Nat) (v : Word) : (putReg k v s).ce = s.ce := rfl
@[simp] theorem putReg_pc (k : Nat) (v : Word) : (putReg k v s).pc = s.pc := rfl
@[simp] theorem putReg_cv (k : Nat) (v : Word) : (putReg k v s).cv = s.cv := rfl
@[simp] theorem putReg_vi (k : Nat) (v : Word) : (putReg k v s).vi = s.vi := rfl
@[simp] theorem putReg_fw (k : Nat) (v : Word) : (putReg k v s).fw = s.fw := rfl
@[simp] theorem putReg_sec (k : Nat) (v : Word) : (putReg k v s).sec = s.sec := rfl
@[simp] theorem putReg_spdm (k : Nat) (v : Word) : (putReg k v s).spdm = s.spdm := rfl
@[simp] theorem putReg_pw (k : Nat) (v : Word) : (putReg k v s).pw = s.pw := rfl
@[simp] theorem putReg_dom (k : Nat) (v : Word) : (putReg k v s).dom = s.dom := rfl
@[simp] theorem putReg_re (k : Nat) (v : Word) : (putReg k v s).re = s.re := rfl
@[simp] theorem putReg_pins (k : Nat) (v : Word) : (putReg k v s).pins = s.pins := rfl

@[simp] theorem putShadow_pending (k : Nat) (v : Word) : (putShadow k v s).pending = s.pending := rfl
@[simp] theorem putShadow_out (k : Nat) (v : Word) : (putShadow k v s).out = s.out := rfl
@[simp] theorem putShadow_regs (k : Nat) (v : Word) : (putShadow k v s).regs = s.regs := rfl
@[simp] theorem putShadow_commits (k : Nat) (v : Word) : (putShadow k v s).commits = s.commits := rfl
@[simp] theorem putShadow_tick (k : Nat) (v : Word) : (putShadow k v s).tick = s.tick := rfl
@[simp] theorem putShadow_lz (k : Nat) (v : Word) : (putShadow k v s).lz = s.lz := rfl
@[simp] theorem putShadow_gl (k : Nat) (v : Word) : (putShadow k v s).gl = s.gl := rfl
@[simp] theorem putShadow_xl (k : Nat) (v : Word) : (putShadow k v s).xl = s.xl := rfl
@[simp] theorem putShadow_mem (k : Nat) (v : Word) : (putShadow k v s).mem = s.mem := rfl
@[simp] theorem putShadow_freeCount (k : Nat) (v : Word) : (putShadow k v s).freeCount = s.freeCount := rfl
@[simp] theorem putShadow_q (k : Nat) (v : Word) : (putShadow k v s).q = s.q := rfl
@[simp] theorem putShadow_tp (k : Nat) (v : Word) : (putShadow k v s).tp = s.tp := rfl
@[simp] theorem putShadow_cf (k : Nat) (v : Word) : (putShadow k v s).cf = s.cf := rfl
@[simp] theorem putShadow_eth (k : Nat) (v : Word) : (putShadow k v s).eth = s.eth := rfl
@[simp] theorem putShadow_cs (k : Nat) (v : Word) : (putShadow k v s).cs = s.cs := rfl
@[simp] theorem putShadow_hd (k : Nat) (v : Word) : (putShadow k v s).hd = s.hd := rfl
@[simp] theorem putShadow_kn (k : Nat) (v : Word) : (putShadow k v s).kn = s.kn := rfl
@[simp] theorem putShadow_ce (k : Nat) (v : Word) : (putShadow k v s).ce = s.ce := rfl
@[simp] theorem putShadow_pc (k : Nat) (v : Word) : (putShadow k v s).pc = s.pc := rfl
@[simp] theorem putShadow_cv (k : Nat) (v : Word) : (putShadow k v s).cv = s.cv := rfl
@[simp] theorem putShadow_vi (k : Nat) (v : Word) : (putShadow k v s).vi = s.vi := rfl
@[simp] theorem putShadow_fw (k : Nat) (v : Word) : (putShadow k v s).fw = s.fw := rfl
@[simp] theorem putShadow_sec (k : Nat) (v : Word) : (putShadow k v s).sec = s.sec := rfl
@[simp] theorem putShadow_spdm (k : Nat) (v : Word) : (putShadow k v s).spdm = s.spdm := rfl
@[simp] theorem putShadow_pw (k : Nat) (v : Word) : (putShadow k v s).pw = s.pw := rfl
@[simp] theorem putShadow_dom (k : Nat) (v : Word) : (putShadow k v s).dom = s.dom := rfl
@[simp] theorem putShadow_re (k : Nat) (v : Word) : (putShadow k v s).re = s.re := rfl
@[simp] theorem putShadow_pins (k : Nat) (v : Word) : (putShadow k v s).pins = s.pins := rfl

@[simp] theorem emit_pending (o : Output) : (emit o s).pending = s.pending := rfl
@[simp] theorem emit_regs (o : Output) : (emit o s).regs = s.regs := rfl
@[simp] theorem emit_shadows (o : Output) : (emit o s).shadows = s.shadows := rfl
@[simp] theorem emit_commits (o : Output) : (emit o s).commits = s.commits := rfl
@[simp] theorem emit_tick (o : Output) : (emit o s).tick = s.tick := rfl
@[simp] theorem emit_lz (o : Output) : (emit o s).lz = s.lz := rfl
@[simp] theorem emit_gl (o : Output) : (emit o s).gl = s.gl := rfl
@[simp] theorem emit_xl (o : Output) : (emit o s).xl = s.xl := rfl
@[simp] theorem emit_mem (o : Output) : (emit o s).mem = s.mem := rfl
@[simp] theorem emit_freeCount (o : Output) : (emit o s).freeCount = s.freeCount := rfl
@[simp] theorem emit_q (o : Output) : (emit o s).q = s.q := rfl
@[simp] theorem emit_tp (o : Output) : (emit o s).tp = s.tp := rfl
@[simp] theorem emit_cf (o : Output) : (emit o s).cf = s.cf := rfl
@[simp] theorem emit_eth (o : Output) : (emit o s).eth = s.eth := rfl
@[simp] theorem emit_cs (o : Output) : (emit o s).cs = s.cs := rfl
@[simp] theorem emit_hd (o : Output) : (emit o s).hd = s.hd := rfl
@[simp] theorem emit_kn (o : Output) : (emit o s).kn = s.kn := rfl
@[simp] theorem emit_ce (o : Output) : (emit o s).ce = s.ce := rfl
@[simp] theorem emit_pc (o : Output) : (emit o s).pc = s.pc := rfl
@[simp] theorem emit_cv (o : Output) : (emit o s).cv = s.cv := rfl
@[simp] theorem emit_vi (o : Output) : (emit o s).vi = s.vi := rfl
@[simp] theorem emit_fw (o : Output) : (emit o s).fw = s.fw := rfl
@[simp] theorem emit_sec (o : Output) : (emit o s).sec = s.sec := rfl
@[simp] theorem emit_spdm (o : Output) : (emit o s).spdm = s.spdm := rfl
@[simp] theorem emit_pw (o : Output) : (emit o s).pw = s.pw := rfl
@[simp] theorem emit_dom (o : Output) : (emit o s).dom = s.dom := rfl
@[simp] theorem emit_re (o : Output) : (emit o s).re = s.re := rfl
@[simp] theorem emit_pins (o : Output) : (emit o s).pins = s.pins := rfl

@[simp] theorem setInst_pending (n : Nat) (i : Instance) : (setInst n i s).pending = s.pending := rfl
@[simp] theorem setInst_out (n : Nat) (i : Instance) : (setInst n i s).out = s.out := rfl
@[simp] theorem setInst_regs (n : Nat) (i : Instance) : (setInst n i s).regs = s.regs := rfl
@[simp] theorem setInst_shadows (n : Nat) (i : Instance) : (setInst n i s).shadows = s.shadows := rfl
@[simp] theorem setInst_commits (n : Nat) (i : Instance) : (setInst n i s).commits = s.commits := rfl
@[simp] theorem setInst_tick (n : Nat) (i : Instance) : (setInst n i s).tick = s.tick := rfl
@[simp] theorem setInst_lz (n : Nat) (i : Instance) : (setInst n i s).lz = s.lz := rfl
@[simp] theorem setInst_gl (n : Nat) (i : Instance) : (setInst n i s).gl = s.gl := rfl
@[simp] theorem setInst_xl (n : Nat) (i : Instance) : (setInst n i s).xl = s.xl := rfl
@[simp] theorem setInst_mem (n : Nat) (i : Instance) : (setInst n i s).mem = s.mem := rfl
@[simp] theorem setInst_freeCount (n : Nat) (i : Instance) : (setInst n i s).freeCount = s.freeCount := rfl
@[simp] theorem setInst_q (n : Nat) (i : Instance) : (setInst n i s).q = s.q := rfl
@[simp] theorem setInst_tp (n : Nat) (i : Instance) : (setInst n i s).tp = s.tp := rfl
@[simp] theorem setInst_cf (n : Nat) (i : Instance) : (setInst n i s).cf = s.cf := rfl
@[simp] theorem setInst_eth (n : Nat) (i : Instance) : (setInst n i s).eth = s.eth := rfl
@[simp] theorem setInst_cs (n : Nat) (i : Instance) : (setInst n i s).cs = s.cs := rfl
@[simp] theorem setInst_hd (n : Nat) (i : Instance) : (setInst n i s).hd = s.hd := rfl
@[simp] theorem setInst_kn (n : Nat) (i : Instance) : (setInst n i s).kn = s.kn := rfl
@[simp] theorem setInst_ce (n : Nat) (i : Instance) : (setInst n i s).ce = s.ce := rfl
@[simp] theorem setInst_pc (n : Nat) (i : Instance) : (setInst n i s).pc = s.pc := rfl
@[simp] theorem setInst_cv (n : Nat) (i : Instance) : (setInst n i s).cv = s.cv := rfl
@[simp] theorem setInst_fw (n : Nat) (i : Instance) : (setInst n i s).fw = s.fw := rfl
@[simp] theorem setInst_sec (n : Nat) (i : Instance) : (setInst n i s).sec = s.sec := rfl
@[simp] theorem setInst_spdm (n : Nat) (i : Instance) : (setInst n i s).spdm = s.spdm := rfl
@[simp] theorem setInst_pw (n : Nat) (i : Instance) : (setInst n i s).pw = s.pw := rfl
@[simp] theorem setInst_dom (n : Nat) (i : Instance) : (setInst n i s).dom = s.dom := rfl
@[simp] theorem setInst_re (n : Nat) (i : Instance) : (setInst n i s).re = s.re := rfl
@[simp] theorem setInst_pins (n : Nat) (i : Instance) : (setInst n i s).pins = s.pins := rfl

/-- All that it may change. -/
theorem bump_frame (k : Nat) :
    bump k s = { s with regs := (bump k s).regs } := rfl
@[simp] theorem bump_pending (k : Nat) : (bump k s).pending = s.pending := by rw [bump_frame]
@[simp] theorem bump_out (k : Nat) : (bump k s).out = s.out := by rw [bump_frame]
@[simp] theorem bump_shadows (k : Nat) : (bump k s).shadows = s.shadows := by rw [bump_frame]
@[simp] theorem bump_commits (k : Nat) : (bump k s).commits = s.commits := by rw [bump_frame]
@[simp] theorem bump_tick (k : Nat) : (bump k s).tick = s.tick := by rw [bump_frame]
@[simp] theorem bump_lz (k : Nat) : (bump k s).lz = s.lz := by rw [bump_frame]
@[simp] theorem bump_gl (k : Nat) : (bump k s).gl = s.gl := by rw [bump_frame]
@[simp] theorem bump_xl (k : Nat) : (bump k s).xl = s.xl := by rw [bump_frame]
@[simp] theorem bump_mem (k : Nat) : (bump k s).mem = s.mem := by rw [bump_frame]
@[simp] theorem bump_freeCount (k : Nat) : (bump k s).freeCount = s.freeCount := by rw [bump_frame]
@[simp] theorem bump_q (k : Nat) : (bump k s).q = s.q := by rw [bump_frame]
@[simp] theorem bump_tp (k : Nat) : (bump k s).tp = s.tp := by rw [bump_frame]
@[simp] theorem bump_cf (k : Nat) : (bump k s).cf = s.cf := by rw [bump_frame]
@[simp] theorem bump_eth (k : Nat) : (bump k s).eth = s.eth := by rw [bump_frame]
@[simp] theorem bump_cs (k : Nat) : (bump k s).cs = s.cs := by rw [bump_frame]
@[simp] theorem bump_hd (k : Nat) : (bump k s).hd = s.hd := by rw [bump_frame]
@[simp] theorem bump_kn (k : Nat) : (bump k s).kn = s.kn := by rw [bump_frame]
@[simp] theorem bump_ce (k : Nat) : (bump k s).ce = s.ce := by rw [bump_frame]
@[simp] theorem bump_pc (k : Nat) : (bump k s).pc = s.pc := by rw [bump_frame]
@[simp] theorem bump_cv (k : Nat) : (bump k s).cv = s.cv := by rw [bump_frame]
@[simp] theorem bump_vi (k : Nat) : (bump k s).vi = s.vi := by rw [bump_frame]
@[simp] theorem bump_fw (k : Nat) : (bump k s).fw = s.fw := by rw [bump_frame]
@[simp] theorem bump_sec (k : Nat) : (bump k s).sec = s.sec := by rw [bump_frame]
@[simp] theorem bump_spdm (k : Nat) : (bump k s).spdm = s.spdm := by rw [bump_frame]
@[simp] theorem bump_pw (k : Nat) : (bump k s).pw = s.pw := by rw [bump_frame]
@[simp] theorem bump_dom (k : Nat) : (bump k s).dom = s.dom := by rw [bump_frame]
@[simp] theorem bump_re (k : Nat) : (bump k s).re = s.re := by rw [bump_frame]
@[simp] theorem bump_pins (k : Nat) : (bump k s).pins = s.pins := by rw [bump_frame]

/-- All that it may change. -/
theorem bumpBy_frame (k n : Nat) :
    bumpBy k n s = { s with regs := (bumpBy k n s).regs } := rfl
@[simp] theorem bumpBy_pending (k n : Nat) : (bumpBy k n s).pending = s.pending := by rw [bumpBy_frame]
@[simp] theorem bumpBy_out (k n : Nat) : (bumpBy k n s).out = s.out := by rw [bumpBy_frame]
@[simp] theorem bumpBy_shadows (k n : Nat) : (bumpBy k n s).shadows = s.shadows := by rw [bumpBy_frame]
@[simp] theorem bumpBy_commits (k n : Nat) : (bumpBy k n s).commits = s.commits := by rw [bumpBy_frame]
@[simp] theorem bumpBy_tick (k n : Nat) : (bumpBy k n s).tick = s.tick := by rw [bumpBy_frame]
@[simp] theorem bumpBy_lz (k n : Nat) : (bumpBy k n s).lz = s.lz := by rw [bumpBy_frame]
@[simp] theorem bumpBy_gl (k n : Nat) : (bumpBy k n s).gl = s.gl := by rw [bumpBy_frame]
@[simp] theorem bumpBy_xl (k n : Nat) : (bumpBy k n s).xl = s.xl := by rw [bumpBy_frame]
@[simp] theorem bumpBy_mem (k n : Nat) : (bumpBy k n s).mem = s.mem := by rw [bumpBy_frame]
@[simp] theorem bumpBy_freeCount (k n : Nat) : (bumpBy k n s).freeCount = s.freeCount := by rw [bumpBy_frame]
@[simp] theorem bumpBy_q (k n : Nat) : (bumpBy k n s).q = s.q := by rw [bumpBy_frame]
@[simp] theorem bumpBy_tp (k n : Nat) : (bumpBy k n s).tp = s.tp := by rw [bumpBy_frame]
@[simp] theorem bumpBy_cf (k n : Nat) : (bumpBy k n s).cf = s.cf := by rw [bumpBy_frame]
@[simp] theorem bumpBy_eth (k n : Nat) : (bumpBy k n s).eth = s.eth := by rw [bumpBy_frame]
@[simp] theorem bumpBy_cs (k n : Nat) : (bumpBy k n s).cs = s.cs := by rw [bumpBy_frame]
@[simp] theorem bumpBy_hd (k n : Nat) : (bumpBy k n s).hd = s.hd := by rw [bumpBy_frame]
@[simp] theorem bumpBy_kn (k n : Nat) : (bumpBy k n s).kn = s.kn := by rw [bumpBy_frame]
@[simp] theorem bumpBy_ce (k n : Nat) : (bumpBy k n s).ce = s.ce := by rw [bumpBy_frame]
@[simp] theorem bumpBy_pc (k n : Nat) : (bumpBy k n s).pc = s.pc := by rw [bumpBy_frame]
@[simp] theorem bumpBy_cv (k n : Nat) : (bumpBy k n s).cv = s.cv := by rw [bumpBy_frame]
@[simp] theorem bumpBy_vi (k n : Nat) : (bumpBy k n s).vi = s.vi := by rw [bumpBy_frame]
@[simp] theorem bumpBy_fw (k n : Nat) : (bumpBy k n s).fw = s.fw := by rw [bumpBy_frame]
@[simp] theorem bumpBy_sec (k n : Nat) : (bumpBy k n s).sec = s.sec := by rw [bumpBy_frame]
@[simp] theorem bumpBy_spdm (k n : Nat) : (bumpBy k n s).spdm = s.spdm := by rw [bumpBy_frame]
@[simp] theorem bumpBy_pw (k n : Nat) : (bumpBy k n s).pw = s.pw := by rw [bumpBy_frame]
@[simp] theorem bumpBy_dom (k n : Nat) : (bumpBy k n s).dom = s.dom := by rw [bumpBy_frame]
@[simp] theorem bumpBy_re (k n : Nat) : (bumpBy k n s).re = s.re := by rw [bumpBy_frame]
@[simp] theorem bumpBy_pins (k n : Nat) : (bumpBy k n s).pins = s.pins := by rw [bumpBy_frame]

/-- All that it may change. -/
theorem msixSend_frame (fn v : Nat) :
    msixSend fn v s = { s with gl := (msixSend fn v s).gl, out := (msixSend fn v s).out } := by unfold msixSend; split <;> rfl
@[simp] theorem msixSend_pending (fn v : Nat) : (msixSend fn v s).pending = s.pending := by rw [msixSend_frame]
@[simp] theorem msixSend_regs (fn v : Nat) : (msixSend fn v s).regs = s.regs := by rw [msixSend_frame]
@[simp] theorem msixSend_shadows (fn v : Nat) : (msixSend fn v s).shadows = s.shadows := by rw [msixSend_frame]
@[simp] theorem msixSend_commits (fn v : Nat) : (msixSend fn v s).commits = s.commits := by rw [msixSend_frame]
@[simp] theorem msixSend_tick (fn v : Nat) : (msixSend fn v s).tick = s.tick := by rw [msixSend_frame]
@[simp] theorem msixSend_lz (fn v : Nat) : (msixSend fn v s).lz = s.lz := by rw [msixSend_frame]
@[simp] theorem msixSend_xl (fn v : Nat) : (msixSend fn v s).xl = s.xl := by rw [msixSend_frame]
@[simp] theorem msixSend_mem (fn v : Nat) : (msixSend fn v s).mem = s.mem := by rw [msixSend_frame]
@[simp] theorem msixSend_freeCount (fn v : Nat) : (msixSend fn v s).freeCount = s.freeCount := by rw [msixSend_frame]
@[simp] theorem msixSend_q (fn v : Nat) : (msixSend fn v s).q = s.q := by rw [msixSend_frame]
@[simp] theorem msixSend_tp (fn v : Nat) : (msixSend fn v s).tp = s.tp := by rw [msixSend_frame]
@[simp] theorem msixSend_cf (fn v : Nat) : (msixSend fn v s).cf = s.cf := by rw [msixSend_frame]
@[simp] theorem msixSend_eth (fn v : Nat) : (msixSend fn v s).eth = s.eth := by rw [msixSend_frame]
@[simp] theorem msixSend_cs (fn v : Nat) : (msixSend fn v s).cs = s.cs := by rw [msixSend_frame]
@[simp] theorem msixSend_hd (fn v : Nat) : (msixSend fn v s).hd = s.hd := by rw [msixSend_frame]
@[simp] theorem msixSend_kn (fn v : Nat) : (msixSend fn v s).kn = s.kn := by rw [msixSend_frame]
@[simp] theorem msixSend_ce (fn v : Nat) : (msixSend fn v s).ce = s.ce := by rw [msixSend_frame]
@[simp] theorem msixSend_pc (fn v : Nat) : (msixSend fn v s).pc = s.pc := by rw [msixSend_frame]
@[simp] theorem msixSend_cv (fn v : Nat) : (msixSend fn v s).cv = s.cv := by rw [msixSend_frame]
@[simp] theorem msixSend_vi (fn v : Nat) : (msixSend fn v s).vi = s.vi := by rw [msixSend_frame]
@[simp] theorem msixSend_fw (fn v : Nat) : (msixSend fn v s).fw = s.fw := by rw [msixSend_frame]
@[simp] theorem msixSend_sec (fn v : Nat) : (msixSend fn v s).sec = s.sec := by rw [msixSend_frame]
@[simp] theorem msixSend_spdm (fn v : Nat) : (msixSend fn v s).spdm = s.spdm := by rw [msixSend_frame]
@[simp] theorem msixSend_pw (fn v : Nat) : (msixSend fn v s).pw = s.pw := by rw [msixSend_frame]
@[simp] theorem msixSend_dom (fn v : Nat) : (msixSend fn v s).dom = s.dom := by rw [msixSend_frame]
@[simp] theorem msixSend_re (fn v : Nat) : (msixSend fn v s).re = s.re := by rw [msixSend_frame]
@[simp] theorem msixSend_pins (fn v : Nat) : (msixSend fn v s).pins = s.pins := by rw [msixSend_frame]

/-- All that it may change. -/
theorem msixRaise_frame (fn v : Nat) :
    msixRaise fn v s = { s with gl := (msixRaise fn v s).gl, out := (msixRaise fn v s).out } := by
  unfold msixRaise
  split
  · rw [msixSend_frame]
  · rfl
@[simp] theorem msixRaise_pending (fn v : Nat) : (msixRaise fn v s).pending = s.pending := by rw [msixRaise_frame]
@[simp] theorem msixRaise_regs (fn v : Nat) : (msixRaise fn v s).regs = s.regs := by rw [msixRaise_frame]
@[simp] theorem msixRaise_shadows (fn v : Nat) : (msixRaise fn v s).shadows = s.shadows := by rw [msixRaise_frame]
@[simp] theorem msixRaise_commits (fn v : Nat) : (msixRaise fn v s).commits = s.commits := by rw [msixRaise_frame]
@[simp] theorem msixRaise_tick (fn v : Nat) : (msixRaise fn v s).tick = s.tick := by rw [msixRaise_frame]
@[simp] theorem msixRaise_lz (fn v : Nat) : (msixRaise fn v s).lz = s.lz := by rw [msixRaise_frame]
@[simp] theorem msixRaise_xl (fn v : Nat) : (msixRaise fn v s).xl = s.xl := by rw [msixRaise_frame]
@[simp] theorem msixRaise_mem (fn v : Nat) : (msixRaise fn v s).mem = s.mem := by rw [msixRaise_frame]
@[simp] theorem msixRaise_freeCount (fn v : Nat) : (msixRaise fn v s).freeCount = s.freeCount := by rw [msixRaise_frame]
@[simp] theorem msixRaise_q (fn v : Nat) : (msixRaise fn v s).q = s.q := by rw [msixRaise_frame]
@[simp] theorem msixRaise_tp (fn v : Nat) : (msixRaise fn v s).tp = s.tp := by rw [msixRaise_frame]
@[simp] theorem msixRaise_cf (fn v : Nat) : (msixRaise fn v s).cf = s.cf := by rw [msixRaise_frame]
@[simp] theorem msixRaise_eth (fn v : Nat) : (msixRaise fn v s).eth = s.eth := by rw [msixRaise_frame]
@[simp] theorem msixRaise_cs (fn v : Nat) : (msixRaise fn v s).cs = s.cs := by rw [msixRaise_frame]
@[simp] theorem msixRaise_hd (fn v : Nat) : (msixRaise fn v s).hd = s.hd := by rw [msixRaise_frame]
@[simp] theorem msixRaise_kn (fn v : Nat) : (msixRaise fn v s).kn = s.kn := by rw [msixRaise_frame]
@[simp] theorem msixRaise_ce (fn v : Nat) : (msixRaise fn v s).ce = s.ce := by rw [msixRaise_frame]
@[simp] theorem msixRaise_pc (fn v : Nat) : (msixRaise fn v s).pc = s.pc := by rw [msixRaise_frame]
@[simp] theorem msixRaise_cv (fn v : Nat) : (msixRaise fn v s).cv = s.cv := by rw [msixRaise_frame]
@[simp] theorem msixRaise_vi (fn v : Nat) : (msixRaise fn v s).vi = s.vi := by rw [msixRaise_frame]
@[simp] theorem msixRaise_fw (fn v : Nat) : (msixRaise fn v s).fw = s.fw := by rw [msixRaise_frame]
@[simp] theorem msixRaise_sec (fn v : Nat) : (msixRaise fn v s).sec = s.sec := by rw [msixRaise_frame]
@[simp] theorem msixRaise_spdm (fn v : Nat) : (msixRaise fn v s).spdm = s.spdm := by rw [msixRaise_frame]
@[simp] theorem msixRaise_pw (fn v : Nat) : (msixRaise fn v s).pw = s.pw := by rw [msixRaise_frame]
@[simp] theorem msixRaise_dom (fn v : Nat) : (msixRaise fn v s).dom = s.dom := by rw [msixRaise_frame]
@[simp] theorem msixRaise_re (fn v : Nat) : (msixRaise fn v s).re = s.re := by rw [msixRaise_frame]
@[simp] theorem msixRaise_pins (fn v : Nat) : (msixRaise fn v s).pins = s.pins := by rw [msixRaise_frame]

/-- All that it may change. -/
theorem intFire_frame (src : Nat) :
    intFire src s = { s with gl := (intFire src s).gl, out := (intFire src s).out } := by
  unfold intFire
  split
  · rw [msixRaise_frame]
  · rfl
@[simp] theorem intFire_pending (src : Nat) : (intFire src s).pending = s.pending := by rw [intFire_frame]
@[simp] theorem intFire_regs (src : Nat) : (intFire src s).regs = s.regs := by rw [intFire_frame]
@[simp] theorem intFire_shadows (src : Nat) : (intFire src s).shadows = s.shadows := by rw [intFire_frame]
@[simp] theorem intFire_commits (src : Nat) : (intFire src s).commits = s.commits := by rw [intFire_frame]
@[simp] theorem intFire_tick (src : Nat) : (intFire src s).tick = s.tick := by rw [intFire_frame]
@[simp] theorem intFire_lz (src : Nat) : (intFire src s).lz = s.lz := by rw [intFire_frame]
@[simp] theorem intFire_xl (src : Nat) : (intFire src s).xl = s.xl := by rw [intFire_frame]
@[simp] theorem intFire_mem (src : Nat) : (intFire src s).mem = s.mem := by rw [intFire_frame]
@[simp] theorem intFire_freeCount (src : Nat) : (intFire src s).freeCount = s.freeCount := by rw [intFire_frame]
@[simp] theorem intFire_q (src : Nat) : (intFire src s).q = s.q := by rw [intFire_frame]
@[simp] theorem intFire_tp (src : Nat) : (intFire src s).tp = s.tp := by rw [intFire_frame]
@[simp] theorem intFire_cf (src : Nat) : (intFire src s).cf = s.cf := by rw [intFire_frame]
@[simp] theorem intFire_eth (src : Nat) : (intFire src s).eth = s.eth := by rw [intFire_frame]
@[simp] theorem intFire_cs (src : Nat) : (intFire src s).cs = s.cs := by rw [intFire_frame]
@[simp] theorem intFire_hd (src : Nat) : (intFire src s).hd = s.hd := by rw [intFire_frame]
@[simp] theorem intFire_kn (src : Nat) : (intFire src s).kn = s.kn := by rw [intFire_frame]
@[simp] theorem intFire_ce (src : Nat) : (intFire src s).ce = s.ce := by rw [intFire_frame]
@[simp] theorem intFire_pc (src : Nat) : (intFire src s).pc = s.pc := by rw [intFire_frame]
@[simp] theorem intFire_cv (src : Nat) : (intFire src s).cv = s.cv := by rw [intFire_frame]
@[simp] theorem intFire_vi (src : Nat) : (intFire src s).vi = s.vi := by rw [intFire_frame]
@[simp] theorem intFire_fw (src : Nat) : (intFire src s).fw = s.fw := by rw [intFire_frame]
@[simp] theorem intFire_sec (src : Nat) : (intFire src s).sec = s.sec := by rw [intFire_frame]
@[simp] theorem intFire_spdm (src : Nat) : (intFire src s).spdm = s.spdm := by rw [intFire_frame]
@[simp] theorem intFire_pw (src : Nat) : (intFire src s).pw = s.pw := by rw [intFire_frame]
@[simp] theorem intFire_dom (src : Nat) : (intFire src s).dom = s.dom := by rw [intFire_frame]
@[simp] theorem intFire_re (src : Nat) : (intFire src s).re = s.re := by rw [intFire_frame]
@[simp] theorem intFire_pins (src : Nat) : (intFire src s).pins = s.pins := by rw [intFire_frame]

/-- All that it may change. -/
theorem raise_frame (off bit : Nat) :
    raise off bit s = { s with regs := (raise off bit s).regs, gl := (raise off bit s).gl, out := (raise off bit s).out } := by
  unfold raise
  simp only []
  split
  · rfl
  · split
    · rw [intFire_frame]; rfl
    · rfl
@[simp] theorem raise_pending (off bit : Nat) : (raise off bit s).pending = s.pending := by rw [raise_frame]
@[simp] theorem raise_shadows (off bit : Nat) : (raise off bit s).shadows = s.shadows := by rw [raise_frame]
@[simp] theorem raise_commits (off bit : Nat) : (raise off bit s).commits = s.commits := by rw [raise_frame]
@[simp] theorem raise_tick (off bit : Nat) : (raise off bit s).tick = s.tick := by rw [raise_frame]
@[simp] theorem raise_lz (off bit : Nat) : (raise off bit s).lz = s.lz := by rw [raise_frame]
@[simp] theorem raise_xl (off bit : Nat) : (raise off bit s).xl = s.xl := by rw [raise_frame]
@[simp] theorem raise_mem (off bit : Nat) : (raise off bit s).mem = s.mem := by rw [raise_frame]
@[simp] theorem raise_freeCount (off bit : Nat) : (raise off bit s).freeCount = s.freeCount := by rw [raise_frame]
@[simp] theorem raise_q (off bit : Nat) : (raise off bit s).q = s.q := by rw [raise_frame]
@[simp] theorem raise_tp (off bit : Nat) : (raise off bit s).tp = s.tp := by rw [raise_frame]
@[simp] theorem raise_cf (off bit : Nat) : (raise off bit s).cf = s.cf := by rw [raise_frame]
@[simp] theorem raise_eth (off bit : Nat) : (raise off bit s).eth = s.eth := by rw [raise_frame]
@[simp] theorem raise_cs (off bit : Nat) : (raise off bit s).cs = s.cs := by rw [raise_frame]
@[simp] theorem raise_hd (off bit : Nat) : (raise off bit s).hd = s.hd := by rw [raise_frame]
@[simp] theorem raise_kn (off bit : Nat) : (raise off bit s).kn = s.kn := by rw [raise_frame]
@[simp] theorem raise_ce (off bit : Nat) : (raise off bit s).ce = s.ce := by rw [raise_frame]
@[simp] theorem raise_pc (off bit : Nat) : (raise off bit s).pc = s.pc := by rw [raise_frame]
@[simp] theorem raise_cv (off bit : Nat) : (raise off bit s).cv = s.cv := by rw [raise_frame]
@[simp] theorem raise_vi (off bit : Nat) : (raise off bit s).vi = s.vi := by rw [raise_frame]
@[simp] theorem raise_fw (off bit : Nat) : (raise off bit s).fw = s.fw := by rw [raise_frame]
@[simp] theorem raise_sec (off bit : Nat) : (raise off bit s).sec = s.sec := by rw [raise_frame]
@[simp] theorem raise_spdm (off bit : Nat) : (raise off bit s).spdm = s.spdm := by rw [raise_frame]
@[simp] theorem raise_pw (off bit : Nat) : (raise off bit s).pw = s.pw := by rw [raise_frame]
@[simp] theorem raise_dom (off bit : Nat) : (raise off bit s).dom = s.dom := by rw [raise_frame]
@[simp] theorem raise_re (off bit : Nat) : (raise off bit s).re = s.re := by rw [raise_frame]
@[simp] theorem raise_pins (off bit : Nat) : (raise off bit s).pins = s.pins := by rw [raise_frame]

/-- All that it may change. -/
theorem raisePage_frame (n bit : Nat) :
    raisePage n bit s = { s with regs := (raisePage n bit s).regs, gl := (raisePage n bit s).gl, out := (raisePage n bit s).out } := by
  unfold raisePage
  simp only []
  split
  · rfl
  · split
    · rw [msixRaise_frame]; rfl
    · rfl
@[simp] theorem raisePage_pending (n bit : Nat) : (raisePage n bit s).pending = s.pending := by rw [raisePage_frame]
@[simp] theorem raisePage_shadows (n bit : Nat) : (raisePage n bit s).shadows = s.shadows := by rw [raisePage_frame]
@[simp] theorem raisePage_commits (n bit : Nat) : (raisePage n bit s).commits = s.commits := by rw [raisePage_frame]
@[simp] theorem raisePage_tick (n bit : Nat) : (raisePage n bit s).tick = s.tick := by rw [raisePage_frame]
@[simp] theorem raisePage_lz (n bit : Nat) : (raisePage n bit s).lz = s.lz := by rw [raisePage_frame]
@[simp] theorem raisePage_xl (n bit : Nat) : (raisePage n bit s).xl = s.xl := by rw [raisePage_frame]
@[simp] theorem raisePage_mem (n bit : Nat) : (raisePage n bit s).mem = s.mem := by rw [raisePage_frame]
@[simp] theorem raisePage_freeCount (n bit : Nat) : (raisePage n bit s).freeCount = s.freeCount := by rw [raisePage_frame]
@[simp] theorem raisePage_q (n bit : Nat) : (raisePage n bit s).q = s.q := by rw [raisePage_frame]
@[simp] theorem raisePage_tp (n bit : Nat) : (raisePage n bit s).tp = s.tp := by rw [raisePage_frame]
@[simp] theorem raisePage_cf (n bit : Nat) : (raisePage n bit s).cf = s.cf := by rw [raisePage_frame]
@[simp] theorem raisePage_eth (n bit : Nat) : (raisePage n bit s).eth = s.eth := by rw [raisePage_frame]
@[simp] theorem raisePage_cs (n bit : Nat) : (raisePage n bit s).cs = s.cs := by rw [raisePage_frame]
@[simp] theorem raisePage_hd (n bit : Nat) : (raisePage n bit s).hd = s.hd := by rw [raisePage_frame]
@[simp] theorem raisePage_kn (n bit : Nat) : (raisePage n bit s).kn = s.kn := by rw [raisePage_frame]
@[simp] theorem raisePage_ce (n bit : Nat) : (raisePage n bit s).ce = s.ce := by rw [raisePage_frame]
@[simp] theorem raisePage_pc (n bit : Nat) : (raisePage n bit s).pc = s.pc := by rw [raisePage_frame]
@[simp] theorem raisePage_cv (n bit : Nat) : (raisePage n bit s).cv = s.cv := by rw [raisePage_frame]
@[simp] theorem raisePage_vi (n bit : Nat) : (raisePage n bit s).vi = s.vi := by rw [raisePage_frame]
@[simp] theorem raisePage_fw (n bit : Nat) : (raisePage n bit s).fw = s.fw := by rw [raisePage_frame]
@[simp] theorem raisePage_sec (n bit : Nat) : (raisePage n bit s).sec = s.sec := by rw [raisePage_frame]
@[simp] theorem raisePage_spdm (n bit : Nat) : (raisePage n bit s).spdm = s.spdm := by rw [raisePage_frame]
@[simp] theorem raisePage_pw (n bit : Nat) : (raisePage n bit s).pw = s.pw := by rw [raisePage_frame]
@[simp] theorem raisePage_dom (n bit : Nat) : (raisePage n bit s).dom = s.dom := by rw [raisePage_frame]
@[simp] theorem raisePage_re (n bit : Nat) : (raisePage n bit s).re = s.re := by rw [raisePage_frame]
@[simp] theorem raisePage_pins (n bit : Nat) : (raisePage n bit s).pins = s.pins := by rw [raisePage_frame]

/-- All that it may change. -/
theorem enterState_frame (n : Nat) (st : InstState) :
    enterState n st s = { s with regs := (enterState n st s).regs, gl := (enterState n st s).gl, out := (enterState n st s).out, vi := (enterState n st s).vi } := by
  unfold enterState
  cases st <;> first | rfl | (simp only []; rw [raisePage_frame]; rfl)
@[simp] theorem enterState_pending (n : Nat) (st : InstState) : (enterState n st s).pending = s.pending := by rw [enterState_frame]
@[simp] theorem enterState_shadows (n : Nat) (st : InstState) : (enterState n st s).shadows = s.shadows := by rw [enterState_frame]
@[simp] theorem enterState_commits (n : Nat) (st : InstState) : (enterState n st s).commits = s.commits := by rw [enterState_frame]
@[simp] theorem enterState_tick (n : Nat) (st : InstState) : (enterState n st s).tick = s.tick := by rw [enterState_frame]
@[simp] theorem enterState_lz (n : Nat) (st : InstState) : (enterState n st s).lz = s.lz := by rw [enterState_frame]
@[simp] theorem enterState_xl (n : Nat) (st : InstState) : (enterState n st s).xl = s.xl := by rw [enterState_frame]
@[simp] theorem enterState_mem (n : Nat) (st : InstState) : (enterState n st s).mem = s.mem := by rw [enterState_frame]
@[simp] theorem enterState_freeCount (n : Nat) (st : InstState) : (enterState n st s).freeCount = s.freeCount := by rw [enterState_frame]
@[simp] theorem enterState_q (n : Nat) (st : InstState) : (enterState n st s).q = s.q := by rw [enterState_frame]
@[simp] theorem enterState_tp (n : Nat) (st : InstState) : (enterState n st s).tp = s.tp := by rw [enterState_frame]
@[simp] theorem enterState_cf (n : Nat) (st : InstState) : (enterState n st s).cf = s.cf := by rw [enterState_frame]
@[simp] theorem enterState_eth (n : Nat) (st : InstState) : (enterState n st s).eth = s.eth := by rw [enterState_frame]
@[simp] theorem enterState_cs (n : Nat) (st : InstState) : (enterState n st s).cs = s.cs := by rw [enterState_frame]
@[simp] theorem enterState_hd (n : Nat) (st : InstState) : (enterState n st s).hd = s.hd := by rw [enterState_frame]
@[simp] theorem enterState_kn (n : Nat) (st : InstState) : (enterState n st s).kn = s.kn := by rw [enterState_frame]
@[simp] theorem enterState_ce (n : Nat) (st : InstState) : (enterState n st s).ce = s.ce := by rw [enterState_frame]
@[simp] theorem enterState_pc (n : Nat) (st : InstState) : (enterState n st s).pc = s.pc := by rw [enterState_frame]
@[simp] theorem enterState_cv (n : Nat) (st : InstState) : (enterState n st s).cv = s.cv := by rw [enterState_frame]
@[simp] theorem enterState_fw (n : Nat) (st : InstState) : (enterState n st s).fw = s.fw := by rw [enterState_frame]
@[simp] theorem enterState_sec (n : Nat) (st : InstState) : (enterState n st s).sec = s.sec := by rw [enterState_frame]
@[simp] theorem enterState_spdm (n : Nat) (st : InstState) : (enterState n st s).spdm = s.spdm := by rw [enterState_frame]
@[simp] theorem enterState_pw (n : Nat) (st : InstState) : (enterState n st s).pw = s.pw := by rw [enterState_frame]
@[simp] theorem enterState_dom (n : Nat) (st : InstState) : (enterState n st s).dom = s.dom := by rw [enterState_frame]
@[simp] theorem enterState_re (n : Nat) (st : InstState) : (enterState n st s).re = s.re := by rw [enterState_frame]
@[simp] theorem enterState_pins (n : Nat) (st : InstState) : (enterState n st s).pins = s.pins := by rw [enterState_frame]

end Sys2Proof.Machine
end

