-- ==== Sys2Proof/Laws/Regs.lean ====
section
/-! SUPPORT. Registers, shadows and event bits: what a read finds after a write. -/

namespace Sys2Proof.Machine

variable (s : State)

@[simp] theorem regAt_putReg_same (k : Nat) (v : Word) : regAt (putReg k v s) k = v := getD_mapPut_same _ _ _ _

theorem regAt_putReg_ne {j k : Nat} (v : Word) (h : j ≠ k) : regAt (putReg k v s) j = regAt s j := by
  unfold regAt putReg
  rw [mapGet_mapPut_ne _ _ _ h]

@[simp] theorem shadowAt_putShadow_same (k : Nat) (v : Word) : shadowAt (putShadow k v s) k = v := getD_mapPut_same _ _ _ _

theorem shadowAt_putShadow_ne {j k : Nat} (v : Word) (h : j ≠ k) : shadowAt (putShadow k v s) j = shadowAt s j := by
  unfold shadowAt putShadow
  rw [mapGet_mapPut_ne _ _ _ h]

@[simp] theorem shadowAt_putReg (j k : Nat) (v : Word) : shadowAt (putReg k v s) j = shadowAt s j := rfl
@[simp] theorem regAt_putShadow (j k : Nat) (v : Word) : regAt (putShadow k v s) j = regAt s j := rfl
@[simp] theorem regAt_emit (k : Nat) (o : Output) : regAt (emit o s) k = regAt s k := rfl
@[simp] theorem regAt_setInst (k n : Nat) (i : Instance) : regAt (setInst n i s) k = regAt s k := rfl


@[simp] theorem regAt_intFire (k src : Nat) : regAt (intFire src s) k = regAt s k := by simp [regAt]
@[simp] theorem regAt_msixRaise (k fn v : Nat) : regAt (msixRaise fn v s) k = regAt s k := by simp [regAt]

/-- A raised bit reads 1. -/
theorem raise_sets (off bit : Nat) (h : bit < 32) : (rg (raise off bit s) off).getLsbD bit = true := by
  have e : (rg s off ||| BitVec.ofNat 32 (2 ^ bit)).getLsbD bit = true := by
    rw [BitVec.getLsbD_or, BitVec.getLsbD_ofNat, Nat.testBit_two_pow_self, decide_eq_true h]
    exact Bool.or_true _
  unfold raise
  simp only []
  split
  · assumption
  · split
    · rw [rg, regAt_intFire, regAt_putReg_same]; exact e
    · rw [rg, regAt_putReg_same]; exact e

/-- A raised event changes no other register. -/
theorem regAt_raise_ne {off k : Nat} (bit : Nat) (h : k ≠ off) : regAt (raise off bit s) k = regAt s k := by
  unfold raise
  simp only []
  split
  · rfl
  · split <;> simp [regAt_putReg_ne, h]

/-- A raised event clears no event bit. -/
theorem raise_keeps (off bit i : Nat) (h : (rg s off).getLsbD i = true) : (rg (raise off bit s) off).getLsbD i = true := by
  unfold raise
  simp only []
  split
  · exact h
  · split <;> simp [h]

@[simp] theorem regAt_bump_same (k : Nat) : regAt (bump k s) k = if regAt s k = 0xFFFFFFFF then regAt s k else regAt s k + 1 := by
  simp [bump]

theorem regAt_bump_ne {j k : Nat} (h : j ≠ k) : regAt (bump k s) j = regAt s j := regAt_putReg_ne s _ h

end Sys2Proof.Machine
end

