-- ==== Sys2Proof/Laws/Shared.lean ====
section
/-! SUPPORT. What the operations that many meanings share can do, one lemma each: guards, events, records in tables,
the end of an operation. -/

namespace Sys2Proof.Machine

/-! ### Guards -/

@[simp] theorem whenOk_true (f : State → State) (s : State) : whenOk true f s = f s := rfl
@[simp] theorem whenOk_false (f : State → State) (s : State) : whenOk false f s = s := rfl

theorem whenOk_keeps {P : State → Prop} (c : Bool) (f : State → State) {s : State} (h : P s) (hf : c = true → P (f s)) :
    P (whenOk c f s) := by
  cases c
  · exact h
  · exact hf rfl

/-! ### Events (R547, R548) -/

theorem eventsOnly_refl (s : State) (ks : List Nat) : eventsOnly s s ks := ⟨rfl, fun _ _ => rfl⟩

theorem eventsOnly_trans {s t u : State} {ks ls : List Nat} (h : eventsOnly s t ks) (g : eventsOnly t u ls) :
    eventsOnly s u (ks ++ ls) := by
  refine ⟨?_, fun k hk => ?_⟩
  · rw [g.1, h.1]
  · rw [List.mem_append, not_or] at hk
    rw [g.2 k hk.2, h.2 k hk.1]

theorem eventsOnly_mono {s t : State} {ks ls : List Nat} (h : eventsOnly s t ks) (hs : ∀ k, k ∈ ks → k ∈ ls) : eventsOnly s t ls :=
  ⟨h.1, fun k hk => h.2 k (fun hm => hk (hs k hm))⟩

theorem putReg_eventsOnly (s : State) (k : Nat) (v : Word) : eventsOnly s (putReg k v s) [k] :=
  ⟨rfl, fun j hj => regAt_putReg_ne s v (by simpa using hj)⟩

theorem bump_eventsOnly (s : State) (k : Nat) : eventsOnly s (bump k s) [k] :=
  ⟨bump_frame s k, fun j hj => regAt_bump_ne s (by simpa using hj)⟩

theorem msixSend_eventsOnly (s : State) (fn v : Nat) : eventsOnly s (msixSend fn v s) [] := by
  unfold msixSend
  split <;> exact ⟨rfl, fun _ _ => rfl⟩

theorem msixRaise_eventsOnly (s : State) (fn v : Nat) : eventsOnly s (msixRaise fn v s) [] := by
  unfold msixRaise
  split
  · exact eventsOnly_trans (t := { s with gl := { s.gl with msixPending := insertNew s.gl.msixPending (64 * fn + v) } })
      (ks := []) ⟨rfl, fun _ _ => rfl⟩ (msixSend_eventsOnly _ fn v)
  · exact eventsOnly_refl s []

theorem raise_eventsOnly (s : State) (off bit : Nat) : eventsOnly s (raise off bit s) [off] := by
  have h : ∀ src t, eventsOnly t (intFire src t) [] := by
    intro src t
    unfold intFire
    split
    · exact msixRaise_eventsOnly t _ _
    · exact eventsOnly_refl t []
  unfold raise
  simp only []
  split
  · exact eventsOnly_refl s _
  · split
    · exact eventsOnly_trans (ls := []) (putReg_eventsOnly s off _) (h _ _)
    · exact putReg_eventsOnly s off _

theorem whenOk_eventsOnly (c : Bool) (f : State → State) (s : State) (ks : List Nat) (h : eventsOnly s (f s) ks) :
    eventsOnly s (whenOk c f s) ks := by
  cases c
  · exact eventsOnly_refl s ks
  · exact h

/-! ### Records in tables -/

theorem mapGet_mapModify {α : Type} (m : NMap α) (j k : Nat) (f : α → α) :
    mapGet (mapModify m k f) j = if j = k then (mapGet m j).map f else mapGet m j := by
  induction m with
  | nil => simp [mapModify]
  | cons e t ih =>
    obtain ⟨i, w⟩ := e
    simp only [mapModify, List.map_cons] at ih ⊢
    by_cases hi : i = k
    · subst hi
      simp only [if_true]
      by_cases hj : i = j
      · simp [mapGet, hj]
      · simp [mapGet, hj, ih, Ne.symm hj]
    · simp only [hi, if_false]
      by_cases hj : i = j
      · subst hj; simp [mapGet, hi]
      · simp [mapGet, hj, ih]

@[simp] theorem inst_setInst_same (n : Nat) (i : Instance) (s : State) : inst (setInst n i s) n = i := getD_mapPut_same _ _ _ _

theorem inst_setInst_ne {m n : Nat} (i : Instance) (s : State) (h : m ≠ n) : inst (setInst n i s) m = inst s m := by
  unfold inst setInst
  rw [mapGet_mapPut_ne _ _ _ h]

@[simp] theorem keySlot_setKeySlot_same (n : Nat) (k : KeySlot) (s : State) : keySlot (setKeySlot n k s) n = k :=
  getD_mapPut_same _ _ _ _

theorem keySlot_setKeySlot_ne {m n : Nat} (k : KeySlot) (s : State) (h : m ≠ n) : keySlot (setKeySlot n k s) m = keySlot s m := by
  unfold keySlot setKeySlot
  rw [mapGet_mapPut_ne _ _ _ h]

theorem ringOf_updRing (r q : Nat) (f : Ring → Ring) (s : State) :
    ringOf (updRing r f s) q = if q = r then (ringOf s q).map f else ringOf s q := mapGet_mapModify _ _ _ _

theorem qpOf_updQp (n q : Nat) (f : Qp → Qp) (s : State) :
    qpOf (updQp n f s) q = if q = n then (qpOf s q).map f else qpOf s q := mapGet_mapModify _ _ _ _

theorem runOf_updRun (k j : Nat) (f : OpRun → OpRun) (s : State) :
    runOf (updRun k f s) j = if j = k then (runOf s j).map f else runOf s j := mapGet_mapModify _ _ _ _

/-! ### The end of an operation (R138, R146) -/

/-- It changes the rings alone. -/
theorem finishOp_frame (ring head : Nat) (c : Completion) (s : State) :
    finishOp ring head c s = { s with q := { s.q with rings := (finishOp ring head c s).q.rings } } := rfl

theorem finishOp_other {ring r : Nat} (head : Nat) (c : Completion) (s : State) (h : r ≠ ring) :
    ringOf (finishOp ring head c s) r = ringOf s r := by
  unfold finishOp
  rw [ringOf_updRing, if_neg h]

/-- Looking up a slot after a change that keeps every entry's slot. -/
theorem find_map_slot (ops : List Op) (slot : Nat) (f : Op → Op) (h : ∀ o, (f o).slot = o.slot) :
    (ops.map f).find? (fun o => o.slot == slot) = (ops.find? (fun o => o.slot == slot)).map f := by
  induction ops with
  | nil => rfl
  | cons o t ih =>
    simp only [List.map_cons, List.find?_cons, h]
    split
    · rfl
    · exact ih

/-- The entry that heads a chain gets a completion with the status. -/
theorem finishOp_endsWith {ring slot : Nat} (c : Completion) {s : State} {o : Op} (ho : opAt s ring slot = some o)
    (hh : o.head = slot) (hd : o.done = none) : endsWith (finishOp ring slot c s) ring slot c.status := by
  unfold opAt at ho
  obtain ⟨g, hg, hf⟩ := Option.bind_eq_some_iff.mp ho
  unfold endsWith opAt finishOp
  rw [ringOf_updRing, if_pos rfl, hg]
  simp only [Option.map_some, Option.bind_some]
  rw [find_map_slot _ _ _ (by intro x; split <;> rfl), hf]
  simp only [Option.map_some, Option.bind_some, hh, hd, and_self, if_true]
  split <;> rfl

theorem mgmtDone_endsWith {slot status : Nat} {s : State} {o : Op} (ho : opAt s 0 slot = some o) (hh : o.head = slot)
    (hd : o.done = none) : endsWith (mgmtDone slot status s) 0 slot status := finishOp_endsWith { status := status } ho hh hd

end Sys2Proof.Machine
end

