-- ==== Sys2Proof/WellFormed.lean ====
section
/-! DEFINITION. Well-formed commands: every number that names a part of the adapter lies in the range that the
specification gives it.  The meanings do not rest on it: a command outside these ranges names nothing, and its
meaning finds nothing. -/

namespace Sys2Proof

/-- A network port (Table 2.3). -/
def wfPort (p : Nat) : Bool := decide (p < 32)

/-- A network port, or for 32 and above a UDP node entry of 4,096 (R256), of a tick-alignment cell. -/
def wfAlignPort (p : Nat) : Bool := decide (p < 32 + 4096)

/-- A network port or the PTP port, 32 (R558). -/
def wfPtpPort (p : Nat) : Bool := decide (p ≤ 32)

/-- An accelerator port, ACC0 to ACC3 (R382). -/
def wfAcc (p : Nat) : Bool := decide (p < 4)

/-- A PCIe port: 0 HST, 1 to 4 ACC0 to ACC3. -/
def wfPcie (p : Nat) : Bool := decide (p ≤ 4)

/-- A priority (R231). -/
def wfPri (k : Nat) : Bool := decide (k < 8)

/-- A ring (R128). -/
def wfRing (r : Nat) : Bool := decide (r < 32768)

/-- A slot of a ring: a ring has 2^16 entries at most (R129). -/
def wfSlot (i : Nat) : Bool := decide (i < 65536)

/-- A queue pair (R161). -/
def wfQpn (q : Nat) : Bool := decide (q < 65536)

/-- An instance (R430). -/
def wfInst (n : Nat) : Bool := decide (n < 512)

/-- A Herd (R288). -/
def wfHerd (h : Nat) : Bool := decide (h < 65536)

/-- A Flock (Table 2.4). -/
def wfFlock (f : Nat) : Bool := decide (f < 4096)

/-- A key slot (R410). -/
def wfKey (k : Nat) : Bool := decide (k < 8192)

/-- A granule: 4,096 of tier 1, then 16,384 of tier 2 (R107). -/
def wfGranule (g : Nat) : Bool := decide (g < 20480)

/-- A Bantam (R469). -/
def wfBantam (b : Nat) : Bool := decide (b < 6)

/-- A power domain (R498). -/
def wfDomain (d : Nat) : Bool := decide (d < 236)

/-- An address that a 4-byte unit of the register window or of an instance page may have (R540). -/
def wfOffset (off : Nat) : Bool := off % 4 == 0 && decide (off < 0x04000000 + 512 * 0x10000)

/-- The command names only what exists. -/
def Instr.wellFormed (i : Instr) : Bool :=
  match i with
  | .flrVf n | .instTickLoRead n | .mbxOutPost n | .mbxOutTaken n | .mbxInPost n | .mbxInDone n
  | .instanceResetComplete n _ | .freezeActivate n | .freezeComplete n | .thawActivate n
  | .mbxBufferWrite n _ _ _ | .msixVectorUnmask n _ => wfInst n
  | .doorbell n ring => wfInst n && wfRing ring
  | .commitWrite off _ | .latchedLoRead off | .registerWrite off _ _ | .cvConfigWrite off _ | .asleepAccess _ off =>
    wfOffset off
  | .tickAlignCellReceive port _ _ => wfAlignPort port
  | .ptpMessageReceive port _ => wfPtpPort port
  | .granuleWipeDone g => wfGranule g
  | .bondForm f | .bondActionAck f _ | .bondAckTimeout f _ _ _ | .bondUnitActionReceive f _ => wfFlock f
  | .invalidate i | .invalidateComplete i | .dumpRegion i | .ringRegister i | .ringShutdown i _ _ _ | .qpCreate i _ _
  | .qpModifyReconnect i _ _ | .qpModifyTimers i | .qpModifyError i | .qpDestroy i | .herdDefine i _ _ | .herdDissolve i
  | .keyLoad i _ _ | .keyRekey i _ _ | .keyErase i | .instanceResetDrain i | .instanceResetSquash i
  | .instanceResetDiscard i | .instanceFreeze i | .instanceThaw i | .instanceSaveState i _ | .instanceSaveMemory i _
  | .instanceRestoreState i _ _ _ | .instanceRestoreMemory i _ => wfSlot i
  | .sqPoll ring _ _ | .entryAccept ring | .cqReservationCheck ring _ _ | .completionRelease ring _ => wfRing ring
  | .write ring i | .read ring i | .send ring i | .atomic ring i | .writeReduce ring i | .attn ring i | .fence ring i
  | .decodeAttn ring i _ | .prefillAppend ring i _ | .kvGather ring i _ | .tierMove ring i | .collective ring i =>
    wfRing ring && wfSlot i
  | .recv qpn _ | .readExecute qpn _ | .atomicPerform qpn _ | .attnKernelStart qpn _ _ | .recvComplete qpn
  | .missingNackSend qpn _ _ | .recordTimeout qpn _ _ | .retransmitTimeout qpn _ | .rnrResend qpn _
  | .herdPieceReceive qpn _ | .herdSkipReceive qpn | .herdVoteReceive qpn | .herdAbortReceive qpn
  | .herdCommitReceive qpn | .herdDecideAbortReceive qpn => wfQpn qpn
  | .trainReceive p _ _ | .dataCellReceive p _ | .reduceCellReceive p _ | .sendCellReceive p _ _ | .readReqReceive p _
  | .readRespReceive p _ | .atomicReqReceive p _ | .atomicRespReceive p _ | .attnReqReceive p _ | .attnRespReceive p _
  | .ackReceive p _ | .nackMissingReceive p _ | .nackRnrReceive p _ | .nackMovedReceive p _ | .nackQpErrorReceive p _
  | .respAckReceive p _ | .codewordReceive p _ _ _ _ | .spareLaneSwap p | .receiverDetect p | .trainingSuccess p
  | .trainingAttemptTimeout p | .fecLock p _ | .fecLockTimeout p | .identReceive p _ _ | .identRoundTimeout p _
  | .identTimeout p | .codewordLockLoss p | .ethLinkUp p _ | .ethLinkDown p | .ethFrameReceive p _ _ _ _
  | .pauseFrameReceive p _ | .rocePacketReceive p _ | .cnpReceive p | .cellFrameReceive p _ _ | .ethCounterLoRead p _
  | .requestReceive p _ _ | .grantReceive p _ _ | .schedCnpReceive p _ _ | .gclEntryAdvance p | .gclListSwitch p => wfPort p
  | .xoffRepeat p k | .pauseExpiry p k | .ganderTxTrip p k | .ganderTxClear p k | .ganderRxTrip p k | .ganderRxClear p k =>
    wfPort p && wfPri k
  | .collectiveSlotAcquire h | .stepDeadlineMiss h _ | .holdTimeout h _ | .collectiveComplete h _
  | .herdMembershipChange h => wfHerd h
  | .accReceiverDetect p | .accLinkUp p _ _ | .accEnumerate p _ _ _ | .accLinkDown p | .accErrFatal p
  | .accRequestReceive p | .accErrorMessage p => wfAcc p
  | .pcieFlushComplete p _ => wfPcie p
  | .keyChangeApply k => wfKey k
  | .restartBantam b | .watchdogExpiry b _ => wfBantam b
  | .domainIdleTimeout d | .domainWake d => wfDomain d
  | .intEnableWrite page _ => page.all wfInst
  | .powerUp | .powerGood | .powerLoss _ | .coldRstNAssert | .coldReset _ _ _ _ | .firmwareBoot _ | .wipeDone
  | .warmReset _ _ | .gxCtrlWarmReset _ | .hostLinkLoss | .hstLinkUp _ _ | .flrPf | .vfEnableChange _ _ | .tickEdge _ _
  | .commitApply | .tickCommitActivate | .tickCommitWrite _ | .commitMulti _ | .tickCountLoRead | .ptpLock | .ptpLockLost
  | .alignAcquired | .alignLost | .alignInputTimeout | .holdoverTimeout | .lzVerify _ | .lzPartial _ | .lzFull _
  | .partialReloadApply | .walkComplete _ _ | .scrubPass _ | .errorDetected _ | .rowRepairDone _ | .pcSwapComplete _ _
  | .frameRetireRedirect _ | .coreSwapBegin | .coreSwapComplete | .dumpComplete _ | .dumpTimeout
  | .staleRequestDiscard _ _ | .mgmtEnable _ | .mgmtDisable _ | .portAdminDown _ | .portRestart | .transmitSelect _ _
  | .noRouteRetry | .cmapLoad _ _ _ _ | .fenceTableWrite _ | .unodeRouteWrite _ _ _ | .workItemEnd _ _ _ _
  | .kernelComplete _ | .accAdminDown _ | .accRestart _ | .pcieReadCompletion _ _ _ | .pcieCompletionTimeout _
  | .cvClear | .cvStart | .cvStop | .cvStreamBoundary _ _ | .cvBytesLoRead | .cvSelfTestDone _ _ | .fwVerify | .fwInstall
  | .activateRolling | .activateWarm | .commitSvn | .lcChange | .kekInstall | .bantamRestartComplete _ _
  | .fwActivationResume | .fwHello | .joinDomain | .hostBeat _ _ | .hostSilent _ | .getVersion _ | .getCapabilities _ _
  | .negotiateAlgorithms _ _ | .getDigests _ | .getCertificate _ _ _ _ | .challenge _ _ | .getMeasurements _ _
  | .keyExchange _ _ _ | .finish _ _ _ | .heartbeat _ _ | .keyUpdate _ _ | .endSession _ _ | .spdmUnsupportedRequest _
  | .drbgReseed | .psExitComplete | .flockPark _ | .flockUnpark _ | .inputSample _ _ _ _ _ _ | .demandDecrease
  | .emergencyBegin | .emergencyEnd | .thermalTrip _ _ | .ppsPulse | .ptpPortLinkChange _ | .mctpControlMessage _
  | .lzActionEnd _ _ | .fwActionEnd _ => true

end Sys2Proof
end

