-- ==== Sys2Proof/Tests/Slice0.lean ====
section
/-! SUPPORT. Tests.  For every clause of an obligation that has hypotheses, `witness_<Obligation>_<clause>` shows a state
and operands that meet all of them together; the helpers before them build those states.  At the end stand tests
of effects against the worked examples of the specification, of ill-formed commands, and of the row's interface. -/

set_option linter.unusedVariables false
set_option Elab.async false

open Sys2Proof Sys2Proof.Machine
namespace Sys2Proof.Tests

/-! ### States for the witnesses -/

/-- The adapter after a boot: rails up, BOOT READY, the empty structure. -/
def up : State := { State.reset with fw := { State.reset.fw with coldDue := false, boot := .ready } }
/-- A bundle that boots. -/
def bundle : Bundle := { release := 1, svn := 0, ifaceLow := 1, ifaceHigh := 3, features := 0xF, minRev := 0, lengths := [1, 1, 1, 1, 1, 1] }
/-- Both banks hold a bundle, and the boot ROM runs. -/
def romState : State := { State.reset with fw := { State.reset.fw with coldDue := false, boot := .rom, bankA := some bundle, bankB := some bundle } }
/-- Port 1 is a cell port, and a record of its link. -/
def portState (c : CellPort) : State :=
  { up with
    lz := { up.lz with run := { up.lz.run with ports := List.replicate 8 ⟨true, false, false, 1518⟩ } }
    cf := { up.cf with ports := [(1, c)] } }
/-- Port 1's link is up. -/
def linked : State := portState { state := .up, credit := 64 }
/-- `up` with a tick block. -/
def withTick (t : TickState) : State := { up with tick := t }
/-- The shadow of PERIOD holds 65. -/
def shadowPeriod65 : State := { up with shadows := [(Reg.GX_TICK_PERIOD, 65)] }
/-- An entry's bytes, by offset and value (Table 5.4). -/
def entryOf (fs : List (Nat × Nat)) : BitVec 512 := BitVec.ofNat 512 (fs.map (fun f => f.2 * 2 ^ (8 * f.1))).sum
/-- An accepted FIRST and LAST entry at slot 0. -/
def opOf (fs : List (Nat × Nat)) : Op := { slot := 0, entry := entryOf ((0, 6) :: fs), head := 0 }
/-- The management rings hold an operation at slot 0 of ring 0. -/
def withOp (o : Op) (s : State) : State :=
  { s with q := { s.q with mgmtActive := true, rings :=
      [(0, { kind := .sq, base := 0, loc := 0, log2 := 3, inst := 0, cq := 1, reserved := true, nextFetch := 1, ops := [o] }),
       (1, { kind := .cq, base := 4096, loc := 0, log2 := 3, inst := 0, resNext := 1 })] } }
/-- A management command waits at slot 0. -/
def mgmt (fs : List (Nat × Nat)) : State := withOp (opOf fs) up
/-- A page of 1 GiB in SPACE 1 at 2^30, through tables in host memory. -/
def walking : State :=
  putReg Reg.GX_XL_SPTAB_CFG 2 { up with xl := { up.xl with spaceCache := [(1, 1)], walks := [(0, { space := 1, inst := 0, va := 2 ^ 30, owner := 7 })] } }
/-- The entries that its walk reads. -/
def pageReads : NMap (BitVec 128) := [(0, 4097), (4104, 27)]
/-- An image: its header, directory, sections and a trailer of zeros (Table 2.1). -/
def imageOf (partialImage : Bool) (sections : List (Nat × List Byte)) : List Byte :=
  let start := 0x60 + 16 * sections.length
  let padded := sections.map (fun x => x.2 ++ List.replicate ((8 - x.2.length % 8) % 8) 0)
  let offs := (List.range sections.length).map (fun i => start + (padded.take i).flatten.length)
  let dirs := (sections.zip offs).flatMap (fun x => leBytes 4 x.1.1 ++ leBytes 4 x.2 ++ leBytes 4 x.1.2.length ++ leBytes 4 0)
  leBytes 4 0x314E5A4C ++ leBytes 2 1 ++ leBytes 2 (if partialImage then 1 else 0)
    ++ leBytes 4 (start + padded.flatten.length + 5140) ++ leBytes 4 sections.length ++ leBytes 8 7 ++ leBytes 4 0x0100
    ++ List.replicate 68 0 ++ dirs ++ padded.flatten ++ List.replicate 5140 0
/-- PORTS: eight disabled ports. -/
def portsSection : List Byte := leBytes 4 0 ++ (List.replicate 8 ([0, 0, 0, 0] ++ leBytes 2 1518 ++ [0, 0])).flatten
/-- A Flock record (Table 2.4). -/
def flockBytes (id parent kind flags core mask slot unit : Nat) : List Byte :=
  leBytes 2 id ++ leBytes 2 parent ++ leBytes 1 kind ++ leBytes 1 flags ++ leBytes 1 core ++ leBytes 1 mask
    ++ leBytes 1 slot ++ leBytes 1 unit ++ List.replicate 22 0
/-- An image that changes no port. -/
def portsImage : List Byte := imageOf true [(1, portsSection)]
/-- A full image of one instance with one engine. -/
def fullImage : List Byte :=
  imageOf false [(1, portsSection), (2, flockBytes 0 0xFFFF 0 3 0 0 0 0 ++ flockBytes 1 0 1 0 15 1 0 0), (3, leBytes 2 0 ++ leBytes 2 0),
    (4, leBytes 2 1 ++ leBytes 2 8 ++ leBytes 12 0), (5, leBytes 4 32 ++ leBytes 4 64 ++ leBytes 4 96 ++ leBytes 4 56),
    (6, leBytes 4 16 ++ leBytes 4 150), (7, leBytes 4 1 ++ leBytes 4 256)]
/-- An action runs on a staged image. -/
def staging (kind : Nat) (img : List Byte) : State :=
  putReg Reg.GX_LZ_STAGE_LEN (BitVec.ofNat 32 img.length) { up with lz := { up.lz with action := kind } }
/-- A bonded Flock 1, member 0 of bond 7, whose member 1 must acknowledge a reset. -/
def bonded (index : Nat) : State :=
  { linked with
    lz := { linked.lz with
      run := { linked.lz.run with
        flocks := linked.lz.run.flocks ++ [⟨1, some 0, .inner, false, false, true, 0, 0, 0, 0, 7⟩]
        bonds := [⟨7, 2, index⟩] }
      unitActions := [⟨1, .reset, [1], 0, false⟩] } }
/-- Of a group that names block 1 alone, only block 1 is asked. -/
theorem atBit1 (i : Nat) (b : CommitBlock) (h : commitBlocks[i]? = some b) (hv : (2 : Word).getLsbD i = true) :
    commitBad up (period up) b.block = false := by
  have hi : i = 1 := by
    rw [show (2 : Word) = BitVec.twoPow 32 1 from by decide] at hv
    simp at hv; omega
  subst hi; cases h; decide +kernel
/-- Instance 0 with one engine of core 0, granule 0, node 3 at slot 0, SPACE 1 over its granule, port 1 up, tenant rings 2 (SQ),
3 (CQ) and 4 (RQ), and one NATIVE queue pair 9. -/
def homeTree : Structure :=
  { up.lz.run with
    ports := List.replicate 8 ⟨true, false, false, 1518⟩
    flocks := [⟨0, none, .inner, true, true, false, 0, 0, 0, 0, 0⟩, ⟨1, some 0, .leafEngines, false, false, false, 0, 1, 0, 0, 0⟩]
    mems := [⟨0, 0, 1, 0⟩, ⟨1, 8, 0, 0⟩] }
/-- The queue pair: NATIVE_RC, every access, its peer node 5. -/
def qp9 : Qp :=
  { typ := 0, access := 0x1F, peerNode := 5, peerUnit := 0, peerQpn := 12, sq := 2, rq := 4, inst := 0, nextMsn := 2 ^ 32,
    expected := 2 ^ 32, sendSsn := 2 ^ 32, recvSsn := 2 ^ 32 }
/-- The SQ of instance 0. -/
def sq2 : Ring :=
  { kind := .sq, base := 8192, loc := 0, log2 := 3, inst := 0, cq := 3, space := 1, polled := true, reserved := true, nextFetch := 1 }
/-- A CQ and an RQ of instance 0. -/
def cq3 : Ring := { kind := .cq, base := 12288, loc := 0, log2 := 3, inst := 0, resNext := 1 }
def rq4 : Ring := { kind := .rq, base := 16384, loc := 0, log2 := 3, inst := 0, cq := 3, space := 1, reserved := true }
/-- The rings of a tenant, and an entry on the management ring. -/
def rings (ops : List Op) : NMap Ring :=
  [(0, { kind := .sq, base := 0, loc := 0, log2 := 3, inst := 0, cq := 1, reserved := true, nextFetch := 1, ops := ops }),
   (1, { kind := .cq, base := 4096, loc := 0, log2 := 3, inst := 0, resNext := 1 }), (2, sq2), (3, cq3), (4, rq4)]
/-- The tenant's adapter. -/
def home : State :=
  { up with
    regs := [(Reg.GX_XL_SPTAB_CFG, 2), (Reg.GX_XL_NODE_ID, 0x80000003)]
    lz := { up.lz with run := homeTree, loaded := true }
    mem := { up.mem with owner := [(0, 0)] }
    xl := { up.xl with spaceCache := [(1, 1)], l2 := [⟨0, 1, 2 ^ 30, 26, 3, 0, true, true, true, 0, false⟩], nextId := 1 }
    q := { up.q with mgmtActive := true, rings := rings [] }
    tp := { up.tp with qps := [(9, qp9)] }
    cf := { up.cf with ports := [(1, { state := .up, credit := 64, peerSwitch := true })] }
    pc := { up.pc with hstUp := true }
    fw := { up.fw with joined := true } }
/-- A management command waits there at slot 0. -/
def homeMgmt (fs : List (Nat × Nat)) : State := { home with q := { home.q with rings := rings [opOf fs] } }
/-- The rings with another SQ. -/
def withSq (g : Ring) (s : State) : State := { s with q := { s.q with rings := mapSet s.q.rings 2 g } }
/-- An entry of the tenant at slot 0 of ring 2. -/
def homeOp (o : Op) : State := withSq { sq2 with ops := [o] } home
/-- Its queue pair in another form. -/
def withQp (q : Qp) (s : State) : State := { s with tp := { s.tp with qps := mapSet s.tp.qps 9 q } }
/-- The state and the result of a kernel's step. -/
def kState {α : Type} (x : KOut α) : State := match x with | .ok s _ => s | _ => up
/-- A kernel's step gives a result. -/
def kGives {α : Type} [DecidableEq α] (x : KOut α) (a : α) : Bool := match x with | .ok _ b => decide (a = b) | _ => false
theorem of_kGives {α : Type} [DecidableEq α] (x : KOut α) (a : α) (h : kGives x a = true) : ∃ s, x = .ok s a := by
  cases x <;> simp_all [kGives]
/-- A sequence list came back. -/
def seqsGive (x : KOut (Except Nat (List KSeq))) (a : List KSeq) : Bool := match x with | .ok _ (.ok b) => decide (a = b) | _ => false
theorem of_seqsGive (x : KOut (Except Nat (List KSeq))) (a : List KSeq) (h : seqsGive x a = true) : ∃ s, x = .ok s (.ok a) := by
  cases x with
  | ok s b => cases b <;> simp_all [seqsGive]
  | _ => simp_all [seqsGive]
/-- A KV_GATHER block of one sequence, whose list stands at 2^30: BF16, 16 tokens a block, 64 elements a row, one KV head. -/
def gatherParams : List Byte :=
  [1, 0] ++ leBytes 2 1 ++ leBytes 4 0 ++ [1, 16] ++ leBytes 2 64 ++ leBytes 20 1 ++ leBytes 8 (2 ^ 30) ++ leBytes 8 1
/-- Its entry. -/
def gatherOp : Op := { opOf [(1, 8), (4, 4096), (32, 3 + 48 * 256)] with payload := gatherParams }
/-- Its sequence: block 0 alone. -/
def gatherState : State := { homeOp gatherOp with mem := { home.mem with bytes := [(12, 1)] } }
/-- A TIER_MOVE of 64 bytes from 2^30 to the core store. -/
def moveParams : List Byte := [1, 0] ++ leBytes 2 1 ++ leBytes 4 0 ++ [0, 1] ++ leBytes 6 0 ++ leBytes 8 (2 ^ 30) ++ leBytes 8 0 ++ leBytes 8 64
def moveOp : Op := { opOf [(1, 8), (32, 4 + 40 * 256)] with payload := moveParams }
/-- Its kernel, and one that has ended. -/
def moveKernel : Kernel := { ring := 2, slot := 0, inst := 0, space := 1, kind := 4, params := moveParams, len := 0, out := 0 }
def withKernel (k : Kernel) (s : State) : State := { s with kn := { s.kn with kernels := [(kernelKey k, k)] } }
/-- An ATTN's record at the responder. -/
def attnRec : RespRec := { qpn := 9, msn := 2 ^ 32, kind := 8, runs := [(5, 0, 64)], cells := 1, ready := false }
/-- A slot header from node 5 to node 3 and queue pair 9. -/
def hd (form kind : Nat) : BitVec 96 := mkHdr ⟨form, 3, 5, 0, 0, kind, 9, 0⟩
/-- The cell of a standalone slot, and cell k of a train. -/
def lone (kind : Nat) (pay : BitVec 512) : CellIn := cellOf (readHdr (hd 0 kind)) pay
def inTrain (kind : Nat) (t : TrainHdr) (k : Nat) (pay : BitVec 512) : CellIn := trainCell (readHdr (hd 1 kind)) (readTrain (mkTrain t)) k pay
/-- Port 1 is in a train. -/
def training (kind : Nat) (t : TrainHdr) (s : State) : State :=
  { s with cf := { s.cf with ports := [(1, { state := .up, credit := 64, train := some (hd 1 kind, mkTrain t) })] } }
/-- Payload bytes, by offset and value. -/
def payOf (fs : List (Nat × Nat)) : BitVec 512 := BitVec.ofNat 512 (fs.map (fun f => f.2 * 2 ^ (8 * f.1))).sum
/-- Node 3, offset 0, as a Fabric Address. -/
def fa : Nat := 3 * 2 ^ 41
/-- Trains: the first cell of a DATA message of two cells, one of a whole cell, a REDUCE cell of FP32 sums, and the tail of an empty SEND. -/
def dataTrain : TrainHdr := ⟨0, 1, 1, 63, 63, false, fa⟩
def wholeTrain : TrainHdr := ⟨0, 0, 0, 63, 63, false, fa⟩
def reduceTrain : TrainHdr := ⟨0, 1, 1, 63, 63, false, 0⟩
def tailTrain : TrainHdr := ⟨1, 1, 0, 63, 63, true, 0⟩
/-- A queue pair whose receive list holds an empty buffer. -/
def entry0 : RecvEntry := { ssn := 2 ^ 32, slot := 0, buf := 2 ^ 30, len := 0, space := 1 }
/-- A request record at the responder, whole. -/
def reqRec (kind : Nat) (pay : BitVec 512) : RxRec := { qpn := 9, msn := 2 ^ 32, kind := kind, cnt := 0, got := [0], pays := [(0, pay)] }
def withRec (r : RxRec) (s : State) : State := { s with tp := { s.tp with recs := [(msgKey 9 r.msn, r)] } }
/-- Nothing of the tenant's memory is withdrawn or uncorrectable. -/
theorem home_sound (s : State) (hb : s.mem.bad = []) (hw : s.re.now.withdrawn = []) (hf : s.re.now.withdrawnFrames = []) (a : Nat) :
    badAt s a = false ∧ withdrawnAt s a = false := by
  constructor
  · simp [badAt, hb]
  · unfold withdrawnAt; rw [hw, hf]; split <;> simp
/-- A running operation of one tile at slot 0 of ring 2, its message and its entry. -/
def tile0 : Tile := { src := 2 ^ 30, dst := 2 ^ 30, len := 64, state := .sent, msn := 2 ^ 32 }
def run0 (kind : RunKind) : OpRun := { kind := kind, ring := 2, slot := 0, qpn := 9, inst := 0, space := 1, tiles := [tile0] }
def msg0 (kind : RunKind) : Msg := { qpn := 9, msn := 2 ^ 32, run := opKey 2 0, tile := 0, kind := kind, cells := 1, bytes := 64, next := 1 }
/-- The adapter with that message. -/
def sentBy (m : Msg) : State :=
  let s := homeOp (opOf [(1, 1), (2, 9), (4, 64)])
  { s with tp := { s.tp with runs := [(opKey 2 0, run0 m.kind)], msgs := [(msgKey 9 m.msn, m)] } }
/-- A link as it comes up. -/
def linkIn (c : CellPort) : State := portState c
/-- A tree of one cell that waits in the control queue. -/
def ctl0 : CtlCell := ⟨5, 0, hd 0 9, 0, none⟩
/-- An item that no link takes. -/
def held0 : WireItem := { node := 5, unit := 0, hdr := hd 0 9, pay := 0 }
/-- Port 1 is an Ethernet port with its link up, and what it holds. -/
def ethWith (e : EthPort) : State :=
  { home with
    lz := { home.lz with run := { homeTree with ports := List.replicate 8 ⟨true, true, true, 1518⟩ } }
    eth := { home.eth with ports := [(1, e)] } }
def ethHome : State := ethWith { link := true }
/-- Its receive limit is 64 KiB. -/
def ethRoom : State := putReg (regKey Reg.GX_ETH_RX_LIMIT 1) 64 ethHome
/-- Frames with good and bad FCS: a PTP frame, one to another station, and a PAUSE frame. -/
def ptpFrame : List Byte := withFcs (padFrame (ethHead 0 7 none 0x88F7))
def otherFrame : List Byte := withFcs (padFrame (ethHead 5 7 none 0x1234))
def badFrame : List Byte := padFrame (ethHead 0 7 none 0x88F7) ++ [0, 0, 0, 0]
def pauseFrame : List Byte := withFcs (padFrame (ethHead 0 7 none 0x8808 ++ [0, 1, 0, 9]))
/-- The PAUSE mode of port 1, and its GANDER on: one tick each. -/
def pauseMode (e : EthPort) : State := putReg (regKey Reg.GX_ETH_RX_LIMIT 1) 64 (putReg (regKey Reg.GX_ETH_FC_CTRL 1) 1 (ethWith e))
def gander (e : EthPort) : State := putReg (regKey Reg.GX_ETH_GANDER 1) 0x10101 (pauseMode e)
/-- A ROCE_RC queue pair of port 1, and one whose packets arrive on port 1. -/
def roceQp : Qp := { qp9 with typ := 2, ah := BitVec.ofNat 128 (2 ^ 16) }
def rocePacket (op psn : Nat) (ext : List Byte) : RxFrame := ⟨.roce, 0, 1, roceFrame ethHome 9 1 0 op 9 psn false false ext []⟩
def roceIn (op psn : Nat) (ext : List Byte) : State := withQp roceQp (ethWith { link := true, rx := [rocePacket op psn ext] })
/-- What stands at the head of its queue. -/
theorem roce_wrong : (roceHead (roceIn 63 0 []) 1).isSome = true := by decide +kernel
theorem roce_write : (roceHead (roceIn 10 0 (List.replicate 16 0)) 1).isSome = true := by decide +kernel
theorem roce_later : (roceHead (roceIn 10 1 (List.replicate 16 0)) 1).isSome = true := by decide +kernel
theorem roce_cnp : (roceHead (roceIn 0x81 0 (List.replicate 16 0)) 1).isSome = true := by decide +kernel
/-- A REQUEST cell in a UDP frame on port 1. -/
def requestPay : BitVec 512 := payOf [(0, 5), (16, 255)]
def requestSlot : List Byte := beBytes 12 (hd 3 0).toNat ++ payBytes requestPay ++ leBytes 4 0x9FD1754A
/-- Its check code, taken in two halves (R198). -/
theorem request_crc : slotCrc (hd 3 0) requestPay = 0x9FD1754A := by
  have h1 : ((hdrBytes (hd 3 0) ++ payBytes requestPay).take 38).foldl crcByte 0xFFFFFFFF = 0x4d2dfd3d := by decide +kernel
  rw [slotCrc, crc32c, ← List.take_append_drop 38 (hdrBytes (hd 3 0) ++ payBytes requestPay), List.foldl_append, h1]
  decide +kernel
def cellFrame : List Byte :=
  ethHead 0 7 none 0x86DD ++ ipHead 0 0 0 96 ++ beBytes 2 4000 ++ beBytes 2 4000 ++ beBytes 2 96 ++ [0, 0] ++ [1, 0] ++ beBytes 2 80
    ++ [0, 0, 0, 0] ++ requestSlot
def udpOf (bs : List Byte) : UdpPkt :=
  match readNet (readEth bs) with
  | .udp u => u
  | _ => ⟨false, [], 0, 0, 0, 0, 0, 0, 0, []⟩
def cellArrived : State := ethWith { link := true, rx := [⟨.cell, 0, 1, cellFrame⟩] }
theorem cell_frame : (takeFrame 1 .cell cellArrived).isSome = true := by decide +kernel
/-- A pooled request. -/
def pooled (r : Request) : State := { home with cs := { home.cs with pool := [r] } }
/-- A gate list of two entries, and one that waits. -/
def gates2 : GateList := { enable := true, length := 2, cycleTk := 1, entries := [(1, 100), (255, 100)] }
def gcl (g : GclState) : State := { ethHome with cs := { ethHome.cs with gcls := [(1, g)] } }
/-- A Herd of two ranks over core 0, this adapter rank 0. -/
def herd0 : Herd :=
  { inst := 0, sq := 2, rank := 0, qpBase := 20, flock := 1, priv := false, udp := false, depth := 1, slotKib := 1024, hold := 512,
    members := [(3, 0, 20), (5, 0, 30)], active := [0, 1] }
/-- An ALLREDUCE of 64 FP32 sums that has begun. -/
def coll0 : Coll :=
  { seq := 1, ring := 2, slot := 0, kind := 0, len := 256, deadline := 64, redop := 0, format := 0, fixed := false, root := 0,
    src := 2 ^ 30, dst := 2 ^ 30, slotAt := some 0, active := [0, 1], begun := true, ready := [(0, 0)] }
/-- The adapter as a member. -/
def herdHome (d : Herd) (s : State) : State :=
  { s with
    tick := { s.tick with align := .aligned }
    hd := { s.hd with herds := [(0, d)] }
    tp := { s.tp with qps := s.tp.qps ++ [(21, herdQp 0 d 1 (5, 0, 30))] } }
/-- A SEND of rank 1 and its position. -/
def word (code total : Nat) (bs : List Byte) : HerdMsg := ⟨21, 2 ^ 32, code * 2 ^ 28 + 1, total, bs, 0⟩
def place (kind len : Nat) : HerdPos := { ssn := 2 ^ 32, seq := 1, kind := kind, len := len, opened := true }
def withWord (c : Coll) (m : HerdMsg) (p : HerdPos) : State :=
  let s := herdHome { herd0 with colls := [(1, c)] } home
  { s with hd := { s.hd with inbox := [m], pos := [(21, [p])] } }
/-- A HERD_DEFINE of a Herd of two ranks, and its list of members. -/
def defineFs : List (Nat × Nat) := [(1, 0x16), (18, 2), (22, 20), (24, 2), (28, 1), (31, 1), (32, 1024), (40, 8)]
def memberWords : List (BitVec 64) := [BitVec.ofNat 64 (3 * 64 + 20 * 2 ^ 32), BitVec.ofNat 64 (5 * 64 + 30 * 2 ^ 32)]
/-- A COLLECTIVE of the Herd. -/
def collOp0 : Op := opOf [(1, 9), (4, 256), (16, 2 ^ 30), (24, 2 ^ 30), (32, 0), (34, 0), (36, 0)]
/-- The same Herd with a third rank. -/
def herd3 (c : Coll) : Herd := { herd0 with members := [(3, 0, 20), (5, 0, 30), (6, 0, 40)], active := [0, 1, 2], colls := [(1, c)] }
def coll3 : Coll := { coll0 with active := [0, 1, 2] }
/-- ACC0 in a state, and an entry of ring 2 whose completion waits for its flush. -/
def withAcc (a : AccPort) (s : State) : State := { s with pc := { s.pc with acc := [(0, a)] } }
def flushPort : AccPort := { state := .ready, flush := some [.run (opKey 2 0)], waiting := [.run (opKey 2 0)] }
def flushOp (k : Option Completion) : Op := { opOf [(1, 1), (2, 9)] with done := k, flush := [0] }
/-- The selected port is ACC0. -/
def accSelected (a : AccPort) : State := putReg Reg.GX_PC_PORT_INDEX 1 (withAcc a home)
/-- Check-value unit 31 in a state. -/
def cv31 (c : CvUnit) : State := putReg Reg.GX_CV_INDEX 31 { up with cv := [(31, c)] }
/-- Key slot 1 with a tier binding, and a management command on it. -/
def tierKey (binding : Nat) : KeySlot := { state := 1, binding := binding, mode := 4, key := 7, salt := 9, limit := 2 ^ 48 - 1 }
def keyed (k : KeySlot) (fs : List (Nat × Nat)) : State := { homeMgmt fs with ce := { home.ce with slots := [(1, k)] } }
def loadFs : List (Nat × Nat) := [(1, 0x18), (16, 2), (19, 4), (21, 2)]
def rekeyFs : List (Nat × Nat) := [(1, 0x18), (16, 1), (18, 1), (19, 4), (21, 2)]
def eraseFs : List (Nat × Nat) := [(1, 0x18), (16, 1), (18, 2)]
/-- A charge is held against it. -/
def sealing : OpRun := { run0 .seal with op := 1, tiles := [{ tile0 with state := .done }] }
/-- Instance 5 in a state, with its Flock and a management command. -/
def inst5 (i : Instance) (fs : List (Nat × Nat)) : State :=
  let s := homeMgmt fs
  { s with
    lz := { s.lz with run := { homeTree with
      flocks := homeTree.flocks ++ [⟨5, none, .inner, true, true, false, 0, 0, 0, 5, 0⟩]
      insts := [(0, 0), (5, 5)] } }
    vi := { s.vi with insts := [(0, { state := .ready }), (5, i)], vfEnable := true, numVfs := 5 } }
/-- A bundle of six images of a byte each, its signatures zeros (Tables 17.2, 17.3). -/
def bundleBytes : List Byte :=
  let offs := (List.range 6).map (fun i => leBytes 4 (0x90 + 8 * i) ++ leBytes 4 1 ++ leBytes 8 0)
  leBytes 4 0x57465847 ++ leBytes 2 1 ++ leBytes 2 0 ++ leBytes 4 5332 ++ leBytes 4 2 ++ [0, 0] ++ leBytes 2 1 ++ leBytes 2 3
    ++ leBytes 2 0 ++ leBytes 8 0xF ++ leBytes 4 0 ++ List.replicate 12 0 ++ offs.flatten ++ List.replicate 48 0
    ++ List.replicate 5140 0
/-- Its length staged, an action running, and the running bundle. -/
def acting (a : FwAction) : State :=
  putReg Reg.GX_FW_STAGE_LEN 5332 { up with fw := { up.fw with action := some a, bankA := some bundle, bankB := some bundle } }
/-- A life-cycle token of an adapter that is PROVISIONED: to DEPLOYED or to MANUFACTURE. -/
def tokenOf (to_ : Nat) : List Byte :=
  leBytes 4 0x434C5847 ++ leBytes 2 1 ++ [1, BitVec.ofNat 8 to_] ++ leBytes 16 up.sec.nonce.toNat ++ List.replicate 8316 0
def tokened : State := putReg Reg.GX_FW_STAGE_LEN 8340 (acting .lcChange)
/-- A KEK structure. -/
def kekBytes : List Byte := leBytes 4 0x4B4B5847 ++ leBytes 2 1 ++ leBytes 1 (up.sec.ownerRows - 1) ++ List.replicate 6717 0
/-- The mailbox of instance 0 holds an FW_HELLO. -/
def helloWords : NMap Word := [(0, 0x00100101), (16, 0x00020001), (24, 0xF)]
def greeting : State :=
  { acting .verify with vi := { up.vi with insts := [(0, { state := .ready, outFull := true, inFull := true, mboxOut := helloWords })] } }
/-- Instance 5 FROZEN, key slot 1 a tier slot of instance 0, and a migration command on it. -/
def moving (binding : Nat) (i : Instance) (fs : List (Nat × Nat)) : State :=
  { inst5 i fs with ce := { home.ce with slots := [(1, tierKey binding)] } }
def saveFs (part : Nat) : List (Nat × Nat) :=
  [(1, 0x1B), (16, 5), (18, part), (19, 1), (20, 2), (22, 9), (28, part), (32, 1), (40, 2 ^ 30), (48, 2 ^ 27)]
/-- Granule 1 is a member of its Flock. -/
def savePart (part : Nat) : State :=
  let s := moving 2 { state := .frozen } (saveFs part)
  { s with mem := { s.mem with owner := [(0, 0), (1, 5)] } }
def saveBlocks : Nat := sealBlocks (tierKey 2) (64 + granuleBytes)
/-- A saved granule is 64 MiB long. -/
theorem tier_length (s : State) (off n : Nat) : (tierRead s off n).1.length = n := by
  simp [tierRead]
theorem mem_length (s : State) (n part first count g m : Nat) (hm : granuleBytes = m)
    (h : ((instWindow s n (part - 1)).drop first).take count = [g]) : (memBody s n part first count).1.length = m := by
  unfold memBody
  rw [h, hm, List.foldl_cons, List.foldl_nil]
  show ([] ++ (tierRead s (granuleStart g) m).1).length = m
  rw [List.nil_append, tier_length]
theorem header_length (s : State) (n part first count body : Nat) : (partHeader s n part first count body).length = 64 := by
  simp [partHeader, leBytes]
/-- A blob of a part in tier memory at node 3, offset 0, and the RESTORE of it. -/
def restoreFs (part len : Nat) : List (Nat × Nat) := [(1, 0x1C), (16, 5), (18, part), (20, 2), (32, 1), (40, 2 ^ 30), (48, len)]
def blobIn (blob : List Byte) (s : State) : State :=
  { s with mem := { s.mem with bytes := (blob.zipIdx.filter (fun x => x.1 != 0)).map (fun x => (x.2, x.1)) } }
def partOf (part : Nat) (body : List Byte) : List Byte := partHeader (inst5 { state := .frozen } []) 5 part 0 0 body.length ++ body
def stateBlob : List Byte :=
  [9, 0, 0, 0, 0, 0, 0, 0, 0, 0, 0, 0, 0, 0, 0, 0, 163, 136, 244, 245, 237, 55, 143, 127, 135, 73, 216, 133, 237, 34, 64,
   225, 107, 232, 132, 112, 6, 23, 202, 34, 47, 177, 35, 190, 114, 185, 59, 120, 208, 212, 177, 45, 168, 171, 64, 56,
   134, 17, 70, 193, 68, 230, 57, 205, 162, 73, 238, 13, 5, 105, 171, 212, 13, 189, 60, 214, 95, 30, 8, 32, 49, 114, 132,
   205, 254, 239, 247, 184, 253, 107, 26, 153, 68, 160, 18, 20, 138, 112, 249, 213, 156, 0, 27, 206, 1, 196, 134, 71,
   160, 209, 232, 43, 43, 41, 109, 160, 82, 101, 253, 101, 117, 157, 34, 39, 244, 235, 11, 37, 0, 33, 204, 83, 190, 0,
   181, 75, 24, 39, 177, 185, 83, 112, 112, 172, 69, 72, 242, 189, 122, 183, 77, 142, 30, 0, 253, 193, 153, 67, 58, 228]
def memoryBlob : List Byte :=
  [9, 0, 0, 0, 0, 0, 0, 0, 0, 0, 0, 0, 0, 0, 0, 0, 163, 136, 244, 245, 237, 55, 142, 127, 135, 73, 216, 133, 237, 34, 64,
   225, 107, 232, 132, 112, 6, 23, 202, 34, 47, 177, 35, 190, 114, 185, 59, 120, 208, 212, 177, 45, 168, 171, 64, 56,
   198, 17, 70, 193, 68, 230, 57, 205, 162, 73, 238, 13, 5, 105, 171, 212, 13, 189, 60, 214, 95, 30, 8, 32, 191, 107,
   250, 4, 38, 178, 213, 148, 22, 221, 244, 192, 58, 129, 133, 100]
def restoring (part : Nat) (i : Instance) (blob : List Byte) : State :=
  blobIn blob (moving 3 i (restoreFs part blob.length))
def emptyRecord : List Byte := List.replicate 64 0
def stateIn : State := restoring 0 { state := .ready } stateBlob
def stateOp : Op := opOf (restoreFs 0 160)
def memoryIn : State := restoring 1 { state := .frozen, restored := true } memoryBlob
def memoryOp : Op := opOf (restoreFs 1 96)
/-- Its pages, and what its source reads as. -/
def blobPages (o : Op) (s : State) : KOut (List PageMap) :=
  movePages (ef o.entry 32 4 % 2 ^ 20) (ef o.entry 40 8) (ef o.entry 48 8) { read := true } [] (markStarted 0 0 s)
def kPages (x : KOut (List PageMap)) : List PageMap := match x with | .ok _ a => a | _ => []
def kOk {α : Type} (x : KOut α) : Bool := match x with | .ok _ _ => true | _ => false
theorem of_kOk (x : KOut (List PageMap)) (h : kOk x = true) : x = .ok (kState x) (kPages x) := by
  cases x <;> simp_all [kOk, kState, kPages]
def blobState (o : Op) (s : State) : State := kState (blobPages o s)
def charged (o : Op) (s : State) : State :=
  (charge (ef o.entry 20 2 - 1) (sealBlocks (keySlot (blobState o s) (ef o.entry 20 2 - 1)) (openLen 4 (ef o.entry 48 8))) (blobState o s)).1
def opened (o : Op) (blob : List Byte) (s : State) : State :=
  cryptCount (openLen 4 (ef o.entry 48 8)) (muleMove false false true blob (charged o s))
def op0 (s : State) : Op := (opAt s 0 0).getD stateOp
theorem pair_eq {α : Type} {x : α × Bool} (h : x.2 = true) : x = (x.1, true) := Prod.ext rfl h
theorem pages_eq (o : Op) (s : State) (h : kOk (blobPages o s) = true) :
    movePages (ef o.entry 32 4 % 2 ^ 20) (ef o.entry 40 8) (ef o.entry 48 8) { read := true } [] (markStarted 0 0 s)
      = .ok (blobState o s) (kPages (blobPages o s)) := of_kOk _ h
def chargeOf (o : Op) (s : State) : State × Bool :=
  charge (ef o.entry 20 2 - 1) (sealBlocks (keySlot (blobState o s) (ef o.entry 20 2 - 1)) (openLen 4 (ef o.entry 48 8))) (blobState o s)
theorem charged_eq (o : Op) (s : State) (h : (chargeOf o s).2 = true) :
    charge (ef o.entry 20 2 - 1) (sealBlocks (keySlot (blobState o s) (ef o.entry 20 2 - 1)) (openLen 4 (ef o.entry 48 8))) (blobState o s)
      = (charged o s, true) := Prod.ext rfl h
theorem opened_eq (o : Op) (blob : List Byte) (s : State) :
    opened o blob s = cryptCount (openLen 4 (ef o.entry 48 8)) (muleMove false false true blob (charged o s)) := rfl
def readGives (r : ReadRes) (bs : List Byte) : Bool := match r with | .got b bad => b == bs && !bad | _ => false
theorem of_readGives (r : ReadRes) (bs : List Byte) (h : readGives r bs = true) : r = .got bs false := by
  cases r <;> simp_all [readGives]
/-- The S-box of FIPS 197 as one number, and AES that looks it up. -/
def sboxTable : Nat := 0x16bb54b00f2d99416842e6bf0d89a18cdf2855cee9871e9b948ed9691198f8e19e1dc186b95735610ef6034866b53e708a8bbd4b1f74dde8c6b4a61c2e2578ba08ae7a65eaf4566ca94ed58d6d37c8e779e4959162acd3c25c2406490a3a32e0db0b5ede14b8ee4688902a22dc4f816073195d643d7ea7c41744975fec130ccdd2f3ff1021dab6bcf5389d928f40a351a89f3c507f02f94585334d43fbaaefd0cf584c4a39becb6a5bb1fc20ed00d153842fe329b3d63b52a05a6e1b1a2c830975b227ebe28012079a059618c323c7041531d871f1e5a534ccf73f362693fdb7c072a49cafa2d4adf04759fa7dc982ca76abd7fe2b670130c56f6bf27b777c63
def sboxT (a : Byte) : Byte := BitVec.ofNat 8 (sboxTable >>> (8 * a.toNat))
theorem test_sbox : sbox = sboxT := by
  have h : ∀ n : Fin 256, sbox (BitVec.ofFin n) = sboxT (BitVec.ofFin n) := by decide +kernel
  funext a; exact h a.toFin
def gfMulT (a b : Byte) : Byte := if a = 1 then b else if a = 2 then xtime b else if a = 3 then xtime b ^^^ b else gfMul a b
theorem gfMul_eq : gfMul = gfMulT := by
  have h : ∀ n : Fin 256, gfMul 1 (BitVec.ofFin n) = BitVec.ofFin n ∧ gfMul 2 (BitVec.ofFin n) = xtime (BitVec.ofFin n)
      ∧ gfMul 3 (BitVec.ofFin n) = xtime (BitVec.ofFin n) ^^^ BitVec.ofFin n := by decide +kernel
  funext a b
  obtain ⟨h1, h2, h3⟩ := h b.toFin
  unfold gfMulT
  split
  · subst_vars; exact h1
  split
  · subst_vars; exact h2
  split
  · subst_vars; exact h3
  rfl
def mixT (m b : List Byte) : List Byte :=
  (List.range 16).map (fun i => (List.range 4).foldl (fun acc j => acc ^^^ gfMulT (nth m ((j + 4 - i % 4) % 4)) (nth b (i / 4 * 4 + j))) 0)
def aesT (rks : List (List Byte)) (blk : List Byte) : List Byte :=
  match rks with
  | [] => blk
  | rk0 :: rest =>
    xorBytes (shiftRows (((rest.dropLast.foldl (fun b rk => xorBytes (mixT [2, 3, 1, 1] (shiftRows (b.map sboxT))) rk)
      (xorBytes blk rk0))).map sboxT)) (rest.getLast?.getD [])
theorem aes_eq : aesEnc = aesT := by
  funext rks b
  cases rks with
  | nil => rfl
  | cons rk0 rest =>
    have hm : mixWith = mixT := by funext m b; unfold mixWith mixT; rw [gfMul_eq]
    show xorBytes _ _ = _
    unfold aesT
    rw [← hm, ← test_sbox]
/-- The round keys of the slot. -/
def tierKeys : List (List Byte) :=
  [[7, 0, 0, 0, 0, 0, 0, 0, 0, 0, 0, 0, 0, 0, 0, 0],
   [101, 99, 99, 99, 101, 99, 99, 99, 101, 99, 99, 99, 101, 99, 99, 99],
   [156, 152, 152, 46, 249, 251, 251, 77, 156, 152, 152, 46, 249, 251, 251, 77],
   [151, 151, 123, 183, 110, 108, 128, 250, 242, 244, 24, 212, 11, 15, 227, 153],
   [233, 134, 149, 156, 135, 234, 21, 102, 117, 30, 13, 178, 126, 17, 238, 43],
   [123, 174, 100, 111, 252, 68, 113, 9, 137, 90, 124, 187, 247, 75, 146, 144],
   [232, 225, 4, 7, 20, 165, 117, 14, 157, 255, 9, 181, 106, 180, 155, 37],
   [37, 245, 59, 5, 49, 80, 78, 11, 172, 175, 71, 190, 198, 27, 220, 155],
   [10, 115, 47, 177, 59, 35, 97, 186, 151, 140, 38, 4, 81, 151, 250, 159],
   [153, 94, 244, 96, 162, 125, 149, 218, 53, 241, 179, 222, 100, 102, 73, 65],
   [156, 101, 119, 35, 62, 24, 226, 249, 11, 233, 81, 39, 111, 143, 24, 102]]
theorem tier_keys : roundKeys (slotKey (tierKey 3)) = tierKeys := by decide +kernel
def blobText (blob : List Byte) : List Byte := slice blob 16 (openLen 4 blob.length)
theorem openBlob_of (k : KeySlot) (blob p : List Byte) (hm : k.mode = 4) (hk : slotKey k = slotKey (tierKey 3))
    (h1 : ctrCrypt tierKeys ((blob.take 16).take 12) 2 (blobText blob) = p)
    (h2 : (gcmTag tierKeys ((blob.take 16).take 12) (blob.take 16) (blobText blob) == blob.drop (16 + (blobText blob).length)) = true) :
    openBlob k blob = (p, 0, true) := by
  unfold blobText at h1 h2
  simp only [openBlob, hm, hk, tier_keys, h1, h2]
theorem state_text : ctrCrypt tierKeys ((stateBlob.take 16).take 12) 2 (blobText stateBlob) = partOf 0 emptyRecord := by
  unfold ctrCrypt ctrStream; rw [aes_eq]; decide +kernel
theorem state_tag :
    (gcmTag tierKeys ((stateBlob.take 16).take 12) (stateBlob.take 16) (blobText stateBlob)
      == stateBlob.drop (16 + (blobText stateBlob).length)) = true := by
  unfold gcmTag; rw [aes_eq]; decide +kernel
theorem memory_text : ctrCrypt tierKeys ((memoryBlob.take 16).take 12) 2 (blobText memoryBlob) = partOf 1 [] := by
  unfold ctrCrypt ctrStream; rw [aes_eq]; decide +kernel
theorem memory_tag :
    (gcmTag tierKeys ((memoryBlob.take 16).take 12) (memoryBlob.take 16) (blobText memoryBlob)
      == memoryBlob.drop (16 + (blobText memoryBlob).length)) = true := by
  unfold gcmTag; rw [aes_eq]; decide +kernel

/-! ### Witnesses -/

theorem witness_StepRunsTheFrontCommand_2 : ∃ (s : State),
    s.pending = [] :=
  ⟨State.reset,
   by decide +kernel⟩

theorem witness_PowerPinsAndColdReset_1 : ∃ (s : State),
    s.pins.pwrGood = false :=
  ⟨{ State.reset with pins := { State.reset.pins with pwrGood := false } },
   by decide +kernel⟩

theorem witness_PowerPinsAndColdReset_2 : ∃ (s : State),
    s.pins.charging = true :=
  ⟨{ State.reset with pins := { State.reset.pins with charging := true } },
   by decide +kernel⟩

theorem witness_PowerPinsAndColdReset_5 : ∃ (s : State),
    s.pins.pwrGood = true ∧
    (s.fw.coldDue = true ∨ s.pins.coldHeld = true) ∧
    s.pw.degC < 95 :=
  ⟨State.reset,
   by decide +kernel,
   by decide +kernel,
   by decide +kernel⟩

theorem witness_PowerPinsAndColdReset_6 : ∃ (s : State),
    s.pins.pwrGood = true ∧
    (s.fw.coldDue = true ∨ s.pins.coldHeld = true) ∧
    95 ≤ s.pw.degC :=
  ⟨{ State.reset with pw := { State.reset.pw with degC := 95 } },
   by decide +kernel,
   by decide +kernel,
   by decide +kernel⟩

theorem witness_FirmwareBootChoosesTheBank_1 : ∃ (x : BootIn) (s : State),
    powered s = true ∧
    s.fw.coldDue = false ∧
    s.fw.boot = .rom ∧
    s.fw.warmDue = none ∧
    s.re.captured = [] ∧
    bankBoots s x s.fw.activeB = true :=
  ⟨{}, romState,
   by decide +kernel,
   by decide +kernel,
   by decide +kernel,
   by decide +kernel,
   by decide +kernel,
   by decide +kernel⟩

theorem witness_FirmwareBootChoosesTheBank_2 : ∃ (x : BootIn) (s : State),
    powered s = true ∧
    s.fw.coldDue = false ∧
    s.fw.boot = .rom ∧
    s.fw.warmDue = none ∧
    s.re.captured = [] ∧
    bankBoots s x s.fw.activeB = false ∧
    bankBoots s x (!s.fw.activeB) = true :=
  ⟨{ bankA := false }, romState,
   by decide +kernel,
   by decide +kernel,
   by decide +kernel,
   by decide +kernel,
   by decide +kernel,
   by decide +kernel,
   by decide +kernel⟩

theorem witness_FirmwareBootChoosesTheBank_3 : ∃ (x : BootIn) (s : State),
    powered s = true ∧
    s.fw.coldDue = false ∧
    s.fw.boot = .rom ∧
    s.fw.warmDue = none ∧
    s.re.captured = [] ∧
    bankBoots s x s.fw.activeB = false ∧
    bankBoots s x (!s.fw.activeB) = false :=
  ⟨{ bankA := false, bankB := false }, romState,
   by decide +kernel,
   by decide +kernel,
   by decide +kernel,
   by decide +kernel,
   by decide +kernel,
   by decide +kernel,
   by decide +kernel⟩

theorem witness_WarmResetsAndTheirCauses_1 : ∃ (value : Word) (s : State),
    running s = true ∧
    s.fw.coldDue = false ∧
    value.toNat / 2 ^ 24 = 0x5A ∧
    value.getLsbD 0 = true :=
  ⟨0x5A000001#32, up,
   by decide +kernel,
   by decide +kernel,
   by decide +kernel,
   by decide +kernel⟩

theorem witness_WarmResetsAndTheirCauses_2 : ∃ (value : Word),
    value.toNat / 2 ^ 24 ≠ 0x5A :=
  ⟨0,
   by decide +kernel⟩

theorem witness_WarmResetsAndTheirCauses_3 : ∃ (s : State),
    running s = true ∧
    s.fw.coldDue = false :=
  ⟨up,
   by decide +kernel,
   by decide +kernel⟩

theorem witness_WarmResetsAndTheirCauses_4 : ∃ (s : State),
    running s = true ∧
    s.fw.coldDue = false ∧
    s.fw.warmDue = none :=
  ⟨up,
   by decide +kernel,
   by decide +kernel,
   by decide +kernel⟩

theorem witness_WarmResetsAndTheirCauses_5 : ∃ (x : BootIn) (s : State) (cause : Nat),
    powered s = true ∧
    s.fw.warmDue = some cause ∧
    s.pw.ps ≠ .ps4 ∧
    s.q.rings = [] ∧
    s.re.captured = [] ∧
    bankBoots s x s.fw.activeB = true :=
  ⟨{}, { romState with fw := { romState.fw with warmDue := some 4 } }, 4,
   by decide +kernel,
   by decide +kernel,
   by decide +kernel,
   by decide +kernel,
   by decide +kernel,
   by decide +kernel⟩

theorem witness_PtpLockMovesTheAlignment_1 : ∃ (s : State),
    running s = true ∧
    s.fw.restarting ≠ some 2 :=
  ⟨up,
   by decide +kernel,
   by decide +kernel⟩

theorem witness_PtpLockMovesTheAlignment_2 : ∃ (s : State),
    powered s = true ∧
    s.tick.ptpLocked = true :=
  ⟨{ up with tick := { up.tick with ptpLocked := true } },
   by decide +kernel,
   by decide +kernel⟩

theorem witness_AlignmentTransitionsNeedTheirTicks_1 : ∃ (s : State),
    powered s = true ∧
    s.tick.align = .acquire ∧
    16 ≤ s.tick.inTol :=
  ⟨{ up with tick := { up.tick with align := .acquire, inTol := 16 } },
   by decide +kernel,
   by decide +kernel,
   by decide +kernel⟩

theorem witness_AlignmentTransitionsNeedTheirTicks_2 : ∃ (s : State),
    (s.tick.align ≠ .acquire ∨ s.tick.inTol < 16) :=
  ⟨{ up with tick := { up.tick with align := .acquire, inTol := 15 } },
   by decide +kernel⟩

theorem witness_AlignmentTransitionsNeedTheirTicks_3 : ∃ (s : State),
    powered s = true ∧
    (s.tick.align = .aligned ∨ s.tick.align = .holdover) ∧
    4 ≤ s.tick.outTol :=
  ⟨{ up with tick := { up.tick with align := .aligned, outTol := 4 } },
   by decide +kernel,
   by decide +kernel,
   by decide +kernel⟩

theorem witness_AlignmentTransitionsNeedTheirTicks_4 : ∃ (s : State),
    s.tick.outTol < 4 :=
  ⟨{ up with tick := { up.tick with align := .aligned, outTol := 3 } },
   by decide +kernel⟩

theorem witness_AlignmentTransitionsNeedTheirTicks_5 : ∃ (s : State),
    powered s = true ∧
    s.tick.align = .acquire ∧
    16 ≤ s.tick.noInput :=
  ⟨{ up with tick := { up.tick with align := .acquire, noInput := 16 } },
   by decide +kernel,
   by decide +kernel,
   by decide +kernel⟩

theorem witness_AlignmentTransitionsNeedTheirTicks_6 : ∃ (s : State),
    (s.tick.align ≠ .acquire ∨ s.tick.noInput < 16) :=
  ⟨{ up with tick := { up.tick with align := .acquire, noInput := 15 } },
   by decide +kernel⟩

theorem witness_AlignmentTransitionsNeedTheirTicks_7 : ∃ (s : State),
    powered s = true ∧
    s.tick.align = .holdover ∧
    512 ≤ s.tick.noNbr :=
  ⟨{ up with tick := { up.tick with align := .holdover, noNbr := 512 } },
   by decide +kernel,
   by decide +kernel,
   by decide +kernel⟩

theorem witness_AlignmentTransitionsNeedTheirTicks_8 : ∃ (s : State),
    (s.tick.align ≠ .holdover ∨ s.tick.noNbr < 512) :=
  ⟨{ up with tick := { up.tick with align := .holdover, noNbr := 511 } },
   by decide +kernel⟩

theorem witness_AlignmentInputs_1 : ∃ (p : Nat) (pay : BitVec 512) (s : State),
    running s = true ∧
    p < 32 ∧
    linkUp s p = true ∧
    2 ≤ leAt (payBytes pay) 8 1 % 4 :=
  ⟨1, BitVec.ofNat 512 (2 * 2 ^ 64), linked,
   by decide +kernel,
   by decide +kernel,
   by decide +kernel,
   by decide +kernel⟩

theorem witness_AlignmentInputs_2 : ∃ (p : Nat) (pay : BitVec 512) (s : State),
    running s = true ∧
    p < 32 ∧
    linkUp s p = true ∧
    leAt (payBytes pay) 8 1 % 4 < 2 :=
  ⟨1, 0, linked,
   by decide +kernel,
   by decide +kernel,
   by decide +kernel,
   by decide +kernel⟩

theorem witness_AlignmentInputs_3 : ∃ (s : State),
    running s = true ∧
    s.fw.restarting ≠ some 2 ∧
    s.pins.ptpPortUp = true ∧
    s.tick.ptpLocked = true :=
  ⟨{ up with tick := { up.tick with ptpLocked := true }, pins := { up.pins with ptpPortUp := true } },
   by decide +kernel,
   by decide +kernel,
   by decide +kernel,
   by decide +kernel⟩

theorem witness_AlignmentInputs_4 : ∃ (s : State),
    powered s = true ∧
    s.fw.boot = .ready :=
  ⟨Tests.up,
   by decide +kernel,
   by decide +kernel⟩

theorem witness_AlignmentInputs_5 : ∃ (s : State),
    powered s = true ∧
    s.tick.ptpLocked = true :=
  ⟨{ up with tick := { up.tick with ptpLocked := true } },
   by decide +kernel,
   by decide +kernel⟩

theorem witness_LatchedPairsReadAsOneValue_1 : ∃ (s : State),
    powered s = true ∧
    s.fw.boot ≠ .recovery :=
  ⟨up,
   by decide +kernel,
   by decide +kernel⟩

theorem witness_LatchedPairsReadAsOneValue_2 : ∃ (n : Nat) (s : State),
    running s = true ∧
    (inst s n).state ≠ .disabled ∧
    n < 512 :=
  ⟨0, up,
   by decide +kernel,
   by decide +kernel,
   by decide +kernel⟩

theorem witness_LatchedPairsReadAsOneValue_5 : ∃ (off : Nat) (x : Nat) (s : State),
    accessed s off = true ∧
    pairValue s off = some x ∧
    (rg s Reg.GX_VI_INDEX).toNat < 512 ∧
    (rg s Reg.GX_CE_SLOT_INDEX).toNat < 8192 :=
  ⟨Reg.GX_AT_TOKENS_LO, 2 ^ 32 + 5, { up with kn := { up.kn with tokens := 2 ^ 32 + 5 } },
   by decide +kernel,
   by decide +kernel,
   by decide +kernel,
   by decide +kernel⟩

theorem witness_TickEdgeCounts_1 : ∃ (s : State),
    powered s = true ∧
    s.fw.coldDue = false ∧
    s.fw.boot ≠ .ready :=
  ⟨romState,
   by decide +kernel,
   by decide +kernel,
   by decide +kernel⟩

theorem witness_TickEdgeCounts_2 : ∃ (s : State),
    powered s = true ∧
    s.fw.coldDue = false ∧
    s.fw.boot = .ready ∧
    s.tick.align = .free :=
  ⟨up,
   by decide +kernel,
   by decide +kernel,
   by decide +kernel,
   by decide +kernel⟩

theorem witness_TickLengthAveragesThePeriod_1 : ∃ (p : Nat),
    0 < p :=
  ⟨1,
   by decide +kernel⟩

theorem witness_TickLengthAveragesThePeriod_3 : ∃ (old : State) (s : State),
    period old ≠ period s :=
  ⟨putReg Reg.GX_TICK_PERIOD 17 up, up,
   by decide +kernel⟩

theorem witness_CommitWriteMakesOrRejectsASet_1 : ∃ (b : CommitBlock) (s : State),
    b ∈ commitBlocks ∧
    b.block ≠ 0x1 ∧
    served s b.reg = true ∧
    commitBad s (period s) b.block = false :=
  ⟨⟨0x6, Reg.GX_TP_COMMIT, some (Reg.GX_TP_EVENTS, 4)⟩, up,
   by decide +kernel,
   by decide +kernel,
   by decide +kernel,
   by decide +kernel⟩

theorem witness_CommitWriteMakesOrRejectsASet_2 : ∃ (b : CommitBlock) (s : State),
    b ∈ commitBlocks ∧
    served s b.reg = true ∧
    commitBad s (period s) b.block = true :=
  ⟨⟨0x6, Reg.GX_TP_COMMIT, some (Reg.GX_TP_EVENTS, 4)⟩, { up with shadows := [(Reg.GX_TP_TIMERS, 0)] },
   by decide +kernel,
   by decide +kernel,
   by decide +kernel⟩

theorem witness_TickCommitWaitsForItsTick_1 : ∃ (s : State),
    served s Reg.GX_TICK_COMMIT = true ∧
    commitBad s (period s) 0x1 = false :=
  ⟨up,
   by decide +kernel,
   by decide +kernel⟩

theorem witness_TickCommitWaitsForItsTick_2 : ∃ (s : State) (v : State),
    served s Reg.GX_TICK_COMMIT = true ∧
    v = makeLive (commitVals s 0x1) s ∧
    ((activateTick s ≠ 0 ∧ (activateTick s).toNat ≤ s.tick.count.toNat) ∨ period v < 4 ∨ 64 < period v ∨ guardFits (period v) (guardClk v) = false) :=
  ⟨putReg Reg.GX_TICK_ACTIVATE_LO 5 { up with tick := { up.tick with count := 5 } }, makeLive (commitVals (putReg Reg.GX_TICK_ACTIVATE_LO 5 { up with tick := { up.tick with count := 5 } }) 0x1) (putReg Reg.GX_TICK_ACTIVATE_LO 5 { up with tick := { up.tick with count := 5 } }),
   by decide +kernel,
   rfl,
   by decide +kernel⟩

theorem witness_TickCommitWaitsForItsTick_2b : ∃ (s : State) (v : State),
    served s Reg.GX_TICK_COMMIT = true ∧
    v = makeLive (commitVals s 0x1) s ∧
    ((activateTick s ≠ 0 ∧ (activateTick s).toNat ≤ s.tick.count.toNat) ∨ period v < 4 ∨ 64 < period v ∨ guardFits (period v) (guardClk v) = false) :=
  ⟨shadowPeriod65, makeLive (commitVals shadowPeriod65 0x1) shadowPeriod65,
   by decide +kernel,
   rfl,
   by decide +kernel⟩

theorem witness_TickCommitWaitsForItsTick_3 : ∃ (c : CommitSet) (s : State),
    powered s = true ∧
    s.commits = [(0x1, c)] ∧
    c.atTick ≠ 0 ∧
    c.vals = [] ∧
    c.atTick.toNat ≤ s.tick.count.toNat :=
  ⟨⟨7, [], false, 5⟩, { up with commits := [(0x1, ⟨7, [], false, 5⟩)], tick := { up.tick with count := 5 } },
   by decide +kernel,
   by decide +kernel,
   by decide +kernel,
   by decide +kernel,
   by decide +kernel⟩

theorem witness_TickCommitWaitsForItsTick_4 : ∃ (c : CommitSet) (s : State),
    s.commits = [(0x1, c)] ∧
    s.tick.count.toNat < c.atTick.toNat :=
  ⟨⟨7, [], false, 5⟩, { up with commits := [(0x1, ⟨7, [], false, 5⟩)], tick := { up.tick with count := 4 } },
   by decide +kernel,
   by decide +kernel⟩

theorem witness_GroupCommitIsAllOrNothing_1 : ∃ (v : Word) (s : State),
    served s Reg.GX_COMMIT_MULTI = true ∧
    v.getLsbD 0 = false ∧
    ((∀ i b, commitBlocks[i]? = some b → v.getLsbD i = true → commitBad s (period s) b.block = false)) ∧
    ((∃ i, i < 9 ∧ v.getLsbD i = true)) :=
  ⟨2, up,
   by decide +kernel,
   by decide +kernel,
   atBit1,
   ⟨1, by decide, by decide⟩⟩

theorem witness_GroupCommitIsAllOrNothing_2 : ∃ (v : Word) (s : State) (i : Nat) (b : CommitBlock),
    served s Reg.GX_COMMIT_MULTI = true ∧
    v.getLsbD 0 = false ∧
    commitBlocks[i]? = some b ∧
    v.getLsbD i = true ∧
    commitBad s (period s) b.block = true :=
  ⟨16, { up with shadows := [(Reg.GX_TP_TIMERS, 0)] }, 4, ⟨0x6, Reg.GX_TP_COMMIT, some (Reg.GX_TP_EVENTS, 4)⟩,
   by decide +kernel,
   by decide +kernel,
   by decide +kernel,
   by decide +kernel,
   by decide +kernel⟩

theorem witness_CommitAppliesTheWholeSet_1 : ∃ (b : CommitBlock) (c : CommitSet) (s : State),
    b ∈ commitBlocks ∧
    b.block ∈ [0x4, 0x5, 0x6, 0x7] ∧
    powered s = true ∧
    s.commits = [(b.block, c)] ∧
    c.atTick = 0 ∧
    mapSorted c.vals ∧
    ((∀ e ∈ c.vals, e.1 ≠ b.reg)) ∧
    ((∀ e ∈ c.vals, blockOf e.1 = b.block)) :=
  ⟨⟨0x6, Reg.GX_TP_COMMIT, some (Reg.GX_TP_EVENTS, 4)⟩, ⟨9, [(Reg.GX_TP_TIMERS, 0x00100001)], false, 0⟩, { up with commits := [(0x6, ⟨9, [(Reg.GX_TP_TIMERS, 0x00100001)], false, 0⟩)] },
   by decide +kernel,
   by decide +kernel,
   by decide +kernel,
   by decide +kernel,
   by decide +kernel,
   by decide +kernel,
   by decide +kernel,
   by decide +kernel⟩

theorem witness_RegisterWriteFollowsTheAccessTypes_1 : ∃ (off : Nat) (i : RegInfo) (v : Word) (s : State),
    off < 0x04000000 ∧
    off % 4 = 0 ∧
    served s off = true ∧
    regInfo off = some i ∧
    i.ix = [] ∧
    ownRow s off v = false ∧
    mgmtHeld s off = false ∧
    positionOk off 0 = true :=
  ⟨Reg.GX_TP_TIMERS, (regInfo Reg.GX_TP_TIMERS).getD { off := 0 }, 0, up,
   by decide +kernel,
   by decide +kernel,
   by decide +kernel,
   by decide +kernel,
   by decide +kernel,
   by decide +kernel,
   by decide +kernel,
   by decide +kernel⟩

theorem witness_RegisterWriteFollowsTheAccessTypes_3 : ∃ (off : Nat) (s : State),
    mgmtHeld s off = true :=
  ⟨Reg.GX_Q_MGMT_SQ_LO, mgmt [],
   by decide +kernel⟩

theorem witness_AccessTypesBitByBit_1 : ∃ (i : RegInfo) (k : Nat),
    k < 32 ∧
    i.w1s = 0 ∧
    i.w1c &&& (i.rw ||| i.rws) = 0 :=
  ⟨{ off := 0, rw := 0xFF, w1c := 0xFF00 }, 31,
   by decide +kernel,
   by decide +kernel,
   by decide +kernel⟩

theorem witness_EnablingAndUnmaskingInterrupts_1 : ∃ (v : Word) (src : Nat) (s : State),
    served s Reg.GX_INT_ENABLE = true ∧
    s.gl.msixOn = [] ∧
    src < 19 ∧
    v.getLsbD src = true ∧
    (rg s Reg.GX_INT_ENABLE).getLsbD src = false ∧
    sourceAsserted s src = true :=
  ⟨1, 0, putReg Reg.GX_TICK_EVENTS 1 up,
   by decide +kernel,
   by decide +kernel,
   by decide +kernel,
   by decide +kernel,
   by decide +kernel,
   by decide +kernel⟩

theorem witness_EnablingAndUnmaskingInterrupts_2 : ∃ (n : Nat) (bit : Nat) (v : Word) (s : State),
    accessed s (pageKey Reg.GX_INST_INT_ENABLE n) = true ∧
    s.gl.msixOn = [] ∧
    bit < 4 ∧
    v.getLsbD bit = true ∧
    (regAt s (pageKey Reg.GX_INST_INT_ENABLE n)).getLsbD bit = false ∧
    (regAt s (pageKey Reg.GX_INST_INT_STATUS n)).getLsbD bit = true ∧
    wfld (regAt s (pageKey Reg.GX_INST_INT_VECTOR n)) (8 * bit + 5) (8 * bit) < msixVectors n :=
  ⟨0, 3, 8, putReg (pageKey Reg.GX_INST_INT_STATUS 0) 8 up,
   by decide +kernel,
   by decide +kernel,
   by decide +kernel,
   by decide +kernel,
   by decide +kernel,
   by decide +kernel,
   by decide +kernel⟩

theorem witness_EnablingAndUnmaskingInterrupts_3 : ∃ (fn : Nat) (v : Nat) (s : State),
    powered s = true ∧
    s.fw.boot = .ready ∧
    (inst s fn).state ≠ .disabled ∧
    v < msixVectors fn ∧
    fn ∈ s.gl.msixOn ∧
    64 * fn + v ∈ s.gl.msixPending :=
  ⟨0, 63, { up with gl := { up.gl with msixOn := [0], msixPending := [63] } },
   by decide +kernel,
   by decide +kernel,
   by decide +kernel,
   by decide +kernel,
   by decide +kernel,
   by decide +kernel⟩

theorem witness_EnablingAndUnmaskingInterrupts_4 : ∃ (fn : Nat) (s : State),
    powered s = true ∧
    s.fw.boot = .ready ∧
    (inst s fn).state ≠ .disabled :=
  ⟨0, up,
   by decide +kernel,
   by decide +kernel,
   by decide +kernel⟩

theorem witness_LanzilActionsStartOnce_1 : ∃ (c : Instr) (kind : Nat) (s : State),
    (c, kind) ∈ [(.lzVerify 0, 1), (.lzPartial 0, 2), (.lzFull 0, 3)] ∧
    running s = true ∧
    s.lz.action = 0 ∧
    rg s Reg.GX_LZ_STAGE_LEN ≠ 0 :=
  ⟨.lzFull 0, 3, putReg Reg.GX_LZ_STAGE_LEN 1 up,
   by decide +kernel,
   by decide +kernel,
   by decide +kernel,
   by decide +kernel⟩

theorem witness_LanzilActionsStartOnce_2 : ∃ (c : Instr) (s : State),
    c ∈ [.lzVerify 0, .lzPartial 0, .lzFull 0] ∧
    running s = true ∧
    s.lz.action ≠ 0 :=
  ⟨.lzVerify 0, staging 1 portsImage,
   by decide +kernel,
   by decide +kernel,
   by decide +kernel⟩

theorem witness_LanzilActionsStartOnce_3 : ∃ (c : Instr) (s : State),
    c ∈ [.lzVerify 0, .lzPartial 0, .lzFull 0] ∧
    running s = true ∧
    s.lz.action = 0 ∧
    rg s Reg.GX_LZ_STAGE_LEN = 0 :=
  ⟨.lzPartial 0, up,
   by decide +kernel,
   by decide +kernel,
   by decide +kernel,
   by decide +kernel⟩

theorem witness_LanzilActionsStartOnce_4 : ∃ (c : Instr) (r : Nat),
    r ≠ 0 ∧
    c ∈ [.lzVerify r, .lzPartial r, .lzFull r] :=
  ⟨.lzVerify 1, 1,
   by decide +kernel,
   by decide +kernel⟩

theorem witness_LanzilActionsEndByTheCheck_1 : ∃ (image : List Byte) (v : Verdict) (s : State),
    running s = true ∧
    s.lz.action ≠ 0 ∧
    s.lz.held = none ∧
    image.length = (rg s Reg.GX_LZ_STAGE_LEN).toNat ∧
    lzHeaderBad image = false ∧
    ((s.lz.action = 2 → lzPartial image = true)) ∧
    ((s.lz.action = 3 → lzPartial image = false)) ∧
    v.rsa = false :=
  ⟨portsImage, ⟨false, true, true⟩, staging 1 portsImage,
   by decide +kernel,
   by decide +kernel,
   by decide +kernel,
   by decide +kernel,
   by decide +kernel,
   by decide +kernel,
   by decide +kernel,
   by decide +kernel⟩

theorem witness_LanzilActionsEndByTheCheck_2 : ∃ (image : List Byte) (v : Verdict) (s : State),
    running s = true ∧
    s.lz.action = 1 ∧
    s.lz.held = none ∧
    image.length = (rg s Reg.GX_LZ_STAGE_LEN).toNat ∧
    actionCheck image v s = none :=
  ⟨fullImage, ⟨true, true, true⟩, staging 1 fullImage,
   by decide +kernel,
   by decide +kernel,
   by decide +kernel,
   by decide +kernel,
   by decide +kernel⟩

theorem witness_LanzilActionsEndByTheCheck_3 : ∃ (image : List Byte) (v : Verdict) (s : State),
    running s = true ∧
    s.lz.action = 2 ∧
    s.lz.held = none ∧
    image.length = (rg s Reg.GX_LZ_STAGE_LEN).toNat ∧
    actionCheck image v s = none :=
  ⟨portsImage, ⟨true, true, true⟩, staging 2 portsImage,
   by decide +kernel,
   by decide +kernel,
   by decide +kernel,
   by decide +kernel,
   by decide +kernel⟩

theorem witness_LanzilActionsEndByTheCheck_4 : ∃ (image : List Byte) (v : Verdict) (s : State),
    running s = true ∧
    s.lz.action = 3 ∧
    s.lz.held = none ∧
    image.length = (rg s Reg.GX_LZ_STAGE_LEN).toNat ∧
    actionCheck image v s = none :=
  ⟨fullImage, ⟨true, true, true⟩, staging 3 fullImage,
   by decide +kernel,
   by decide +kernel,
   by decide +kernel,
   by decide +kernel,
   by decide +kernel⟩

theorem witness_PartialReloadAtItsEdge_1 : ∃ (r : Reload) (s : State),
    running s = true ∧
    s.lz.held = some r ∧
    s.pw.emergency = true :=
  ⟨⟨up.lz.run, false, none⟩, { up with lz := { up.lz with held := some ⟨up.lz.run, false, none⟩ }, pw := { up.pw with emergency := true } },
   by decide +kernel,
   by decide +kernel,
   by decide +kernel⟩

theorem witness_PartialReloadAtItsEdge_2 : ∃ (r : Reload) (e : LzErr) (s : State),
    running s = true ∧
    s.lz.held = some r ∧
    s.pw.emergency = false ∧
    r.tree = true ∧
    reloadErr s r.next = some e ∧
    e.result ≠ 0 :=
  ⟨⟨{ up.lz.run with flocks := [⟨0, none, .inner, true, true, true, 0, 0, 0, 0, 7⟩] }, true, none⟩, ⟨9, 2, 0⟩, { up with lz := { up.lz with held := some ⟨{ up.lz.run with flocks := [⟨0, none, .inner, true, true, true, 0, 0, 0, 0, 7⟩] }, true, none⟩ } },
   by decide +kernel,
   by decide +kernel,
   by decide +kernel,
   by decide +kernel,
   by decide +kernel,
   by decide +kernel⟩

theorem witness_PartialReloadAtItsEdge_3 : ∃ (r : Reload) (s : State),
    running s = true ∧
    s.lz.held = some r ∧
    s.pw.emergency = false ∧
    r.tree = false ∧
    r.tick = none ∧
    s.pins.ptpPortUp = true :=
  ⟨⟨up.lz.run, false, none⟩, { up with lz := { up.lz with held := some ⟨up.lz.run, false, none⟩ }, pins := { up.pins with ptpPortUp := true } },
   by decide +kernel,
   by decide +kernel,
   by decide +kernel,
   by decide +kernel,
   by decide +kernel,
   by decide +kernel⟩

theorem witness_BondsFormAndAct_1 : ∃ (flock : Nat) (f : Flock) (b : LzBond) (s : State),
    running s = true ∧
    upPorts s ≠ [] ∧
    s.lz.formed.contains flock = false ∧
    flockOf s.lz.run flock = some f ∧
    bondOf s f = some b :=
  ⟨1, ⟨1, some 0, .inner, false, false, true, 0, 0, 0, 0, 7⟩, ⟨7, 2, 0⟩, bonded 0,
   by decide +kernel,
   by decide +kernel,
   by decide +kernel,
   by decide +kernel,
   by decide +kernel⟩

theorem witness_BondsFormAndAct_2 : ∃ (flock : Nat) (member : Nat) (u : UnitAction) (s : State),
    running s = true ∧
    s.lz.unitActions = [u] ∧
    u.flock = flock ∧
    member ∈ u.waiting ∧
    u.kind = .reset :=
  ⟨1, 1, ⟨1, .reset, [1], 0, false⟩, bonded 0,
   by decide +kernel,
   by decide +kernel,
   by decide +kernel,
   by decide +kernel,
   by decide +kernel⟩

theorem witness_BondsFormAndAct_3 : ∃ (flock : Nat) (member : Nat) (u : UnitAction) (s : State),
    running s = true ∧
    s.lz.unitActions = [u] ∧
    u.flock = flock ∧
    member ∈ u.waiting ∧
    u.sentAt.toNat + 256 ≤ s.tick.count.toNat ∧
    u.kind = .reset ∧
    s.cf.fences = [] :=
  ⟨1, 1, ⟨1, .reset, [1], 0, false⟩, { bonded 0 with tick := { up.tick with count := 256 } },
   by decide +kernel,
   by decide +kernel,
   by decide +kernel,
   by decide +kernel,
   by decide +kernel,
   by decide +kernel,
   by decide +kernel⟩

theorem witness_BondsFormAndAct_4 : ∃ (flock : Nat) (f : Flock) (b : LzBond) (s : State),
    running s = true ∧
    flockOf s.lz.run flock = some f ∧
    bondOf s f = some b ∧
    b.index ≠ 0 :=
  ⟨1, ⟨1, some 0, .inner, false, false, true, 0, 0, 0, 0, 7⟩, ⟨7, 2, 1⟩, bonded 1,
   by decide +kernel,
   by decide +kernel,
   by decide +kernel,
   by decide +kernel⟩

theorem witness_MemoryBlockWorkEnds_1 : ∃ (s : State),
    powered s = true ∧
    s.mem.phase ≠ 0 :=
  ⟨{ up with mem := { up.mem with phase := 1 } },
   by decide +kernel,
   by decide +kernel⟩

theorem witness_MemoryBlockWorkEnds_2 : ∃ (g : Nat) (s : State),
    powered s = true ∧
    g ∈ s.mem.wiping :=
  ⟨20479, { up with mem := { up.mem with wiping := [20479] } },
   by decide +kernel,
   by decide +kernel⟩

theorem witness_MemoryBlockWorkEnds_3 : ∃ (n : Nat) (s : State),
    running s = true ∧
    rg s Reg.GX_MEM_SCRUB ≠ 0 ∧
    0 < n ∧
    (rg s Reg.GX_MEM_CE_CNT).toNat + n < 2 ^ 32 :=
  ⟨1, putReg Reg.GX_MEM_SCRUB 1 up,
   by decide +kernel,
   by decide +kernel,
   by decide +kernel,
   by decide +kernel⟩

theorem witness_MemoryBlockWorkEnds_4 : ∃ (bank : Nat) (s : State),
    running s = true ∧
    bank ∈ s.mem.rowBusy :=
  ⟨5, { up with mem := { up.mem with rowBusy := [5] } },
   by decide +kernel,
   by decide +kernel⟩

theorem witness_MemoryBlockWorkEnds_5 : ∃ (stack : Nat) (pc : Nat) (s : State),
    running s = true ∧
    (stack, pc) ∈ s.mem.pcRun :=
  ⟨1, 2, { up with mem := { up.mem with pcRun := [(1, 2)] } },
   by decide +kernel,
   by decide +kernel⟩

theorem witness_MemoryBlockWorkEnds_6 : ∃ (frame : Nat) (s : State),
    running s = true ∧
    frame ∈ s.mem.frameRun :=
  ⟨9, { up with mem := { up.mem with frameRun := [9] } },
   by decide +kernel,
   by decide +kernel⟩

theorem witness_InvalidatesAndWalks_1 : ∃ (slot : Nat) (o : Op) (s : State),
    working s = true ∧
    waitsAt s slot 0x12 o ∧
    o.started = false :=
  ⟨0, opOf [(1, 0x12), (16, 2)], mgmt [(1, 0x12), (16, 2)],
   by decide +kernel,
   by decide +kernel,
   by decide +kernel⟩

theorem witness_InvalidatesAndWalks_2 : ∃ (slot : Nat) (o : Op) (v : Inval) (s : State),
    working s = true ∧
    waitsAt s slot 0x12 o ∧
    s.xl.invals.find? (fun v => v.slot == slot) = some v ∧
    invalDone s v = true ∧
    v.zero = false :=
  ⟨0, opOf [(1, 0x12), (16, 2)], ⟨0, 2, [], false⟩, { mgmt [(1, 0x12), (16, 2)] with xl := { up.xl with invals := [⟨0, 2, [], false⟩] } },
   by decide +kernel,
   by decide +kernel,
   by decide +kernel,
   by decide +kernel,
   by decide +kernel⟩

theorem witness_InvalidatesAndWalks_3 : ∃ (n : Nat) (reads : NMap (BitVec 128)) (w : Walk) (e : XlEntry) (tables : List (Nat × Nat × BitVec 64)) (s : State),
    working s = true ∧
    mapGet s.xl.walks n = some w ∧
    w.stale = false ∧
    s.xl.walks.length < 32 ∧
    s.xl.l2.length < 16 ∧
    walkVa s w.space w.inst w.va reads = .leaf e tables ∧
    16 < e.size :=
  ⟨0, pageReads, { space := 1, inst := 0, va := 2 ^ 30, owner := 7 }, leafEntry 1 (2 ^ 30) 30 27, [(3, 0, 4097)], walking,
   by decide +kernel,
   by decide +kernel,
   by decide +kernel,
   by decide +kernel,
   by decide +kernel,
   by decide +kernel,
   by decide +kernel⟩

theorem witness_ErrorsAreClassified_1 : ∃ (x : ErrorIn) (s : State),
    running s = true ∧
    s.re.dumping = false ∧
    x.cls ∈ [4, 5, 7, 8, 9, 11, 12, 14] ∧
    bantamBusy s 5 = false ∧
    x.retryOk = true :=
  ⟨{ cls := 8, kind := 0, index := 0, retryOk := true }, up,
   by decide +kernel,
   by decide +kernel,
   by decide +kernel,
   by decide +kernel,
   by decide +kernel⟩

theorem witness_ErrorsAreClassified_2 : ∃ (x : ErrorIn) (s : State),
    running s = true ∧
    s.re.dumping = false ∧
    x.cls = 2 ∧
    x.kind = 1 ∧
    x.retryOk = false ∧
    bantamBusy s 5 = false ∧
    rowsUsed s 2 x.bank < 4 :=
  ⟨{ cls := 2, kind := 1, index := 0, retryOk := false }, up,
   by decide +kernel,
   by decide +kernel,
   by decide +kernel,
   by decide +kernel,
   by decide +kernel,
   by decide +kernel,
   by decide +kernel⟩

theorem witness_ErrorsAreClassified_3 : ∃ (x : ErrorIn) (s : State),
    running s = true ∧
    s.re.dumping = false ∧
    x.cls ∈ [4, 5, 7, 8, 9, 11, 12, 14] ∧
    bantamBusy s 5 = true ∧
    alreadyCaptured x s = false :=
  ⟨{ cls := 8, kind := 0, index := 0, retryOk := true }, { up with fw := { up.fw with restarting := some 5 } },
   by decide +kernel,
   by decide +kernel,
   by decide +kernel,
   by decide +kernel,
   by decide +kernel⟩

theorem witness_ErrorsAreClassified_4 : ∃ (x : ErrorIn) (s : State),
    running s = true ∧
    s.re.dumping = false ∧
    x.cls = 14 ∧
    bantamBusy s 5 = false ∧
    x.retryOk = false ∧
    s.re.fatalTimes = [] :=
  ⟨{ cls := 14, kind := 0, index := 0, retryOk := false }, up,
   by decide +kernel,
   by decide +kernel,
   by decide +kernel,
   by decide +kernel,
   by decide +kernel,
   by decide +kernel⟩

theorem witness_ErrorsAreClassified_5 : ∃ (unit : Nat) (s : State),
    running s = true ∧
    (cvUnit s unit).testing = true ∧
    bantamBusy s 5 = false :=
  ⟨31, { up with cv := [(31, { testing := true })] },
   by decide +kernel,
   by decide +kernel,
   by decide +kernel⟩

theorem witness_ErrorsAreClassified_6 : ∃ (unit : Nat) (s : State),
    running s = true ∧
    (cvUnit s unit).testing = true ∧
    bantamBusy s 5 = false :=
  ⟨31, { up with cv := [(31, { testing := true })] },
   by decide +kernel,
   by decide +kernel,
   by decide +kernel⟩

theorem witness_ErrorsAreClassified_7 : ∃ (part : Nat) (epoch : Nat) (s : State),
    running s = true ∧
    partEpoch s part ≠ epoch % 16 :=
  ⟨0, 1, up,
   by decide +kernel,
   by decide +kernel⟩

theorem witness_SparesAndDumps_1 : ∃ (w : CoreSwap) (s : State),
    working s = true ∧
    s.re.swap = some w ∧
    w.copying = false :=
  ⟨⟨3, 3, false⟩, { up with re := { up.re with swap := some ⟨3, 3, false⟩ } },
   by decide +kernel,
   by decide +kernel,
   by decide +kernel⟩

theorem witness_SparesAndDumps_2 : ∃ (w : CoreSwap) (s : State),
    working s = true ∧
    s.re.swap = some w ∧
    w.copying = true ∧
    s.re.coreQueue = [] :=
  ⟨⟨3, 3, true⟩, { up with re := { up.re with swap := some ⟨3, 3, true⟩ } },
   by decide +kernel,
   by decide +kernel,
   by decide +kernel,
   by decide +kernel⟩

theorem witness_SparesAndDumps_3 : ∃ (slot : Nat) (o : Op) (s : State),
    working s = true ∧
    waitsAt s slot 0x1D o ∧
    ef o.entry 28 1 = 1 ∧
    0x400000 ≤ ef o.entry 24 4 ∧
    s.re.dumpState ≠ 3 :=
  ⟨0, opOf [(1, 0x1D), (24, 0x400000), (28, 1)], mgmt [(1, 0x1D), (24, 0x400000), (28, 1)],
   by decide +kernel,
   by decide +kernel,
   by decide +kernel,
   by decide +kernel,
   by decide +kernel⟩

theorem witness_SparesAndDumps_4 : ∃ (slot : Nat) (o : Op) (s : State),
    working s = true ∧
    waitsAt s slot 0x1D o ∧
    ef o.entry 28 1 = 1 ∧
    ef o.entry 24 4 < 0x400000 :=
  ⟨0, opOf [(1, 0x1D), (24, 0x3FFFFF), (28, 1)], mgmt [(1, 0x1D), (24, 0x3FFFFF), (28, 1)],
   by decide +kernel,
   by decide +kernel,
   by decide +kernel,
   by decide +kernel⟩

theorem witness_SparesAndDumps_5 : ∃ (x : DumpIn) (s : State),
    powered s = true ∧
    s.re.dumping = true ∧
    s.re.dumpReg.hostValid = true ∧
    s.pc.hstUp = true ∧
    x.hostOk = true ∧
    s.gl.fatalHalt = false ∧
    s.fw.coldDue = false ∧
    s.fw.boot = .ready :=
  ⟨{}, { up with re := { up.re with dumping := true, dumpReg := { hostValid := true } }, pc := { up.pc with hstUp := true } },
   by decide +kernel,
   by decide +kernel,
   by decide +kernel,
   by decide +kernel,
   by decide +kernel,
   by decide +kernel,
   by decide +kernel,
   by decide +kernel⟩

theorem witness_SparesAndDumps_6 : ∃ (s : State),
    powered s = true ∧
    s.re.dumping = true :=
  ⟨{ up with re := { up.re with dumping := true } },
   by decide +kernel,
   by decide +kernel⟩

theorem witness_RingsAreRegisteredAndRemoved_1 : ∃ (v : Word) (s : State),
    running s = true ∧
    s.q.mgmtActive = false ∧
    (rg s Reg.GX_Q_MGMT_CTRL).getLsbD 0 = false ∧
    v.getLsbD 0 = true ∧
    3 ≤ wfld v 8 5 ∧
    wfld v 8 5 ≤ 12 ∧
    3 ≤ wfld v 12 9 ∧
    wfld v 12 9 ≤ 12 :=
  ⟨0x1861#32, up,
   by decide +kernel,
   by decide +kernel,
   by decide +kernel,
   by decide +kernel,
   by decide +kernel,
   by decide +kernel,
   by decide +kernel,
   by decide +kernel⟩

theorem witness_RingsAreRegisteredAndRemoved_2 : ∃ (v : Word) (s : State),
    running s = true ∧
    s.q.mgmtActive = false ∧
    (rg s Reg.GX_Q_MGMT_CTRL).getLsbD 0 = false ∧
    v.getLsbD 0 = true ∧
    ((wfld v 8 5 < 3 ∨ 12 < wfld v 8 5 ∨ wfld v 12 9 < 3 ∨ 12 < wfld v 12 9)) :=
  ⟨0x1841#32, up,
   by decide +kernel,
   by decide +kernel,
   by decide +kernel,
   by decide +kernel,
   by decide +kernel⟩

theorem witness_RingsAreRegisteredAndRemoved_3 : ∃ (s : State),
    running s = true ∧
    (rg s Reg.GX_Q_MGMT_CTRL).getLsbD 0 = true ∧
    s.q.mgmtActive = true :=
  ⟨putReg Reg.GX_Q_MGMT_CTRL 1 home,
   by decide +kernel,
   by decide +kernel,
   by decide +kernel⟩

theorem witness_RingsAreRegisteredAndRemoved_4 : ∃ (slot : Nat) (o : Op) (s : State),
    working s = true ∧
    waitsAt s slot 0x10 o ∧
    registerRefused s (ringFromEntry slot o.entry).1 (ringFromEntry slot o.entry).2 = false ∧
    ringCount s (ringFromEntry slot o.entry).2.inst < wfld (rgi s Reg.GX_VI_QUOTA_RINGS (ringFromEntry slot o.entry).2.inst) 14 0 :=
  ⟨0, opOf [(1, 0x10), (24, 7), (28, 3), (32, 3)], homeMgmt [(1, 0x10), (24, 7), (28, 3), (32, 3)],
   by decide +kernel,
   by decide +kernel,
   by decide +kernel,
   by decide +kernel⟩

theorem witness_RingsAreRegisteredAndRemoved_5 : ∃ (slot : Nat) (o : Op) (s : State),
    working s = true ∧
    waitsAt s slot 0x10 o ∧
    registerRefused s (ringFromEntry slot o.entry).1 (ringFromEntry slot o.entry).2 = true :=
  ⟨0, opOf [(1, 0x10), (24, 2), (28, 3), (32, 3)], homeMgmt [(1, 0x10), (24, 2), (28, 3), (32, 3)],
   by decide +kernel,
   by decide +kernel,
   by decide +kernel⟩

theorem witness_RingsAreRegisteredAndRemoved_6 : ∃ (slot : Nat) (o : Op) (g : Ring) (s : State),
    working s = true ∧
    waitsAt s slot 0x11 o ∧
    ringOf s (ef o.entry 16 2 % 2 ^ 15) = some g ∧
    g.kind = .cq ∧
    ((∀ x ∈ s.q.rings, x.2.kind ≠ .cq → x.2.cq ≠ ef o.entry 16 2 % 2 ^ 15)) :=
  ⟨0, opOf [(1, 0x11), (16, 7)], { cq3 with base := 0x8000 }, { home with q := { home.q with rings := rings [opOf [(1, 0x11), (16, 7)]] ++ [(7, { cq3 with base := 0x8000 })] } },
   by decide +kernel,
   by decide +kernel,
   by decide +kernel,
   by decide +kernel,
   by decide +kernel⟩

theorem witness_RingsAreRegisteredAndRemoved_7 : ∃ (slot : Nat) (o : Op) (g : Ring) (s : State),
    working s = true ∧
    waitsAt s slot 0x11 o ∧
    mapSorted s.q.rings ∧
    ringOf s (ef o.entry 16 2 % 2 ^ 15) = some g ∧
    g.kind = .sq ∧
    g.ops = [] ∧
    g.fetched = none ∧
    g.loc = 0 ∧
    g.shutting = none ∧
    (inst s g.inst).state = .ready ∧
    2 ≤ ef o.entry 16 2 % 2 ^ 15 ∧
    s.tp.runs = [] ∧
    s.kn.kernels = [] ∧
    s.hd.herds = [] :=
  ⟨0, opOf [(1, 0x11), (16, 2)], sq2, homeMgmt [(1, 0x11), (16, 2)],
   by decide +kernel,
   by decide +kernel,
   by decide +kernel,
   by decide +kernel,
   by decide +kernel,
   by decide +kernel,
   by decide +kernel,
   by decide +kernel,
   by decide +kernel,
   by decide +kernel,
   by decide +kernel,
   by decide +kernel,
   by decide +kernel,
   by decide +kernel⟩

theorem witness_EntriesGoThroughRings_1 : ∃ (r : Nat) (failed : Bool) (g : Ring) (s : State),
    working s = true ∧
    ringOf s r = some g ∧
    2 ≤ r ∧
    sqServed s r g = true ∧
    g.reserved = true ∧
    g.fetched = none ∧
    s.q.issued = [] ∧
    0 < s.q.budget ∧
    slotReadFails s g (g.nextFetch % ringSize g) 64 failed = false :=
  ⟨2, false, sq2, home,
   by decide +kernel,
   by decide +kernel,
   by decide +kernel,
   by decide +kernel,
   by decide +kernel,
   by decide +kernel,
   by decide +kernel,
   by decide +kernel,
   by decide +kernel⟩

theorem witness_EntriesGoThroughRings_2 : ∃ (r : Nat) (own : Bool) (failed : Bool) (g : Ring) (c : Ring) (s : State),
    working s = true ∧
    ringOf s r = some g ∧
    2 ≤ r ∧
    sqServed s r g = true ∧
    g.reserved = false ∧
    ringOf s g.cq = some c ∧
    g.cq ≠ r ∧
    s.q.issued = [] ∧
    0 < s.q.budget ∧
    slotReadFails s c (c.resNext % ringSize c) 32 failed = false ∧
    cqOwn s c (c.resNext % ringSize c) own = true :=
  ⟨2, true, false, { sq2 with reserved := false }, cq3, withSq { sq2 with reserved := false } home,
   by decide +kernel,
   by decide +kernel,
   by decide +kernel,
   by decide +kernel,
   by decide +kernel,
   by decide +kernel,
   by decide +kernel,
   by decide +kernel,
   by decide +kernel,
   by decide +kernel,
   by decide +kernel⟩

theorem witness_EntriesGoThroughRings_3 : ∃ (n : Nat) (r : Nat) (g : Ring) (s : State),
    running s = true ∧
    (inst s n).state ≠ .disabled ∧
    ringOf s (r % 32768) = some g ∧
    g.inst = n ∧
    g.kind = .sq :=
  ⟨0, 2, sq2, home,
   by decide +kernel,
   by decide +kernel,
   by decide +kernel,
   by decide +kernel,
   by decide +kernel⟩

theorem witness_EntriesGoThroughRings_4 : ∃ (n : Nat) (r : Nat) (s : State),
    running s = true ∧
    (inst s n).state ≠ .disabled ∧
    ((∀ g, ringOf s (r % 32768) = some g → g.inst ≠ n ∨ g.kind = .rq)) :=
  ⟨0, 32767, home,
   by decide +kernel,
   by decide +kernel,
   by (intro g h; cases h)⟩

theorem witness_EntriesGoThroughRings_5 : ∃ (r : Nat) (e : BitVec 512) (g : Ring) (s : State),
    working s = true ∧
    ringOf s r = some g ∧
    g.fetched = some e ∧
    g.reserved = true ∧
    bantamBusy s 1 = false ∧
    (inst s g.inst).state = .ready ∧
    bondWaits s g.inst = false ∧
    e.getLsbD 1 = true ∧
    e.getLsbD 2 = true ∧
    entryReason s r g e = none ∧
    entryOpcode e ≠ 9 ∧
    7 < entryOpcode e :=
  ⟨0, entryOf [(0, 7), (1, 0x12), (16, 2)], { kind := .sq, base := 0, loc := 0, log2 := 3, inst := 0, cq := 1, reserved := true, nextFetch := 1, fetched := some (entryOf [(0, 7), (1, 0x12), (16, 2)]) }, { home with q := { home.q with rings := mapSet home.q.rings 0 { kind := .sq, base := 0, loc := 0, log2 := 3, inst := 0, cq := 1, reserved := true, nextFetch := 1, fetched := some (entryOf [(0, 7), (1, 0x12), (16, 2)]) } } },
   by decide +kernel,
   by decide +kernel,
   by decide +kernel,
   by decide +kernel,
   by decide +kernel,
   by decide +kernel,
   by decide +kernel,
   by decide +kernel,
   by decide +kernel,
   by decide +kernel,
   by decide +kernel,
   by decide +kernel⟩

theorem witness_EntriesGoThroughRings_6 : ∃ (r : Nat) (reason : Nat) (e : BitVec 512) (g : Ring) (s : State),
    working s = true ∧
    2 ≤ r ∧
    ringOf s r = some g ∧
    g.fetched = some e ∧
    g.reserved = true ∧
    bantamBusy s 1 = false ∧
    (inst s g.inst).state = .ready ∧
    bondWaits s g.inst = false ∧
    entryReason s r g e = some reason :=
  ⟨2, 1, entryOf [(0, 7)], { sq2 with fetched := some (entryOf [(0, 7)]) }, withSq { sq2 with fetched := some (entryOf [(0, 7)]) } home,
   by decide +kernel,
   by decide +kernel,
   by decide +kernel,
   by decide +kernel,
   by decide +kernel,
   by decide +kernel,
   by decide +kernel,
   by decide +kernel,
   by decide +kernel⟩

theorem witness_EntriesGoThroughRings_7 : ∃ (r : Nat) (o : Op) (c : Completion) (g : Ring) (q : Ring) (s : State),
    working s = true ∧
    2 ≤ r ∧
    ringOf s r = some g ∧
    headReady g = some (o, c) ∧
    (inst s g.inst).state ≠ .halted ∧
    ringOf s g.cq = some q ∧
    g.cq ≠ r ∧
    g.loc = 0 ∧
    q.loc = 0 ∧
    s.pc.hstUp = true :=
  ⟨2, { opOf [(1, 1)] with done := some { status := 0 } }, { status := 0 }, { sq2 with ops := [{ opOf [(1, 1)] with done := some { status := 0 } }] }, cq3, withSq { sq2 with ops := [{ opOf [(1, 1)] with done := some { status := 0 } }] } home,
   by decide +kernel,
   by decide +kernel,
   by decide +kernel,
   by decide +kernel,
   by decide +kernel,
   by decide +kernel,
   by decide +kernel,
   by decide +kernel,
   by decide +kernel,
   by decide +kernel⟩

theorem witness_QueuePairsAreMadeChangedAndFreed_1 : ∃ (slot : Nat) (o : Op) (s : State),
    working s = true ∧
    waitsAt s slot 0x13 o ∧
    qpRefused s (entryQpn o.entry) (qpBody o.entry) = false ∧
    isRoce (qpBody o.entry) = false ∧
    qpCount s (qpBody o.entry).inst < wfld (rgi s Reg.GX_VI_QUOTA_QPS (qpBody o.entry).inst) 16 0 :=
  ⟨0, opOf [(1, 0x13), (2, 8), (26, 2), (28, 4)], homeMgmt [(1, 0x13), (2, 8), (26, 2), (28, 4)],
   by decide +kernel,
   by decide +kernel,
   by decide +kernel,
   by decide +kernel,
   by decide +kernel⟩

theorem witness_QueuePairsAreMadeChangedAndFreed_2 : ∃ (slot : Nat) (o : Op) (s : State),
    working s = true ∧
    waitsAt s slot 0x13 o ∧
    qpRefused s (entryQpn o.entry) (qpBody o.entry) = true :=
  ⟨0, opOf [(1, 0x13), (2, 9), (26, 2), (28, 4)], homeMgmt [(1, 0x13), (2, 9), (26, 2), (28, 4)],
   by decide +kernel,
   by decide +kernel,
   by decide +kernel⟩

theorem witness_QueuePairsAreMadeChangedAndFreed_3 : ∃ (slot : Nat) (o : Op) (q : Qp) (s : State),
    working s = true ∧
    waitsAt s slot 0x14 o ∧
    ef o.entry 16 1 = 1 ∧
    qpOf s (entryQpn o.entry) = some q ∧
    q.herd = none ∧
    q.state ≠ .ready ∧
    isRoce q = false :=
  ⟨0, opOf [(1, 0x14), (2, 9), (16, 1)], { qp9 with state := .error }, withQp { qp9 with state := .error } (homeMgmt [(1, 0x14), (2, 9), (16, 1)]),
   by decide +kernel,
   by decide +kernel,
   by decide +kernel,
   by decide +kernel,
   by decide +kernel,
   by decide +kernel,
   by decide +kernel⟩

theorem witness_QueuePairsAreMadeChangedAndFreed_4 : ∃ (slot : Nat) (o : Op) (q : Qp) (s : State),
    working s = true ∧
    waitsAt s slot 0x14 o ∧
    ef o.entry 16 1 = 2 ∧
    qpOf s (entryQpn o.entry) = some q ∧
    q.herd = none :=
  ⟨0, opOf [(1, 0x14), (2, 9), (16, 2)], qp9, homeMgmt [(1, 0x14), (2, 9), (16, 2)],
   by decide +kernel,
   by decide +kernel,
   by decide +kernel,
   by decide +kernel,
   by decide +kernel⟩

theorem witness_QueuePairsAreMadeChangedAndFreed_5 : ∃ (slot : Nat) (o : Op) (q : Qp) (s : State),
    working s = true ∧
    waitsAt s slot 0x14 o ∧
    ef o.entry 16 1 = 3 ∧
    qpOf s (entryQpn o.entry) = some q ∧
    q.herd = none ∧
    q.state = .ready ∧
    q.sq ≠ 0 ∧
    q.recvs = [] ∧
    ((∀ e ∈ s.tp.runs, e.2.ring ≠ 0)) :=
  ⟨0, opOf [(1, 0x14), (2, 9), (16, 3)], qp9, homeMgmt [(1, 0x14), (2, 9), (16, 3)],
   by decide +kernel,
   by decide +kernel,
   by decide +kernel,
   by decide +kernel,
   by decide +kernel,
   by decide +kernel,
   by decide +kernel,
   by decide +kernel,
   by decide +kernel⟩

theorem witness_QueuePairsAreMadeChangedAndFreed_6 : ∃ (slot : Nat) (o : Op) (q : Qp) (s : State),
    working s = true ∧
    waitsAt s slot 0x15 o ∧
    qpOf s (entryQpn o.entry) = some q ∧
    q.herd = none ∧
    qpBusy s (entryQpn o.entry) q = false :=
  ⟨0, opOf [(1, 0x15), (2, 9)], qp9, homeMgmt [(1, 0x15), (2, 9)],
   by decide +kernel,
   by decide +kernel,
   by decide +kernel,
   by decide +kernel,
   by decide +kernel⟩

theorem witness_OperationsStart_1 : ∃ (c : Instr) (code : Nat) (kind : RunKind) (ring : Nat) (slot : Nat) (o : Op) (g : Ring) (q : Qp) (s : State),
    (c, code, kind) ∈ [(.write ring slot, 1, .write), (.read ring slot, 2, .read), (.send ring slot, 3, .send), (.atomic ring slot, 4, .atomic), (.writeReduce ring slot, 5, .writeReduce), (.attn ring slot, 6, .attn)] ∧
    working s = true ∧
    mayStartOp s ring slot = some o ∧
    ringOf s ring = some g ∧
    entryOpcode o.entry = code ∧
    qpOf s (entryQpn o.entry) = some q ∧
    q.state = .ready ∧
    saSpent s (entrySa o.entry) = false ∧
    ((code = 1 → tierSlot s (entrySa o.entry) = none)) ∧
    ((code ∈ [1, 2, 5] → entryLength o.entry ≠ 0)) :=
  ⟨.write 2 0, 1, .write, 2, 0, opOf [(1, 1), (2, 9), (4, 64)], { sq2 with ops := [opOf [(1, 1), (2, 9), (4, 64)]] }, qp9, homeOp (opOf [(1, 1), (2, 9), (4, 64)]),
   by decide +kernel,
   by decide +kernel,
   by decide +kernel,
   by decide +kernel,
   by decide +kernel,
   by decide +kernel,
   by decide +kernel,
   by decide +kernel,
   by decide +kernel,
   by decide +kernel⟩

theorem witness_OperationsStart_1b : ∃ (c : Instr) (code : Nat) (kind : RunKind) (ring : Nat) (slot : Nat) (o : Op) (g : Ring) (q : Qp) (s : State),
    (c, code, kind) ∈ [(.write ring slot, 1, .write), (.read ring slot, 2, .read), (.send ring slot, 3, .send), (.atomic ring slot, 4, .atomic), (.writeReduce ring slot, 5, .writeReduce), (.attn ring slot, 6, .attn)] ∧
    working s = true ∧
    mayStartOp s ring slot = some o ∧
    ringOf s ring = some g ∧
    entryOpcode o.entry = code ∧
    qpOf s (entryQpn o.entry) = some q ∧
    q.state = .ready ∧
    saSpent s (entrySa o.entry) = false ∧
    ((code = 1 → tierSlot s (entrySa o.entry) = none)) ∧
    ((code ∈ [1, 2, 5] → entryLength o.entry ≠ 0)) :=
  ⟨.atomic 2 0, 4, .atomic, 2, 0, opOf [(1, 4), (2, 9)], { sq2 with ops := [opOf [(1, 4), (2, 9)]] }, qp9, homeOp (opOf [(1, 4), (2, 9)]),
   by decide +kernel,
   by decide +kernel,
   by decide +kernel,
   by decide +kernel,
   by decide +kernel,
   by decide +kernel,
   by decide +kernel,
   by decide +kernel,
   by decide +kernel,
   by decide +kernel⟩

theorem witness_OperationsStart_2 : ∃ (c : Instr) (code : Nat) (ring : Nat) (slot : Nat) (o : Op) (q : Qp) (s : State),
    (c, code) ∈ [(.write ring slot, 1), (.read ring slot, 2), (.writeReduce ring slot, 5)] ∧
    working s = true ∧
    mayStartOp s ring slot = some o ∧
    opAt s ring slot = some o ∧
    entryOpcode o.entry = code ∧
    qpOf s (entryQpn o.entry) = some q ∧
    q.state = .ready ∧
    saSpent s (entrySa o.entry) = false ∧
    ((code = 1 → tierSlot s (entrySa o.entry) = none)) ∧
    entryLength o.entry = 0 :=
  ⟨.read 2 0, 2, 2, 0, opOf [(1, 2), (2, 9)], qp9, homeOp (opOf [(1, 2), (2, 9)]),
   by decide +kernel,
   by decide +kernel,
   by decide +kernel,
   by decide +kernel,
   by decide +kernel,
   by decide +kernel,
   by decide +kernel,
   by decide +kernel,
   by decide +kernel,
   by decide +kernel⟩

theorem witness_OperationsStart_3 : ∃ (c : Instr) (code : Nat) (ring : Nat) (slot : Nat) (o : Op) (q : Qp) (s : State),
    (c, code) ∈ [(.read ring slot, 2), (.send ring slot, 3), (.atomic ring slot, 4), (.writeReduce ring slot, 5), (.attn ring slot, 6)] ∧
    working s = true ∧
    mayStartOp s ring slot = some o ∧
    opAt s ring slot = some o ∧
    entryOpcode o.entry = code ∧
    qpOf s (entryQpn o.entry) = some q ∧
    q.state = .error :=
  ⟨.send 2 0, 3, 2, 0, opOf [(1, 3), (2, 9)], { qp9 with state := .error }, withQp { qp9 with state := .error } (homeOp (opOf [(1, 3), (2, 9)])),
   by decide +kernel,
   by decide +kernel,
   by decide +kernel,
   by decide +kernel,
   by decide +kernel,
   by decide +kernel,
   by decide +kernel⟩

theorem witness_OperationsStart_4 : ∃ (ring : Nat) (slot : Nat) (g : Ring) (o : Op) (q : Qp) (rest : List Op) (s : State),
    working s = true ∧
    ringOf s ring = some g ∧
    g.ops = o :: rest ∧
    o.slot = slot ∧
    o.head = slot ∧
    entryOpcode o.entry = 7 ∧
    o.done = none ∧
    o.malformed = none ∧
    g.shutting = none ∧
    instFinishes s g.inst = true ∧
    qpOf s (entryQpn o.entry) = some q ∧
    q.state = .ready :=
  ⟨2, 0, { sq2 with ops := [opOf [(1, 7), (2, 9)]] }, opOf [(1, 7), (2, 9)], qp9, [], homeOp (opOf [(1, 7), (2, 9)]),
   by decide +kernel,
   by decide +kernel,
   by decide +kernel,
   by decide +kernel,
   by decide +kernel,
   by decide +kernel,
   by decide +kernel,
   by decide +kernel,
   by decide +kernel,
   by decide +kernel,
   by decide +kernel,
   by decide +kernel⟩

theorem witness_OperationsStart_5 : ∃ (ring : Nat) (slot : Nat) (g : Ring) (o : Op) (x : Op) (q : Qp) (rest : List Op) (s : State),
    working s = true ∧
    ringOf s ring = some g ∧
    g.ops = x :: o :: rest ∧
    x.slot ≠ slot ∧
    o.slot = slot ∧
    o.head = slot ∧
    entryOpcode o.entry = 7 ∧
    x.done = none ∧
    entryOpcode x.entry ≤ 7 ∧
    entryQpn x.entry = entryQpn o.entry ∧
    qpOf s (entryQpn o.entry) = some q ∧
    q.state = .ready :=
  ⟨2, 1, { sq2 with ops := [opOf [(1, 1), (2, 9)], { opOf [(1, 7), (2, 9)] with slot := 1, head := 1 }] }, { opOf [(1, 7), (2, 9)] with slot := 1, head := 1 }, opOf [(1, 1), (2, 9)], qp9, [], withSq { sq2 with ops := [opOf [(1, 1), (2, 9)], { opOf [(1, 7), (2, 9)] with slot := 1, head := 1 }] } home,
   by decide +kernel,
   by decide +kernel,
   by decide +kernel,
   by decide +kernel,
   by decide +kernel,
   by decide +kernel,
   by decide +kernel,
   by decide +kernel,
   by decide +kernel,
   by decide +kernel,
   by decide +kernel,
   by decide +kernel⟩

theorem witness_KernelsStartWorkAndComplete_1 : ∃ (c : Instr) (kind : Nat) (ring : Nat) (slot : Nat) (reads : NMap (BitVec 128)) (o : Op) (g : Ring) (d : KSeq) (ds : List KSeq) (s : State) (s' : State),
    (c, kind) ∈ [(.decodeAttn ring slot reads, 1), (.prefillAppend ring slot reads, 2), (.kvGather ring slot reads, 3)] ∧
    working s = true ∧
    mayStartOp s ring slot = some o ∧
    ringOf s ring = some g ∧
    entryOpcode o.entry = 8 ∧
    ef o.entry 32 1 = kind ∧
    readSeqs (newKernel ring slot kind g o) reads s = .ok s' (.ok (d :: ds)) ∧
    (kernelItems { newKernel ring slot kind g o with seqs := d :: ds }).any (fun x => x.1 == 0) = true := by
  obtain ⟨s', h⟩ := of_seqsGive (readSeqs (newKernel 2 0 3 { sq2 with ops := [gatherOp] } gatherOp) [] gatherState) [⟨0, 0, 1, 0⟩] (by decide +kernel)
  exact ⟨.kvGather 2 0 [], 3, 2, 0, [], gatherOp, { sq2 with ops := [gatherOp] }, ⟨0, 0, 1, 0⟩, [], gatherState, s',
   by decide +kernel,
   by decide +kernel,
   by decide +kernel,
   by decide +kernel,
   by decide +kernel,
   by decide +kernel,
   h,
   by decide +kernel⟩

theorem witness_KernelsStartWorkAndComplete_2 : ∃ (ring : Nat) (slot : Nat) (o : Op) (g : Ring) (s : State),
    working s = true ∧
    mayStartOp s ring slot = some o ∧
    ringOf s ring = some g ∧
    entryOpcode o.entry = 8 ∧
    ef o.entry 32 1 = 4 :=
  ⟨2, 0, moveOp, { sq2 with ops := [moveOp] }, homeOp moveOp,
   by decide +kernel,
   by decide +kernel,
   by decide +kernel,
   by decide +kernel,
   by decide +kernel⟩

theorem witness_KernelsStartWorkAndComplete_3 : ∃ (qpn : Nat) (msn : Nat) (kind : Nat) (plen : Nat) (len : Nat) (rest : List (Nat × Nat × Nat)) (q : Qp) (r : RespRec) (s : State),
    working s = true ∧
    qpOf s qpn = some q ∧
    respOf s qpn msn = some r ∧
    r.runs = (kind, plen, len) :: rest ∧
    q.state = .ready ∧
    msn ≤ q.expected ∧
    r.kind = 8 ∧
    r.ready = false ∧
    instFinishes s q.inst = true ∧
    mapGet s.kn.kernels (rxOwner qpn msn) = none ∧
    packetRoom s len = true ∧
    4 < kind :=
  ⟨9, 2^32, 5, 0, 64, [], qp9, attnRec, { home with tp := { home.tp with resps := [(msgKey 9 (2^32), attnRec)] } },
   by decide +kernel,
   by decide +kernel,
   by decide +kernel,
   by decide +kernel,
   by decide +kernel,
   by decide +kernel,
   by decide +kernel,
   by decide +kernel,
   by decide +kernel,
   by decide +kernel,
   by decide +kernel,
   by decide +kernel⟩

theorem witness_KernelsStartWorkAndComplete_4 : ∃ (qpn : Nat) (msn : Nat) (kind : Nat) (plen : Nat) (len : Nat) (rest : List (Nat × Nat × Nat)) (q : Qp) (r : RespRec) (s : State),
    working s = true ∧
    qpOf s qpn = some q ∧
    respOf s qpn msn = some r ∧
    r.runs = (kind, plen, len) :: rest ∧
    q.state = .ready ∧
    msn ≤ q.expected ∧
    r.kind = 8 ∧
    r.ready = false ∧
    instFinishes s q.inst = true ∧
    mapGet s.kn.kernels (rxOwner qpn msn) = none ∧
    packetRoom s len = false :=
  ⟨9, 2^32, 5, 0, 2^30, [], qp9, { attnRec with runs := [(5, 0, 2^30)] }, { home with tp := { home.tp with resps := [(msgKey 9 (2^32), { attnRec with runs := [(5, 0, 2^30)] })] } },
   by decide +kernel,
   by decide +kernel,
   by decide +kernel,
   by decide +kernel,
   by decide +kernel,
   by decide +kernel,
   by decide +kernel,
   by decide +kernel,
   by decide +kernel,
   by decide +kernel,
   by decide +kernel⟩

theorem witness_KernelsStartWorkAndComplete_5 : ∃ (key : Nat) (item : Nat) (engine : Nat) (n : Nat) (reads : NMap (BitVec 128)) (k : Kernel) (w : Nat × Nat × Nat) (s : State) (s' : State),
    working s = true ∧
    mapGet s.kn.kernels key = some k ∧
    kernelKey k = key ∧
    k.kind = 4 ∧
    (kernelItems k)[item]? = some w ∧
    item = k.done.length ∧
    k.done.contains item = false ∧
    itemWanted k w.1 = true ∧
    instFinishes s k.inst = true ∧
    engineOk s k engine = true ∧
    moveItem { k with core := some (engine / 8) } item reads s = .ok s' n := by
  obtain ⟨s', h⟩ := of_kGives (moveItem { moveKernel with core := some 0 } 0 [] (withKernel moveKernel home)) 64 (by decide +kernel)
  exact ⟨opKey 2 0, 0, 0, 64, [], moveKernel, (0, 0, 0), withKernel moveKernel home, s',
   by decide +kernel,
   by decide +kernel,
   by decide +kernel,
   by decide +kernel,
   by decide +kernel,
   by decide +kernel,
   by decide +kernel,
   by decide +kernel,
   by decide +kernel,
   by decide +kernel,
   h⟩

theorem witness_KernelsStartWorkAndComplete_6 : ∃ (key : Nat) (k : Kernel) (o : Op) (s : State),
    working s = true ∧
    mapGet s.kn.kernels key = some k ∧
    k.attn = none ∧
    k.stopped = none ∧
    k.fail = none ∧
    k.force = 0 ∧
    kernelOver k = true ∧
    opAt s k.ring k.slot = some o ∧
    o.head = k.slot ∧
    o.done = none :=
  ⟨opKey 2 0, { moveKernel with done := [0] }, moveOp, withKernel { moveKernel with done := [0] } (homeOp moveOp),
   by decide +kernel,
   by decide +kernel,
   by decide +kernel,
   by decide +kernel,
   by decide +kernel,
   by decide +kernel,
   by decide +kernel,
   by decide +kernel,
   by decide +kernel,
   by decide +kernel⟩

theorem witness_KernelsStartWorkAndComplete_7 : ∃ (key : Nat) (qpn : Nat) (msn : Nat) (k : Kernel) (r : RespRec) (s : State),
    working s = true ∧
    mapGet s.kn.kernels key = some k ∧
    k.attn = some (qpn, msn) ∧
    k.stopped = none ∧
    k.fail = none ∧
    k.force = 0 ∧
    kernelOver k = true ∧
    respOf s qpn msn = some r :=
  ⟨rxOwner 9 (2^32), 9, 2^32, { moveKernel with done := [0], attn := some (9, 2^32) }, attnRec, withKernel { moveKernel with done := [0], attn := some (9, 2^32) } { home with tp := { home.tp with resps := [(msgKey 9 (2^32), attnRec)] } },
   by decide +kernel,
   by decide +kernel,
   by decide +kernel,
   by decide +kernel,
   by decide +kernel,
   by decide +kernel,
   by decide +kernel,
   by decide +kernel⟩

theorem witness_SourcesAreCheckedFirst_1 : ∃ (port : Nat) (hdr : BitVec 96) (pay : BitVec 512) (s : State),
    cellsIn s port = true ∧
    (readHdr hdr).form = 1 ∧
    slotCheck s (readHdr hdr) = 0 ∧
    trainBad (readHdr hdr) pay = false :=
  ⟨1, hd 1 0, mkTrain dataTrain, home,
   by decide +kernel,
   by decide +kernel,
   by decide +kernel,
   by decide +kernel⟩

theorem witness_SourcesAreCheckedFirst_2 : ∃ (port : Nat) (hdr : BitVec 96) (s : State),
    cellsIn s port = true ∧
    (readHdr hdr).form = 1 ∧
    slotCheck s (readHdr hdr) = 2 :=
  ⟨1, hd 1 0, { home with cf := { home.cf with fences := [(0, ⟨5, 0, 2, 1⟩)] } },
   by decide +kernel,
   by decide +kernel,
   by decide +kernel⟩

theorem witness_SourcesAreCheckedFirst_3 : ∃ (c : Instr) (port : Nat) (kind : Nat) (hdr : BitVec 96) (pay : BitVec 512) (s : State),
    (c, kind) ∈ [(.readReqReceive port (.cell hdr pay), 3), (.atomicReqReceive port (.cell hdr pay), 5), (.attnReqReceive port (.cell hdr pay), 7), (.ackReceive port (.cell hdr pay), 9)] ∧
    cellsIn s port = true ∧
    (readHdr hdr).form = 0 ∧
    (readHdr hdr).kind = kind ∧
    slotCheck s (readHdr hdr) = 3 :=
  ⟨.ackReceive 1 (.cell (hd 0 9) 0), 1, 9, hd 0 9, 0, { home with cf := { home.cf with fences := [(0, ⟨5, 0, 1, 63⟩)] } },
   by decide +kernel,
   by decide +kernel,
   by decide +kernel,
   by decide +kernel,
   by decide +kernel⟩

theorem witness_SourcesAreCheckedFirst_4 : ∃ (c : Instr) (port : Nat) (kind : Nat) (k : Nat) (hdr : BitVec 96) (head : BitVec 512) (pay : BitVec 512) (s : State),
    (c, kind) ∈ [(.dataCellReceive port (.train k pay), 0), (.reduceCellReceive port (.train k pay), 1), (.sendCellReceive port (.train k pay) {}, 2)] ∧
    cellsIn s port = true ∧
    (cport s port).train = some (hdr, head) ∧
    (cport s port).trainOk = false :=
  ⟨.dataCellReceive 1 (.train 0 0), 1, 0, 0, hd 1 0, mkTrain dataTrain, 0, { home with cf := { home.cf with ports := [(1, { state := .up, train := some (hd 1 0, mkTrain dataTrain), trainOk := false })] } },
   by decide +kernel,
   by decide +kernel,
   by decide +kernel,
   by decide +kernel⟩

theorem witness_DataCellsReachMemory_1 : ∃ (port : Nat) (slot : SlotIn) (c : CellIn) (q : Qp) (s : State),
    cellsIn s port = true ∧
    slotGives s port 0 slot c ∧
    NewCell s c q ∧
    0 < c.cnt ∧
    tierOpen s (c.addr / 2 ^ 41) (c.addr % 2 ^ 41) c.fill ∧
    c.fill ≤ 64 :=
  ⟨1, .train 0 7, inTrain 0 dataTrain 0 7, qp9, training 0 dataTrain home,
   by decide +kernel,
   ⟨_, _, rfl, by decide +kernel, by decide +kernel, by decide +kernel, rfl⟩,
   ⟨by decide +kernel, by decide +kernel, by decide +kernel, by decide +kernel, by decide +kernel, by decide +kernel, by decide +kernel, by decide +kernel, by decide +kernel, by decide +kernel⟩,
   by decide +kernel,
   ⟨by decide +kernel, by decide +kernel, by decide +kernel, by decide +kernel⟩,
   by decide +kernel⟩

theorem witness_DataCellsReachMemory_2 : ∃ (port : Nat) (slot : SlotIn) (c : CellIn) (q : Qp) (s : State),
    cellsIn s port = true ∧
    slotGives s port 1 slot c ∧
    NewCell s c q ∧
    0 < c.cnt ∧
    tierOpen s c.dstNode (c.addr % 2 ^ 41) c.fill ∧
    c.fill ≤ 64 ∧
    reduceBad c = false ∧
    ((∀ a, badAt s a = false ∧ withdrawnAt s a = false)) :=
  ⟨1, .train 0 7, inTrain 1 reduceTrain 0 7, qp9, training 1 reduceTrain home,
   by decide +kernel,
   ⟨_, _, rfl, by decide +kernel, by decide +kernel, by decide +kernel, rfl⟩,
   ⟨by decide +kernel, by decide +kernel, by decide +kernel, by decide +kernel, by decide +kernel, by decide +kernel, by decide +kernel, by decide +kernel, by decide +kernel, by decide +kernel⟩,
   by decide +kernel,
   ⟨by decide +kernel, by decide +kernel, by decide +kernel, by decide +kernel⟩,
   by decide +kernel,
   by decide +kernel,
   home_sound _ rfl rfl rfl⟩

theorem witness_DataCellsReachMemory_3 : ∃ (port : Nat) (slot : SlotIn) (c : CellIn) (q : Qp) (e : RecvEntry) (s : State),
    cellsIn s port = true ∧
    slotGives s port 2 slot c ∧
    NewCell s c q ∧
    c.cnt = 1 ∧
    c.tail = true ∧
    q.herd = none ∧
    q.rq ≠ 0 ∧
    q.recvs = [e] ∧
    e.ssn = q.recvSsn ∧
    extend 16 q.recvSsn (c.addr % 2 ^ 16) = q.recvSsn ∧
    e.fault = none ∧
    e.len = 0 ∧
    tailReserved false (payBytes c.pay) = false ∧
    leAt (payBytes c.pay) 0 4 = 0 :=
  ⟨1, .train 0 0, inTrain 2 tailTrain 0 0, { qp9 with recvs := [entry0] }, entry0, training 2 tailTrain (withQp { qp9 with recvs := [entry0] } home),
   by decide +kernel,
   ⟨_, _, rfl, by decide +kernel, by decide +kernel, by decide +kernel, rfl⟩,
   ⟨by decide +kernel, by decide +kernel, by decide +kernel, by decide +kernel, by decide +kernel, by decide +kernel, by decide +kernel, by decide +kernel, by decide +kernel, by decide +kernel⟩,
   by decide +kernel,
   by decide +kernel,
   by decide +kernel,
   by decide +kernel,
   by decide +kernel,
   by decide +kernel,
   by decide +kernel,
   by decide +kernel,
   by decide +kernel,
   by decide +kernel,
   by decide +kernel⟩

theorem witness_WholeMessagesAdvanceTheWindow_1 : ∃ (port : Nat) (slot : SlotIn) (c : CellIn) (q : Qp) (u : Nat × Nat × Nat) (s : State),
    cellsIn s port = true ∧
    slotGives s port 0 slot c ∧
    NewCell s c q ∧
    c.cnt = 0 ∧
    c.idx = 0 ∧
    tierOpen s (c.addr / 2 ^ 41) (c.addr % 2 ^ 41) c.fill ∧
    c.fill ≤ 64 ∧
    rxMsn q c = q.expected ∧
    q.winBits = [] ∧
    q.statuses = [] ∧
    q.herd = none ∧
    s.pc.acc = [] ∧
    instUnit s q.inst = some u ∧
    q.peerQpn < 65536 :=
  ⟨1, .train 0 7, inTrain 0 wholeTrain 0 7, qp9, (3, 0, 0), training 0 wholeTrain home,
   by decide +kernel,
   ⟨_, _, rfl, by decide +kernel, by decide +kernel, by decide +kernel, rfl⟩,
   ⟨by decide +kernel, by decide +kernel, by decide +kernel, by decide +kernel, by decide +kernel, by decide +kernel, by decide +kernel, by decide +kernel, by decide +kernel, by decide +kernel⟩,
   by decide +kernel,
   by decide +kernel,
   ⟨by decide +kernel, by decide +kernel, by decide +kernel, by decide +kernel⟩,
   by decide +kernel,
   by decide +kernel,
   by decide +kernel,
   by decide +kernel,
   by decide +kernel,
   by decide +kernel,
   by decide +kernel,
   by decide +kernel⟩

theorem witness_WholeMessagesAdvanceTheWindow_2 : ∃ (port : Nat) (slot : SlotIn) (c : CellIn) (q : Qp) (s : State),
    cellsIn s port = true ∧
    slotGives s port 0 slot c ∧
    qpOf s c.dqpn = some q ∧
    q.peerNode = c.srcNode ∧
    q.peerUnit = c.srcUnit ∧
    q.typ ≤ 1 ∧
    q.state = .ready ∧
    (inst s q.inst).state = .ready ∧
    rxMsn q c < q.expected :=
  ⟨1, .train 0 7, inTrain 0 wholeTrain 0 7, { qp9 with expected := 2 ^ 32 + 1 }, training 0 wholeTrain (withQp { qp9 with expected := 2 ^ 32 + 1 } home),
   by decide +kernel,
   ⟨_, _, rfl, by decide +kernel, by decide +kernel, by decide +kernel, rfl⟩,
   by decide +kernel,
   by decide +kernel,
   by decide +kernel,
   by decide +kernel,
   by decide +kernel,
   by decide +kernel,
   by decide +kernel⟩

theorem witness_WholeMessagesAdvanceTheWindow_3 : ∃ (port : Nat) (slot : SlotIn) (c : CellIn) (q : Qp) (s : State),
    cellsIn s port = true ∧
    slotGives s port 7 slot c ∧
    NewCell s c q ∧
    c.cnt = 0 ∧
    c.idx = 0 ∧
    requestBad c = false ∧
    q.herd = none ∧
    s.pc.acc = [] :=
  ⟨1, .cell (hd 0 7) 0, lone 7 0, qp9, home,
   by decide +kernel,
   ⟨by decide +kernel, by decide +kernel, by decide +kernel, by decide +kernel, by decide +kernel, rfl⟩,
   ⟨by decide +kernel, by decide +kernel, by decide +kernel, by decide +kernel, by decide +kernel, by decide +kernel, by decide +kernel, by decide +kernel, by decide +kernel, by decide +kernel⟩,
   by decide +kernel,
   by decide +kernel,
   by decide +kernel,
   by decide +kernel,
   by decide +kernel⟩

theorem witness_RequestsAreRecordedAndExecuted_1 : ∃ (c' : SlotIn → Instr) (port : Nat) (kind : Nat) (slot : SlotIn) (c : CellIn) (q : Qp) (s : State),
    ((kind = 3 ∧ c' = .readReqReceive port) ∨ (kind = 5 ∧ c' = .atomicReqReceive port)) ∧
    cellsIn s port = true ∧
    slotGives s port kind slot c ∧
    NewCell s c q ∧
    c.cnt = 0 ∧
    c.idx = 0 ∧
    requestBad c = false ∧
    ((kind = 3 → runRejected s (leAt (payBytes c.pay) 0 8) (leAt (payBytes c.pay) 8 4) = false)) ∧
    ((kind = 5 → accessStatus s (leAt (payBytes c.pay) 0 8 / 2 ^ 41) (leAt (payBytes c.pay) 0 8 % 2 ^ 41) = 0)) :=
  ⟨.readReqReceive 1, 1, 3, .cell (hd 0 3) (payOf [(0, fa), (8, 262144)]), lone 3 (payOf [(0, fa), (8, 262144)]), qp9, home,
   Or.inl ⟨rfl, rfl⟩,
   by decide +kernel,
   ⟨by decide +kernel, by decide +kernel, by decide +kernel, by decide +kernel, by decide +kernel, rfl⟩,
   ⟨by decide +kernel, by decide +kernel, by decide +kernel, by decide +kernel, by decide +kernel, by decide +kernel, by decide +kernel, by decide +kernel, by decide +kernel, by decide +kernel⟩,
   by decide +kernel,
   by decide +kernel,
   by decide +kernel,
   by decide +kernel,
   by decide +kernel⟩

theorem witness_RequestsAreRecordedAndExecuted_1b : ∃ (c' : SlotIn → Instr) (port : Nat) (kind : Nat) (slot : SlotIn) (c : CellIn) (q : Qp) (s : State),
    ((kind = 3 ∧ c' = .readReqReceive port) ∨ (kind = 5 ∧ c' = .atomicReqReceive port)) ∧
    cellsIn s port = true ∧
    slotGives s port kind slot c ∧
    NewCell s c q ∧
    c.cnt = 0 ∧
    c.idx = 0 ∧
    requestBad c = false ∧
    ((kind = 3 → runRejected s (leAt (payBytes c.pay) 0 8) (leAt (payBytes c.pay) 8 4) = false)) ∧
    ((kind = 5 → accessStatus s (leAt (payBytes c.pay) 0 8 / 2 ^ 41) (leAt (payBytes c.pay) 0 8 % 2 ^ 41) = 0)) :=
  ⟨.atomicReqReceive 1, 1, 5, .cell (hd 0 5) (payOf [(0, fa), (8, 16)]), lone 5 (payOf [(0, fa), (8, 16)]), qp9, home,
   Or.inr ⟨rfl, rfl⟩,
   by decide +kernel,
   ⟨by decide +kernel, by decide +kernel, by decide +kernel, by decide +kernel, by decide +kernel, rfl⟩,
   ⟨by decide +kernel, by decide +kernel, by decide +kernel, by decide +kernel, by decide +kernel, by decide +kernel, by decide +kernel, by decide +kernel, by decide +kernel, by decide +kernel⟩,
   by decide +kernel,
   by decide +kernel,
   by decide +kernel,
   by decide +kernel,
   by decide +kernel⟩

theorem witness_RequestsAreRecordedAndExecuted_2 : ∃ (qpn : Nat) (msn : Nat) (r : RxRec) (p : BitVec 512) (bs : List Byte) (s : State),
    working s = true ∧
    mayExecute s qpn msn 3 = some r ∧
    r.pays = [(0, p)] ∧
    readRuns s (rxOwner qpn msn) [readRun p] = some (bs, 0) ∧
    qpSlot s qpn 0 = none ∧
    s.pc.acc = [] ∧
    r.qpn = qpn ∧
    r.msn = msn :=
  ⟨9, 2^32, reqRec 3 (payOf [(0, fa), (8, 4)]), payOf [(0, fa), (8, 4)], [9, 0, 0, 0], withRec (reqRec 3 (payOf [(0, fa), (8, 4)])) { home with mem := { home.mem with bytes := [(0, 9)] } },
   by decide +kernel,
   by decide +kernel,
   by decide +kernel,
   by decide +kernel,
   by decide +kernel,
   by decide +kernel,
   by decide +kernel,
   by decide +kernel⟩

theorem witness_RequestsAreRecordedAndExecuted_3 : ∃ (qpn : Nat) (msn : Nat) (r : RxRec) (b : List Byte) (s : State),
    working s = true ∧
    mayExecute s qpn msn 5 = some r ∧
    b = payBytes ((mapGet r.pays 0).getD 0) ∧
    leAt b 8 1 ≤ 16 ∧
    s.pc.acc = [] ∧
    tierOpen s (leAt b 0 8 / 2 ^ 41) (leAt b 0 8 % 2 ^ 41) (leAt b 8 1) :=
  ⟨9, 2^32, reqRec 5 (payOf [(0, fa), (8, 8)]), payBytes (payOf [(0, fa), (8, 8)]), withRec (reqRec 5 (payOf [(0, fa), (8, 8)])) home,
   by decide +kernel,
   by decide +kernel,
   by decide +kernel,
   by decide +kernel,
   by decide +kernel,
   ⟨by decide +kernel, by decide +kernel, by decide +kernel, by decide +kernel⟩⟩

theorem witness_RequestsAreRecordedAndExecuted_4 : ∃ (qpn : Nat) (msn : Nat) (r : RxRec) (q : Qp) (u : Nat × Nat × Nat) (s : State),
    working s = true ∧
    recOf s qpn msn = some r ∧
    r.cnt < 256 ∧
    r.got.length ≤ r.cnt ∧
    ((∃ i, i ≤ r.cnt ∧ i ∉ r.got)) ∧
    nackDue s r.lastTick = true ∧
    qpOf s qpn = some q ∧
    instUnit s q.inst = some u ∧
    q.peerQpn < 65536 :=
  ⟨9, 2^32, { qpn := 9, msn := 2 ^ 32, kind := 0, cnt := 255, got := [0] }, qp9, (3, 0, 0), { withRec { qpn := 9, msn := 2 ^ 32, kind := 0, cnt := 255, got := [0] } home with tick := { home.tick with count := 16 } },
   by decide +kernel,
   by decide +kernel,
   by decide +kernel,
   by decide +kernel,
   ⟨255, by decide, by decide⟩,
   by decide +kernel,
   by decide +kernel,
   by decide +kernel,
   by decide +kernel⟩

theorem witness_RequestsAreRecordedAndExecuted_5 : ∃ (qpn : Nat) (msn : Nat) (r : RxRec) (s : State),
    working s = true ∧
    recOf s qpn msn = some r ∧
    r.got.length ≤ r.cnt ∧
    recExpired s r.lastTick = true :=
  ⟨9, 2^32, { qpn := 9, msn := 2 ^ 32, kind := 0, cnt := 255, got := [0] }, { withRec { qpn := 9, msn := 2 ^ 32, kind := 0, cnt := 255, got := [0] } home with tick := { home.tick with count := 65535 } },
   by decide +kernel,
   by decide +kernel,
   by decide +kernel,
   by decide +kernel⟩

theorem witness_ReceiveEntriesAreFetchedAndCompleted_1 : ∃ (qpn : Nat) (x : RecvReads) (q : Qp) (g : Ring) (c : Ring) (s : State),
    working s = true ∧
    qpOf s qpn = some q ∧
    q.rq ≠ 0 ∧
    q.state = .ready ∧
    q.recvs.length < 64 ∧
    ringOf s q.rq = some g ∧
    ringOf s g.cq = some c ∧
    g.cq ≠ q.rq ∧
    g.shutting = none ∧
    instWorks s g.inst = true ∧
    g.reserved = true ∧
    slotReadFails s g (g.nextFetch % ringSize g) 64 x.failed = false ∧
    (slotRead s g (g.nextFetch % ringSize g) (x.slots.headD 0)).getLsbD 0 = true ∧
    recvMalformed (slotRead s g (g.nextFetch % ringSize g) (x.slots.headD 0)) = none :=
  ⟨9, { slots := [entryOf [(0, 7), (1, 0x0A), (4, 64), (16, 2 ^ 48 - 1)]] }, qp9, rq4, cq3, home,
   by decide +kernel,
   by decide +kernel,
   by decide +kernel,
   by decide +kernel,
   by decide +kernel,
   by decide +kernel,
   by decide +kernel,
   by decide +kernel,
   by decide +kernel,
   by decide +kernel,
   by decide +kernel,
   by decide +kernel,
   by decide +kernel,
   by decide +kernel⟩

theorem witness_ReceiveEntriesAreFetchedAndCompleted_2 : ∃ (qpn : Nat) (total : Nat) (q : Qp) (e : RecvEntry) (rest : List RecvEntry) (o : Op) (s : State),
    working s = true ∧
    qpOf s qpn = some q ∧
    q.recvs = e :: rest ∧
    e.total = some total ∧
    q.state = .ready ∧
    q.herd = none ∧
    e.lastMsn < q.expected ∧
    s.pc.acc = [] ∧
    e.fault = none ∧
    e.status = 0 ∧
    total ≤ e.len ∧
    opAt s q.rq e.slot = some o ∧
    o.head = e.slot ∧
    o.done = none ∧
    ((∀ g, ringOf s q.rq = some g → (g.ops.filter (fun x => x.head == e.slot)) = [o])) :=
  ⟨9, 0, { qp9 with recvs := [{ entry0 with total := some 0, lastMsn := 2 ^ 32 - 1 }] }, { entry0 with total := some 0, lastMsn := 2 ^ 32 - 1 }, [], opOf [(1, 0x0A)], withQp { qp9 with recvs := [{ entry0 with total := some 0, lastMsn := 2 ^ 32 - 1 }] } { home with q := { home.q with rings := mapSet home.q.rings 4 { rq4 with ops := [opOf [(1, 0x0A)]] } } },
   by decide +kernel,
   by decide +kernel,
   by decide +kernel,
   by decide +kernel,
   by decide +kernel,
   by decide +kernel,
   by decide +kernel,
   by decide +kernel,
   by decide +kernel,
   by decide +kernel,
   by decide +kernel,
   by decide +kernel,
   by decide +kernel,
   by decide +kernel,
   by (intro g h; cases h; decide +kernel)⟩

theorem witness_AcknowledgementsActOnMessages_1 : ∃ (port : Nat) (slot : SlotIn) (c : CellIn) (q : Qp) (m : Msg) (r : OpRun) (o : Op) (tl : Tile) (s : State),
    cellsIn s port = true ∧
    slotGives s port 9 slot c ∧
    fromPeer s c q ∧
    ackReserved (payBytes c.pay) = false ∧
    s.tp.msgs = [(msgKey c.dqpn m.msn, m)] ∧
    m.qpn = c.dqpn ∧
    m.next ≠ 0 ∧
    m.kind = .write ∧
    m.tile = 0 ∧
    m.msn ≤ extend 32 q.nextMsn (leAt (payBytes c.pay) 0 4) ∧
    extend 32 q.nextMsn (leAt (payBytes c.pay) 4 4) ≤ m.msn ∧
    ((∀ i, i < 3 → leAt (payBytes c.pay) (44 + 8 * i) 1 < 128)) ∧
    runOf s m.run = some r ∧
    r.tiles = [tl] ∧
    tl.own = 0 ∧
    r.stopped = none ∧
    r.cut = none ∧
    r.force = 0 ∧
    s.pc.acc = [] ∧
    opAt s r.ring r.slot = some o ∧
    o.head = r.slot ∧
    o.done = none :=
  ⟨1, .cell (hd 0 9) 0, lone 9 0, qp9, msg0 .write, run0 .write, opOf [(1, 1), (2, 9), (4, 64)], tile0, sentBy (msg0 .write),
   by decide +kernel,
   ⟨by decide +kernel, by decide +kernel, by decide +kernel, by decide +kernel, by decide +kernel, rfl⟩,
   ⟨by decide +kernel, by decide +kernel⟩,
   by decide +kernel,
   by decide +kernel,
   by decide +kernel,
   by decide +kernel,
   by decide +kernel,
   by decide +kernel,
   by decide +kernel,
   by decide +kernel,
   by decide +kernel,
   by decide +kernel,
   by decide +kernel,
   by decide +kernel,
   by decide +kernel,
   by decide +kernel,
   by decide +kernel,
   by decide +kernel,
   by decide +kernel,
   by decide +kernel,
   by decide +kernel⟩

theorem witness_AcknowledgementsActOnMessages_2 : ∃ (port : Nat) (slot : SlotIn) (c : CellIn) (q : Qp) (m : Msg) (s : State),
    cellsIn s port = true ∧
    slotGives s port 9 slot c ∧
    fromPeer s c q ∧
    ackReserved (payBytes c.pay) = false ∧
    s.tp.msgs = [(msgKey c.dqpn m.msn, m)] ∧
    m.qpn = c.dqpn ∧
    m.next ≠ 0 ∧
    m.kind = .read ∧
    m.msn ≤ extend 32 q.nextMsn (leAt (payBytes c.pay) 0 4) ∧
    extend 32 q.nextMsn (leAt (payBytes c.pay) 4 4) ≤ m.msn ∧
    ((∀ i, i < 3 → leAt (payBytes c.pay) (44 + 8 * i) 1 < 128)) :=
  ⟨1, .cell (hd 0 9) 0, lone 9 0, qp9, msg0 .read, sentBy (msg0 .read),
   by decide +kernel,
   ⟨by decide +kernel, by decide +kernel, by decide +kernel, by decide +kernel, by decide +kernel, rfl⟩,
   ⟨by decide +kernel, by decide +kernel⟩,
   by decide +kernel,
   by decide +kernel,
   by decide +kernel,
   by decide +kernel,
   by decide +kernel,
   by decide +kernel,
   by decide +kernel,
   by decide +kernel⟩

theorem witness_AcknowledgementsActOnMessages_3 : ∃ (port : Nat) (slot : SlotIn) (c : CellIn) (q : Qp) (m : Msg) (s : State),
    cellsIn s port = true ∧
    slotGives s port 10 slot c ∧
    fromPeer s c q ∧
    nackBad (payBytes c.pay) = false ∧
    leAt (payBytes c.pay) 4 1 = 0 ∧
    leAt (payBytes c.pay) 6 1 % 2 = 0 ∧
    msgOf s c.dqpn (extend 32 q.nextMsn (leAt (payBytes c.pay) 0 4)) = some m :=
  ⟨1, .cell (hd 0 10) 0, lone 10 0, qp9, msg0 .write, sentBy (msg0 .write),
   by decide +kernel,
   ⟨by decide +kernel, by decide +kernel, by decide +kernel, by decide +kernel, by decide +kernel, rfl⟩,
   ⟨by decide +kernel, by decide +kernel⟩,
   by decide +kernel,
   by decide +kernel,
   by decide +kernel,
   by decide +kernel⟩

theorem witness_AcknowledgementsActOnMessages_4 : ∃ (port : Nat) (slot : SlotIn) (c : CellIn) (q : Qp) (m : Msg) (s : State),
    cellsIn s port = true ∧
    slotGives s port 10 slot c ∧
    fromPeer s c q ∧
    nackBad (payBytes c.pay) = false ∧
    leAt (payBytes c.pay) 4 1 = 1 ∧
    msgOf s c.dqpn (extend 32 q.nextMsn (leAt (payBytes c.pay) 0 4)) = some m ∧
    m.rnrAt = none ∧
    m.next ≠ 0 ∧
    (qpRnrLimit s q = 255 ∨ m.rnr < qpRnrLimit s q) :=
  ⟨1, .cell (hd 0 10) (payOf [(4, 1)]), lone 10 (payOf [(4, 1)]), qp9, msg0 .write, sentBy (msg0 .write),
   by decide +kernel,
   ⟨by decide +kernel, by decide +kernel, by decide +kernel, by decide +kernel, by decide +kernel, rfl⟩,
   ⟨by decide +kernel, by decide +kernel⟩,
   by decide +kernel,
   by decide +kernel,
   by decide +kernel,
   by decide +kernel,
   by decide +kernel,
   by decide +kernel⟩

theorem witness_AcknowledgementsActOnMessages_5 : ∃ (c' : SlotIn → Instr) (port : Nat) (kind : Nat) (st : QpState) (bit : Nat) (slot : SlotIn) (c : CellIn) (q : Qp) (s : State),
    ((kind = 2 ∧ st = .movedWait ∧ bit = 1 ∧ c' = .nackMovedReceive port) ∨ (kind = 3 ∧ st = .error ∧ bit = 0 ∧ c' = .nackQpErrorReceive port)) ∧
    cellsIn s port = true ∧
    slotGives s port 10 slot c ∧
    fromPeer s c q ∧
    nackBad (payBytes c.pay) = false ∧
    leAt (payBytes c.pay) 4 1 = kind :=
  ⟨.nackMovedReceive 1, 1, 2, .movedWait, 1, .cell (hd 0 10) (payOf [(4, 2)]), lone 10 (payOf [(4, 2)]), qp9, home,
   Or.inl ⟨rfl, rfl, rfl, rfl⟩,
   by decide +kernel,
   ⟨by decide +kernel, by decide +kernel, by decide +kernel, by decide +kernel, by decide +kernel, rfl⟩,
   ⟨by decide +kernel, by decide +kernel⟩,
   by decide +kernel,
   by decide +kernel⟩

theorem witness_AcknowledgementsActOnMessages_5b : ∃ (c' : SlotIn → Instr) (port : Nat) (kind : Nat) (st : QpState) (bit : Nat) (slot : SlotIn) (c : CellIn) (q : Qp) (s : State),
    ((kind = 2 ∧ st = .movedWait ∧ bit = 1 ∧ c' = .nackMovedReceive port) ∨ (kind = 3 ∧ st = .error ∧ bit = 0 ∧ c' = .nackQpErrorReceive port)) ∧
    cellsIn s port = true ∧
    slotGives s port 10 slot c ∧
    fromPeer s c q ∧
    nackBad (payBytes c.pay) = false ∧
    leAt (payBytes c.pay) 4 1 = kind :=
  ⟨.nackQpErrorReceive 1, 1, 3, .error, 0, .cell (hd 0 10) (payOf [(4, 3)]), lone 10 (payOf [(4, 3)]), qp9, home,
   Or.inr ⟨rfl, rfl, rfl, rfl⟩,
   by decide +kernel,
   ⟨by decide +kernel, by decide +kernel, by decide +kernel, by decide +kernel, by decide +kernel, rfl⟩,
   ⟨by decide +kernel, by decide +kernel⟩,
   by decide +kernel,
   by decide +kernel⟩

theorem witness_AcknowledgementsActOnMessages_6 : ∃ (port : Nat) (slot : SlotIn) (c : CellIn) (q : Qp) (p : RespRec) (s : State),
    cellsIn s port = true ∧
    slotGives s port 11 slot c ∧
    qpOf s c.dqpn = some q ∧
    q.peerNode = c.srcNode ∧
    q.peerUnit = c.srcUnit ∧
    allZero ((payBytes c.pay).drop 4) = true ∧
    respOf s c.dqpn (extend 32 q.expected (leAt (payBytes c.pay) 0 4)) = some p ∧
    p.kind ≠ 4 :=
  ⟨1, .cell (hd 0 11) 0, lone 11 0, qp9, { attnRec with kind := 6 }, { home with tp := { home.tp with resps := [(msgKey 9 (2^32), { attnRec with kind := 6 })] } },
   by decide +kernel,
   ⟨by decide +kernel, by decide +kernel, by decide +kernel, by decide +kernel, by decide +kernel, rfl⟩,
   by decide +kernel,
   by decide +kernel,
   by decide +kernel,
   by decide +kernel,
   by decide +kernel,
   by decide +kernel⟩

theorem witness_ResponsesAndRetries_1 : ∃ (port : Nat) (slot : SlotIn) (c : CellIn) (q : Qp) (m : Msg) (s : State),
    cellsIn s port = true ∧
    slotGives s port 4 slot c ∧
    fromPeer s c q ∧
    msgOf s c.dqpn (extend 16 q.nextMsn c.msn) = some m ∧
    m.kind = .read ∧
    qpSlot s c.dqpn 1 = none ∧
    c.addr + c.fill ≤ msgTileLen s m ∧
    c.addr < 2 ^ 32 ∧
    ((∀ tl, (runOf s m.run).bind (fun r => r.tiles[m.tile]?) = some tl → rangeStalls s tl.dstPages (tl.dst + c.addr) c.fill = false)) ∧
    (m.respCnt = 0 ∨ m.respCnt = c.cnt + 1) ∧
    m.respGot.contains c.idx = false ∧
    m.respGot.length < c.cnt :=
  ⟨1, .train 0 0, inTrain 4 ⟨0, 1, 1, 31, 31, false, 0⟩ 0 0, qp9, msg0 .read, training 4 ⟨0, 1, 1, 31, 31, false, 0⟩ (sentBy (msg0 .read)),
   by decide +kernel,
   ⟨_, _, rfl, by decide +kernel, by decide +kernel, by decide +kernel, rfl⟩,
   ⟨by decide +kernel, by decide +kernel⟩,
   by decide +kernel,
   by decide +kernel,
   by decide +kernel,
   by decide +kernel,
   by decide +kernel,
   by (intro tl h; cases h; decide +kernel),
   by decide +kernel,
   by decide +kernel,
   by decide +kernel⟩

theorem witness_ResponsesAndRetries_2 : ∃ (port : Nat) (slot : SlotIn) (c : CellIn) (q : Qp) (m : Msg) (u : Nat × Nat × Nat) (s : State),
    cellsIn s port = true ∧
    slotGives s port 6 slot c ∧
    fromPeer s c q ∧
    allZero ((payBytes c.pay).drop 16) = true ∧
    msgOf s c.dqpn (extend 16 q.nextMsn c.msn) = some m ∧
    m.kind = .atomic ∧
    ((∀ tl, (runOf s m.run).bind (fun r => r.tiles[m.tile]?) = some tl → rangeStalls s tl.dstPages tl.dst tl.len = false)) ∧
    instUnit s q.inst = some u ∧
    q.peerQpn < 65536 :=
  ⟨1, .cell (hd 0 6) 0, lone 6 0, qp9, msg0 .atomic, (3, 0, 0), sentBy (msg0 .atomic),
   by decide +kernel,
   ⟨by decide +kernel, by decide +kernel, by decide +kernel, by decide +kernel, by decide +kernel, rfl⟩,
   ⟨by decide +kernel, by decide +kernel⟩,
   by decide +kernel,
   by decide +kernel,
   by decide +kernel,
   by (intro tl h; cases h; decide +kernel),
   by decide +kernel,
   by decide +kernel⟩

theorem witness_ResponsesAndRetries_3 : ∃ (port : Nat) (slot : SlotIn) (c : CellIn) (q : Qp) (m : Msg) (s : State),
    cellsIn s port = true ∧
    slotGives s port 8 slot c ∧
    fromPeer s c q ∧
    msgOf s c.dqpn (extend 16 q.nextMsn c.msn) = some m ∧
    m.kind = .attn ∧
    c.tail = false ∧
    c.addr + c.fill ≤ msgTileLen s m ∧
    c.addr < 2 ^ 32 ∧
    ((∀ tl, (runOf s m.run).bind (fun r => r.tiles[m.tile]?) = some tl → rangeStalls s tl.dstPages (tl.dst + c.addr) c.fill = false)) ∧
    (m.respCnt = 0 ∨ m.respCnt = c.cnt + 1) ∧
    m.respGot.contains c.idx = false ∧
    m.respGot.length < c.cnt :=
  ⟨1, .train 0 0, inTrain 8 ⟨0, 1, 1, 31, 31, false, 0⟩ 0 0, qp9, msg0 .attn, training 8 ⟨0, 1, 1, 31, 31, false, 0⟩ (sentBy (msg0 .attn)),
   by decide +kernel,
   ⟨_, _, rfl, by decide +kernel, by decide +kernel, by decide +kernel, rfl⟩,
   ⟨by decide +kernel, by decide +kernel⟩,
   by decide +kernel,
   by decide +kernel,
   by decide +kernel,
   by decide +kernel,
   by decide +kernel,
   by (intro tl h; cases h; decide +kernel),
   by decide +kernel,
   by decide +kernel,
   by decide +kernel⟩

theorem witness_ResponsesAndRetries_4 : ∃ (qpn : Nat) (msn : Nat) (q : Qp) (m : Msg) (s : State),
    working s = true ∧
    qpOf s qpn = some q ∧
    msgOf s qpn msn = some m ∧
    q.typ ≤ 1 ∧
    q.state = .ready ∧
    m.next ≠ 0 ∧
    m.deadline ≤ s.tick.count.toNat ∧
    m.tries < qpRetry s q :=
  ⟨9, 2^32, qp9, msg0 .write, sentBy (msg0 .write),
   by decide +kernel,
   by decide +kernel,
   by decide +kernel,
   by decide +kernel,
   by decide +kernel,
   by decide +kernel,
   by decide +kernel,
   by decide +kernel⟩

theorem witness_ResponsesAndRetries_5 : ∃ (qpn : Nat) (msn : Nat) (q : Qp) (m : Msg) (s : State),
    working s = true ∧
    qpOf s qpn = some q ∧
    msgOf s qpn msn = some m ∧
    q.typ ≤ 1 ∧
    q.state = .ready ∧
    m.next ≠ 0 ∧
    m.deadline ≤ s.tick.count.toNat ∧
    m.tries = qpRetry s q :=
  ⟨9, 2^32, { qp9 with retry := 1 }, { msg0 .write with tries := 1 }, withQp { qp9 with retry := 1 } (sentBy { msg0 .write with tries := 1 }),
   by decide +kernel,
   by decide +kernel,
   by decide +kernel,
   by decide +kernel,
   by decide +kernel,
   by decide +kernel,
   by decide +kernel,
   by decide +kernel⟩

theorem witness_ResponsesAndRetries_6 : ∃ (qpn : Nat) (msn : Nat) (at_ : Nat) (q : Qp) (m : Msg) (s : State),
    working s = true ∧
    qpOf s qpn = some q ∧
    q.typ ≤ 1 ∧
    msgOf s qpn msn = some m ∧
    m.rnrAt = some at_ ∧
    at_ ≤ s.tick.count.toNat :=
  ⟨9, 2^32, 0, qp9, { msg0 .write with rnrAt := some 0 }, sentBy { msg0 .write with rnrAt := some 0 },
   by decide +kernel,
   by decide +kernel,
   by decide +kernel,
   by decide +kernel,
   by decide +kernel,
   by decide +kernel⟩

theorem witness_CellLinksComeUp_1 : ∃ (p : Nat) (s : State),
    powered s = true ∧
    isCellPort s p = true ∧
    (cport s p).state = .training :=
  ⟨1, linkIn { state := .training },
   by decide +kernel,
   by decide +kernel,
   by decide +kernel⟩

theorem witness_CellLinksComeUp_2 : ∃ (p : Nat) (s : State),
    powered s = true ∧
    (cport s p).state = .training ∧
    (cport s p).detected = true :=
  ⟨1, linkIn { state := .training, detected := true },
   by decide +kernel,
   by decide +kernel,
   by decide +kernel⟩

theorem witness_CellLinksComeUp_3 : ∃ (p : Nat) (s : State),
    powered s = true ∧
    (cport s p).state = .training ∧
    (cport s p).detected = true ∧
    (cport s p).attempts < 2 :=
  ⟨1, linkIn { state := .training, detected := true, attempts := 1 },
   by decide +kernel,
   by decide +kernel,
   by decide +kernel,
   by decide +kernel⟩

theorem witness_CellLinksComeUp_4 : ∃ (p : Nat) (s : State),
    powered s = true ∧
    (cport s p).state = .training ∧
    (cport s p).detected = true ∧
    2 ≤ (cport s p).attempts :=
  ⟨1, linkIn { state := .training, detected := true, attempts := 2 },
   by decide +kernel,
   by decide +kernel,
   by decide +kernel,
   by decide +kernel⟩

theorem witness_CellLinksComeUp_5 : ∃ (p : Nat) (s : State),
    powered s = true ∧
    (cport s p).state = .fecLock :=
  ⟨1, linkIn { state := .fecLock },
   by decide +kernel,
   by decide +kernel⟩

theorem witness_CellLinksComeUp_6 : ∃ (p : Nat) (s : State),
    powered s = true ∧
    (cport s p).state = .fecLock :=
  ⟨1, linkIn { state := .fecLock },
   by decide +kernel,
   by decide +kernel⟩

theorem witness_CellLinksComeUp_7 : ∃ (p : Nat) (pay : BitVec 512) (s : State),
    p < 32 ∧
    powered s = true ∧
    (cport s p).state = .identify ∧
    fld (leAt (payBytes pay) 3 1) 2 2 = 1 ∧
    fld (leAt (payBytes pay) 3 1) 3 3 = 0 ∧
    (cport s p).gotDone = false ∧
    leAt (payBytes pay) 10 1 = (cport s p).rounds ∧
    (cport s p).rounds < 8 :=
  ⟨1, payOf [(3, 4), (10, 7)], linkIn { state := .identify, rounds := 7 },
   by decide +kernel,
   by decide +kernel,
   by decide +kernel,
   by decide +kernel,
   by decide +kernel,
   by decide +kernel,
   by decide +kernel,
   by decide +kernel⟩

theorem witness_CellLinksComeUp_8 : ∃ (p : Nat) (pay : BitVec 512) (s : State),
    p < 32 ∧
    powered s = true ∧
    (cport s p).state = .identify ∧
    fld (leAt (payBytes pay) 3 1) 2 2 = 0 ∧
    fld (leAt (payBytes pay) 3 1) 3 3 = 1 ∧
    (cport s p).sentDone = true ∧
    s.cf.held = [] :=
  ⟨1, payOf [(3, 8)], linkIn { state := .identify, sentDone := true },
   by decide +kernel,
   by decide +kernel,
   by decide +kernel,
   by decide +kernel,
   by decide +kernel,
   by decide +kernel,
   by decide +kernel⟩

theorem witness_CellLinksComeUp_9 : ∃ (p : Nat) (s : State),
    powered s = true ∧
    (cport s p).state = .identify ∧
    (cport s p).rounds < 8 :=
  ⟨1, linkIn { state := .identify, rounds := 7 },
   by decide +kernel,
   by decide +kernel,
   by decide +kernel⟩

theorem witness_CellLinksComeUp_10 : ∃ (p : Nat) (s : State),
    powered s = true ∧
    (cport s p).state = .identify ∧
    64 ≤ (cport s p).identTicks :=
  ⟨1, linkIn { state := .identify, identTicks := 64 },
   by decide +kernel,
   by decide +kernel,
   by decide +kernel⟩

theorem witness_CellLinksComeUp_11 : ∃ (p : Nat) (s : State),
    powered s = true ∧
    (cport s p).state = .up :=
  ⟨1, linked,
   by decide +kernel,
   by decide +kernel⟩

theorem witness_CellPortsAreControlled_1 : ∃ (p : Nat) (s : State),
    running s = true ∧
    p = wfld (rg s Reg.GX_CF_PORT_INDEX) 4 0 ∧
    isCellPort s p = true ∧
    (cport s p).state ≠ .fenced :=
  ⟨1, putReg Reg.GX_CF_PORT_INDEX 1 linked,
   by decide +kernel,
   by decide +kernel,
   by decide +kernel,
   by decide +kernel⟩

theorem witness_CellPortsAreControlled_2 : ∃ (p : Nat) (s : State),
    running s = true ∧
    p = wfld (rg s Reg.GX_CF_PORT_INDEX) 4 0 ∧
    isCellPort s p = true ∧
    (cport s p).state = .disabled :=
  ⟨1, putReg Reg.GX_CF_PORT_INDEX 1 (linkIn { state := .disabled }),
   by decide +kernel,
   by decide +kernel,
   by decide +kernel,
   by decide +kernel⟩

theorem witness_CellPortsAreControlled_3 : ∃ (p : Nat) (s : State),
    running s = true ∧
    p = wfld (rg s Reg.GX_CF_PORT_INDEX) 4 0 ∧
    isCellPort s p = true ∧
    (cport s p).state = .fenced :=
  ⟨1, putReg Reg.GX_CF_PORT_INDEX 1 (linkIn { state := .fenced }),
   by decide +kernel,
   by decide +kernel,
   by decide +kernel,
   by decide +kernel⟩

theorem witness_CellPortsAreControlled_4 : ∃ (p : Nat) (lcw : BitVec 20) (s : State),
    powered s = true ∧
    (cport s p).state = .up ∧
    (cport s p).waitResync = false ∧
    (cport s p).suspect = none ∧
    (cport s p).retry = [] ∧
    (cport s p).queue = [] ∧
    fld lcw.toNat 6 6 = 0 :=
  ⟨1, 0, linked,
   by decide +kernel,
   by decide +kernel,
   by decide +kernel,
   by decide +kernel,
   by decide +kernel,
   by decide +kernel,
   by decide +kernel⟩

theorem witness_CellPortsAreControlled_5 : ∃ (p : Nat) (lcw : BitVec 20) (s : State),
    powered s = true ∧
    (cport s p).state = .up ∧
    (cport s p).waitResync = false ∧
    (cport s p).suspect = none ∧
    (cport s p).retry = [] ∧
    (cport s p).queue = [] ∧
    fld lcw.toNat 6 6 = 0 :=
  ⟨1, 0, linked,
   by decide +kernel,
   by decide +kernel,
   by decide +kernel,
   by decide +kernel,
   by decide +kernel,
   by decide +kernel,
   by decide +kernel⟩

theorem witness_CellPortsAreControlled_6 : ∃ (p : Nat) (l : Nat) (s : State),
    powered s = true ∧
    (cport s p).state = .up ∧
    (cport s p).spareWait = some l :=
  ⟨1, 2, linkIn { state := .up, spareWait := some 2 },
   by decide +kernel,
   by decide +kernel,
   by decide +kernel⟩

theorem witness_RoutesMapsAndFences_1 : ∃ (s : State) (node : Nat) (p : Nat) (retx : Bool) (avoid : Option Nat),
    chooseLink s node retx avoid = some p :=
  ⟨home, 5, 1, false, none,
   by decide +kernel⟩

theorem witness_RoutesMapsAndFences_2 : ∃ (p : Nat) (c : CtlCell) (rest : List CtlCell) (s : State),
    working s = true ∧
    s.tp.control = c :: rest ∧
    nodeSlot s c.node = none ∧
    ((∀ n q, c.qpn = some n → qpOf s n = some q → q.typ ≠ 1)) ∧
    s.fw.joined = true ∧
    fenceOf s c.node c.unit = none ∧
    chooseLink s c.node false none = some p ∧
    (cport s p).queue = [] ∧
    linkUp s p = true ∧
    1 ≤ (cport s p).credit ∧
    retrySlots (cport s p) + 1 ≤ retryRoom s :=
  ⟨1, ctl0, [], { home with tp := { home.tp with control := [ctl0] } },
   by decide +kernel,
   by decide +kernel,
   by decide +kernel,
   by (intro n q h; cases h),
   by decide +kernel,
   by decide +kernel,
   by decide +kernel,
   by decide +kernel,
   by decide +kernel,
   by decide +kernel,
   by decide +kernel⟩

theorem witness_RoutesMapsAndFences_3 : ∃ (s : State),
    working s = true ∧
    s.fw.joined = false :=
  ⟨{ home with fw := { home.fw with joined := false } },
   by decide +kernel,
   by decide +kernel⟩

theorem witness_RoutesMapsAndFences_4 : ∃ (p : Nat) (i : WireItem) (s : State),
    working s = true ∧
    s.cf.held = [i] ∧
    i.udp = false ∧
    s.fw.joined = true ∧
    fenceOf s i.node i.unit = none ∧
    chooseLink s i.node i.retx i.avoid = some p :=
  ⟨1, held0, { home with cf := { home.cf with held := [held0] } },
   by decide +kernel,
   by decide +kernel,
   by decide +kernel,
   by decide +kernel,
   by decide +kernel,
   by decide +kernel⟩

theorem witness_RoutesMapsAndFences_5 : ∃ (h : List Byte) (s : State),
    working s = true ∧
    (rg s Reg.GX_CF_CMAP_CFG).getLsbD 31 = true ∧
    wfld (rg s Reg.GX_CF_CMAP_CFG) 1 0 ≠ 1 ∧
    s.pc.hstUp = true ∧
    leAt h 0 4 % 2 = 0 ∧
    leAt h 0 4 ≠ s.cf.mapGen :=
  ⟨[2, 0, 0, 0], putReg Reg.GX_CF_CMAP_CFG 0x80000000 home,
   by decide +kernel,
   by decide +kernel,
   by decide +kernel,
   by decide +kernel,
   by decide +kernel,
   by decide +kernel⟩

theorem witness_RoutesMapsAndFences_6 : ∃ (v : Word) (idx : Nat) (node : Nat) (unit : Nat) (s : State),
    running s = true ∧
    idx = wfld (rg s Reg.GX_CF_FENCE_INDEX) 13 0 ∧
    node = wfld (rg s Reg.GX_CF_FENCE_COORD) 28 6 ∧
    unit = wfld (rg s Reg.GX_CF_FENCE_COORD) 5 0 ∧
    wfld v 7 6 = 2 ∧
    s.cf.held = [] ∧
    ((∀ e ∈ s.cf.fences, e.1 ≠ idx → e.2.state ≠ 0 → e.2.node ≠ node ∨ e.2.unit ≠ unit)) :=
  ⟨0x80#32, 0, 5, 0, putReg Reg.GX_CF_FENCE_COORD (BitVec.ofNat 32 (5 * 64)) home,
   by decide +kernel,
   by decide +kernel,
   by decide +kernel,
   by decide +kernel,
   by decide +kernel,
   by decide +kernel,
   by decide +kernel⟩

theorem witness_RoutesMapsAndFences_7 : ∃ (v : Word) (e : Nat × FenceEntry) (s : State),
    running s = true ∧
    e ∈ s.cf.fences ∧
    e.1 ≠ wfld (rg s Reg.GX_CF_FENCE_INDEX) 13 0 ∧
    e.2.node = wfld (rg s Reg.GX_CF_FENCE_COORD) 28 6 ∧
    e.2.unit = wfld (rg s Reg.GX_CF_FENCE_COORD) 5 0 ∧
    e.2.state ≠ 0 ∧
    wfld v 7 6 ≠ 0 :=
  ⟨0x80#32, (1, ⟨5, 0, 1, 0⟩), putReg Reg.GX_CF_FENCE_COORD (BitVec.ofNat 32 (5 * 64)) { home with cf := { home.cf with fences := [(1, ⟨5, 0, 1, 0⟩)] } },
   by decide +kernel,
   by decide +kernel,
   by decide +kernel,
   by decide +kernel,
   by decide +kernel,
   by decide +kernel,
   by decide +kernel⟩

theorem witness_EthernetReceivesAndPauses_1 : ∃ (p : Nat) (lanes : Nat) (s : State),
    running s = true ∧
    isEthPort s p = true ∧
    (ethPort s p).link = false ∧
    bantamBusy s 2 = false ∧
    0 < lanes ∧
    lanes = ethLanes s p :=
  ⟨1, 4, ethWith {},
   by decide +kernel,
   by decide +kernel,
   by decide +kernel,
   by decide +kernel,
   by decide +kernel,
   by decide +kernel⟩

theorem witness_EthernetReceivesAndPauses_2 : ∃ (p : Nat) (s : State),
    running s = true ∧
    isEthPort s p = true ∧
    (ethPort s p).link = true :=
  ⟨1, ethHome,
   by decide +kernel,
   by decide +kernel,
   by decide +kernel⟩

theorem witness_EthernetReceivesAndPauses_3 : ∃ (p : Nat) (frame : List Byte) (s : State),
    ethUp s p = true ∧
    64 ≤ frame.length ∧
    frame.length ≤ portMtu s p ∧
    fcsGood frame = false :=
  ⟨1, badFrame, ethHome,
   by decide +kernel,
   by decide +kernel,
   by decide +kernel,
   by decide +kernel⟩

theorem witness_EthernetReceivesAndPauses_4 : ∃ (p : Nat) (frame : List Byte) (s : State),
    ethUp s p = true ∧
    64 ≤ frame.length ∧
    frame.length ≤ portMtu s p ∧
    fcsGood frame = true ∧
    rxRoom s p (framePri (readEth (frame.take (frame.length - 4)))) ((frame.length + 255) / 256 * 256) = true ∧
    macAccepts s p (readEth (frame.take (frame.length - 4))).dst = false :=
  ⟨1, otherFrame, ethRoom,
   by decide +kernel,
   by decide +kernel,
   by decide +kernel,
   by decide +kernel,
   by decide +kernel,
   by decide +kernel⟩

theorem witness_EthernetReceivesAndPauses_5 : ∃ (p : Nat) (frame : List Byte) (s : State),
    ethUp s p = true ∧
    64 ≤ frame.length ∧
    frame.length ≤ portMtu s p ∧
    fcsGood frame = true ∧
    rxRoom s p (framePri (readEth (frame.take (frame.length - 4)))) ((frame.length + 255) / 256 * 256) = true ∧
    macAccepts s p (readEth (frame.take (frame.length - 4))).dst = true ∧
    classifyFrame s p (readEth (frame.take (frame.length - 4))) = .ptp :=
  ⟨1, ptpFrame, ethRoom,
   by decide +kernel,
   by decide +kernel,
   by decide +kernel,
   by decide +kernel,
   by decide +kernel,
   by decide +kernel,
   by decide +kernel⟩

theorem witness_EthernetReceivesAndPauses_6 : ∃ (p : Nat) (frame : List Byte) (h : EthHead) (s : State),
    ethUp s p = true ∧
    64 ≤ frame.length ∧
    frame.length ≤ portMtu s p ∧
    fcsGood frame = true ∧
    h = readEth (frame.take (frame.length - 4)) ∧
    rxRoom s p (framePri h) ((frame.length + 255) / 256 * 256) = true ∧
    macAccepts s p h.dst = true ∧
    classifyFrame s p h = .flow ∧
    beAt h.body 0 2 = 1 ∧
    fcMode s p = 1 :=
  ⟨1, pauseFrame, readEth (pauseFrame.take (pauseFrame.length - 4)), pauseMode { link := true },
   by decide +kernel,
   by decide +kernel,
   by decide +kernel,
   by decide +kernel,
   by decide +kernel,
   by decide +kernel,
   by decide +kernel,
   by decide +kernel,
   by decide +kernel,
   by decide +kernel⟩

theorem witness_EthernetReceivesAndPauses_7 : ∃ (p : Nat) (pri : Nat) (s : State),
    running s = true ∧
    isEthPort s p = true ∧
    pri ∈ (ethPort s p).pausedRx :=
  ⟨1, 7, ethWith { link := true, pausedRx := [7] },
   by decide +kernel,
   by decide +kernel,
   by decide +kernel⟩

theorem witness_EthernetReceivesAndPauses_8 : ∃ (p : Nat) (pri : Nat) (s : State),
    running s = true ∧
    isEthPort s p = true ∧
    (ethPort s p).link = true ∧
    pri ∈ (ethPort s p).pausedTx :=
  ⟨1, 0, pauseMode { link := true, pausedTx := [0] },
   by decide +kernel,
   by decide +kernel,
   by decide +kernel,
   by decide +kernel⟩

theorem witness_GanderCountersAndNodes_1 : ∃ (p : Nat) (k : Nat) (s : State),
    running s = true ∧
    isEthPort s p = true ∧
    ganderOn s p = true ∧
    k ∉ (ethPort s p).txStorm ∧
    detectTk s p < (mapGet (ethPort s p).stuckTk k).getD 0 :=
  ⟨1, 0, gander { link := true, stuckTk := [(0, 2)] },
   by decide +kernel,
   by decide +kernel,
   by decide +kernel,
   by decide +kernel,
   by decide +kernel⟩

theorem witness_GanderCountersAndNodes_2 : ∃ (p : Nat) (k : Nat) (s : State),
    running s = true ∧
    isEthPort s p = true ∧
    k ∈ (ethPort s p).txStorm ∧
    restoreTk s p ≤ (mapGet (ethPort s p).quietTk k).getD 0 :=
  ⟨1, 0, gander { link := true, txStorm := [0], quietTk := [(0, 1)] },
   by decide +kernel,
   by decide +kernel,
   by decide +kernel,
   by decide +kernel⟩

theorem witness_GanderCountersAndNodes_3 : ∃ (p : Nat) (k : Nat) (s : State),
    running s = true ∧
    isEthPort s p = true ∧
    ganderOn s p = true ∧
    k ∉ (ethPort s p).rxStorm ∧
    detectTk s p < (mapGet (ethPort s p).heldTk k).getD 0 :=
  ⟨1, 0, gander { link := true, heldTk := [(0, 2)] },
   by decide +kernel,
   by decide +kernel,
   by decide +kernel,
   by decide +kernel,
   by decide +kernel⟩

theorem witness_GanderCountersAndNodes_4 : ∃ (p : Nat) (k : Nat) (s : State),
    running s = true ∧
    isEthPort s p = true ∧
    k ∈ (ethPort s p).rxStorm ∧
    restoreTk s p ≤ (mapGet (ethPort s p).lowTk k).getD 0 :=
  ⟨1, 0, gander { link := true, rxStorm := [0], lowTk := [(0, 1)] },
   by decide +kernel,
   by decide +kernel,
   by decide +kernel,
   by decide +kernel⟩

theorem witness_GanderCountersAndNodes_5 : ∃ (i : Nat) (s : State),
    running s = true ∧
    i < 63 :=
  ⟨62, ethHome,
   by decide +kernel,
   by decide +kernel⟩

theorem witness_GanderCountersAndNodes_6 : ∃ (i : Nat) (s : State),
    running s = true ∧
    i = wfld (rg s Reg.GX_ETH_UNODE_INDEX) 7 0 ∧
    ((mapGet s.eth.unodes i).getD {}).fill = [] :=
  ⟨0, ethHome,
   by decide +kernel,
   by decide +kernel,
   by decide +kernel⟩

theorem witness_SchedulingCellsAndGateLists_1 : ∃ (port : Nat) (hdr : BitVec 96) (pay : BitVec 512) (s : State),
    cellsIn s port = true ∧
    (readHdr hdr).form = 3 ∧
    (readHdr hdr).kind = 0 ∧
    slotCheck s (readHdr hdr) = 0 ∧
    schedBad 0 pay = false ∧
    s.cs.pool.length < 4096 ∧
    ((∀ x ∈ s.cs.pool, x.node = (readHdr hdr).srcNode → x.unit = (readHdr hdr).srcUnit → x.dst ≠ (readHdr hdr).dstNode)) :=
  ⟨1, hd 3 0, requestPay, home,
   by decide +kernel,
   by decide +kernel,
   by decide +kernel,
   by decide +kernel,
   by decide +kernel,
   by decide +kernel,
   by (intro x h; cases h)⟩

theorem witness_SchedulingCellsAndGateLists_2 : ∃ (port : Nat) (hdr : BitVec 96) (pay : BitVec 512) (x : Request) (s : State),
    cellsIn s port = true ∧
    (readHdr hdr).form = 3 ∧
    (readHdr hdr).kind = 0 ∧
    slotCheck s (readHdr hdr) = 0 ∧
    schedBad 0 pay = false ∧
    s.cs.pool = [x] ∧
    x.node = (readHdr hdr).srcNode ∧
    x.unit = (readHdr hdr).srcUnit ∧
    x.dst = (readHdr hdr).dstNode :=
  ⟨1, hd 3 0, requestPay, ⟨5, 0, 3, 0, 1, 1⟩, pooled ⟨5, 0, 3, 0, 1, 1⟩,
   by decide +kernel,
   by decide +kernel,
   by decide +kernel,
   by decide +kernel,
   by decide +kernel,
   by decide +kernel,
   by decide +kernel,
   by decide +kernel,
   by decide +kernel⟩

theorem witness_SchedulingCellsAndGateLists_3 : ∃ (port : Nat) (hdr : BitVec 96) (pay : BitVec 512) (s : State),
    cellsIn s port = true ∧
    (readHdr hdr).form = 3 ∧
    (readHdr hdr).kind = 0 ∧
    slotCheck s (readHdr hdr) = 0 ∧
    schedBad 0 pay = false ∧
    4096 ≤ s.cs.pool.length ∧
    ((∀ x ∈ s.cs.pool, x.node = (readHdr hdr).srcNode → x.unit = (readHdr hdr).srcUnit → x.dst ≠ (readHdr hdr).dstNode)) :=
  ⟨1, hd 3 0, requestPay, { home with cs := { home.cs with pool := List.replicate 4096 ⟨6, 0, 3, 0, 1, 1⟩ } },
   by decide +kernel,
   by decide +kernel,
   by decide +kernel,
   by decide +kernel,
   by decide +kernel,
   by decide +kernel,
   by (intro x hx; rw [List.eq_of_mem_replicate hx]; decide +kernel)⟩

theorem witness_SchedulingCellsAndGateLists_4 : ∃ (port : Nat) (hdr : BitVec 96) (pay : BitVec 512) (s : State),
    cellsIn s port = true ∧
    (readHdr hdr).form = 3 ∧
    (readHdr hdr).kind = 1 ∧
    slotCheck s (readHdr hdr) = 0 ∧
    schedBad 1 pay = false ∧
    ((∀ g, mapGet s.cs.grants (leAt (payBytes pay) 12 4) = some g → g.1 ≤ (readHdr hdr).dqpn * 65536 + (readHdr hdr).msn)) :=
  ⟨1, hd 3 1, payOf [(8, 3)], home,
   by decide +kernel,
   by decide +kernel,
   by decide +kernel,
   by decide +kernel,
   by decide +kernel,
   by (intro g h; cases h)⟩

theorem witness_SchedulingCellsAndGateLists_5 : ∃ (port : Nat) (hdr : BitVec 96) (pay : BitVec 512) (s : State),
    cellsIn s port = true ∧
    (readHdr hdr).form = 3 ∧
    (readHdr hdr).kind = 2 ∧
    slotCheck s (readHdr hdr) = 0 ∧
    schedBad 2 pay = false :=
  ⟨1, hd 3 2, 0, home,
   by decide +kernel,
   by decide +kernel,
   by decide +kernel,
   by decide +kernel,
   by decide +kernel⟩

theorem witness_SchedulingCellsAndGateLists_6 : ∃ (port : Nat) (a : List (Nat × Nat × Nat)) (b : List (Nat × Nat × Nat)) (e : Nat × Nat × Nat) (e' : Nat × Nat × Nat) (s : State),
    running s = true ∧
    isEthPort s port = true ∧
    (gclOf s port).run.enable = true ∧
    gateSpans s (gclOf s port).run = a ++ e :: e' :: b ∧
    ((∀ x ∈ a, x.1 ≠ e.1)) ∧
    (gclOf s port).entry = e.1 :=
  ⟨1, [], [], (0, 1, 200), (1, 255, 5800), gcl { run := gates2 },
   by decide +kernel,
   by decide +kernel,
   by decide +kernel,
   by decide +kernel,
   by decide +kernel,
   by decide +kernel⟩

theorem witness_SchedulingCellsAndGateLists_7 : ∃ (port : Nat) (n : GateList) (s : State),
    running s = true ∧
    isEthPort s port = true ∧
    (gclOf s port).next = some n ∧
    n.compat = false ∧
    s.tick.count.toNat % max 1 n.cycleTk = 0 :=
  ⟨1, gates2, gcl { next := some gates2 },
   by decide +kernel,
   by decide +kernel,
   by decide +kernel,
   by decide +kernel,
   by decide +kernel⟩

theorem witness_PacketsAndFramesAreTaken_1 : ∃ (port : Nat) (f : RxFrame) (u : UdpPkt) (b : RocePkt) (s : State) (s0 : State),
    working s = true ∧
    isEthPort s port = true ∧
    roceHead s port = some (f, u, b, s0) ∧
    b.op ≠ 0x81 ∧
    roceOk s0 port b = false :=
  ⟨1, ((roceHead (roceIn 63 0 []) 1).get roce_wrong).1, ((roceHead (roceIn 63 0 []) 1).get roce_wrong).2.1, ((roceHead (roceIn 63 0 []) 1).get roce_wrong).2.2.1, roceIn 63 0 [], ((roceHead (roceIn 63 0 []) 1).get roce_wrong).2.2.2,
   by decide +kernel,
   by decide +kernel,
   (Option.some_get roce_wrong).symm,
   by decide +kernel,
   by decide +kernel⟩

theorem witness_PacketsAndFramesAreTaken_2 : ∃ (port : Nat) (f : RxFrame) (u : UdpPkt) (b : RocePkt) (q : Qp) (s : State) (s0 : State),
    working s = true ∧
    isEthPort s port = true ∧
    roceHead s port = some (f, u, b, s0) ∧
    roceOk s0 port b = true ∧
    b.op = 10 ∧
    qpOf s0 b.dqpn = some q ∧
    q.typ = 2 ∧
    (rocePassed port q f u b s0).2 = true ∧
    b.psn = q.expected % 2 ^ 24 ∧
    q.roce.rxKind = 0 ∧
    b.body.length = 16 ∧
    beAt b.body 12 4 = 0 :=
  ⟨1, ((roceHead (roceIn 10 0 (List.replicate 16 0)) 1).get roce_write).1, ((roceHead (roceIn 10 0 (List.replicate 16 0)) 1).get roce_write).2.1, ((roceHead (roceIn 10 0 (List.replicate 16 0)) 1).get roce_write).2.2.1, roceQp, roceIn 10 0 (List.replicate 16 0), ((roceHead (roceIn 10 0 (List.replicate 16 0)) 1).get roce_write).2.2.2,
   by decide +kernel,
   by decide +kernel,
   (Option.some_get roce_write).symm,
   by decide +kernel,
   by decide +kernel,
   by decide +kernel,
   by decide +kernel,
   by decide +kernel,
   by decide +kernel,
   by decide +kernel,
   by decide +kernel,
   by decide +kernel⟩

theorem witness_PacketsAndFramesAreTaken_3 : ∃ (port : Nat) (f : RxFrame) (u : UdpPkt) (b : RocePkt) (q : Qp) (s : State) (s0 : State),
    working s = true ∧
    isEthPort s port = true ∧
    roceHead s port = some (f, u, b, s0) ∧
    roceOk s0 port b = true ∧
    b.op ≤ 12 ∧
    qpOf s0 b.dqpn = some q ∧
    q.typ = 2 ∧
    (rocePassed port q f u b s0).2 = true ∧
    b.psn = (q.expected + 1) % 2 ^ 24 ∧
    q.roce.nakSent = false :=
  ⟨1, ((roceHead (roceIn 10 1 (List.replicate 16 0)) 1).get roce_later).1, ((roceHead (roceIn 10 1 (List.replicate 16 0)) 1).get roce_later).2.1, ((roceHead (roceIn 10 1 (List.replicate 16 0)) 1).get roce_later).2.2.1, roceQp, roceIn 10 1 (List.replicate 16 0), ((roceHead (roceIn 10 1 (List.replicate 16 0)) 1).get roce_later).2.2.2,
   by decide +kernel,
   by decide +kernel,
   (Option.some_get roce_later).symm,
   by decide +kernel,
   by decide +kernel,
   by decide +kernel,
   by decide +kernel,
   by decide +kernel,
   by decide +kernel,
   by decide +kernel⟩

theorem witness_PacketsAndFramesAreTaken_4 : ∃ (port : Nat) (f : RxFrame) (u : UdpPkt) (b : RocePkt) (q : Qp) (s : State) (s0 : State),
    working s = true ∧
    isEthPort s port = true ∧
    roceHead s port = some (f, u, b, s0) ∧
    b.op = 0x81 ∧
    qpOf s0 b.dqpn = some q ∧
    isRoce q = true ∧
    ahRaw q = false ∧
    ahPort q = port ∧
    b.tver = 0 ∧
    (rocePassed port q f u b s0).2 = true :=
  ⟨1, ((roceHead (roceIn 0x81 0 (List.replicate 16 0)) 1).get roce_cnp).1, ((roceHead (roceIn 0x81 0 (List.replicate 16 0)) 1).get roce_cnp).2.1, ((roceHead (roceIn 0x81 0 (List.replicate 16 0)) 1).get roce_cnp).2.2.1, roceQp, roceIn 0x81 0 (List.replicate 16 0), ((roceHead (roceIn 0x81 0 (List.replicate 16 0)) 1).get roce_cnp).2.2.2,
   by decide +kernel,
   by decide +kernel,
   (Option.some_get roce_cnp).symm,
   by decide +kernel,
   by decide +kernel,
   by decide +kernel,
   by decide +kernel,
   by decide +kernel,
   by decide +kernel,
   by decide +kernel⟩

theorem witness_PacketsAndFramesAreTaken_5 : ∃ (port : Nat) (f : RxFrame) (u : UdpPkt) (a : List Byte) (hdr : BitVec 96) (pay : BitVec 512) (s : State) (s0 : State),
    working s = true ∧
    isEthPort s port = true ∧
    takeFrame port .cell s = some (f, s0) ∧
    readNet (readEth f.bytes) = .udp u ∧
    slotArea u = some a ∧
    cutSlots a.length a = some [(a, [])] ∧
    hdr = BitVec.ofNat 96 (beAt a 0 12) ∧
    pay = mkPay (slice a 12 64) ∧
    leAt a 76 4 = (slotCrc hdr pay).toNat ∧
    (readHdr hdr).form = 3 ∧
    (readHdr hdr).kind = 0 ∧
    slotCheck s (readHdr hdr) = 0 ∧
    schedBad 0 pay = false ∧
    s.cs.pool = [] :=
  ⟨1, ⟨.cell, 0, 1, cellFrame⟩, udpOf cellFrame, requestSlot, hd 3 0, requestPay, cellArrived, ((takeFrame 1 .cell cellArrived).get cell_frame).2,
   by decide +kernel,
   by decide +kernel,
   (Option.some_get cell_frame).symm,
   by decide +kernel,
   by decide +kernel,
   by decide +kernel,
   by decide +kernel,
   by decide +kernel,
   by (rw [request_crc]; decide +kernel),
   by decide +kernel,
   by decide +kernel,
   by decide +kernel,
   by decide +kernel,
   by decide +kernel⟩

theorem witness_HerdsAndCollectives_1 : ∃ (slot : Nat) (o : Op) (list : List (BitVec 64)) (failed : Bool) (ms : List (Nat × Nat × Nat)) (s : State),
    working s = true ∧
    waitsAt s slot 0x16 o ∧
    memberList s o.entry list failed = some ms ∧
    herdRefused s (ef o.entry 16 2) (herdBody o.entry ms) = false ∧
    herdQuota s (ef o.entry 26 2 % 512) ms.length = true :=
  ⟨0, opOf defineFs, memberWords, false, [(3, 0, 20), (5, 0, 30)], { homeMgmt defineFs with tick := { home.tick with align := .aligned } },
   by decide +kernel,
   by decide +kernel,
   by decide +kernel,
   by decide +kernel,
   by decide +kernel⟩

theorem witness_HerdsAndCollectives_2 : ∃ (slot : Nat) (o : Op) (list : List (BitVec 64)) (failed : Bool) (ms : List (Nat × Nat × Nat)) (s : State),
    working s = true ∧
    waitsAt s slot 0x16 o ∧
    memberList s o.entry list failed = some ms ∧
    herdRefused s (ef o.entry 16 2) (herdBody o.entry ms) = true :=
  ⟨0, opOf defineFs, memberWords, false, [(3, 0, 20), (5, 0, 30)], homeMgmt defineFs,
   by decide +kernel,
   by decide +kernel,
   by decide +kernel,
   by decide +kernel⟩

theorem witness_HerdsAndCollectives_3 : ∃ (slot : Nat) (o : Op) (d : Herd) (s : State),
    working s = true ∧
    waitsAt s slot 0x17 o ∧
    mapGet s.hd.herds (ef o.entry 16 2) = some d ∧
    herdBusy s (ef o.entry 16 2) d = false :=
  ⟨0, opOf [(1, 0x17)], herd0, herdHome herd0 (homeMgmt [(1, 0x17)]),
   by decide +kernel,
   by decide +kernel,
   by decide +kernel,
   by decide +kernel⟩

theorem witness_HerdsAndCollectives_4 : ∃ (slot : Nat) (o : Op) (d : Herd) (s : State),
    working s = true ∧
    waitsAt s slot 0x17 o ∧
    mapGet s.hd.herds (ef o.entry 16 2) = some d ∧
    herdBusy s (ef o.entry 16 2) d = true :=
  ⟨0, opOf [(1, 0x17)], herd0, herdHome herd0 (withSq { sq2 with ops := [collOp0] } (homeMgmt [(1, 0x17)])),
   by decide +kernel,
   by decide +kernel,
   by decide +kernel,
   by decide +kernel⟩

theorem witness_HerdsAndCollectives_5 : ∃ (ring : Nat) (slot : Nat) (o : Op) (g : Ring) (d : Herd) (s : State),
    working s = true ∧
    mayStartOp s ring slot = some o ∧
    ringOf s ring = some g ∧
    entryOpcode o.entry = 9 ∧
    mapGet s.hd.herds (ef o.entry 32 2) = some d ∧
    d.broken = false ∧
    ((∀ x ∈ g.ops, entryOpcode x.entry = 9 → x.slot = slot)) ∧
    ((∀ e ∈ d.colls, e.2.slotAt.isSome = true)) ∧
    mapGet d.colls (collFromEntry ring o d).seq = none ∧
    d.colls.length < d.depth :=
  ⟨2, 0, collOp0, { sq2 with ops := [collOp0] }, herd0, herdHome herd0 (homeOp collOp0),
   by decide +kernel,
   by decide +kernel,
   by decide +kernel,
   by decide +kernel,
   by decide +kernel,
   by decide +kernel,
   by decide +kernel,
   by decide +kernel,
   by decide +kernel,
   by decide +kernel⟩

theorem witness_HerdsAndCollectives_6 : ∃ (ring : Nat) (slot : Nat) (o : Op) (g : Ring) (d : Herd) (s : State),
    working s = true ∧
    mayStartOp s ring slot = some o ∧
    ringOf s ring = some g ∧
    entryOpcode o.entry = 9 ∧
    mapGet s.hd.herds (ef o.entry 32 2) = some d ∧
    d.broken = true ∧
    opAt s ring slot = some o ∧
    ((∀ x ∈ g.ops, entryOpcode x.entry = 9 → x.slot = slot)) ∧
    unflushed s (.run (opKey ring slot)) = [] :=
  ⟨2, 0, collOp0, { sq2 with ops := [collOp0] }, { herd0 with broken := true }, herdHome { herd0 with broken := true } (homeOp collOp0),
   by decide +kernel,
   by decide +kernel,
   by decide +kernel,
   by decide +kernel,
   by decide +kernel,
   by decide +kernel,
   by decide +kernel,
   by decide +kernel,
   by decide +kernel⟩

theorem witness_HerdsAndCollectives_7 : ∃ (h : Nat) (n : Nat) (d : Herd) (c : Coll) (s : State),
    working s = true ∧
    mapGet s.hd.herds h = some d ∧
    d.colls.find? (fun e => e.2.slotAt.isNone) = some (n, c) ∧
    mapGet d.colls n = some c ∧
    (d.colls.filter (fun e => e.2.slotAt.isSome)).length < d.depth :=
  ⟨0, 1, { herd0 with colls := [(1, { coll0 with slotAt := none })] }, { coll0 with slotAt := none }, herdHome { herd0 with colls := [(1, { coll0 with slotAt := none })] } home,
   by decide +kernel,
   by decide +kernel,
   by decide +kernel,
   by decide +kernel,
   by decide +kernel⟩

theorem witness_HerdsAndCollectives_8 : ∃ (h : Nat) (n : Nat) (j : Nat) (d : Herd) (c : Coll) (s : State),
    working s = true ∧
    mapGet s.hd.herds h = some d ∧
    collOf s h n = some c ∧
    deadlineMissed s.tick.count.toNat d c = some j :=
  ⟨0, 1, 1, { herd0 with colls := [(1, coll0)] }, coll0, { herdHome { herd0 with colls := [(1, coll0)] } home with tick := { home.tick with count := 64 } },
   by decide +kernel,
   by decide +kernel,
   by decide +kernel,
   by decide +kernel⟩

theorem witness_HerdsAndCollectives_9 : ∃ (h : Nat) (n : Nat) (d : Herd) (c : Coll) (s : State),
    working s = true ∧
    mapGet s.hd.herds h = some d ∧
    collOf s h n = some c ∧
    c.voted = true ∧
    c.decision = none ∧
    coordinator c ≠ d.rank ∧
    c.voteAt + d.hold ≤ s.tick.count.toNat :=
  ⟨0, 1, { herd0 with rank := 1, colls := [(1, { coll0 with voted := true })] }, { coll0 with voted := true }, { herdHome { herd0 with rank := 1, colls := [(1, { coll0 with voted := true })] } home with tick := { home.tick with count := 512 } },
   by decide +kernel,
   by decide +kernel,
   by decide +kernel,
   by decide +kernel,
   by decide +kernel,
   by decide +kernel,
   by decide +kernel⟩

theorem witness_HerdsAndCollectives_10 : ∃ (h : Nat) (gone : Nat) (d : Herd) (s : State),
    working s = true ∧
    s.cf.fencedAt < s.tick.count.toNat ∧
    mapGet s.hd.herds h = some d ∧
    d.active.find? (fun j => !((activeRanks s d d.active).contains j)) = some gone :=
  ⟨0, 1, herd0, { herdHome herd0 home with cf := { home.cf with fences := [(0, ⟨5, 0, 2, 1⟩)] }, tick := { home.tick with count := 1 } },
   by decide +kernel,
   by decide +kernel,
   by decide +kernel,
   by decide +kernel⟩

theorem witness_HerdsAndCollectives_11 : ∃ (h : Nat) (n : Nat) (st : Nat) (detail : Nat) (aux : Nat) (d : Herd) (c : Coll) (o : Op) (s : State),
    working s = true ∧
    mapGet s.hd.herds h = some d ∧
    collOf s h n = some c ∧
    collVerdict s d c = some (st, detail, aux) ∧
    opAt s c.ring c.slot = some o ∧
    o.head = c.slot ∧
    o.done = none ∧
    unflushed s (.run (opKey c.ring c.slot)) = [] :=
  ⟨0, 1, 0, 0, 0, { herd0 with colls := [(1, { coll0 with len := 0, kind := 4, decision := some 2, told := true, voted := true })] }, { coll0 with len := 0, kind := 4, decision := some 2, told := true, voted := true }, collOp0, herdHome { herd0 with colls := [(1, { coll0 with len := 0, kind := 4, decision := some 2, told := true, voted := true })] } (homeOp collOp0),
   by decide +kernel,
   by decide +kernel,
   by decide +kernel,
   by decide +kernel,
   by decide +kernel,
   by decide +kernel,
   by decide +kernel,
   by decide +kernel⟩

theorem witness_HerdMessagesAreTaken_1 : ∃ (cmd : Instr) (qpn : Nat) (code : Nat) (h : Nat) (j : Nat) (m : HerdMsg) (d : Herd) (p : HerdPos) (c : Coll) (s : State),
    (cmd, code) ∈ [(.herdSkipReceive qpn, 1), (.herdVoteReceive qpn, 2), (.herdAbortReceive qpn, 3), (.herdCommitReceive qpn, 4), (.herdDecideAbortReceive qpn, 5)] ∧
    working s = true ∧
    NextWord s qpn m h d p c j ∧
    fld m.imm 31 28 = code ∧
    tailCheck c p m = 0 ∧
    c.decision = none ∧
    c.abort = none :=
  ⟨.herdVoteReceive 21, 21, 2, 0, 1, word 2 0 [], { herd0 with colls := [(1, coll0)] }, place 1 0, coll0, withWord coll0 (word 2 0 []) (place 1 0),
   by decide +kernel,
   by decide +kernel,
   ⟨by decide +kernel, by decide +kernel, by decide +kernel, by decide +kernel, by decide +kernel, by decide +kernel⟩,
   by decide +kernel,
   by decide +kernel,
   by decide +kernel,
   by decide +kernel⟩

theorem witness_HerdMessagesAreTaken_2 : ∃ (qpn : Nat) (h : Nat) (j : Nat) (k : Nat) (m : HerdMsg) (d : Herd) (p : HerdPos) (c : Coll) (us : List (List Byte)) (s : State),
    working s = true ∧
    NextWord s qpn m h d p c j ∧
    fld m.imm 31 28 = 0 ∧
    tailCheck c p m = 0 ∧
    c.abort = none ∧
    (stepAt d c p.step).kind = .s ∧
    unwire c.format false ((pieceUnits (herdRegion s d) d c j d.rank p.step).2 - (pieceUnits (herdRegion s d) d c j d.rank p.step).1) m.bytes = some us ∧
    k ∈ stepFrom d c d.rank p.step ∧
    k ≠ j ∧
    (p.step, k) ∉ c.got :=
  ⟨21, 0, 1, 2, word 0 84 (List.replicate 84 0), herd3 coll3, place 0 84, coll3, List.replicate 21 [0, 0, 0, 0], { withWord coll3 (word 0 84 (List.replicate 84 0)) (place 0 84) with hd := { (withWord coll3 (word 0 84 (List.replicate 84 0)) (place 0 84)).hd with herds := [(0, herd3 coll3)] } },
   by decide +kernel,
   ⟨by decide +kernel, by decide +kernel, by decide +kernel, by decide +kernel, by decide +kernel, by decide +kernel⟩,
   by decide +kernel,
   by decide +kernel,
   by decide +kernel,
   by decide +kernel,
   by decide +kernel,
   by decide +kernel,
   by decide +kernel,
   by decide +kernel⟩

theorem witness_HerdMessagesAreTaken_3 : ∃ (cmd : Instr) (qpn : Nat) (code : Nat) (h : Nat) (j : Nat) (m : HerdMsg) (d : Herd) (p : HerdPos) (c : Coll) (s : State),
    (cmd, code) ∈ [(.herdPieceReceive qpn [], 0), (.herdSkipReceive qpn, 1), (.herdVoteReceive qpn, 2), (.herdAbortReceive qpn, 3), (.herdCommitReceive qpn, 4), (.herdDecideAbortReceive qpn, 5)] ∧
    working s = true ∧
    NextWord s qpn m h d p c j ∧
    fld m.imm 31 28 = code ∧
    tailCheck c p m ≠ 0 ∧
    c.decision = none ∧
    c.abort = none :=
  ⟨.herdCommitReceive 21, 21, 4, 0, 1, word 4 0 [], { herd0 with colls := [(1, coll0)] }, place 1 0, coll0, withWord coll0 (word 4 0 []) (place 1 0),
   by decide +kernel,
   by decide +kernel,
   ⟨by decide +kernel, by decide +kernel, by decide +kernel, by decide +kernel, by decide +kernel, by decide +kernel⟩,
   by decide +kernel,
   by decide +kernel,
   by decide +kernel,
   by decide +kernel⟩

theorem witness_PciePortsAndAccesses_1 : ∃ (p : Nat) (s : State),
    portsServed s = true ∧
    p < 4 ∧
    (accPort s p).state = .down ∧
    (accCtrl s p).getLsbD 0 = false ∧
    p ∉ s.pins.accPerst :=
  ⟨3, { up with pins := { up.pins with accPerst := [] } },
   by decide +kernel,
   by decide +kernel,
   by decide +kernel,
   by decide +kernel,
   by decide +kernel⟩

theorem witness_PciePortsAndAccesses_2 : ∃ (p : Nat) (s : State),
    portsServed s = true ∧
    (accPort s p).state = .training :=
  ⟨0, withAcc { state := .training } home,
   by decide +kernel,
   by decide +kernel⟩

theorem witness_PciePortsAndAccesses_3 : ∃ (p : Nat) (cfg : Nat) (s : State),
    portsServed s = true ∧
    (accPort s p).state = .enumerating ∧
    cfg = wfld (rgi s Reg.GX_PC_WIN_CFG (p + 1)) 2 0 :=
  ⟨0, wfld (rgi (withAcc { state := .enumerating } home) Reg.GX_PC_WIN_CFG 1) 2 0, withAcc { state := .enumerating } home,
   by decide +kernel,
   by decide +kernel,
   by decide +kernel⟩

theorem witness_PciePortsAndAccesses_4 : ∃ (p : Nat) (s : State),
    running s = true ∧
    ((accPort s p).state = .ready ∨ (accPort s p).state = .enumerating) ∧
    (accPort s p).flush = none ∧
    (accPort s p).dirty = [] :=
  ⟨0, withAcc { state := .ready } home,
   by decide +kernel,
   by decide +kernel,
   by decide +kernel,
   by decide +kernel⟩

theorem witness_PciePortsAndAccesses_5 : ∃ (p : Nat) (s : State),
    running s = true ∧
    (accPort s p).state = .ready ∧
    (accPort s p).flush = none ∧
    (accPort s p).dirty = [] :=
  ⟨0, withAcc { state := .ready } home,
   by decide +kernel,
   by decide +kernel,
   by decide +kernel,
   by decide +kernel⟩

theorem witness_PciePortsAndAccesses_6 : ∃ (c : Instr) (p : Nat) (cnt : Nat) (bit : Nat) (s : State),
    (c, cnt, bit) ∈ [(.accErrorMessage p, Reg.GX_PC_ERR_MSG_CNT, 4), (.accRequestReceive p, Reg.GX_PC_UR_CNT, 3)] ∧
    running s = true ∧
    ((accPort s p).state = .ready ∨ (accPort s p).state = .enumerating) :=
  ⟨.accErrorMessage 0, 0, Reg.GX_PC_ERR_MSG_CNT, 4, withAcc { state := .ready } home,
   by decide +kernel,
   by decide +kernel,
   by decide +kernel⟩

theorem witness_PciePortsAndAccesses_7 : ∃ (v : Word) (p : Nat) (s : State),
    running s = true ∧
    v.getLsbD 0 = true ∧
    v.getLsbD 1 = false ∧
    accIndexed s = some p ∧
    (accPort s p).flush = none ∧
    (accPort s p).dirty = [] :=
  ⟨1, 0, accSelected { state := .ready },
   by decide +kernel,
   by decide +kernel,
   by decide +kernel,
   by decide +kernel,
   by decide +kernel,
   by decide +kernel⟩

theorem witness_PciePortsAndAccesses_8 : ∃ (v : Word) (p : Nat) (s : State),
    running s = true ∧
    v.getLsbD 1 = true ∧
    accIndexed s = some p ∧
    ((accPort s p).state = .down ∨ (accPort s p).state = .contained) :=
  ⟨2, 0, accSelected { state := .contained },
   by decide +kernel,
   by decide +kernel,
   by decide +kernel,
   by decide +kernel⟩

theorem witness_PciePortsAndAccesses_9 : ∃ (s : State),
    powered s = true ∧
    s.pc.hstUp = false :=
  ⟨up,
   by decide +kernel,
   by decide +kernel⟩

theorem witness_PciePortsAndAccesses_10 : ∃ (p : Nat) (ring : Nat) (slot : Nat) (o : Op) (s : State),
    working s = true ∧
    slot < 65536 ∧
    (accPort s p).state = .ready ∧
    (accPort s p).flush = some [.run (opKey ring slot)] ∧
    (accPort s p).waiting = [.run (opKey ring slot)] ∧
    (accPort s p).dirty = [] ∧
    opAt s ring slot = some o ∧
    o.head = slot ∧
    o.flush = [p] ∧
    runOf s (opKey ring slot) = none :=
  ⟨0, 2, 0, flushOp none, withAcc flushPort (homeOp (flushOp none)),
   by decide +kernel,
   by decide +kernel,
   by decide +kernel,
   by decide +kernel,
   by decide +kernel,
   by decide +kernel,
   by decide +kernel,
   by decide +kernel,
   by decide +kernel,
   by decide +kernel⟩

theorem witness_PciePortsAndAccesses_11 : ∃ (p : Nat) (ring : Nat) (slot : Nat) (o : Op) (k : Completion) (s : State),
    working s = true ∧
    slot < 65536 ∧
    (accPort s p).state = .ready ∧
    (accPort s p).flush = some [.run (opKey ring slot)] ∧
    (accPort s p).waiting = [.run (opKey ring slot)] ∧
    (accPort s p).dirty = [] ∧
    opAt s ring slot = some o ∧
    o.head = slot ∧
    o.flush = [p] ∧
    o.done = some k ∧
    runOf s (opKey ring slot) = none :=
  ⟨0, 2, 0, flushOp (some { status := 0 }), { status := 0 }, withAcc flushPort (homeOp (flushOp (some { status := 0 }))),
   by decide +kernel,
   by decide +kernel,
   by decide +kernel,
   by decide +kernel,
   by decide +kernel,
   by decide +kernel,
   by decide +kernel,
   by decide +kernel,
   by decide +kernel,
   by decide +kernel,
   by decide +kernel⟩

theorem witness_PciePortsAndAccesses_12 : ∃ (owner : Nat) (s : State),
    working s = true ∧
    runOf s owner = none :=
  ⟨opKey 2 0, home,
   by decide +kernel,
   by decide +kernel⟩

theorem witness_PciePortsAndAccesses_13 : ∃ (owner : Nat) (s : State),
    working s = true ∧
    runOf s owner = none :=
  ⟨opKey 2 0, home,
   by decide +kernel,
   by decide +kernel⟩

theorem witness_PciePortsAndAccesses_14 : ∃ (owner : Nat) (s : State),
    working s = true ∧
    runOf s owner = none :=
  ⟨opKey 2 0, home,
   by decide +kernel,
   by decide +kernel⟩

theorem witness_PciePortsAndAccesses_15 : ∃ (ring : Nat) (g : Ring) (s : State),
    working s = true ∧
    2 ≤ ring ∧
    ringOf s ring = some g ∧
    (inst s g.inst).state = .ready ∧
    (inst s g.inst).freeze = none ∧
    (inst s g.inst).thaw = none :=
  ⟨2, sq2, home,
   by decide +kernel,
   by decide +kernel,
   by decide +kernel,
   by decide +kernel,
   by decide +kernel,
   by decide +kernel⟩

theorem witness_CheckValueUnits_1 : ∃ (u : Nat) (s : State),
    running s = true ∧
    u = cvSel s ∧
    cvFenced s u = false ∧
    (cvUnit s u).testing = false ∧
    (cvUnit s u).state = .stopped :=
  ⟨31, cv31 {},
   by decide +kernel,
   by decide +kernel,
   by decide +kernel,
   by decide +kernel,
   by decide +kernel⟩

theorem witness_CheckValueUnits_2 : ∃ (u : Nat) (s : State),
    running s = true ∧
    u = cvSel s ∧
    cvFenced s u = false ∧
    (cvUnit s u).testing = false ∧
    (cvUnit s u).state = .stopped ∧
    cvStartBad s u = false :=
  ⟨31, putReg (regKey Reg.GX_CV_CFG 31) 1 (cv31 {}),
   by decide +kernel,
   by decide +kernel,
   by decide +kernel,
   by decide +kernel,
   by decide +kernel,
   by decide +kernel⟩

theorem witness_CheckValueUnits_3 : ∃ (u : Nat) (s : State),
    running s = true ∧
    u = cvSel s ∧
    cvFenced s u = false ∧
    (cvUnit s u).testing = false ∧
    (cvUnit s u).state = .armed :=
  ⟨31, cv31 { state := .armed },
   by decide +kernel,
   by decide +kernel,
   by decide +kernel,
   by decide +kernel,
   by decide +kernel⟩

theorem witness_CheckValueUnits_4 : ∃ (u : Nat) (s : State),
    running s = true ∧
    u = cvSel s ∧
    cvFenced s u = false ∧
    (cvUnit s u).testing = false ∧
    (cvUnit s u).state = .running :=
  ⟨31, cv31 { state := .running },
   by decide +kernel,
   by decide +kernel,
   by decide +kernel,
   by decide +kernel,
   by decide +kernel⟩

theorem witness_CheckValueUnits_5 : ∃ (c : Instr) (s : State),
    c ∈ [.cvClear, .cvStart, .cvStop] ∧
    running s = true ∧
    (cvFenced s (cvSel s) = true ∨ (cvUnit s (cvSel s)).testing = true) :=
  ⟨.cvStop, cv31 { testing := true },
   by decide +kernel,
   by decide +kernel,
   by decide +kernel⟩

theorem witness_CheckValueUnits_6 : ∃ (source : Nat) (index : Nat) (u : Nat) (c : CvUnit) (s : State),
    running s = true ∧
    u < 32 ∧
    s.cv = [(u, c)] ∧
    c.state = .armed ∧
    cvWatches s u source index false = true :=
  ⟨0, 0, 31, { state := .armed }, cv31 { state := .armed },
   by decide +kernel,
   by decide +kernel,
   by decide +kernel,
   by decide +kernel,
   by decide +kernel⟩

theorem witness_CheckValueUnits_7 : ∃ (source : Nat) (index : Nat) (u : Nat) (c : CvUnit) (s : State),
    running s = true ∧
    u < 32 ∧
    s.cv = [(u, c)] ∧
    c.state = .stopping ∧
    cvWatches s u source index false = true :=
  ⟨0, 0, 31, { state := .stopping }, cv31 { state := .stopping },
   by decide +kernel,
   by decide +kernel,
   by decide +kernel,
   by decide +kernel,
   by decide +kernel⟩

theorem witness_CheckValueUnits_8 : ∃ (off : Nat) (u : Nat) (s : State),
    running s = true ∧
    u = cvSel s ∧
    cvFenced s u = false ∧
    (cvUnit s u).state = .stopped ∧
    off ∈ cvConfigRegs :=
  ⟨Reg.GX_CV_CFG, 31, cv31 {},
   by decide +kernel,
   by decide +kernel,
   by decide +kernel,
   by decide +kernel,
   by decide +kernel⟩

theorem witness_CheckValueUnits_9 : ∃ (off : Nat) (u : Nat) (s : State),
    running s = true ∧
    u = cvSel s ∧
    cvFenced s u = false ∧
    (cvUnit s u).state = .stopped ∧
    off = Reg.GX_CV_RUNNING_LO ∧
    (cvParams s u).width = 32 :=
  ⟨Reg.GX_CV_RUNNING_LO, 31, putReg (regKey Reg.GX_CV_CFG 31) 1 (cv31 {}),
   by decide +kernel,
   by decide +kernel,
   by decide +kernel,
   by decide +kernel,
   by decide +kernel,
   by decide +kernel⟩

theorem witness_CheckValueUnits_10 : ∃ (u : Nat) (s : State),
    running s = true ∧
    u = cvSel s :=
  ⟨31, cv31 {},
   by decide +kernel,
   by decide +kernel⟩

theorem witness_KeysAreLoadedChangedAndErased_1 : ∃ (slot : Nat) (key : Nat) (salt : Nat) (o : Op) (record : BitVec 512) (s : State),
    keysServed s = true ∧
    waitsAt s slot 0x18 o ∧
    o.started = false ∧
    (keyBody o.entry).action = 0 ∧
    keyRefused s (keyBody o.entry) = false ∧
    keyQuota s (keyBody o.entry).inst = false ∧
    s.pc.hstUp = true ∧
    recordReserved (keyBody o.entry) (entryBytes record) = false ∧
    recordKey s (keyBody o.entry) (entryBytes record) = some (key, salt) :=
  ⟨0, 2 ^ 127, 0, opOf loadFs, BitVec.ofNat 512 (2 ^ 127), keyed (tierKey 2) loadFs,
   by decide +kernel,
   by decide +kernel,
   by decide +kernel,
   by decide +kernel,
   by decide +kernel,
   by decide +kernel,
   by decide +kernel,
   by decide +kernel,
   by decide +kernel⟩

theorem witness_KeysAreLoadedChangedAndErased_2 : ∃ (c : Instr) (slot : Nat) (action : Nat) (o : Op) (record : BitVec 512) (failed : Bool) (s : State),
    (c, action) ∈ [(.keyLoad slot record failed, 0), (.keyRekey slot record failed, 1), (.keyErase slot, 2)] ∧
    keysServed s = true ∧
    waitsAt s slot 0x18 o ∧
    o.started = false ∧
    (keyBody o.entry).action = action ∧
    (keySlot s (keyBody o.entry).slot).change = none ∧
    keyRefused s (keyBody o.entry) = true :=
  ⟨.keyErase 0, 0, 2, opOf [(1, 0x18), (16, 8191), (18, 2)], 0, false, keyed (tierKey 2) [(1, 0x18), (16, 8191), (18, 2)],
   by decide +kernel,
   by decide +kernel,
   by decide +kernel,
   by decide +kernel,
   by decide +kernel,
   by decide +kernel,
   by decide +kernel⟩

theorem witness_KeysAreLoadedChangedAndErased_3 : ∃ (slot : Nat) (key : Nat) (salt : Nat) (n : Nat) (o : Op) (record : BitVec 512) (s : State),
    keysServed s = true ∧
    waitsAt s slot 0x18 o ∧
    o.started = false ∧
    (keyBody o.entry).action = 1 ∧
    n = (keyBody o.entry).slot ∧
    (keySlot s n).change = none ∧
    keyRefused s (keyBody o.entry) = false ∧
    s.pc.hstUp = true ∧
    recordReserved (keyBody o.entry) (entryBytes record) = false ∧
    recordKey s (keyBody o.entry) (entryBytes record) = some (key, salt) ∧
    chargeHeld s n = false ∧
    s.tp.runs = [] :=
  ⟨0, 1, 0, 1, opOf rekeyFs, 1, keyed (tierKey 2) rekeyFs,
   by decide +kernel,
   by decide +kernel,
   by decide +kernel,
   by decide +kernel,
   by decide +kernel,
   by decide +kernel,
   by decide +kernel,
   by decide +kernel,
   by decide +kernel,
   by decide +kernel,
   by decide +kernel,
   by decide +kernel⟩

theorem witness_KeysAreLoadedChangedAndErased_4 : ∃ (slot : Nat) (n : Nat) (o : Op) (s : State),
    keysServed s = true ∧
    waitsAt s slot 0x18 o ∧
    o.started = false ∧
    (keyBody o.entry).action = 2 ∧
    n = (keyBody o.entry).slot ∧
    (keySlot s n).change = none ∧
    keyRefused s (keyBody o.entry) = false ∧
    chargeHeld s n = false ∧
    s.tp.runs = [] :=
  ⟨0, 1, opOf eraseFs, keyed (tierKey 2) eraseFs,
   by decide +kernel,
   by decide +kernel,
   by decide +kernel,
   by decide +kernel,
   by decide +kernel,
   by decide +kernel,
   by decide +kernel,
   by decide +kernel,
   by decide +kernel⟩

theorem witness_KeysAreLoadedChangedAndErased_5 : ∃ (slot : Nat) (n : Nat) (o : Op) (s : State),
    keysServed s = true ∧
    waitsAt s slot 0x18 o ∧
    o.started = false ∧
    (keyBody o.entry).action = 2 ∧
    n = (keyBody o.entry).slot ∧
    (keySlot s n).change = none ∧
    keyRefused s (keyBody o.entry) = false ∧
    chargeHeld s n = true :=
  ⟨0, 1, opOf eraseFs, { keyed (tierKey 2) eraseFs with tp := { home.tp with runs := [(opKey 2 0, sealing)] } },
   by decide +kernel,
   by decide +kernel,
   by decide +kernel,
   by decide +kernel,
   by decide +kernel,
   by decide +kernel,
   by decide +kernel,
   by decide +kernel⟩

theorem witness_KeysAreLoadedChangedAndErased_6 : ∃ (n : Nat) (c : KeyChange) (o : Op) (s : State),
    keysServed s = true ∧
    (keySlot s n).change = some c ∧
    chargeHeld s n = false ∧
    opAt s 0 c.slot = some o ∧
    o.head = c.slot ∧
    o.done = none ∧
    s.tp.runs = [] :=
  ⟨1, { slot := 0, erase := true }, opOf eraseFs, keyed { tierKey 2 with change := some { slot := 0, erase := true } } eraseFs,
   by decide +kernel,
   by decide +kernel,
   by decide +kernel,
   by decide +kernel,
   by decide +kernel,
   by decide +kernel,
   by decide +kernel⟩

theorem witness_InstancesAreResetFrozenAndThawed_1 : ∃ (c : Instr) (slot : Nat) (code : Nat) (n : Nat) (mode : ResetMode) (o : Op) (s : State),
    (c, code, mode) ∈ [(.instanceResetDrain slot, 0, .drain), (.instanceResetSquash slot, 1, .squash), (.instanceResetDiscard slot, 2, .discard)] ∧
    working s = true ∧
    waitsAt s slot 0x19 o ∧
    ef o.entry 18 1 = code ∧
    o.started = false ∧
    n = bodyInst o.entry ∧
    (inst s n).state ≠ .disabled ∧
    ((mode = .discard → (inst s n).state = .frozen)) ∧
    (inst s n).reset = none :=
  ⟨.instanceResetDrain 0, 0, 0, 5, .drain, opOf [(1, 0x19), (16, 5)], inst5 { state := .ready } [(1, 0x19), (16, 5)],
   by decide +kernel,
   by decide +kernel,
   by decide +kernel,
   by decide +kernel,
   by decide +kernel,
   by decide +kernel,
   by decide +kernel,
   by decide +kernel,
   by decide +kernel⟩

theorem witness_InstancesAreResetFrozenAndThawed_1b : ∃ (c : Instr) (slot : Nat) (code : Nat) (n : Nat) (mode : ResetMode) (o : Op) (s : State),
    (c, code, mode) ∈ [(.instanceResetDrain slot, 0, .drain), (.instanceResetSquash slot, 1, .squash), (.instanceResetDiscard slot, 2, .discard)] ∧
    working s = true ∧
    waitsAt s slot 0x19 o ∧
    ef o.entry 18 1 = code ∧
    o.started = false ∧
    n = bodyInst o.entry ∧
    (inst s n).state ≠ .disabled ∧
    ((mode = .discard → (inst s n).state = .frozen)) ∧
    (inst s n).reset = none :=
  ⟨.instanceResetDiscard 0, 0, 2, 5, .discard, opOf [(1, 0x19), (16, 5), (18, 2)], inst5 { state := .frozen } [(1, 0x19), (16, 5), (18, 2)],
   by decide +kernel,
   by decide +kernel,
   by decide +kernel,
   by decide +kernel,
   by decide +kernel,
   by decide +kernel,
   by decide +kernel,
   by decide +kernel,
   by decide +kernel⟩

theorem witness_InstancesAreResetFrozenAndThawed_2 : ∃ (slot : Nat) (n : Nat) (o : Op) (r : ResetRun) (s : State),
    working s = true ∧
    waitsAt s slot 0x19 o ∧
    ef o.entry 18 1 = 1 ∧
    o.started = false ∧
    n = bodyInst o.entry ∧
    (inst s n).state = .resetting ∧
    (inst s n).reset = some r ∧
    r.mode = .drain :=
  ⟨0, 5, opOf [(1, 0x19), (16, 5), (18, 1)], ⟨.drain, false, [3]⟩, inst5 { state := .resetting, reset := some ⟨.drain, false, [3]⟩ } [(1, 0x19), (16, 5), (18, 1)],
   by decide +kernel,
   by decide +kernel,
   by decide +kernel,
   by decide +kernel,
   by decide +kernel,
   by decide +kernel,
   by decide +kernel,
   by decide +kernel⟩

theorem witness_InstancesAreResetFrozenAndThawed_3 : ∃ (c : Instr) (slot : Nat) (code : Nat) (o : Op) (s : State),
    (c, code) ∈ [(.instanceResetDrain slot, 0), (.instanceResetSquash slot, 1), (.instanceResetDiscard slot, 2)] ∧
    working s = true ∧
    waitsAt s slot 0x19 o ∧
    ef o.entry 18 1 = code ∧
    o.started = false ∧
    ((inst s (bodyInst o.entry)).state = .disabled ∨ code = 2 ∧ (inst s (bodyInst o.entry)).state = .ready) :=
  ⟨.instanceResetDiscard 0, 0, 2, opOf [(1, 0x19), (16, 5), (18, 2)], inst5 { state := .ready } [(1, 0x19), (16, 5), (18, 2)],
   by decide +kernel,
   by decide +kernel,
   by decide +kernel,
   by decide +kernel,
   by decide +kernel,
   by decide +kernel⟩

theorem witness_InstancesAreResetFrozenAndThawed_4 : ∃ (n : Nat) (slot : Nat) (wipe : Bool) (o : Op) (s : State),
    working s = true ∧
    (inst s n).state = .resetting ∧
    (inst s n).reset = some ⟨.drain, wipe, [slot]⟩ ∧
    workQuiet (instRing s n) s = true ∧
    instRings s n = [] ∧
    instQps s n = [] ∧
    ((∀ h ∈ s.hd.herds, h.2.inst ≠ n)) ∧
    ((∀ k ∈ s.ce.slots, k.2.inst = n → k.2.change = none)) ∧
    s.lz.unitActions = [] ∧
    opAt s 0 slot = some o ∧
    o.head = slot ∧
    o.done = none :=
  ⟨5, 0, true, opOf [(1, 0x19), (16, 5)], inst5 { state := .resetting, reset := some ⟨.drain, true, [0]⟩ } [(1, 0x19), (16, 5)],
   by decide +kernel,
   by decide +kernel,
   by decide +kernel,
   by decide +kernel,
   by decide +kernel,
   by decide +kernel,
   by decide +kernel,
   by decide +kernel,
   by decide +kernel,
   by decide +kernel,
   by decide +kernel,
   by decide +kernel⟩

theorem witness_InstancesAreResetFrozenAndThawed_5 : ∃ (n : Nat) (s : State),
    working s = true ∧
    n ≠ 0 ∧
    (inst s n).state ≠ .disabled ∧
    (inst s n).reset = none :=
  ⟨5, inst5 { state := .ready } [],
   by decide +kernel,
   by decide +kernel,
   by decide +kernel,
   by decide +kernel⟩

theorem witness_InstancesAreResetFrozenAndThawed_6 : ∃ (enable : Bool) (numVfs : Nat) (n : Nat) (s : State) (s' : State),
    working s = true ∧
    s' = { s with vi := { s.vi with vfEnable := enable, numVfs := numVfs } } ∧
    n ≠ 0 ∧
    (instFlock s.lz.run n).isSome = true :=
  ⟨true, 511, 5, inst5 { state := .ready } [], { inst5 { state := .ready } [] with vi := { (inst5 { state := .ready } []).vi with vfEnable := true, numVfs := 511 } },
   by decide +kernel,
   rfl,
   by decide +kernel,
   by decide +kernel⟩

theorem witness_InstancesAreResetFrozenAndThawed_7 : ∃ (slot : Nat) (n : Nat) (o : Op) (s : State),
    working s = true ∧
    waitsAt s slot 0x1A o ∧
    ef o.entry 18 1 = 0 ∧
    o.started = false ∧
    n = bodyInst o.entry ∧
    (inst s n).state = .ready ∧
    instBonded s n = false ∧
    (inst s n).freeze = none ∧
    ((ef o.entry 24 8 = 0 ∨ s.tick.count.toNat < ef o.entry 24 8)) :=
  ⟨0, 5, opOf [(1, 0x1A), (16, 5)], inst5 { state := .ready } [(1, 0x1A), (16, 5)],
   by decide +kernel,
   by decide +kernel,
   by decide +kernel,
   by decide +kernel,
   by decide +kernel,
   by decide +kernel,
   by decide +kernel,
   by decide +kernel,
   by decide +kernel⟩

theorem witness_InstancesAreResetFrozenAndThawed_8 : ∃ (slot : Nat) (n : Nat) (o : Op) (s : State),
    working s = true ∧
    waitsAt s slot 0x1A o ∧
    ef o.entry 18 1 = 0 ∧
    o.started = false ∧
    n = bodyInst o.entry ∧
    ((inst s n).state ≠ .ready ∨ instBonded s n = true ∨ ef o.entry 24 8 ≠ 0 ∧ ef o.entry 24 8 ≤ s.tick.count.toNat) :=
  ⟨0, 5, opOf [(1, 0x1A), (16, 5), (24, 1)], { inst5 { state := .ready } [(1, 0x1A), (16, 5), (24, 1)] with tick := { up.tick with count := 1 } },
   by decide +kernel,
   by decide +kernel,
   by decide +kernel,
   by decide +kernel,
   by decide +kernel,
   by decide +kernel⟩

theorem witness_InstancesAreResetFrozenAndThawed_9 : ∃ (n : Nat) (slot : Nat) (edge : BitVec 64) (s : State),
    working s = true ∧
    (inst s n).freeze = some (slot, edge) ∧
    (inst s n).state = .ready ∧
    edge ≤ s.tick.count ∧
    drbgReady s = true :=
  ⟨5, 0, 1, { inst5 { state := .ready, freeze := some (0, 1) } [] with tick := { up.tick with count := 1 } },
   by decide +kernel,
   by decide +kernel,
   by decide +kernel,
   by decide +kernel,
   by decide +kernel⟩

theorem witness_InstancesAreResetFrozenAndThawed_10 : ∃ (n : Nat) (slot : Nat) (edge : BitVec 64) (o : Op) (s : State),
    working s = true ∧
    (inst s n).freeze = some (slot, edge) ∧
    (inst s n).state = .freezing ∧
    frozenDue s n = true ∧
    opAt s 0 slot = some o ∧
    o.head = slot ∧
    o.done = none :=
  ⟨5, 0, 0, opOf [(1, 0x1A), (16, 5)], inst5 { state := .freezing, freeze := some (0, 0) } [(1, 0x1A), (16, 5)],
   by decide +kernel,
   by decide +kernel,
   by decide +kernel,
   by decide +kernel,
   by decide +kernel,
   by decide +kernel,
   by decide +kernel⟩

theorem witness_InstancesAreResetFrozenAndThawed_11 : ∃ (slot : Nat) (n : Nat) (o : Op) (s : State),
    working s = true ∧
    waitsAt s slot 0x1A o ∧
    ef o.entry 18 1 = 1 ∧
    o.started = false ∧
    n = bodyInst o.entry ∧
    (inst s n).state = .frozen ∧
    (inst s n).thaw = none ∧
    instOps s n 0x1B = [] ∧
    instOps s n 0x1C = [] :=
  ⟨0, 5, opOf [(1, 0x1A), (16, 5), (18, 1)], inst5 { state := .frozen } [(1, 0x1A), (16, 5), (18, 1)],
   by decide +kernel,
   by decide +kernel,
   by decide +kernel,
   by decide +kernel,
   by decide +kernel,
   by decide +kernel,
   by decide +kernel,
   by decide +kernel,
   by decide +kernel⟩

theorem witness_InstancesAreResetFrozenAndThawed_12 : ∃ (n : Nat) (slot : Nat) (since : BitVec 64) (o : Op) (s : State),
    working s = true ∧
    (inst s n).thaw = some (slot, since) ∧
    (inst s n).state = .frozen ∧
    since < s.tick.count ∧
    opAt s 0 slot = some o ∧
    o.head = slot ∧
    o.done = none :=
  ⟨5, 0, 0, opOf [(1, 0x1A), (16, 5), (18, 1)], { inst5 { state := .frozen, thaw := some (0, 0) } [(1, 0x1A), (16, 5), (18, 1)] with tick := { up.tick with count := 1 } },
   by decide +kernel,
   by decide +kernel,
   by decide +kernel,
   by decide +kernel,
   by decide +kernel,
   by decide +kernel,
   by decide +kernel⟩

theorem witness_MailboxesAndMigration_1 : ∃ (n : Nat) (s : State),
    mailbox s n = true ∧
    (inst s n).outFull = false :=
  ⟨5, inst5 { state := .ready } [],
   by decide +kernel,
   by decide +kernel⟩

theorem witness_MailboxesAndMigration_2 : ∃ (n : Nat) (s : State),
    mailbox s n = true ∧
    (inst s n).outFull = true :=
  ⟨5, inst5 { state := .ready, outFull := true } [],
   by decide +kernel,
   by decide +kernel⟩

theorem witness_MailboxesAndMigration_3 : ∃ (n : Nat) (s : State),
    mailbox s n = true ∧
    (inst s n).inFull = false :=
  ⟨5, inst5 { state := .ready } [],
   by decide +kernel,
   by decide +kernel⟩

theorem witness_MailboxesAndMigration_4 : ∃ (n : Nat) (s : State),
    mailbox s n = true ∧
    (inst s n).inFull = true :=
  ⟨5, inst5 { state := .ready, inFull := true } [],
   by decide +kernel,
   by decide +kernel⟩

theorem witness_MailboxesAndMigration_5 : ∃ (n : Nat) (off : Nat) (inbound : Bool) (s : State),
    mailbox s n = true ∧
    off < 2048 ∧
    off % 4 = 0 ∧
    (if inbound then (inst s n).inFull else (inst s n).outFull) = false :=
  ⟨5, 2044, false, inst5 { state := .ready } [],
   by decide +kernel,
   by decide +kernel,
   by decide +kernel,
   by decide +kernel⟩

theorem witness_MailboxesAndMigration_6 : ∃ (n : Nat) (inbound : Bool) (s : State),
    (if inbound then (inst s n).inFull else (inst s n).outFull) = true :=
  ⟨5, false, inst5 { state := .ready, outFull := true } [],
   by decide +kernel⟩

theorem witness_MailboxesAndMigration_7 : ∃ (slot : Nat) (n : Nat) (k : Nat) (o : Op) (plain : List Byte) (s : State) (s1 : State),
    working s = true ∧
    waitsAt s slot 0x1B o ∧
    ef o.entry 18 1 = 0 ∧
    runOf s (opKey 0 slot) = none ∧
    n = bodyInst o.entry ∧
    saveRefused s o.entry n 0 (96 + (stateBody s n).length) = false ∧
    ef o.entry 19 1 % 2 = 1 ∧
    k = ef o.entry 20 2 - 1 ∧
    chargeWaits s k = false ∧
    plain = partHeader s n 0 0 0 (stateBody s n).length ++ stateBody s n ∧
    charge k (sealBlocks (keySlot s k) plain.length) (markStarted 0 slot s) = (s1, true) :=
  ⟨0, 5, 1, opOf (saveFs 0), partHeader (savePart 0) 5 0 0 0 (stateBody (savePart 0) 5).length ++ stateBody (savePart 0) 5, savePart 0, (charge 1 (sealBlocks (keySlot (savePart 0) 1) (partHeader (savePart 0) 5 0 0 0 (stateBody (savePart 0) 5).length ++ stateBody (savePart 0) 5).length) (markStarted 0 0 (savePart 0))).1,
   by decide +kernel,
   by decide +kernel,
   by decide +kernel,
   by decide +kernel,
   by decide +kernel,
   by decide +kernel,
   by decide +kernel,
   by decide +kernel,
   by decide +kernel,
   rfl,
   pair_eq (by decide +kernel)⟩

theorem witness_MailboxesAndMigration_8 : ∃ (slot : Nat) (n : Nat) (k : Nat) (part : Nat) (first : Nat) (count : Nat) (o : Op) (plain : List Byte) (s : State) (s1 : State),
    working s = true ∧
    waitsAt s slot 0x1B o ∧
    part = ef o.entry 18 1 ∧
    part ≠ 0 ∧
    runOf s (opKey 0 slot) = none ∧
    n = bodyInst o.entry ∧
    first = ef o.entry 24 4 ∧
    count = ef o.entry 28 4 ∧
    count ≠ 0 ∧
    saveRefused s o.entry n part (96 + count * granuleBytes) = false ∧
    ef o.entry 19 1 % 2 = 1 ∧
    k = ef o.entry 20 2 - 1 ∧
    chargeWaits s k = false ∧
    plain = partHeader s n part first count (memBody s n part first count).1.length ++ (memBody s n part first count).1 ∧
    charge k (sealBlocks (keySlot s k) plain.length) (markStarted 0 slot s) = (s1, true) :=
  ⟨0, 5, 1, 1, 0, 1, opOf (saveFs 1), partHeader (savePart 1) 5 1 0 1 (memBody (savePart 1) 5 1 0 1).1.length ++ (memBody (savePart 1) 5 1 0 1).1, savePart 1, (charge 1 saveBlocks (markStarted 0 0 (savePart 1))).1,
   by decide +kernel,
   by decide +kernel,
   by decide +kernel,
   by decide +kernel,
   by decide +kernel,
   by decide +kernel,
   by decide +kernel,
   by decide +kernel,
   by decide +kernel,
   by decide +kernel,
   by decide +kernel,
   by decide +kernel,
   by decide +kernel,
   rfl,
   (by rw [List.length_append, header_length, mem_length _ _ _ _ _ 1 _ rfl (by decide +kernel), show sealBlocks (keySlot (savePart 1) 1) (64 + granuleBytes) = saveBlocks from by decide +kernel]; exact pair_eq (by decide +kernel))⟩

theorem witness_MailboxesAndMigration_9 : ∃ (slot : Nat) (part : Nat) (o : Op) (s : State),
    working s = true ∧
    waitsAt s slot 0x1B o ∧
    part = ef o.entry 18 1 ∧
    part ≠ 0 ∧
    runOf s (opKey 0 slot) = none ∧
    ef o.entry 28 4 = 0 :=
  ⟨0, 1, opOf [(1, 0x1B), (16, 5), (18, 1)], inst5 { state := .frozen } [(1, 0x1B), (16, 5), (18, 1)],
   by decide +kernel,
   by decide +kernel,
   by decide +kernel,
   by decide +kernel,
   by decide +kernel,
   by decide +kernel⟩

theorem witness_MailboxesAndMigration_10 : ∃ (slot : Nat) (n : Nat) (sa : Nat) (va : Nat) (len : Nat) (reads : NMap (BitVec 128)) (table : List (BitVec 128)) (o : Op) (o' : Op) (pages : List PageMap) (blob : List Byte) (plain : List Byte) (pad : Nat) (b : StateBody) (s : State) (s1 : State) (s2 : State) (s3 : State),
    working s = true ∧
    waitsAt s slot 0x1C o ∧
    ef o.entry 18 1 = 0 ∧
    n = bodyInst o.entry ∧
    sa = ef o.entry 20 2 ∧
    va = ef o.entry 40 8 ∧
    len = ef o.entry 48 8 ∧
    96 ≤ len ∧
    targetBad s n = false ∧
    instOps s n 0x1C = [] ∧
    saSpent s sa = false ∧
    tierGcm s sa 3 = true ∧
    chargeWaits s (sa - 1) = false ∧
    movePages (ef o.entry 32 4 % 2 ^ 20) va len { read := true } reads (markStarted 0 slot s) = .ok s1 pages ∧
    readRange s1 (opKey 0 slot) pages va len = .got blob false ∧
    charge (sa - 1) (sealBlocks (keySlot s1 (sa - 1)) (openLen 4 len)) s1 = (s2, true) ∧
    s3 = cryptCount (openLen 4 len) (muleMove false false true blob s2) ∧
    openBlob (keySlot s3 (sa - 1)) blob = (plain, pad, true) ∧
    headBad s3 0 plain = false ∧
    readBody (plain.drop 64) = some b ∧
    table.take (ef o.entry 36 2) = [] ∧
    bodyRefused s3 n b [] = false ∧
    bodyOverQuota s3 n b = false ∧
    opAt s3 0 slot = some o' ∧
    o'.head = slot ∧
    o'.done = none ∧
    unflushed s3 (.run (opKey 0 slot)) = [] :=
  ⟨0, 5, ef stateOp.entry 20 2, ef stateOp.entry 40 8, ef stateOp.entry 48 8, [], [], stateOp, op0 (opened stateOp stateBlob stateIn), kPages (blobPages stateOp stateIn), stateBlob, partOf 0 emptyRecord, 0, ⟨emptyRecord, [], [], []⟩, stateIn, blobState stateOp stateIn, charged stateOp stateIn, opened stateOp stateBlob stateIn,
   by decide +kernel,
   by decide +kernel,
   by decide +kernel,
   by decide +kernel,
   by decide +kernel,
   by decide +kernel,
   by decide +kernel,
   by decide +kernel,
   by decide +kernel,
   by decide +kernel,
   by decide +kernel,
   by decide +kernel,
   by decide +kernel,
   pages_eq _ _ (by decide +kernel),
   of_readGives _ _ (by decide +kernel),
   charged_eq _ _ (by decide +kernel),
   opened_eq _ _ _,
   openBlob_of _ _ _ (by decide +kernel) (by decide +kernel) state_text state_tag,
   by decide +kernel,
   by decide +kernel,
   by decide +kernel,
   by decide +kernel,
   by decide +kernel,
   by decide +kernel,
   by decide +kernel,
   by decide +kernel,
   by decide +kernel⟩

theorem witness_MailboxesAndMigration_11 : ∃ (slot : Nat) (n : Nat) (sa : Nat) (va : Nat) (len : Nat) (part : Nat) (first : Nat) (count : Nat) (reads : NMap (BitVec 128)) (o : Op) (o' : Op) (pages : List PageMap) (blob : List Byte) (plain : List Byte) (pad : Nat) (s : State) (s1 : State) (s2 : State) (s3 : State),
    working s = true ∧
    waitsAt s slot 0x1C o ∧
    part = ef o.entry 18 1 ∧
    part ≠ 0 ∧
    n = bodyInst o.entry ∧
    sa = ef o.entry 20 2 ∧
    va = ef o.entry 40 8 ∧
    len = ef o.entry 48 8 ∧
    96 ≤ len ∧
    (inst s n).state = .frozen ∧
    (inst s n).restored = true ∧
    saSpent s sa = false ∧
    tierGcm s sa 3 = true ∧
    chargeWaits s (sa - 1) = false ∧
    windowStalls s n part = false ∧
    movePages (ef o.entry 32 4 % 2 ^ 20) va len { read := true } reads (markStarted 0 slot s) = .ok s1 pages ∧
    readRange s1 (opKey 0 slot) pages va len = .got blob false ∧
    charge (sa - 1) (sealBlocks (keySlot s1 (sa - 1)) (openLen 4 len)) s1 = (s2, true) ∧
    s3 = cryptCount (openLen 4 len) (muleMove false false true blob s2) ∧
    openBlob (keySlot s3 (sa - 1)) blob = (plain, pad, true) ∧
    headBad s3 part plain = false ∧
    first = leAt plain 24 4 ∧
    count = leAt plain 28 4 ∧
    leAt plain 8 8 = (inst s3 n).migrationId.toNat ∧
    leAt plain 40 8 = count * granuleBytes ∧
    first + count ≤ (instWindow s3 n (part - 1)).length ∧
    opAt s3 0 slot = some o' ∧
    o'.head = slot ∧
    o'.done = none ∧
    unflushed s3 (.run (opKey 0 slot)) = [] :=
  ⟨0, 5, ef memoryOp.entry 20 2, ef memoryOp.entry 40 8, ef memoryOp.entry 48 8, ef memoryOp.entry 18 1, 0, 0, [], memoryOp, op0 (opened memoryOp memoryBlob memoryIn), kPages (blobPages memoryOp memoryIn), memoryBlob, partOf 1 [], 0, memoryIn, blobState memoryOp memoryIn, charged memoryOp memoryIn, opened memoryOp memoryBlob memoryIn,
   by decide +kernel,
   by decide +kernel,
   by decide +kernel,
   by decide +kernel,
   by decide +kernel,
   by decide +kernel,
   by decide +kernel,
   by decide +kernel,
   by decide +kernel,
   by decide +kernel,
   by decide +kernel,
   by decide +kernel,
   by decide +kernel,
   by decide +kernel,
   by decide +kernel,
   pages_eq _ _ (by decide +kernel),
   of_readGives _ _ (by decide +kernel),
   charged_eq _ _ (by decide +kernel),
   opened_eq _ _ _,
   openBlob_of _ _ _ (by decide +kernel) (by decide +kernel) memory_text memory_tag,
   by decide +kernel,
   by decide +kernel,
   by decide +kernel,
   by decide +kernel,
   by decide +kernel,
   by decide +kernel,
   by decide +kernel,
   by decide +kernel,
   by decide +kernel,
   by decide +kernel⟩

theorem witness_MailboxesAndMigration_12 : ∃ (slot : Nat) (o : Op) (s : State),
    working s = true ∧
    waitsAt s slot 0x1C o ∧
    ef o.entry 18 1 = 0 ∧
    ef o.entry 48 8 ≠ 0 ∧
    targetBad s (bodyInst o.entry) = true :=
  ⟨0, opOf [(1, 0x1C), (16, 5), (48, 160)], inst5 { state := .frozen } [(1, 0x1C), (16, 5), (48, 160)],
   by decide +kernel,
   by decide +kernel,
   by decide +kernel,
   by decide +kernel,
   by decide +kernel⟩

theorem witness_FirmwareActionsRunAndEnd_1 : ∃ (c : Instr) (a : FwAction) (s : State),
    (c, a) ∈ [(.fwVerify, .verify), (.fwInstall, .install), (.commitSvn, .commitSvn), (.lcChange, .lcChange), (.kekInstall, .kekInstall)] ∧
    fwServed s = true ∧
    s.fw.boot = .ready ∧
    s.fw.action = none ∧
    s.fw.deferred = none ∧
    bantamBusy s 0 = false ∧
    ((a = .verify ∨ a = .install → stageLen s ≠ 0)) ∧
    ((a = .lcChange → stageLen s = 8340)) ∧
    ((a = .kekInstall → stageLen s = 6724 ∧ s.sec.lc = .deployed)) :=
  ⟨.fwVerify, .verify, putReg Reg.GX_FW_STAGE_LEN 5332 up,
   by decide +kernel,
   by decide +kernel,
   by decide +kernel,
   by decide +kernel,
   by decide +kernel,
   by decide +kernel,
   by decide +kernel,
   by decide +kernel,
   by decide +kernel⟩

theorem witness_FirmwareActionsRunAndEnd_1b : ∃ (c : Instr) (a : FwAction) (s : State),
    (c, a) ∈ [(.fwVerify, .verify), (.fwInstall, .install), (.commitSvn, .commitSvn), (.lcChange, .lcChange), (.kekInstall, .kekInstall)] ∧
    fwServed s = true ∧
    s.fw.boot = .ready ∧
    s.fw.action = none ∧
    s.fw.deferred = none ∧
    bantamBusy s 0 = false ∧
    ((a = .verify ∨ a = .install → stageLen s ≠ 0)) ∧
    ((a = .lcChange → stageLen s = 8340)) ∧
    ((a = .kekInstall → stageLen s = 6724 ∧ s.sec.lc = .deployed)) :=
  ⟨.kekInstall, .kekInstall, putReg Reg.GX_FW_STAGE_LEN 6724 { up with sec := { up.sec with lc := .deployed } },
   by decide +kernel,
   by decide +kernel,
   by decide +kernel,
   by decide +kernel,
   by decide +kernel,
   by decide +kernel,
   by decide +kernel,
   by decide +kernel,
   by decide +kernel⟩

theorem witness_FirmwareActionsRunAndEnd_2 : ∃ (c : Instr) (s : State),
    c ∈ [.fwVerify, .fwInstall] ∧
    fwServed s = true ∧
    s.fw.action = none ∧
    s.fw.deferred = none ∧
    bantamBusy s 0 = false ∧
    s.fw.boot = .ready ∧
    stageLen s = 0 :=
  ⟨.fwInstall, up,
   by decide +kernel,
   by decide +kernel,
   by decide +kernel,
   by decide +kernel,
   by decide +kernel,
   by decide +kernel,
   by decide +kernel⟩

theorem witness_FirmwareActionsRunAndEnd_3 : ∃ (c : Instr) (b : Nat) (s : State),
    c ∈ [.fwVerify, .fwInstall, .commitSvn, .lcChange, .kekInstall, .activateRolling, .activateWarm, .restartBantam b] ∧
    fwServed s = true ∧
    (s.fw.action ≠ none ∨ s.fw.deferred ≠ none) :=
  ⟨.restartBantam 6, 6, acting .verify,
   by decide +kernel,
   by decide +kernel,
   by decide +kernel⟩

theorem witness_FirmwareActionsRunAndEnd_4 : ∃ (s : State),
    fwServed s = true ∧
    s.fw.boot = .ready ∧
    s.fw.action = none ∧
    s.fw.deferred = none ∧
    s.fw.restarting = none ∧
    s.fw.waiting = [] ∧
    s.fw.pending = true ∧
    s.fw.features.getLsbD 0 = true ∧
    domainBars s = false ∧
    s.pw.emergency = false :=
  ⟨{ up with fw := { up.fw with pending := true, features := 1 } },
   by decide +kernel,
   by decide +kernel,
   by decide +kernel,
   by decide +kernel,
   by decide +kernel,
   by decide +kernel,
   by decide +kernel,
   by decide +kernel,
   by decide +kernel,
   by decide +kernel⟩

theorem witness_FirmwareActionsRunAndEnd_5 : ∃ (s : State),
    fwServed s = true ∧
    s.fw.boot = .ready ∧
    s.fw.action = none ∧
    s.fw.deferred = none ∧
    bantamBusy s 0 = false ∧
    s.fw.pending = true ∧
    domainBars s = false ∧
    s.pw.emergency = false ∧
    s.fw.coldDue = false :=
  ⟨{ up with fw := { up.fw with pending := true } },
   by decide +kernel,
   by decide +kernel,
   by decide +kernel,
   by decide +kernel,
   by decide +kernel,
   by decide +kernel,
   by decide +kernel,
   by decide +kernel,
   by decide +kernel⟩

theorem witness_FirmwareActionsRunAndEnd_6 : ∃ (c : Instr) (a : FwAction) (s : State),
    (c, a) ∈ [(.activateRolling, .activateRolling), (.activateWarm, .activateWarm)] ∧
    fwServed s = true ∧
    s.fw.boot = .ready ∧
    s.fw.action = none ∧
    s.fw.deferred = none ∧
    bantamBusy s 0 = false ∧
    s.fw.pending = true ∧
    s.fw.features.getLsbD 0 = true ∧
    domainBars s = false ∧
    s.pw.emergency = true :=
  ⟨.activateWarm, .activateWarm, { up with fw := { up.fw with pending := true, features := 1 }, pw := { up.pw with emergency := true } },
   by decide +kernel,
   by decide +kernel,
   by decide +kernel,
   by decide +kernel,
   by decide +kernel,
   by decide +kernel,
   by decide +kernel,
   by decide +kernel,
   by decide +kernel,
   by decide +kernel⟩

theorem witness_FirmwareActionsRunAndEnd_7 : ∃ (s : State),
    fwServed s = true ∧
    s.fw.deferred = some .activateWarm ∧
    s.pw.emergency = false ∧
    s.fw.boot = .ready ∧
    s.fw.coldDue = false :=
  ⟨{ up with fw := { up.fw with deferred := some .activateWarm } },
   by decide +kernel,
   by decide +kernel,
   by decide +kernel,
   by decide +kernel,
   by decide +kernel⟩

theorem witness_FirmwareActionsRunAndEnd_8 : ∃ (b : Nat) (s : State),
    fwServed s = true ∧
    s.fw.boot = .ready ∧
    s.fw.action = none ∧
    s.fw.deferred = none ∧
    s.fw.restarting = none ∧
    s.fw.waiting = [] ∧
    b < 6 :=
  ⟨5, up,
   by decide +kernel,
   by decide +kernel,
   by decide +kernel,
   by decide +kernel,
   by decide +kernel,
   by decide +kernel,
   by decide +kernel⟩

theorem witness_FirmwareActionsRunAndEnd_9 : ∃ (b : Nat) (s : State),
    fwServed s = true ∧
    s.fw.boot = .ready ∧
    s.fw.action = none ∧
    s.fw.deferred = none ∧
    bantamBusy s 0 = false ∧
    6 ≤ b :=
  ⟨6, up,
   by decide +kernel,
   by decide +kernel,
   by decide +kernel,
   by decide +kernel,
   by decide +kernel,
   by decide +kernel⟩

theorem witness_FirmwareActionsRunAndEnd_10 : ∃ (x : FwEnd) (r : Nat × Nat) (s : State),
    fwServed s = true ∧
    s.fw.action = some .verify ∧
    r = bundleCheck s x.bytes x.verdict :=
  ⟨{ bytes := bundleBytes }, (0, 0), acting .verify,
   by decide +kernel,
   by decide +kernel,
   by decide +kernel⟩

theorem witness_FirmwareActionsRunAndEnd_11 : ∃ (x : FwEnd) (s : State),
    fwServed s = true ∧
    s.fw.action = some .install ∧
    bundleCheck s x.bytes x.verdict = (0, 0) :=
  ⟨{ bytes := bundleBytes }, acting .install,
   by decide +kernel,
   by decide +kernel,
   by decide +kernel⟩

theorem witness_FirmwareActionsRunAndEnd_12 : ∃ (u : Bundle) (s : State),
    fwServed s = true ∧
    s.fw.action = some .commitSvn ∧
    activeBundle s = some u :=
  ⟨bundle, acting .commitSvn,
   by decide +kernel,
   by decide +kernel,
   by decide +kernel⟩

theorem witness_FirmwareActionsRunAndEnd_13 : ∃ (x : FwEnd) (s : State),
    fwServed s = true ∧
    s.fw.action = some .lcChange ∧
    drbgReady s = true ∧
    tokenCheck s x.bytes x.verdict ≠ 0 :=
  ⟨{ bytes := tokenOf 0 }, tokened,
   by decide +kernel,
   by decide +kernel,
   by decide +kernel,
   by decide +kernel⟩

theorem witness_FirmwareActionsRunAndEnd_14 : ∃ (x : FwEnd) (s : State),
    fwServed s = true ∧
    s.fw.action = some .lcChange ∧
    drbgReady s = true ∧
    tokenCheck s x.bytes x.verdict = 0 ∧
    leAt x.bytes 7 1 ≠ lcCode s.sec.lc ∧
    s.q.rings = [] :=
  ⟨{ bytes := tokenOf 2 }, tokened,
   by decide +kernel,
   by decide +kernel,
   by decide +kernel,
   by decide +kernel,
   by decide +kernel,
   by decide +kernel⟩

theorem witness_FirmwareActionsRunAndEnd_15 : ∃ (x : FwEnd) (s : State),
    fwServed s = true ∧
    s.fw.action = some .kekInstall ∧
    kekCheck s x.bytes x.verdict = 0 ∧
    x.flashOk = true :=
  ⟨{ bytes := kekBytes }, acting .kekInstall,
   by decide +kernel,
   by decide +kernel,
   by decide +kernel,
   by decide +kernel⟩

theorem witness_FirmwareServesTheAdapter_1 : ∃ (b : Nat) (s : State),
    powered s = true ∧
    s.fw.boot = .ready ∧
    s.fw.restarting = some b ∧
    s.fw.restartRoll = false ∧
    s.fw.dogs = [] ∧
    s.fw.action = some .restartBantam ∧
    s.fw.target = b ∧
    s.fw.waiting = [] ∧
    s.fw.roll = none ∧
    s.fw.outbox = [] ∧
    s.re.captured = [] :=
  ⟨3, { acting .restartBantam with fw := { (acting .restartBantam).fw with restarting := some 3, target := 3 } },
   by decide +kernel,
   by decide +kernel,
   by decide +kernel,
   by decide +kernel,
   by decide +kernel,
   by decide +kernel,
   by decide +kernel,
   by decide +kernel,
   by decide +kernel,
   by decide +kernel,
   by decide +kernel⟩

theorem witness_FirmwareServesTheAdapter_2 : ∃ (b : Nat) (s : State),
    powered s = true ∧
    s.fw.boot = .ready ∧
    s.fw.restarting = some b ∧
    s.fw.restartRoll = false ∧
    s.gl.fatalHalt = false ∧
    s.re.dumping = false :=
  ⟨3, { up with fw := { up.fw with restarting := some 3 } },
   by decide +kernel,
   by decide +kernel,
   by decide +kernel,
   by decide +kernel,
   by decide +kernel,
   by decide +kernel⟩

theorem witness_FirmwareServesTheAdapter_3 : ∃ (b : Nat) (s : State),
    powered s = true ∧
    s.fw.boot = .ready ∧
    asleep s = false ∧
    s.gl.fatalHalt = false ∧
    b < 6 ∧
    s.fw.restarting = none ∧
    s.fw.waiting = [] ∧
    mapGet s.fw.lastEnd b = none :=
  ⟨5, up,
   by decide +kernel,
   by decide +kernel,
   by decide +kernel,
   by decide +kernel,
   by decide +kernel,
   by decide +kernel,
   by decide +kernel,
   by decide +kernel⟩

theorem witness_FirmwareServesTheAdapter_4 : ∃ (b : Nat) (ms : Nat) (e : Nat) (s : State),
    powered s = true ∧
    s.fw.boot = .ready ∧
    asleep s = false ∧
    s.gl.fatalHalt = false ∧
    b < 6 ∧
    s.fw.restarting = none ∧
    s.fw.waiting = [] ∧
    mapGet s.fw.lastEnd b = some e ∧
    ms ≤ e + 1000 ∧
    s.fw.roll = none ∧
    s.re.dumping = false :=
  ⟨5, 1100, 100, { up with fw := { up.fw with lastEnd := [(5, 100)] } },
   by decide +kernel,
   by decide +kernel,
   by decide +kernel,
   by decide +kernel,
   by decide +kernel,
   by decide +kernel,
   by decide +kernel,
   by decide +kernel,
   by decide +kernel,
   by decide +kernel,
   by decide +kernel⟩

theorem witness_FirmwareServesTheAdapter_5 : ∃ (m : List Byte) (u : Bundle) (high : Nat) (agreed : Nat) (feats : BitVec 64) (s : State),
    mailbox s 0 = true ∧
    (inst s 0).outFull = true ∧
    (inst s 0).inFull = true ∧
    bantamBusy s 0 = false ∧
    activeBundle s = some u ∧
    m = ((List.range 8).map (fun i => leBytes 4 ((mapGet (inst s 0).mboxOut (4 * i)).getD 0).toNat)).flatten ∧
    leAt m 0 2 = 0x0101 ∧
    leAt m 2 2 = 16 ∧
    high = min (leAt m 18 2) u.ifaceHigh ∧
    agreed = (if max (leAt m 16 2) u.ifaceLow ≤ high then high else 0) ∧
    feats = BitVec.ofNat 64 (leAt m 24 8) &&& u.features :=
  ⟨((List.range 8).map (fun i => leBytes 4 ((mapGet helloWords (4 * i)).getD 0).toNat)).flatten, bundle, 2, 2, 0xF, greeting,
   by decide +kernel,
   by decide +kernel,
   by decide +kernel,
   by decide +kernel,
   by decide +kernel,
   by decide +kernel,
   by decide +kernel,
   by decide +kernel,
   by decide +kernel,
   by decide +kernel,
   by decide +kernel⟩

theorem witness_FirmwareServesTheAdapter_6 : ∃ (s : State),
    running s = true ∧
    s.fw.joined = false ∧
    joinUnmet s = 0 :=
  ⟨{ home with tick := { home.tick with align := .aligned }, fw := { (acting .verify).fw with agreed := 3 } },
   by decide +kernel,
   by decide +kernel,
   by decide +kernel⟩

theorem witness_FirmwareServesTheAdapter_7 : ∃ (s : State),
    running s = true ∧
    s.fw.joined = false ∧
    joinUnmet s = 16 ∧
    s.fw.refused = false :=
  ⟨putReg Reg.GX_FW_REQUIRED_RELEASE 2 (putReg Reg.GX_FW_DOMAIN_NODES 1000 { home with tick := { home.tick with align := .aligned }, fw := { (acting .verify).fw with agreed := 3, hello := none } }),
   by decide +kernel,
   by decide +kernel,
   by decide +kernel,
   by decide +kernel⟩

theorem witness_FirmwareServesTheAdapter_8 : ∃ (s : State),
    running s = true ∧
    s.fw.joined = false ∧
    joinUnmet s ≠ 0 ∧
    joinUnmet s ≠ 16 :=
  ⟨up,
   by decide +kernel,
   by decide +kernel,
   by decide +kernel,
   by decide +kernel⟩

theorem witness_FirmwareServesTheAdapter_9 : ∃ (s : State),
    running s = true ∧
    s.fw.joined = true ∧
    anySlot s = false :=
  ⟨{ up with fw := { up.fw with joined := true } },
   by decide +kernel,
   by decide +kernel,
   by decide +kernel⟩

theorem witness_FirmwareServesTheAdapter_10 : ∃ (s : State),
    windowUp s = true :=
  ⟨up,
   by decide +kernel⟩

theorem witness_FirmwareServesTheAdapter_11 : ∃ (ms : Nat) (limit : Nat) (s : State),
    running s = true ∧
    s.fw.features.getLsbD 3 = true ∧
    limit = wfld (rg s Reg.GX_FW_HEARTBEAT) 31 16 ∧
    limit ≠ 0 ∧
    s.fw.beatAt + limit ≤ ms :=
  ⟨5, 5, putReg Reg.GX_FW_HEARTBEAT 0x50000 { up with fw := { up.fw with features := 8 } },
   by decide +kernel,
   by decide +kernel,
   by decide +kernel,
   by decide +kernel,
   by decide +kernel⟩

theorem witness_FirmwareServesTheAdapter_12 : ∃ (s : State),
    powered s = true ∧
    s.sec.drbgStopped = false ∧
    2 ^ 20 ≤ s.sec.drbgSince :=
  ⟨{ up with sec := { up.sec with drbgSince := 2 ^ 20 } },
   by decide +kernel,
   by decide +kernel,
   by decide +kernel⟩

theorem witness_SpdmRequestsAreAnswered_1 : ∃ (c : Instr) (hst : Bool) (g : Bool) (a : Nat) (b : Nat) (l : Nat) (n : Nat) (s : State),
    c ∈ [.getVersion hst, .getCapabilities hst a, .negotiateAlgorithms hst g, .getDigests hst, .getCertificate hst a b l, .challenge hst a, .getMeasurements hst a, .keyExchange hst a n, .finish hst n g, .heartbeat hst n, .keyUpdate hst n, .endSession hst n, .spdmUnsupportedRequest hst] ∧
    spdmServed s hst = true ∧
    bantamBusy s 0 = true :=
  ⟨.challenge false 3, false, false, 3, 0, 0, 0, { up with fw := { up.fw with restarting := some 0 } },
   by decide +kernel,
   by decide +kernel,
   by decide +kernel⟩

theorem witness_SpdmRequestsAreAnswered_2 : ∃ (hst : Bool) (s : State),
    spdmServed s hst = true ∧
    bantamBusy s 0 = false :=
  ⟨false, up,
   by decide +kernel,
   by decide +kernel⟩

theorem witness_SpdmRequestsAreAnswered_3 : ∃ (hst : Bool) (v : Nat) (s : State),
    spdmServed s hst = true ∧
    bantamBusy s 0 = false ∧
    s.spdm.version ≠ 0 ∧
    (v = 0x12 ∨ v = 0x13) :=
  ⟨false, 0x13, { up with spdm := { version := 1 } },
   by decide +kernel,
   by decide +kernel,
   by decide +kernel,
   by decide +kernel⟩

theorem witness_SpdmRequestsAreAnswered_4 : ∃ (hst : Bool) (s : State),
    spdmServed s hst = true ∧
    bantamBusy s 0 = false ∧
    s.spdm.gotCapabilities = true :=
  ⟨false, { up with spdm := { version := 1, gotCapabilities := true } },
   by decide +kernel,
   by decide +kernel,
   by decide +kernel⟩

theorem witness_SpdmRequestsAreAnswered_5 : ∃ (c : Instr) (r : SpdmReply) (hst : Bool) (a : Nat) (b : Nat) (i : Nat) (s : State),
    (c, r) ∈ [(.getDigests hst, .digests 1), (.getCertificate hst 0 a b, .certificate 0 a b), (.challenge hst 0, .challengeAuth 0), (.getMeasurements hst 0, .measurements [(0, [7])]), (.getMeasurements hst 0xFF, .measurements ([1, 2, 3, 4, 5, 6, 7].map (fun k => (k, measureBlock s k)))), (.getMeasurements hst (i % 7 + 1), .measurements [(i % 7 + 1, measureBlock s (i % 7 + 1))])] ∧
    spdmServed s hst = true ∧
    bantamBusy s 0 = false ∧
    s.spdm.negotiated = true :=
  ⟨.getMeasurements false 5, .measurements [(4 % 7 + 1, measureBlock { up with spdm := { negotiated := true } } (4 % 7 + 1))], false, 0, 0, 4, { up with spdm := { negotiated := true } },
   by decide +kernel,
   by decide +kernel,
   by decide +kernel,
   by decide +kernel⟩

theorem witness_SpdmRequestsAreAnswered_6 : ∃ (c : Instr) (hst : Bool) (a : Nat) (b : Nat) (l : Nat) (n : Nat) (s : State),
    c ∈ [.getDigests hst, .getCertificate hst a b l, .challenge hst a, .getMeasurements hst a, .keyExchange hst a n] ∧
    spdmServed s hst = true ∧
    bantamBusy s 0 = false ∧
    s.spdm.negotiated = false :=
  ⟨.getDigests false, false, 0, 0, 0, 0, up,
   by decide +kernel,
   by decide +kernel,
   by decide +kernel,
   by decide +kernel⟩

theorem witness_SpdmRequestsAreAnswered_7 : ∃ (hst : Bool) (s : State),
    spdmServed s hst = true ∧
    bantamBusy s 0 = false ∧
    s.spdm.negotiated = true :=
  ⟨false, { up with spdm := { negotiated := true } },
   by decide +kernel,
   by decide +kernel,
   by decide +kernel⟩

theorem witness_SpdmRequestsAreAnswered_8 : ∃ (hst : Bool) (n : Nat) (s : State),
    spdmServed s hst = true ∧
    bantamBusy s 0 = false ∧
    mapGet s.spdm.sessions n = some false :=
  ⟨false, 1, { up with spdm := { negotiated := true, sessions := [(1, false)] } },
   by decide +kernel,
   by decide +kernel,
   by decide +kernel⟩

theorem witness_SpdmRequestsAreAnswered_9 : ∃ (hst : Bool) (n : Nat) (s : State),
    spdmServed s hst = true ∧
    bantamBusy s 0 = false ∧
    mapGet s.spdm.sessions n = some true :=
  ⟨false, 1, { up with spdm := { negotiated := true, sessions := [(1, true)] } },
   by decide +kernel,
   by decide +kernel,
   by decide +kernel⟩

theorem witness_SpdmRequestsAreAnswered_10 : ∃ (hst : Bool) (n : Nat) (s : State),
    spdmServed s hst = true ∧
    bantamBusy s 0 = false ∧
    mapGet s.spdm.sessions n = some true :=
  ⟨false, 1, { up with spdm := { negotiated := true, sessions := [(1, true)] } },
   by decide +kernel,
   by decide +kernel,
   by decide +kernel⟩

theorem witness_SpdmRequestsAreAnswered_11 : ∃ (hst : Bool) (n : Nat) (s : State),
    spdmServed s hst = true ∧
    bantamBusy s 0 = false ∧
    mapGet s.spdm.sessions n = some true :=
  ⟨false, 1, { up with spdm := { negotiated := true, sessions := [(1, true)] } },
   by decide +kernel,
   by decide +kernel,
   by decide +kernel⟩

theorem witness_SpdmRequestsAreAnswered_12 : ∃ (hst : Bool) (s : State),
    spdmServed s hst = true ∧
    bantamBusy s 0 = false :=
  ⟨false, up,
   by decide +kernel,
   by decide +kernel⟩

theorem witness_SpdmRequestsAreAnswered_13 : ∃ (s : State),
    running s = true ∧
    bantamBusy s 0 = false :=
  ⟨up,
   by decide +kernel,
   by decide +kernel⟩

theorem witness_PowerFollowsItsInputs_1 : ∃ (target : PowerState) (s : State),
    powered s = true ∧
    asleep s = true ∧
    s.pw.exit = some target :=
  ⟨.ps0, { up with pw := { up.pw with ps := .ps3, exit := some .ps0 } },
   by decide +kernel,
   by decide +kernel,
   by decide +kernel⟩

theorem witness_PowerFollowsItsInputs_2 : ∃ (off : Nat) (s : State),
    powered s = true ∧
    asleep s = true ∧
    answersAsleep off = false :=
  ⟨0x20000, { up with pw := { up.pw with ps := .ps4 } },
   by decide +kernel,
   by decide +kernel,
   by decide +kernel⟩

theorem witness_PowerFollowsItsInputs_3 : ∃ (d : Nat) (s : State),
    running s = true ∧
    d < 236 ∧
    alwaysOff s d = false ∧
    domainCond s d = .on ∧
    domainHeld s d = false :=
  ⟨136, up,
   by decide +kernel,
   by decide +kernel,
   by decide +kernel,
   by decide +kernel,
   by decide +kernel⟩

theorem witness_PowerFollowsItsInputs_4 : ∃ (d : Nat) (s : State),
    running s = true ∧
    d < 236 ∧
    alwaysOff s d = false ∧
    domainCond s d ≠ .on :=
  ⟨136, { up with dom := { up.dom with conds := [(136, .idle)] } },
   by decide +kernel,
   by decide +kernel,
   by decide +kernel,
   by decide +kernel⟩

theorem witness_PowerFollowsItsInputs_5 : ∃ (v : Word) (f : Nat) (s : State),
    running s = true ∧
    wfld v 1 0 = 1 ∧
    f = wfld v 27 16 ∧
    (flockOf s.lz.run f).isSome = true ∧
    s.dom.parkRun = none ∧
    resetAbove s f = false ∧
    bondedBeneath s f = [] ∧
    s.lz.unitActions = [] :=
  ⟨0x10001, 1, home,
   by decide +kernel,
   by decide +kernel,
   by decide +kernel,
   by decide +kernel,
   by decide +kernel,
   by decide +kernel,
   by decide +kernel,
   by decide +kernel⟩

theorem witness_PowerFollowsItsInputs_6 : ∃ (v : Word) (f : Nat) (s : State),
    running s = true ∧
    wfld v 1 0 = 2 ∧
    f = wfld v 27 16 ∧
    (flockOf s.lz.run f).isSome = true ∧
    s.dom.parkRun = none ∧
    resetAbove s f = false ∧
    bondedBeneath s f = [] ∧
    s.lz.unitActions = [] :=
  ⟨0x10002, 1, { home with dom := { home.dom with parked := [1] } },
   by decide +kernel,
   by decide +kernel,
   by decide +kernel,
   by decide +kernel,
   by decide +kernel,
   by decide +kernel,
   by decide +kernel,
   by decide +kernel⟩

theorem witness_PowerFollowsItsInputs_7 : ∃ (s : State),
    s.pins.pwrGood = true :=
  ⟨up,
   by decide +kernel⟩

theorem witness_PowerFollowsItsInputs_8 : ∃ (s : State),
    powered s = true ∧
    downTk s ≤ s.pw.thermalBelow ∧
    s.pw.powerBelow < downTk s :=
  ⟨{ up with pw := { up.pw with thermalBelow := 255 } },
   by decide +kernel,
   by decide +kernel,
   by decide +kernel⟩

theorem witness_PowerFollowsItsInputs_9 : ∃ (s : State),
    powered s = true ∧
    s.pw.emergency = false ∧
    emergencyCause s ≠ 0 :=
  ⟨{ up with pw := { up.pw with degC := 110 } },
   by decide +kernel,
   by decide +kernel,
   by decide +kernel⟩

theorem witness_PowerFollowsItsInputs_10 : ∃ (s : State),
    powered s = true ∧
    s.pw.emergency = true ∧
    256 ≤ s.pw.clearTicks ∧
    s.pw.degC < 105 :=
  ⟨{ up with pw := { up.pw with emergency := true, cause := 1, clearTicks := 256, degC := 104 } },
   by decide +kernel,
   by decide +kernel,
   by decide +kernel,
   by decide +kernel⟩

theorem witness_PowerFollowsItsInputs_11 : ∃ (degC : Nat) (s : State),
    powered s = true ∧
    120 ≤ degC :=
  ⟨120, up,
   by decide +kernel,
   by decide +kernel⟩

theorem witness_ExactSumsIgnoreTheOrder_1 : ∃ (n : Nat) (xs : List (List Byte)) (ys : List (List Byte)),
    xs.Perm ys ∧
    ((∀ x ∈ xs, x.length = n)) :=
  ⟨4, [[0, 0, 128, 63], [0, 0, 0, 64]], [[0, 0, 0, 64], [0, 0, 128, 63]],
   List.Perm.swap _ _ _,
   by decide +kernel⟩

theorem witness_EveryStepKeepsMemoryCanonical_1 : ∃ (s : State) (t : State),
    memoryOk s ∧
    step s = .next t :=
  ⟨home, home,
   by decide +kernel,
   rfl⟩

theorem witness_FusesNeverGoBack_1 : ∃ (s : State) (t : State),
    step s = .next t :=
  ⟨home, home,
   rfl⟩

/-! ### Effects against the worked examples of the specification -/

/-- The ASCII string of Table 14.2 and R198. -/
def digits : List Byte := [0x31, 0x32, 0x33, 0x34, 0x35, 0x36, 0x37, 0x38, 0x39]
/-- RESULT of a preset over it (Table 14.2, last column). -/
def presetResult (p : Nat) : Option Nat := (cvPreset p).map (fun q => cvResult q (digits.foldl (cvByte q) q.init))
theorem test_crc32 : presetResult 1 = some 0xCBF43926 := by decide +kernel
theorem test_crc32c : presetResult 2 = some 0xE3069283 := by decide +kernel
theorem test_crc64 : presetResult 3 = some 0x995DC9BBDF1939FA := by decide +kernel
theorem test_crc16 : presetResult 4 = some 0x2189 := by decide +kernel
/-- The cell check code of R198. -/
theorem test_cell_crc : crc32c digits = 0xE3069283 := by decide +kernel
/-- Table 14.4: the two bytes of the two units. -/
theorem test_check_value_steps :
    cvByte ⟨8, 7, 0, false, false, false⟩ 0 0x31 = 0x97 ∧ cvByte ⟨8, 7, 0, false, false, false⟩ 0x97 0x32 = 0x72 := by decide +kernel
/-- The fabric address of the example after R80. -/
theorem test_fabric_address :
    fabricAddr 680145 (granuleStart (4096 + 100) + 0x1234) = 0x14C1A24190001234 := by decide +kernel
/-- The group address of the example after R237. -/
theorem test_group_hash : groupHash 0x01005E123456 = 1339 := by decide +kernel
/-- The sums of the example after R327: exact, in rank order, and as an average. -/
def sumOf (redop : Nat) (fixed : Bool) : List Byte :=
  let c := { coll0 with redop := redop, fixed := fixed, active := [0, 1, 2, 3] }
  let xs := [leBytes 4 0x4B800000, leBytes 4 0x3F800000, leBytes 4 0x3F800000, leBytes 4 0xCB800000]
  (if fixed then fixedResult c xs else exactResult c xs).1
theorem test_exact_sum : sumOf 0 false = leBytes 4 0x40000000 := by decide +kernel
theorem test_fixed_sum : sumOf 0 true = leBytes 4 0 := by decide +kernel
theorem test_exact_average : sumOf 1 false = leBytes 4 0x3F000000 := by decide +kernel
/-- The Microscaling sum of the example after R328. -/
theorem test_mx_sum :
    (exactResult { coll0 with format := 0x14 } [[0x7F, 0x16, 0x0F] ++ List.replicate 14 0, [0x7E, 0x15, 0x0F] ++ List.replicate 14 0]).1
      = [0x80, 0x15, 0x0E] ++ List.replicate 14 0 := by decide +kernel

/-! ### Ill-formed commands are refused -/

theorem test_well_formed : (Instr.flrVf 511).wellFormed = true ∧ (Instr.coldReset true false false 0).wellFormed = true := by decide
theorem test_bad_port : (Instr.spareLaneSwap 32).wellFormed = false := by decide
theorem test_bad_align_port : (Instr.tickAlignCellReceive 4128 0 0).wellFormed = false := by decide
theorem test_bad_ptp_port : (Instr.ptpMessageReceive 33 none).wellFormed = false := by decide
theorem test_bad_acc : (Instr.accErrFatal 4).wellFormed = false := by decide
theorem test_bad_pcie : (Instr.pcieFlushComplete 5 false).wellFormed = false := by decide
theorem test_bad_pri : (Instr.xoffRepeat 0 8).wellFormed = false := by decide
theorem test_bad_ring : (Instr.entryAccept 32768).wellFormed = false := by decide
theorem test_bad_slot : (Instr.invalidate 65536).wellFormed = false := by decide
theorem test_bad_qpn : (Instr.recvComplete 65536).wellFormed = false := by decide
theorem test_bad_inst : (Instr.mbxOutPost 512).wellFormed = false := by decide
theorem test_bad_herd : (Instr.collectiveSlotAcquire 65536).wellFormed = false := by decide
theorem test_bad_flock : (Instr.bondForm 4096).wellFormed = false := by decide
theorem test_bad_key : (Instr.keyChangeApply 8192).wellFormed = false := by decide
theorem test_bad_granule : (Instr.granuleWipeDone 20480).wellFormed = false := by decide
theorem test_bad_bantam : (Instr.restartBantam 6).wellFormed = false := by decide
theorem test_bad_domain : (Instr.domainWake 236).wellFormed = false := by decide
theorem test_bad_offset : (Instr.commitWrite 2 0).wellFormed = false ∧ (Instr.commitWrite 0x06000000 0).wellFormed = false := by decide

/-! ### The row's interface -/

/-- No row of the table has bits: a word spells no command. -/
theorem test_no_words : decodeTableWord 32 0x12345678 = none ∧ State.reset.withFetchWord 32 0x12345678 = State.reset := by
  decide +kernel
/-- The block idles at reset: its queue is empty. -/
theorem test_reset_idles : step State.reset = .next State.reset := rfl

end Sys2Proof.Tests
end

section
/-! PROOFS. The length of a tick (R26): the two lengths that one PERIOD has, and which of them comes next. -/

namespace Sys2Proof.Machine

/-! ### The plain length of a tick -/

theorem plainTickClk_short (p : Nat) : plainTickClk p false = 375 * p / 2 := by
  unfold plainTickClk
  split
  · rw [Nat.mul_comm]
  · simp only [Bool.false_eq_true, if_false]; omega

theorem plainTickClk_long (p : Nat) : plainTickClk p true = (375 * p + 1) / 2 := by
  unfold plainTickClk
  split
  · omega
  · simp only [if_true]; omega

/-- Rounding down once and up once loses nothing. -/
theorem plainTickClk_add (p : Nat) : plainTickClk p false + plainTickClk p true = 375 * p := by
  rw [plainTickClk_short, plainTickClk_long]; omega

/-! ### The tick that begins -/

theorem beginTick_lengthClk (count : BitVec 64) (cut : Int) (s : State) :
    (beginTick count cut s).tick.lengthClk = ((plainTickClk (period s) s.tick.longNext : Int) - cut).toNat := rfl

/-- The longer tick comes next only under an odd PERIOD, after a shorter one. -/
theorem beginTick_longNext (count : BitVec 64) (cut : Int) (s : State) :
    (beginTick count cut s).tick.longNext = (period s % 2 == 1 && !s.tick.longNext) := by
  rcases Nat.mod_two_eq_zero_or_one (period s) with h | h
  · simp only [beginTick, h]; rfl
  · simp only [beginTick, h]; rfl

/-- A tick resized for a changed PERIOD is a shorter one, so the longer one of an odd PERIOD follows it. -/
theorem tickResize_longNext {old s : State} (h : period old ≠ period s) :
    (tickResize old s).tick.longNext = (period s % 2 == 1) := by
  unfold tickResize
  rw [if_neg h, beginTick_longNext]
  exact Bool.and_true _

/-- Settles O11: the two lengths are 375/2 times PERIOD rounded down and up, and each tick begun turns the choice. -/
theorem tickLengthAveragesThePeriod : Obligations.TickLengthAveragesThePeriod := by
  unfold Obligations.TickLengthAveragesThePeriod
  refine ⟨fun p _ => ⟨plainTickClk_add p, plainTickClk_short p, plainTickClk_long p⟩, fun now s => ?_,
    fun _ _ => tickResize_longNext, rfl⟩
  have hlen : (beginTick now 0 s).tick.lengthClk = plainTickClk (period s) s.tick.longNext := by
    rw [beginTick_lengthClk, Int.sub_zero, Int.toNat_natCast]
  exact ⟨hlen, beginTick_longNext now 0 s⟩

end Sys2Proof.Machine
end

section
/-! PROOFS. Pairs of a low and a high word (R28, R375, R395, R429, R461, R550): what a read of a _HI register returns,
and what the read of the low word leaves in its latch. -/

namespace Sys2Proof.Machine

/-! ### The position that a read reaches -/

/-- A field that reaches down to bit 0 and holds the whole value. -/
theorem wfld_of_lt {w : Word} {hi : Nat} (h : w.toNat < 2 ^ (hi + 1)) : wfld w hi 0 = w.toNat := by
  rw [wfld, fld, Nat.pow_zero, Nat.div_one, Nat.sub_zero, Nat.mod_eq_of_lt h]

/-- A position that one register selects: its value is the index part of the key. -/
theorem accessKey_index {s : State} {off r : Nat} {i : RegInfo} (hix : i.ix = [r]) (hoff : off < 2 ^ 32) :
    accessKey s off i / 2 ^ 32 = (rg s r).toNat := by
  simp only [accessKey, hix, List.isEmpty_cons, Bool.false_eq_true, if_false, regIndex, List.foldl_cons, List.foldl_nil,
    regKey]
  omega

/-- A window register whose status the state gives reads it. -/
theorem regRead_of_statusRead {s : State} {off : Nat} {i : RegInfo} {w : Word} (hoff : off < 0x200000)
    (hcnt : ¬(0x81000 ≤ off ∧ off < 0x85000)) (hi : regInfo off = some i)
    (hs : statusRead s off (accessKey s off i / 2 ^ 32) = some w.toNat) : regRead s off = w := by
  have hpage : pageOf off = none := if_neg (by omega)
  have hbuf : ¬(0x200000 ≤ off ∧ off < 0x400000) := by omega
  simp only [regRead, hpage, if_neg hcnt, if_neg hbuf, hi, hs, BitVec.ofNat_toNat, BitVec.setWidth_eq]

/-- An offset in page n. -/
theorem pageOf_page {o : Nat} (n : Nat) (ho : o < 0x10000) : pageOf (0x04000000 + o + 0x10000 * n) = some (n, o) := by
  have hge : 0x04000000 ≤ 0x04000000 + o + 0x10000 * n := by omega
  have hn : (0x04000000 + o + 0x10000 * n - 0x04000000) / 0x10000 = n := by omega
  have ho' : (0x04000000 + o + 0x10000 * n) % 0x10000 = o := by omega
  rw [pageOf, if_pos hge, hn, ho']

/-! ### A read of a _HI register returns its latch -/

@[simp] theorem regRead_tickCountHi (s : State) : regRead s Reg.GX_TICK_COUNT_HI = s.tick.hiLatch :=
  regRead_of_statusRead (by decide) (by decide) rfl rfl

@[simp] theorem regRead_atTokensHi (s : State) : regRead s Reg.GX_AT_TOKENS_HI = s.kn.tokensHi :=
  regRead_of_statusRead (by decide) (by decide) rfl rfl

@[simp] theorem regRead_pcMuleBytesHi (s : State) :
    regRead s Reg.GX_PC_MULE_BYTES_HI = (mapGet s.pc.latches Reg.GX_PC_MULE_BYTES_LO).getD 0 :=
  regRead_of_statusRead (by decide) (by decide) rfl rfl

@[simp] theorem regRead_ceBytesHi (s : State) : regRead s Reg.GX_CE_BYTES_HI = s.ce.bytesHi :=
  regRead_of_statusRead (by decide) (by decide) rfl rfl

@[simp] theorem regRead_ceSlotUsedHi (s : State) : regRead s Reg.GX_CE_SLOT_USED_HI = s.ce.usedHi :=
  regRead_of_statusRead (by decide) (by decide) rfl rfl

@[simp] theorem regRead_ceSlotLimitHi (s : State) : regRead s Reg.GX_CE_SLOT_LIMIT_HI = s.ce.limitHi :=
  regRead_of_statusRead (by decide) (by decide) rfl rfl

@[simp] theorem regRead_viMigrationIdHi (s : State) :
    regRead s Reg.GX_VI_MIGRATION_ID_HI = (inst s (rg s Reg.GX_VI_INDEX).toNat).migLatch :=
  regRead_of_statusRead (by decide) (by decide) rfl (by rw [accessKey_index rfl (by decide)]; rfl)

@[simp] theorem regRead_viFreezeEdgeHi (s : State) :
    regRead s Reg.GX_VI_FREEZE_EDGE_HI = (inst s (rg s Reg.GX_VI_INDEX).toNat).edgeLatch :=
  regRead_of_statusRead (by decide) (by decide) rfl (by rw [accessKey_index rfl (by decide)]; rfl)

/-- A page's _HI register reads that page's latch alone (R550). -/
theorem regRead_instTickHi (s : State) (n : Nat) :
    regRead s (Reg.GX_INST_TICK_HI + 0x10000 * n) = (mapGet s.tick.pageLatch n).getD 0 := by
  have hpage : pageOf (Reg.GX_INST_TICK_HI + 0x10000 * n) = some (n, 0x38) := pageOf_page (o := 0x38) n (by decide)
  have hval : pageRead s n 0x38 = ((mapGet s.tick.pageLatch n).getD 0).toNat := rfl
  simp only [regRead, hpage, hval, BitVec.ofNat_toNat, BitVec.setWidth_eq]

/-! ### The latch of a pair -/

/-- The low registers of the pairs that LATCHED_LO_READ reads. -/
def pairLowRegs : List Nat :=
  [Reg.GX_AT_TOKENS_LO, Reg.GX_PC_MULE_BYTES_LO, Reg.GX_CE_BYTES_LO, Reg.GX_CE_SLOT_USED_LO, Reg.GX_CE_SLOT_LIMIT_LO,
   Reg.GX_VI_MIGRATION_ID_LO, Reg.GX_VI_FREEZE_EDGE_LO]

/-- Only these have a pair's value. -/
theorem mem_pairLowRegs_of_pairValue {s : State} {off x : Nat} (h : pairValue s off = some x) : off ∈ pairLowRegs := by
  refine Decidable.byContradiction fun hoff => ?_
  simp only [pairLowRegs, List.mem_cons, List.not_mem_nil, or_false, not_or] at hoff
  obtain ⟨hat, hmule, hbytes, hused, hlimit, hmig, hedge⟩ := hoff
  have hnone : pairValue s off = none := by
    simp only [pairValue, if_neg hat, if_neg hmule, if_neg hbytes, if_neg hused, if_neg hlimit, if_neg hmig, if_neg hedge]
  exact Option.some_ne_none x (h.symm.trans hnone)

/-- All that it may change: each latch stands in the record of its own block. -/
theorem latchHigh_frame (off : Nat) (hi : Word) (s : State) :
    latchHigh off hi s = { s with kn := (latchHigh off hi s).kn, pc := (latchHigh off hi s).pc,
                                  ce := (latchHigh off hi s).ce, vi := (latchHigh off hi s).vi } := by
  unfold latchHigh
  repeat' split
  all_goals rfl

@[simp] theorem latchHigh_regs (off : Nat) (hi : Word) (s : State) : (latchHigh off hi s).regs = s.regs := by
  rw [latchHigh_frame]

@[simp] theorem latchHigh_mem (off : Nat) (hi : Word) (s : State) : (latchHigh off hi s).mem = s.mem := by
  rw [latchHigh_frame]

@[simp] theorem latchHigh_out (off : Nat) (hi : Word) (s : State) : (latchHigh off hi s).out = s.out := by
  rw [latchHigh_frame]

/-- What is sent does not matter to the latch. -/
theorem emit_latchHigh (o : Output) (off : Nat) (hi : Word) (s : State) :
    emit o (latchHigh off hi s) = latchHigh off hi (emit o s) := by
  unfold latchHigh
  repeat' split
  all_goals rfl

/-- The latch that the low word's read sets is the one that the read of the high word returns. -/
theorem regRead_latchHigh {off : Nat} (hoff : off ∈ pairLowRegs) (hi : Word) {s : State}
    (hvi : (rg s Reg.GX_VI_INDEX).toNat < 512) : regRead (latchHigh off hi s) (off + 4) = hi := by
  have hidx : wfld (rg s Reg.GX_VI_INDEX) 8 0 = (rg s Reg.GX_VI_INDEX).toNat := wfld_of_lt hvi
  simp only [pairLowRegs, List.mem_cons, List.not_mem_nil, or_false] at hoff
  rcases hoff with rfl | rfl | rfl | rfl | rfl | rfl | rfl
  · exact regRead_atTokensHi _
  · exact (regRead_pcMuleBytesHi _).trans (getD_mapPut_same _ _ _ _)
  · exact regRead_ceBytesHi _
  · exact regRead_ceSlotUsedHi _
  · exact regRead_ceSlotLimitHi _
  · have hset : latchHigh Reg.GX_VI_MIGRATION_ID_LO hi s = setInst _ { inst s _ with migLatch := hi } s := rfl
    rw [hset, hidx, regRead_viMigrationIdHi]
    simp only [regAt_setInst, inst_setInst_same]
  · have hset : latchHigh Reg.GX_VI_FREEZE_EDGE_LO hi s = setInst _ { inst s _ with edgeLatch := hi } s := rfl
    rw [hset, hidx, regRead_viFreezeEdgeHi]
    simp only [regAt_setInst, inst_setInst_same]

/-! ### The reads of the low words -/

/-- TICK_COUNT_LO_READ where the window answers it. -/
theorem exec_tickCountLoRead {s : State} (hp : powered s = true) (hb : s.fw.boot ≠ .recovery) :
    exec .tickCountLoRead s = .next (emit (.readData ((s.tick.count.setWidth 32).setWidth 64))
      { s with tick := { s.tick with hiLatch := (s.tick.count >>> 32).setWidth 32 } }) := by
  have hc : (powered s && s.fw.boot != .recovery) = true := by rw [hp, Bool.true_and, bne_iff_ne]; exact hb
  change execTickCountLoRead s = _
  rw [execTickCountLoRead, hc, whenOk_true]

/-- INST_TICK_LO_READ of a page that answers it (R549). -/
theorem exec_instTickLoRead {n : Nat} {s : State} (hr : running s = true) (hn : (inst s n).state ≠ .disabled) :
    exec (.instTickLoRead n) s = .next (emit (.readData ((s.tick.count.setWidth 32).setWidth 64))
      { s with tick := { s.tick with
          pageLatch := mapPut 0 s.tick.pageLatch n ((s.tick.count >>> 32).setWidth 32) } }) := by
  have hc : (running s && (inst s n).state != .disabled) = true := by rw [hr, Bool.true_and, bne_iff_ne]; exact hn
  change execInstTickLoRead n s = _
  rw [execInstTickLoRead, hc, whenOk_true]

/-- LATCHED_LO_READ of a pair that is served. -/
theorem exec_latchedLoRead {off x : Nat} {s : State} (ha : accessed s off = true) (hx : pairValue s off = some x) :
    exec (.latchedLoRead off) s =
      .next (emit (.readData (BitVec.ofNat 64 (x % 2 ^ 32))) (latchHigh off (BitVec.ofNat 32 (x / 2 ^ 32)) s)) := by
  change execLatchedLoRead off s = _
  simp only [execLatchedLoRead, ha, whenOk_true, hx]

/-- Settles O9: each read of a low word sends it and sets the latch that the read of its _HI register returns. -/
theorem latchedPairsReadAsOneValue : Obligations.LatchedPairsReadAsOneValue := by
  unfold Obligations.LatchedPairsReadAsOneValue
  refine ⟨fun s hp hb => ?_, fun n s hr hn _ => ?_, regRead_tickCountHi, rfl, fun off x s ha hx hvi _ => ?_⟩
  · exact ⟨_, exec_tickCountLoRead hp hb, rfl, regRead_tickCountHi _, rfl⟩
  · have hlatch := getD_mapPut_same 0 s.tick.pageLatch n ((s.tick.count >>> 32).setWidth 32)
    exact ⟨_, exec_instTickLoRead hr hn, rfl, (regRead_instTickHi _ n).trans hlatch,
      fun m hm => mapGet_mapPut_ne 0 _ _ hm, rfl⟩
  · refine ⟨_, exec_latchedLoRead ha hx, ?_, ?_, latchHigh_regs _ _ s, latchHigh_mem _ _ s⟩
    · exact congrArg (· ++ _) (latchHigh_out _ _ s)
    · rw [emit_latchHigh]
      exact regRead_latchHigh (mem_pairLowRegs_of_pairValue hx) _ hvi

end Sys2Proof.Machine
end

section
/-! PROOFS. What every command keeps (R125, R468, R492, R495): the canonical form of both memories, and the fuses of firmware
and life cycle, which never go back; and what all but a few operations keep besides: the tick count (R27). -/

namespace Sys2Proof.Machine

/-- From z on, the memories have kept their canonical form and no fuse has gone back. -/
structure Lasts (z s : State) : Prop where
  memory : memoryOk z → memoryOk s
  svn : z.fw.fusedSvn ≤ s.fw.fusedSvn
  retired : z.sec.lc = .decommissioned → s.sec.lc = .decommissioned
  uds : z.sec.udsErased = true → s.sec.udsErased = true

/-- Besides, the tick count is the same: every operation but an edge, a cold reset and a loss of power. -/
structure Keeps (z s : State) : Prop extends Lasts z s where
  count : s.tick.count = z.tick.count

theorem Keeps.refl (z : State) : Keeps z z := ⟨⟨id, Nat.le_refl _, id, id⟩, rfl⟩

section
variable {z s t : State}

theorem Lasts.trans (h : Lasts z s) (k : Lasts s t) : Lasts z t :=
  ⟨k.memory ∘ h.memory, Nat.le_trans h.svn k.svn, k.retired ∘ h.retired, k.uds ∘ h.uds⟩

/-- A change of anything else. -/
theorem Lasts.same (h : Lasts z s) (hb : t.mem.bytes = s.mem.bytes := by rfl) (hs : t.mem.stores = s.mem.stores := by rfl)
    (hf : t.fw.fusedSvn = s.fw.fusedSvn := by rfl) (hl : t.sec.lc = s.sec.lc := by rfl)
    (hu : t.sec.udsErased = s.sec.udsErased := by rfl) : Lasts z t := by
  refine ⟨fun hz => ?_, hf ▸ h.svn, fun hz => hl.trans (h.retired hz), fun hz => hu.trans (h.uds hz)⟩
  obtain ⟨hbytes, hstores⟩ := h.memory hz
  exact ⟨hb ▸ hbytes, hs ▸ hstores⟩

theorem Keeps.same (h : Keeps z s) (hb : t.mem.bytes = s.mem.bytes := by rfl) (hs : t.mem.stores = s.mem.stores := by rfl)
    (hf : t.fw.fusedSvn = s.fw.fusedSvn := by rfl) (hl : t.sec.lc = s.sec.lc := by rfl)
    (hu : t.sec.udsErased = s.sec.udsErased := by rfl) (hc : t.tick.count = s.tick.count := by rfl) : Keeps z t :=
  ⟨h.toLasts.same hb hs hf hl hu, hc.trans h.count⟩

theorem Lasts.ite {c : Prop} [Decidable c] (hs : Lasts z s) (ht : Lasts z t) : Lasts z (if c then s else t) := by
  split
  · exact hs
  · exact ht

theorem Keeps.ite {c : Prop} [Decidable c] (hs : Keeps z s) (ht : Keeps z t) : Keeps z (if c then s else t) := by
  split
  · exact hs
  · exact ht

theorem Keeps.whenOk {c : Bool} {f : State → State} (h : Keeps z s) (hf : ∀ s, Keeps z s → Keeps z (f s)) :
    Keeps z (whenOk c f s) := whenOk_keeps c f h fun _ => hf s h

theorem Lasts.whenOk {c : Bool} {f : State → State} (h : Lasts z s) (hf : Lasts z (f s)) : Lasts z (whenOk c f s) :=
  whenOk_keeps c f h fun _ => hf

theorem Keeps.foldl {β : Type} {l : List β} {f : State → β → State} (h : Keeps z s)
    (hf : ∀ s b, Keeps z s → Keeps z (f s b)) : Keeps z (l.foldl f s) := foldl_maintains (Keeps z) f hf l s h

theorem Keeps.foldlPair {α β : Type} {l : List β} {p : State × α} {f : State × α → β → State × α} (h : Keeps z p.1)
    (hf : ∀ p b, Keeps z p.1 → Keeps z (f p b).1) : Keeps z (l.foldl f p).1 :=
  foldl_maintains (fun p => Keeps z p.1) f hf l p h

theorem Keeps.elim {α : Type} {o : Option α} {f : α → State} (h : Keeps z s) (hf : ∀ a, Keeps z (f a)) :
    Keeps z (o.elim s f) := by
  cases o with
  | none => exact h
  | some a => exact hf a

/-- The state of a pair that is known by its equation. -/
theorem Keeps.of_eq {α : Type} {p : State × α} {a : α} (h : Keeps z p.1) (e : p = (s, a)) : Keeps z s := by
  subst e
  exact h

theorem Keeps.of_eq_snd {α : Type} {p : α × State} {a : α} (h : Keeps z p.2) (e : p = (a, s)) : Keeps z s := by
  subst e
  exact h

theorem Keeps.fst_mk {α : Type} {a : α} (h : Keeps z s) : Keeps z (s, a).1 := h

theorem Keeps.snd_mk {α : Type} {a : α} (h : Keeps z s) : Keeps z (a, s).2 := h

/-- A state that may be there. -/
def KeepsSome (z : State) (o : Option State) : Prop := ∀ t, o = some t → Keeps z t

theorem KeepsSome.none : KeepsSome z Option.none := fun _ e => nomatch e

theorem KeepsSome.some (h : Keeps z s) : KeepsSome z (Option.some s) := fun _ e => Option.some.inj e ▸ h

theorem KeepsSome.of_eq {o : Option State} (h : KeepsSome z o) (e : o = Option.some s) : Keeps z s := h s e

theorem KeepsSome.getD {o : Option State} (h : KeepsSome z o) (hs : Keeps z s) : Keeps z (o.getD s) := by
  cases o with
  | none => exact hs
  | some t => exact h t rfl

theorem KeepsSome.orElse {o p : Option State} (h : KeepsSome z o) (hp : KeepsSome z p) :
    KeepsSome z (o.orElse fun _ => p) := by
  cases o with
  | none => exact hp
  | some t => exact h

/-- A state beside something else that may be there. -/
def KeepsSomeFst {α : Type} (z : State) (o : Option (State × α)) : Prop := ∀ p, o = some p → Keeps z p.1

theorem KeepsSomeFst.none {α : Type} : KeepsSomeFst (α := α) z Option.none := fun _ e => nomatch e

theorem KeepsSomeFst.some {α : Type} {p : State × α} (h : Keeps z p.1) : KeepsSomeFst z (Option.some p) :=
  fun _ e => Option.some.inj e ▸ h

theorem KeepsSomeFst.of_eq {α : Type} {a : α} {o : Option (State × α)} (h : KeepsSomeFst z o) (e : o = Option.some (s, a)) :
    Keeps z s := h _ e

def KeepsSomeSnd {α : Type} (z : State) (o : Option (α × State)) : Prop := ∀ p, o = some p → Keeps z p.2

theorem KeepsSomeSnd.none {α : Type} : KeepsSomeSnd (α := α) z Option.none := fun _ e => nomatch e

theorem KeepsSomeSnd.some {α : Type} {p : α × State} (h : Keeps z p.2) : KeepsSomeSnd z (Option.some p) :=
  fun _ e => Option.some.inj e ▸ h

theorem KeepsSomeSnd.of_eq {α : Type} {a : α} {o : Option (α × State)} (h : KeepsSomeSnd z o) (e : o = Option.some (a, s)) :
    Keeps z s := h _ e

/-- The state that an attempt leaves, where it does not wait. -/
def KeepsOut {α : Type} (z : State) : KOut α → Prop
  | .wait => True
  | .fail s _ _ _ => Keeps z s
  | .ok s _ => Keeps z s

theorem KeepsOut.ok {α : Type} {a : α} (h : Keeps z s) : KeepsOut z (.ok s a) := h

theorem KeepsOut.fail {α : Type} {a b c : Nat} (h : Keeps z s) : KeepsOut (α := α) z (.fail s a b c) := h

theorem KeepsOut.of_ok {α : Type} {x : KOut α} {a : α} (h : KeepsOut z x) (e : x = .ok s a) : Keeps z s := by
  subst e
  exact h

theorem KeepsOut.of_fail {α : Type} {x : KOut α} {a b c : Nat} (h : KeepsOut z x) (e : x = .fail s a b c) :
    Keeps z s := by
  subst e
  exact h

theorem keeps_kBind {α β : Type} {x : KOut α} {f : State → α → KOut β} (h : KeepsOut z x)
    (hf : ∀ s a, Keeps z s → KeepsOut z (f s a)) : KeepsOut z (kBind x f) := by
  cases x with
  | wait => exact h
  | fail => exact h
  | ok s a => exact hf s a h

theorem keeps_kMap {α β : Type} {f : State → α → KOut β} {xs : List α} (hf : ∀ s a, Keeps z s → KeepsOut z (f s a))
    (h : Keeps z s) : KeepsOut z (kMap f xs s) := by
  induction xs generalizing s with
  | nil => exact h
  | cons a l ih => exact keeps_kBind (hf s a h) fun _ _ ha => keeps_kBind (ih ha) fun _ _ hl => hl

/-- The state in which the budget serves a poll, now or later. -/
def KeepsServe (z : State) : Serve → Prop
  | .now s => Keeps z s
  | .later s => Keeps z s

theorem KeepsServe.of_now {x : Serve} (h : KeepsServe z x) (e : x = .now s) : Keeps z s := by
  subst e
  exact h

theorem KeepsServe.of_later {x : Serve} (h : KeepsServe z x) (e : x = .later s) : Keeps z s := by
  subst e
  exact h

/-- The state that a command answers. -/
def KeepsNext (z : State) (r : Res) : Prop := ∀ t, r = .next t → Lasts z t

theorem KeepsNext.lasts (h : Lasts z s) : KeepsNext z (.next s) := fun _ e => Host.Outcome.next.inj e ▸ h

theorem KeepsNext.next (h : Keeps z s) : KeepsNext z (.next s) := KeepsNext.lasts h.toLasts

end

end Sys2Proof.Machine
end

section
/-! PROOFS. What every command keeps: registers, memory, check values and the log, one lemma per operation. -/

set_option Elab.async false

namespace Sys2Proof.Machine

variable {z s : State}

theorem keeps_putReg {key : Nat} {v : Word} (h : Keeps z s) : Keeps z (putReg key v s) := h.same

theorem keeps_putShadow {key : Nat} {v : Word} (h : Keeps z s) : Keeps z (putShadow key v s) := h.same

theorem keeps_bump {key : Nat} (h : Keeps z s) : Keeps z (bump key s) := h.same

theorem keeps_bumpBy {key n : Nat} (h : Keeps z s) : Keeps z (bumpBy key n s) := h.same

theorem keeps_emit {o : Output} (h : Keeps z s) : Keeps z (emit o s) := h.same

theorem keeps_msixSend {fn v : Nat} (h : Keeps z s) : Keeps z (msixSend fn v s) := by
  unfold msixSend
  exact Keeps.ite (keeps_emit h.same) h

theorem keeps_msixRaise {fn v : Nat} (h : Keeps z s) : Keeps z (msixRaise fn v s) := by
  unfold msixRaise
  exact Keeps.ite (keeps_msixSend h.same) h

theorem keeps_intFire {src : Nat} (h : Keeps z s) : Keeps z (intFire src s) := by
  unfold intFire
  exact Keeps.ite (keeps_msixRaise h) h

theorem keeps_raise {off bit : Nat} (h : Keeps z s) : Keeps z (raise off bit s) := by
  unfold raise
  extract_lets _ s1
  have h1 : Keeps z s1 := keeps_putReg h
  refine Keeps.ite h ?_
  split
  · exact keeps_intFire h1
  · exact h1

theorem keeps_raisePage {n bit : Nat} (h : Keeps z s) : Keeps z (raisePage n bit s) := by
  unfold raisePage
  extract_lets _ _ s1
  have h1 : Keeps z s1 := keeps_putReg h
  exact Keeps.ite h (Keeps.ite (keeps_msixRaise h1) h1)

theorem keeps_setInst {n : Nat} {i : Instance} (h : Keeps z s) : Keeps z (setInst n i s) := h.same

theorem keeps_enterState {n : Nat} {st : InstState} (h : Keeps z s) : Keeps z (enterState n st s) := by
  unfold enterState
  extract_lets _ s1
  have h1 : Keeps z s1 := keeps_setInst h
  split
  · exact h1
  · exact keeps_raisePage h1
  · exact keeps_raisePage h1

theorem keeps_drawDrbg (h : Keeps z s) : Keeps z (drawDrbg s).2 := by
  unfold drawDrbg
  exact h.same

theorem keeps_tierWrite {off : Nat} {bs : List Byte} (h : Keeps z s) : Keeps z (tierWrite off bs s).1 :=
  ⟨⟨fun hz => tierWrite_memoryOk off bs (h.memory hz), h.svn, h.retired, h.uds⟩, h.count⟩

theorem keeps_storeWrite {core off : Nat} {bs : List Byte} (h : Keeps z s) : Keeps z (storeWrite core off bs s).1 := by
  refine ⟨⟨fun hz => storeWrite_memoryOk core off bs (h.memory hz), ?_, ?_, ?_⟩, ?_⟩ <;> unfold storeWrite <;> split
  · exact h.svn
  · exact h.svn
  · exact h.retired
  · exact h.retired
  · exact h.uds
  · exact h.uds
  · exact h.count
  · exact h.count

theorem keeps_wipeGranule {g : Nat} (h : Keeps z s) : Keeps z (wipeGranule g s) :=
  ⟨⟨fun hz => wipeGranule_memoryOk g (h.memory hz), h.svn, h.retired, h.uds⟩, h.count⟩

theorem keeps_startWipe {gs : List Nat} (h : Keeps z s) : Keeps z (startWipe gs s) := by
  unfold startWipe
  extract_lets s1 _
  have h1 : Keeps z s1 := Keeps.foldl h (fun _ _ h2 => keeps_wipeGranule h2)
  exact h1.same

theorem keeps_wipeRegions {st : Structure} {f : Nat} (h : Keeps z s) : Keeps z (wipeRegions st f s) :=
  Keeps.foldl h fun s _ h =>
    ⟨⟨fun hz => ⟨(h.memory hz).1, bytesWipe_memWf _ _ (h.memory hz).2⟩, h.svn, h.retired, h.uds⟩, h.count⟩

theorem keeps_execWipeDone (h : Keeps z s) : KeepsNext z (execWipeDone s) := by
  unfold execWipeDone
  exact KeepsNext.next (Keeps.whenOk h (fun _ h1 => keeps_raise h1.same))

theorem keeps_execGranuleWipeDone {g : Nat} (h : Keeps z s) : KeepsNext z (execGranuleWipeDone g s) := by
  unfold execGranuleWipeDone
  exact KeepsNext.next (Keeps.whenOk h (fun _ h1 => h1.same))

theorem keeps_execScrubPass {corrected : Nat} (h : Keeps z s) : KeepsNext z (execScrubPass corrected s) := by
  unfold execScrubPass
  exact KeepsNext.next (Keeps.whenOk h (fun _ h1 => Keeps.ite h1 (keeps_raise (keeps_bumpBy h1))))

theorem keeps_execRowRepairDone {bank : Nat} (h : Keeps z s) : KeepsNext z (execRowRepairDone bank s) := by
  unfold execRowRepairDone
  exact KeepsNext.next (Keeps.whenOk h (fun _ h1 => keeps_raise h1.same))

theorem keeps_execPcSwapComplete {stack pc : Nat} (h : Keeps z s) : KeepsNext z (execPcSwapComplete stack pc s) := by
  unfold execPcSwapComplete
  exact KeepsNext.next (Keeps.whenOk h (fun _ h1 => keeps_raise h1.same))

theorem keeps_execFrameRetireRedirect {frame : Nat} (h : Keeps z s) : KeepsNext z (execFrameRetireRedirect frame s) := by
  unfold execFrameRetireRedirect
  exact KeepsNext.next (Keeps.whenOk h (fun _ h1 => keeps_raise h1.same))

theorem keeps_countResults {fs : List ResFlag} (h : Keeps z s) : Keeps z (countResults fs s) := by
  unfold countResults
  extract_lets _ _ _ s1 s2
  have h1 : Keeps z s1 := Keeps.ite h (keeps_raise (keeps_bumpBy h))
  have h2 : Keeps z s2 := Keeps.ite h1 (keeps_raise (keeps_bumpBy h1))
  exact Keeps.ite h2 (keeps_raise (keeps_bumpBy h2))

theorem keeps_setCv {u : Nat} {c : CvUnit} (h : Keeps z s) : Keeps z (setCv u c s) := h.same

theorem keeps_cvStopped {u : Nat} (h : Keeps z s) : Keeps z (cvStopped u s) := by
  unfold cvStopped
  exact keeps_raise (keeps_setCv h)

theorem keeps_cvBoundary {u : Nat} (h : Keeps z s) : Keeps z (cvBoundary u s) := by
  unfold cvBoundary
  split
  · exact keeps_setCv h
  · exact keeps_cvStopped h
  · exact h

theorem keeps_stream {src idx : Nat} {retx begins : Bool} {bs : List Byte} (h : Keeps z s) :
    Keeps z (stream src idx retx begins bs s) := by
  unfold stream
  refine Keeps.foldl h fun s2 _ h2 => ?_
  refine Keeps.ite ?_ h2
  extract_lets s3 _ _
  have h3 : Keeps z s3 := Keeps.ite (keeps_cvBoundary h2) h2
  exact Keeps.ite (keeps_setCv h3) h3

theorem keeps_tierStream {off : Nat} {bs : List Byte} (h : Keeps z s) : Keeps z (tierStream off bs s) := by
  unfold tierStream
  split
  · exact keeps_stream h
  · exact h

theorem keeps_tierPut {off : Nat} {bs : List Byte} (h : Keeps z s) : Keeps z (tierPut off bs s).1 := by
  unfold tierPut
  split
  · rename_i s1 _ e1
    have h1 := (keeps_tierWrite h).of_eq e1
    refine Keeps.fst_mk ?_
    exact keeps_tierStream h1

theorem keeps_cvLost {port : Nat} (h : Keeps z s) : Keeps z (cvLost port s) := by
  unfold cvLost
  exact Keeps.foldl h (fun _ _ h1 => Keeps.ite (keeps_raise (keeps_cvStopped h1)) h1)

theorem keeps_cvReject (h : Keeps z s) : Keeps z (cvReject s) := by
  unfold cvReject
  exact keeps_raise h

theorem keeps_cvControl {v : Nat} (h : Keeps z s) : Keeps z (cvControl v s) := by
  unfold cvControl
  extract_lets _ _ _
  refine Keeps.ite (keeps_cvReject h) ?_
  split
  · exact h
  · exact Keeps.ite (keeps_cvReject h) (keeps_setCv h)
  · exact Keeps.ite (keeps_cvReject h) (keeps_setCv h)
  · split
    · exact keeps_cvStopped h
    · exact keeps_setCv h
    · exact keeps_cvReject h
  · exact keeps_cvReject h

theorem keeps_execCvClear (h : Keeps z s) : KeepsNext z (execCvClear s) := by
  unfold execCvClear
  exact KeepsNext.next (Keeps.whenOk h (fun _ h1 => keeps_cvControl h1))

theorem keeps_execCvStart (h : Keeps z s) : KeepsNext z (execCvStart s) := by
  unfold execCvStart
  exact KeepsNext.next (Keeps.whenOk h (fun _ h1 => keeps_cvControl h1))

theorem keeps_execCvStop (h : Keeps z s) : KeepsNext z (execCvStop s) := by
  unfold execCvStop
  exact KeepsNext.next (Keeps.whenOk h (fun _ h1 => keeps_cvControl h1))

theorem keeps_execCvStreamBoundary {source index : Nat} (h : Keeps z s) :
    KeepsNext z (execCvStreamBoundary source index s) := by
  unfold execCvStreamBoundary
  exact KeepsNext.next (Keeps.whenOk h (fun _ h1 => Keeps.foldl h1 (fun _ _ h2 => Keeps.ite (keeps_cvBoundary h2) h2)))

theorem keeps_cvConfigWrite {off : Nat} {v : Word} (h : Keeps z s) : Keeps z (cvConfigWrite off v s) := by
  unfold cvConfigWrite
  extract_lets _ _ _ _ _ _
  exact Keeps.ite (keeps_cvReject h) (Keeps.ite (keeps_putReg h) (Keeps.ite (keeps_setCv h) h))

theorem keeps_execCvConfigWrite {off : Nat} {v : Word} (h : Keeps z s) : KeepsNext z (execCvConfigWrite off v s) := by
  unfold execCvConfigWrite
  exact KeepsNext.next (Keeps.whenOk h (fun _ h1 => keeps_cvConfigWrite h1))

theorem keeps_execCvBytesLoRead (h : Keeps z s) : KeepsNext z (execCvBytesLoRead s) := by
  unfold execCvBytesLoRead
  refine KeepsNext.next ?_
  refine Keeps.whenOk h fun s3 h3 => ?_
  extract_lets _ s4
  have h4 : Keeps z s4 := keeps_setCv h3
  exact keeps_emit h4

theorem keeps_logWrite {e : LogEntry} (h : Keeps z s) : Keeps z (logWrite e s) := by
  unfold logWrite
  extract_lets _ _ s1
  have h1 : Keeps z s1 := h.same
  exact Keeps.ite (keeps_raise h1) h1

theorem keeps_logClassified {e : LogEntry} (h : Keeps z s) : Keeps z (logClassified e s) := by
  unfold logClassified
  extract_lets s1
  have h1 : Keeps z s1 := keeps_logWrite h
  exact Keeps.ite (keeps_raise (keeps_bump h1)) (Keeps.ite (keeps_raise (keeps_bump h1)) h1)

theorem keeps_classify {e : LogEntry} (h : Keeps z s) : Keeps z (classify e s) := by
  unfold classify
  exact Keeps.ite h.same (keeps_logClassified h)

theorem keeps_repair {f : RepairRecord → RepairRecord} (h : Keeps z s) : Keeps z (repair f s) := h.same

theorem keeps_degraded (h : Keeps z s) : Keeps z (degraded s) := by
  unfold degraded
  exact keeps_raise h

theorem keeps_bumpEpoch {key : Nat} (h : Keeps z s) : Keeps z (bumpEpoch key s) := h.same

end Sys2Proof.Machine
end

section
/-! PROOFS. What every command keeps: the tick, translation, links, ciphers and bonds, one lemma per operation. -/

set_option Elab.async false

namespace Sys2Proof.Machine

variable {z s : State}

theorem keeps_enterAlign {st : AlignState} (h : Keeps z s) : Keeps z (enterAlign st s) := by
  unfold enterAlign
  extract_lets _ _ s1 s2
  have h1 : Keeps z s1 := h.same
  have h2 : Keeps z s2 := Keeps.ite (keeps_raise h1) h1
  exact Keeps.ite (keeps_raise h2) h2

theorem keeps_alignMove (h : Keeps z s) : Keeps z (alignMove s) := by
  unfold alignMove
  exact Keeps.ite (keeps_enterAlign h) (Keeps.ite (keeps_enterAlign h) (Keeps.ite (keeps_enterAlign h) (Keeps.ite
    (keeps_enterAlign h) h)))

theorem lasts_beginTick {count : BitVec 64} {cut : Int} (h : Lasts z s) : Lasts z (beginTick count cut s) := h.same

theorem keeps_beginTick {cut : Int} (h : Keeps z s) : Keeps z (beginTick s.tick.count cut s) := h.same

theorem lasts_alignMove (h : Lasts z s) : Lasts z (alignMove s) := h.trans (keeps_alignMove (Keeps.refl s)).toLasts

theorem lasts_alignEdge (h : Lasts z s) : Lasts z (alignEdge s) := by
  unfold alignEdge
  extract_lets _ s1 _ _ _ s2
  have h1 : Lasts z s1 := h.same
  have h2 : Lasts z s2 := lasts_beginTick h1.same
  split
  · exact lasts_beginTick h1
  · exact lasts_alignMove (lasts_beginTick h1)
  · exact lasts_alignMove (lasts_beginTick h1)
  · exact Lasts.ite (lasts_alignMove (lasts_beginTick h1)) (Lasts.ite (lasts_alignMove (lasts_beginTick h1)) (Lasts.ite
      (lasts_beginTick h1) (Lasts.ite (h2.trans (keeps_enterAlign (keeps_raise (Keeps.refl s2))).toLasts) (lasts_beginTick h1))))

theorem keeps_ptpLock (h : Keeps z s) : Keeps z (ptpLock s) := by
  unfold ptpLock
  extract_lets _ s1
  have h1 : Keeps z s1 := h.same
  split
  · exact Keeps.ite h1 (keeps_enterAlign h1)
  · exact keeps_enterAlign h1
  · exact h1

theorem keeps_ptpLoseLock (h : Keeps z s) : Keeps z (ptpLoseLock s) := by
  unfold ptpLoseLock
  refine Keeps.ite ?_ h
  extract_lets _ s1 s2
  have h1 : Keeps z s1 := h.same
  have h2 : Keeps z s2 := keeps_raise h1
  exact Keeps.ite (keeps_enterAlign h2) h2

theorem keeps_execPtpLock (h : Keeps z s) : KeepsNext z (execPtpLock s) := by
  unfold execPtpLock
  exact KeepsNext.next (Keeps.whenOk h (fun _ h1 => keeps_ptpLock h1))

theorem keeps_execPtpLockLost (h : Keeps z s) : KeepsNext z (execPtpLockLost s) := by
  unfold execPtpLockLost
  exact KeepsNext.next (Keeps.whenOk h (fun _ h1 => keeps_ptpLoseLock h1))

theorem keeps_execAlignAcquired (h : Keeps z s) : KeepsNext z (execAlignAcquired s) := by
  unfold execAlignAcquired
  exact KeepsNext.next (Keeps.whenOk h (fun _ h1 => keeps_enterAlign h1))

theorem keeps_execAlignLost (h : Keeps z s) : KeepsNext z (execAlignLost s) := by
  unfold execAlignLost
  exact KeepsNext.next (Keeps.whenOk h (fun _ h1 => keeps_enterAlign h1))

theorem keeps_execAlignInputTimeout (h : Keeps z s) : KeepsNext z (execAlignInputTimeout s) := by
  unfold execAlignInputTimeout
  exact KeepsNext.next (Keeps.whenOk h (fun _ h1 => keeps_enterAlign h1))

theorem keeps_execHoldoverTimeout (h : Keeps z s) : KeepsNext z (execHoldoverTimeout s) := by
  unfold execHoldoverTimeout
  exact KeepsNext.next (Keeps.whenOk h (fun _ h1 => keeps_enterAlign h1))

theorem keeps_execTickCountLoRead (h : Keeps z s) : KeepsNext z (execTickCountLoRead s) := by
  unfold execTickCountLoRead
  exact KeepsNext.next (Keeps.whenOk h (fun _ h1 => keeps_emit h1.same))

theorem keeps_execInstTickLoRead {n : Nat} (h : Keeps z s) : KeepsNext z (execInstTickLoRead n s) := by
  unfold execInstTickLoRead
  exact KeepsNext.next (Keeps.whenOk h (fun _ h1 => keeps_emit h1.same))

theorem keeps_execPpsPulse (h : Keeps z s) : KeepsNext z (execPpsPulse s) := by
  unfold execPpsPulse
  exact KeepsNext.next (Keeps.whenOk h (fun _ h1 => keeps_emit h1.same))

theorem keeps_heldDrop {owner : Nat} (h : Keeps z s) : Keeps z (heldDrop owner s) := h.same

theorem keeps_l2Take {id : Nat} (h : Keeps z s) : Keeps z (l2Take id s) := h.same

theorem keeps_l2Release {id : Nat} (h : Keeps z s) : Keeps z (l2Release id s) := h.same

theorem keeps_l2Fill {e : XlEntry} (h : Keeps z s) : Keeps z (l2Fill e s) := by
  unfold l2Fill
  extract_lets _ _ _ s1 _ _ _ _
  have h1 : Keeps z s1 := h.same
  refine Keeps.ite h.same ?_
  refine Keeps.ite h1.same ?_
  refine Keeps.ite h1.same ?_
  split
  · exact h1
  · exact h1.same

theorem keeps_l1Fill {core space vbase : Nat} (h : Keeps z s) : Keeps z (l1Fill core space vbase s) := by
  unfold l1Fill
  exact Keeps.ite h h.same

theorem keeps_holdSpace {space : Nat} {e : BitVec 128} (h : Keeps z s) : Keeps z (holdSpace space e s) := h.same

theorem keeps_dropSpaces {n : Nat} (h : Keeps z s) : Keeps z (dropSpaces n s) := h.same

theorem keeps_recordFault {cause instn space va : Nat} (h : Keeps z s) :
    Keeps z (recordFault cause instn space va s) := by
  unfold recordFault
  extract_lets s1 s2 s3 s4
  have h1 : Keeps z s1 := keeps_putReg h
  have h2 : Keeps z s2 := keeps_putReg h1
  have h3 : Keeps z s3 := keeps_putReg h2
  have h4 : Keeps z s4 := keeps_bump (keeps_raise h3)
  exact Keeps.ite (keeps_raise h4) h4

theorem keeps_fillLine {space instn va : Nat} {reads : NMap (BitVec 128)} (h : Keeps z s) :
    Keeps z (fillLine space instn va reads s) := by
  unfold fillLine
  refine Keeps.foldl h fun s2 _ h2 => ?_
  split
  · exact keeps_l2Fill h2
  · exact h2

theorem keeps_fillFromWalk {w : Walk} {reads : NMap (BitVec 128)} {r : WalkResult} (h : Keeps z s) :
    Keeps z (fillFromWalk w reads r s) := by
  unfold fillFromWalk
  refine Keeps.ite h ?_
  split
  · exact h
  · extract_lets s1 _ s2 _ _ _ s3
    have h1 : Keeps z s1 := keeps_holdSpace h
    have h2 : Keeps z s2 := h1.same
    have h3 : Keeps z s3 := h2.same
    split
    · extract_lets s4
      have h4 : Keeps z s4 := keeps_l2Fill h3
      exact Keeps.ite (keeps_fillLine h4) h4
    · exact Keeps.ite (keeps_fillLine h3) h3

theorem keeps_invalidateStart {slot scope space va pages : Nat} (h : Keeps z s) :
    Keeps z (invalidateStart slot scope space va pages s) := h.same

theorem keeps_invalRemove {v : Inval} (h : Keeps z s) : Keeps z (invalRemove v s) := h.same

theorem keeps_slotCount {why : Nat} (h : Keeps z s) : Keeps z (slotCount why s) := by
  unfold slotCount
  split
  · exact keeps_bump h
  · exact keeps_bump h
  · exact keeps_bump h
  · exact h

theorem keeps_badCells {n : Nat} (h : Keeps z s) : Keeps z (badCells n s) := by
  unfold badCells
  exact keeps_raise (keeps_bumpBy h)

theorem keeps_setCport {p : Nat} {c : CellPort} (h : Keeps z s) : Keeps z (setCport p c s) := h.same

theorem keeps_updCport {p : Nat} {f : CellPort → CellPort} (h : Keeps z s) : Keeps z (updCport p f s) := h.same

theorem keeps_wireOut {p : Nat} {i : WireItem} (h : Keeps z s) : Keeps z (wireOut p i s) := by
  unfold wireOut
  extract_lets _ _ s1 _ s2 _ _ s3
  have h1 : Keeps z s1 := Keeps.foldl (keeps_emit h) (fun _ _ h4 => keeps_stream h4)
  have h2 : Keeps z s2 := h1.same
  have h3 : Keeps z s3 := Keeps.ite h2.same h2
  exact keeps_setCport h3

theorem keeps_drainQueue {fuel p : Nat} (h : Keeps z s) : Keeps z (drainQueue fuel p s) := by
  induction fuel generalizing p s with
  | zero =>
    unfold drainQueue
    exact h
  | succ k ih =>
    unfold drainQueue
    extract_lets _
    split
    · exact h
    · exact Keeps.ite (ih (keeps_wireOut (keeps_setCport h))) h

theorem keeps_enqueueOn {p : Nat} {i : WireItem} (h : Keeps z s) : Keeps z (enqueueOn p i s) := by
  unfold enqueueOn
  extract_lets s1
  have h1 : Keeps z s1 := keeps_updCport h
  exact keeps_drainQueue h1

theorem keeps_chargeAllow {node n : Nat} (h : Keeps z s) : Keeps z (chargeAllow node n s) := by
  unfold chargeAllow
  extract_lets _ _ _ s1
  have h1 : Keeps z s1 := h.same
  exact Keeps.ite (keeps_raise h1) h1

theorem keeps_chargeShaper {i : Nat} {n : Int} (h : Keeps z s) : Keeps z (chargeShaper i n s) := by
  unfold chargeShaper
  exact Keeps.ite h.same h

theorem keeps_chargeItem {p : Nat} {i : WireItem} (h : Keeps z s) : Keeps z (chargeItem p i s) := by
  unfold chargeItem
  exact Keeps.ite h (keeps_chargeShaper (keeps_chargeAllow h))

theorem keeps_holdItem {i : WireItem} (h : Keeps z s) : Keeps z (holdItem i s) := by
  unfold holdItem
  extract_lets _ _ s1
  have h1 : Keeps z s1 := h.same
  exact Keeps.ite (keeps_bump h1) h1

theorem keeps_routeItem {i : WireItem} (h : Keeps z s) : Keeps z (routeItem i s) := by
  unfold routeItem
  split
  · exact keeps_enqueueOn (keeps_chargeItem h.same)
  · exact keeps_holdItem h

theorem keeps_retryHeld (h : Keeps z s) : Keeps z (retryHeld s) := by
  unfold retryHeld
  extract_lets _ _
  exact Keeps.foldl h.same (fun _ _ h1 => Keeps.ite h1.same (keeps_routeItem h1))

theorem keeps_leftUp {p : Nat} (h : Keeps z s) : Keeps z (leftUp p s) := by
  unfold leftUp
  exact Keeps.ite (keeps_raise h) h

theorem keeps_toTraining {p : Nat} (h : Keeps z s) : Keeps z (toTraining p s) := by
  unfold toTraining
  extract_lets s1
  have h1 : Keeps z s1 := keeps_leftUp h
  exact keeps_updCport h1

theorem keeps_toFenced {p : Nat} (h : Keeps z s) : Keeps z (toFenced p s) := by
  unfold toFenced
  extract_lets s1 s2 _
  have h1 : Keeps z s1 := keeps_leftUp h
  have h2 : Keeps z s2 := keeps_updCport h1
  exact keeps_degraded (keeps_raise h2.same)

theorem keeps_toDisabled {p : Nat} (h : Keeps z s) : Keeps z (toDisabled p s) := by
  unfold toDisabled
  extract_lets s1
  have h1 : Keeps z s1 := keeps_leftUp h
  exact keeps_updCport h1

theorem keeps_openPort {p : Nat} (h : Keeps z s) : Keeps z (openPort p s) := by
  unfold openPort
  exact Keeps.ite (keeps_toTraining h) h

theorem keeps_execReceiverDetect {port : Nat} (h : Keeps z s) : KeepsNext z (execReceiverDetect port s) := by
  unfold execReceiverDetect
  exact KeepsNext.next (Keeps.whenOk h (fun _ h1 => keeps_updCport h1))

theorem keeps_execTrainingSuccess {port : Nat} (h : Keeps z s) : KeepsNext z (execTrainingSuccess port s) := by
  unfold execTrainingSuccess
  extract_lets _
  exact KeepsNext.next (Keeps.whenOk h (fun _ h1 => keeps_setCport h1))

theorem keeps_execTrainingAttemptTimeout {port : Nat} (h : Keeps z s) :
    KeepsNext z (execTrainingAttemptTimeout port s) := by
  unfold execTrainingAttemptTimeout
  extract_lets _
  refine KeepsNext.next ?_
  refine Keeps.whenOk h fun s3 h3 => ?_
  refine Keeps.ite ?_ (keeps_setCport h3)
  extract_lets s4
  have h4 : Keeps z s4 := keeps_toFenced h3
  exact keeps_classify h4

theorem keeps_sendIdent {p : Nat} {reply done : Bool} {round : Nat} {delays : Nat × Nat × Nat} (h : Keeps z s) :
    Keeps z (sendIdent p reply done round delays s) := h.same

theorem keeps_nextRound {p now : Nat} (h : Keeps z s) : Keeps z (nextRound p now s) := by
  unfold nextRound
  extract_lets _
  exact Keeps.ite (keeps_sendIdent h) (keeps_sendIdent (keeps_setCport h))

theorem keeps_maybeUp {p credit : Nat} (h : Keeps z s) : Keeps z (maybeUp p credit s) := by
  unfold maybeUp
  extract_lets _ _ s1 s2 s3 s4
  have h1 : Keeps z s1 := keeps_setCport h
  have h2 : Keeps z s2 := keeps_raise h1
  have h3 : Keeps z s3 := Keeps.ite (keeps_raise h2) h2
  have h4 : Keeps z s4 := Keeps.ite (Keeps.foldl h3 (fun _ _ h5 => keeps_emit h5)) h3
  exact Keeps.ite (keeps_retryHeld (keeps_drainQueue h4)) h

theorem keeps_execFecLock {port now : Nat} (h : Keeps z s) : KeepsNext z (execFecLock port now s) := by
  unfold execFecLock
  extract_lets _ _
  exact KeepsNext.next (Keeps.whenOk h (fun _ h1 => keeps_nextRound (keeps_setCport h1)))

theorem keeps_execFecLockTimeout {port : Nat} (h : Keeps z s) : KeepsNext z (execFecLockTimeout port s) := by
  unfold execFecLockTimeout
  extract_lets _
  exact KeepsNext.next (Keeps.whenOk h (fun _ h1 => keeps_setCport h1))

theorem keeps_execIdentReceive {port : Nat} {pay : BitVec 512} {now : Nat} (h : Keeps z s) :
    KeepsNext z (execIdentReceive port pay now s) := by
  unfold execIdentReceive
  extract_lets _ _ _
  split
  · exact KeepsNext.next (Keeps.whenOk h (fun _ h1 => h1.same))
  · refine KeepsNext.next ?_
    refine Keeps.whenOk h fun s4 h4 => ?_
    extract_lets s5 _ _ s6
    have h5 : Keeps z s5 := keeps_updCport h4
    have h6 : Keeps z s6 := Keeps.ite (Keeps.ite (keeps_nextRound (keeps_setCport h5)) h5) (Keeps.ite h5 (keeps_sendIdent h5))
    exact keeps_maybeUp h6

theorem keeps_execIdentRoundTimeout {port now : Nat} (h : Keeps z s) :
    KeepsNext z (execIdentRoundTimeout port now s) := by
  unfold execIdentRoundTimeout
  extract_lets _
  exact KeepsNext.next (Keeps.whenOk h (fun _ h1 => keeps_nextRound (keeps_setCport h1)))

theorem keeps_identExpire {p : Nat} (h : Keeps z s) : Keeps z (identExpire p s) := by
  unfold identExpire
  extract_lets _ _
  exact Keeps.ite (keeps_setCport h) h

theorem keeps_execIdentTimeout {port : Nat} (h : Keeps z s) : KeepsNext z (execIdentTimeout port s) := by
  unfold execIdentTimeout
  exact KeepsNext.next (Keeps.whenOk h (fun _ h1 => keeps_identExpire h1))

theorem keeps_execCodewordLockLoss {port : Nat} (h : Keeps z s) : KeepsNext z (execCodewordLockLoss port s) := by
  unfold execCodewordLockLoss
  exact KeepsNext.next (Keeps.whenOk h (fun _ h1 => keeps_toTraining h1))

theorem keeps_execPortAdminDown {down : Bool} (h : Keeps z s) : KeepsNext z (execPortAdminDown down s) := by
  unfold execPortAdminDown
  extract_lets _
  refine KeepsNext.next ?_
  refine Keeps.whenOk h fun s3 h3 => ?_
  extract_lets s4
  have h4 : Keeps z s4 := keeps_putReg h3
  exact Keeps.ite (Keeps.ite (Keeps.ite h4 (keeps_toDisabled h4)) (keeps_openPort h4)) h4

theorem keeps_execPortRestart (h : Keeps z s) : KeepsNext z (execPortRestart s) := by
  unfold execPortRestart
  extract_lets _
  exact KeepsNext.next (Keeps.whenOk h (fun _ h1 => keeps_updCport (keeps_toTraining h1)))

theorem keeps_fenceLane {p l : Nat} (h : Keeps z s) : Keeps z (fenceLane p l s) := by
  unfold fenceLane
  extract_lets _ _ _ _ s1 s2 _ s3 _ _ s4 _ s5
  have h1 : Keeps z s1 := keeps_repair h
  have h2 : Keeps z s2 := keeps_setCport h1
  have h3 : Keeps z s3 := keeps_degraded (keeps_raise h2.same)
  have h4 : Keeps z s4 := keeps_setCport h1
  have h5 : Keeps z s5 := keeps_degraded (keeps_raise h4.same)
  exact Keeps.ite (Keeps.ite (keeps_toFenced h3) h3) (Keeps.ite (keeps_setCport h1.same) (Keeps.ite (keeps_toFenced h5) h5))

theorem keeps_lastingFault {p lsn : Nat} {lane : Option Nat} (h : Keeps z s) : Keeps z (lastingFault p lsn lane s) := by
  unfold lastingFault
  split
  · extract_lets s1
    have h1 : Keeps z s1 := keeps_fenceLane h
    exact keeps_classify h1
  · extract_lets _ _ s2 _
    have h2 : Keeps z s2 := keeps_toFenced h
    split
    · exact Keeps.ite (keeps_classify h2) (keeps_classify (keeps_setCport (keeps_raise h)))
    · exact keeps_classify (keeps_setCport (keeps_raise h))

theorem keeps_resendFrom {p skip : Nat} {retry : List (Nat × WireItem)} (h : Keeps z s) :
    Keeps z (resendFrom p skip retry s) := by
  unfold resendFrom
  split
  · exact h
  · extract_lets _ _ s1
    have h1 : Keeps z s1 := h.same
    exact Keeps.foldl (keeps_emit h1) (fun _ _ h2 => keeps_emit h2)

theorem keeps_takeLcw {p : Nat} {lcw : BitVec 20} (h : Keeps z s) : Keeps z (takeLcw p lcw s) := by
  unfold takeLcw
  extract_lets _ _ _ _
  split
  · extract_lets _ s1 s2
    have h1 : Keeps z s1 := keeps_setCport h
    have h2 : Keeps z s2 := Keeps.ite (keeps_resendFrom h1) h1
    exact keeps_drainQueue h2

theorem keeps_takeSlots {p : Nat} {lane : Option Nat} {slots : List LinkSlot} (h : Keeps z s) :
    Keeps z (takeSlots p lane slots s) := by
  induction slots generalizing s with
  | nil => exact h
  | cons a l ih =>
    cases a with
    | good counted bytes =>
      refine Keeps.ite (ih (Keeps.ite (keeps_bump (keeps_classify ?_)) ?_)) (ih h.same)
      · exact keeps_setCport h.same
      · exact keeps_setCport h.same
    | bad =>
      have h1 : Keeps z (bump Reg.GX_CF_CRC_ERR_CNT s) := keeps_bump h
      exact Keeps.ite (keeps_lastingFault (keeps_emit (keeps_setCport h1))) (keeps_emit (keeps_setCport h1))

theorem keeps_execCodewordReceive {port : Nat} {lcw : BitVec 20} {slots : List LinkSlot} {corrected : Bool}
    {lane : Option Nat} (h : Keeps z s) : KeepsNext z (execCodewordReceive port lcw slots corrected lane s) := by
  unfold execCodewordReceive
  refine KeepsNext.next ?_
  refine Keeps.whenOk h fun s3 h3 => ?_
  extract_lets s4 s5
  have h4 : Keeps z s4 := Keeps.ite (keeps_bump h3) h3
  have h5 : Keeps z s5 := keeps_takeLcw h4
  exact Keeps.ite h5 (keeps_takeSlots h5)

theorem keeps_execSpareLaneSwap {port : Nat} (h : Keeps z s) : KeepsNext z (execSpareLaneSwap port s) := by
  unfold execSpareLaneSwap
  extract_lets _
  exact KeepsNext.next (Keeps.whenOk h (fun _ h1 => keeps_raise (keeps_setCport h1)))

theorem keeps_cmapLoad {header levels headerAgain : List Byte} {failed : Bool} (h : Keeps z s) :
    Keeps z (cmapLoad header levels headerAgain failed s) := by
  unfold cmapLoad
  split
  · extract_lets _ _
    refine Keeps.ite (keeps_raise h) ?_
    refine Keeps.ite h ?_
    split
    · split
      · exact Keeps.ite (keeps_raise h) (Keeps.ite (keeps_raise h.same) h)

theorem keeps_execCmapLoad {header levels headerAgain : List Byte} {failed : Bool} (h : Keeps z s) :
    KeepsNext z (execCmapLoad header levels headerAgain failed s) := by
  unfold execCmapLoad
  exact KeepsNext.next (Keeps.whenOk h (fun _ h1 => keeps_cmapLoad h1))

theorem keeps_execFenceTableWrite {value : Word} (h : Keeps z s) : KeepsNext z (execFenceTableWrite value s) := by
  unfold execFenceTableWrite
  extract_lets _ _ _ _
  exact KeepsNext.next (Keeps.whenOk h (fun _ h1 => Keeps.ite (keeps_raise h1) (keeps_retryHeld h1.same)))

theorem keeps_takeAlignCell {key : Nat} {pay : BitVec 512} {late : Int} {delay : Nat} (h : Keeps z s) :
    Keeps z (takeAlignCell key pay late delay s) := by
  unfold takeAlignCell
  extract_lets _ _ _ _ s1
  have h1 : Keeps z s1 := h.same
  exact Keeps.ite (keeps_enterAlign h1) h1

theorem keeps_execTickAlignCellReceive {port : Nat} {pay : BitVec 512} {late : Int} (h : Keeps z s) :
    KeepsNext z (execTickAlignCellReceive port pay late s) := by
  unfold execTickAlignCellReceive
  split
  · exact KeepsNext.next (Keeps.whenOk h (fun _ h1 => keeps_takeAlignCell h1))
  · exact KeepsNext.next (Keeps.whenOk h (fun _ h2 => keeps_takeAlignCell h2))

theorem keeps_setKeySlot {n : Nat} {k : KeySlot} (h : Keeps z s) : Keeps z (setKeySlot n k s) := h.same

theorem keeps_exhaust {n : Nat} (h : Keeps z s) : Keeps z (exhaust n s) := by
  unfold exhaust
  exact keeps_bump (keeps_raise (keeps_setKeySlot h))

theorem keeps_charge {n blocks : Nat} (h : Keeps z s) : Keeps z (charge n blocks s).1 := by
  unfold charge
  extract_lets _ s1
  have h1 : Keeps z s1 := keeps_setKeySlot h
  split
  · refine Keeps.fst_mk ?_
    exact h
  · split
    · refine Keeps.fst_mk ?_
      exact keeps_exhaust h
    · refine Keeps.fst_mk ?_
      exact Keeps.ite (keeps_exhaust h1) h1

theorem keeps_cryptCount {n : Nat} (h : Keeps z s) : Keeps z (cryptCount n s) := h.same

theorem keeps_startUnits {a : Nat} {kind : UnitActionKind} (h : Keeps z s) : Keeps z (startUnits a kind s) := by
  unfold startUnits
  refine Keeps.foldl h fun s2 _ h2 => ?_
  split
  · exact h2
  · extract_lets _ _
    exact Keeps.ite h2 (Keeps.foldl h2.same (fun _ _ h3 => h3.same))

theorem keeps_endUnits {a : Nat} {kind : UnitActionKind} (h : Keeps z s) : Keeps z (endUnits a kind s) := h.same

theorem keeps_unitAcked {flock member : Nat} (h : Keeps z s) : Keeps z (unitAcked flock member s) := h.same

end Sys2Proof.Machine
end

section
/-! PROOFS. What every command keeps: rings and the transport, one lemma per operation. -/

set_option Elab.async false

namespace Sys2Proof.Machine

variable {z s : State}

theorem keeps_updRing {r : Nat} {f : Ring → Ring} (h : Keeps z s) : Keeps z (updRing r f s) := h.same

theorem keeps_updChain {ring head : Nat} {f : Op → Op} (h : Keeps z s) : Keeps z (updChain ring head f s) := h.same

theorem keeps_finishOp {ring head : Nat} {c : Completion} (h : Keeps z s) : Keeps z (finishOp ring head c s) := h.same

theorem keeps_mgmtDone {slot status : Nat} (h : Keeps z s) : Keeps z (mgmtDone slot status s) := h.same

theorem keeps_placeWrite {loc addr : Nat} {bs : List Byte} (h : Keeps z s) : Keeps z (placeWrite loc addr bs s).1 := by
  unfold placeWrite
  split
  · exact keeps_tierPut h
  · split
    · refine Keeps.fst_mk ?_
      exact keeps_emit h
    · split
      · refine Keeps.fst_mk ?_
        exact keeps_emit h
      · refine Keeps.fst_mk ?_
        exact h

theorem keeps_recordHalt {n ring slot reason : Nat} (h : Keeps z s) : Keeps z (recordHalt n ring slot reason s) := by
  unfold recordHalt
  exact Keeps.ite h (keeps_putReg (keeps_putReg h))

theorem keeps_stopMgmt {slot status : Nat} (h : Keeps z s) : Keeps z (stopMgmt slot status s) := by
  unfold stopMgmt
  split
  · exact h.same
  · exact keeps_mgmtDone h

theorem keeps_stopMoves {n status : Nat} (h : Keeps z s) : Keeps z (stopMoves n status s) := by
  unfold stopMoves
  exact Keeps.foldl h (fun _ _ h1 => keeps_stopMgmt h1)

theorem keeps_dropFreeze {n : Nat} (h : Keeps z s) : Keeps z (dropFreeze n s) := by
  unfold dropFreeze
  extract_lets _ s1 s2 _
  have h1 : Keeps z s1 := Keeps.elim h (fun _ => keeps_mgmtDone h)
  have h2 : Keeps z s2 := Keeps.elim h1 (fun _ => keeps_mgmtDone h1)
  exact keeps_setInst h2

theorem keeps_enterHalted {n reason : Nat} (h : Keeps z s) : Keeps z (enterHalted n reason s) := by
  unfold enterHalted
  extract_lets _ s1 _ s2 s3
  have h1 : Keeps z s1 := keeps_stopMoves (keeps_dropFreeze h)
  have h2 : Keeps z s2 := keeps_setInst h1
  have h3 : Keeps z s3 := Keeps.elim h2 (fun _ => keeps_startUnits h2)
  exact Keeps.ite (keeps_raise (keeps_enterState h3)) h

theorem keeps_haltInstance {n ring slot reason : Nat} (h : Keeps z s) : Keeps z (haltInstance n ring slot reason s) := by
  unfold haltInstance
  extract_lets _
  exact Keeps.ite (keeps_enterHalted (keeps_recordHalt h)) h

theorem keeps_haltAdapter {ring slot reason : Nat} (h : Keeps z s) : Keeps z (haltAdapter ring slot reason s) := by
  unfold haltAdapter
  extract_lets s1 s2 _
  have h1 : Keeps z s1 := keeps_recordHalt h
  have h2 : Keeps z s2 := Keeps.foldl h1 (fun _ _ h3 => keeps_enterHalted h3)
  exact keeps_raise h2.same

theorem keeps_haltFor {ring slot reason : Nat} (h : Keeps z s) : Keeps z (haltFor ring slot reason s) := by
  unfold haltFor
  split
  · exact h
  · exact Keeps.ite (keeps_haltAdapter h) (keeps_haltInstance h)

theorem keeps_chargePoll {r : Nat} {doorbell : Bool} (h : Keeps z s) : KeepsServe z (chargePoll r doorbell s) := by
  unfold chargePoll
  split
  · exact h
  · split
    · exact h.same
    · split
      · exact h.same
      · split
        · exact h.same
        · exact keeps_raise (keeps_bump h.same)

theorem keeps_pollSq {ring : Nat} {entry : BitVec 512} {failed : Bool} (h : Keeps z s) :
    Keeps z (pollSq ring entry failed s) := by
  unfold pollSq
  split
  · exact h
  · refine Keeps.ite h ?_
    split
    · rename_i s1 e1
      have h1 := (keeps_chargePoll h).of_later e1
      exact h1
    · rename_i s2 e2
      have h2 := (keeps_chargePoll h).of_now e2
      extract_lets s3 _ _
      have h3 : Keeps z s3 := keeps_bump h2
      exact Keeps.ite (keeps_haltFor h3) (Keeps.ite (keeps_updRing h3) (keeps_updRing h3))

theorem keeps_execSqPoll {ring : Nat} {entry : BitVec 512} {failed : Bool} (h : Keeps z s) :
    KeepsNext z (execSqPoll ring entry failed s) := by
  unfold execSqPoll
  exact KeepsNext.next (Keeps.whenOk h (fun _ h1 => keeps_pollSq h1))

theorem keeps_reserveSlot {ring cq : Nat} (h : Keeps z s) : Keeps z (reserveSlot ring cq s) := h.same

theorem keeps_checkCq {ring : Nat} {own failed : Bool} (h : Keeps z s) : Keeps z (checkCq ring own failed s) := by
  unfold checkCq
  split
  · exact h
  · refine Keeps.ite h ?_
    split
    · exact h
    · split
      · rename_i s1 e1
        have h1 := (keeps_chargePoll h).of_later e1
        exact h1
      · rename_i s2 e2
        have h2 := (keeps_chargePoll h).of_now e2
        extract_lets s3 _
        have h3 : Keeps z s3 := keeps_bump h2
        exact Keeps.ite (keeps_haltFor h3) (Keeps.ite (keeps_reserveSlot h3) (keeps_updRing h3))

theorem keeps_execCqReservationCheck {ring : Nat} {own failed : Bool} (h : Keeps z s) :
    KeepsNext z (execCqReservationCheck ring own failed s) := by
  unfold execCqReservationCheck
  exact KeepsNext.next (Keeps.whenOk h (fun _ h1 => keeps_checkCq h1))

theorem keeps_doorbell {n ring : Nat} (h : Keeps z s) : Keeps z (doorbell n ring s) := by
  unfold doorbell
  extract_lets s1 s2 _
  have h1 : Keeps z s1 := keeps_raise (keeps_bump h)
  have h2 : Keeps z s2 := keeps_updRing h
  split
  · exact h1
  · refine Keeps.ite h1 ?_
    split
    · exact h1
    · exact h2.same
    · split
      · exact keeps_updRing h
      · exact h

theorem keeps_execDoorbell {n ring : Nat} (h : Keeps z s) : KeepsNext z (execDoorbell n ring s) := by
  unfold execDoorbell
  exact KeepsNext.next (Keeps.whenOk h (fun _ h1 => keeps_doorbell h1))

theorem keeps_releaseHead {r : Nat} (h : Keeps z s) : Keeps z (releaseHead r s).1 := by
  unfold releaseHead
  split
  · refine Keeps.fst_mk ?_
    exact h
  · split
    · extract_lets _ _ _
      split
      · rename_i s1 _ e1
        have h1 := (keeps_placeWrite h).of_eq e1
        split
        · rename_i s2 _ e2
          have h2 := (keeps_placeWrite h1).of_eq e2
          split
          · rename_i s3 _ e3
            have h3 := (keeps_placeWrite h2).of_eq e3
            split
            · refine Keeps.fst_mk ?_
              exact h3
            · extract_lets s4
              have h4 : Keeps z s4 := keeps_updRing h3
              refine Keeps.fst_mk ?_
              exact keeps_updRing h4
    · refine Keeps.fst_mk ?_
      exact h

theorem keeps_execCompletionRelease {ring : Nat} {failed : Bool} (h : Keeps z s) :
    KeepsNext z (execCompletionRelease ring failed s) := by
  unfold execCompletionRelease
  refine KeepsNext.next ?_
  refine Keeps.whenOk h fun s3 h3 => ?_
  split
  · exact h3
  · split
    · exact h3
    · refine Keeps.ite h3 ?_
      refine Keeps.ite (keeps_haltFor h3) ?_
      split
      · rename_i s4 _ e4
        have h4 := (keeps_releaseHead h3).of_eq e4
        exact Keeps.ite (keeps_haltFor h4) h4

theorem keeps_quotaRefused {slot : Nat} (h : Keeps z s) : Keeps z (quotaRefused slot s) := by
  unfold quotaRefused
  exact keeps_raise (keeps_mgmtDone h)

theorem keeps_execRingRegister {slot : Nat} (h : Keeps z s) : KeepsNext z (execRingRegister slot s) := by
  unfold execRingRegister
  refine KeepsNext.next ?_
  refine Keeps.whenOk h fun s3 h3 => ?_
  split
  · exact h3
  · split
    · refine Keeps.ite (keeps_mgmtDone h3) ?_
      refine Keeps.ite (keeps_quotaRefused h3) ?_
      extract_lets _ s4 _
      have h4 : Keeps z s4 := keeps_setInst h3
      exact keeps_mgmtDone h4.same

theorem keeps_scanSlot {r status : Nat} {e : BitVec 512} (h : Keeps z s) : Keeps z (scanSlot r status e s) := by
  unfold scanSlot
  split
  · exact h
  · extract_lets _ _ _ _ _ _ s1
    have h1 : Keeps z s1 := keeps_updRing h
    exact Keeps.ite h1 (keeps_updRing h1)

theorem keeps_scanRing {r status : Nat} {given : List (BitVec 512)} {failed : Bool} (h : Keeps z s) :
    Keeps z (scanRing r status given failed s).1 := by
  unfold scanRing
  split
  · refine Keeps.fst_mk ?_
    exact h
  · extract_lets _ s1
    have h1 : Keeps z s1 := Keeps.foldl h (fun _ _ h2 => keeps_finishOp h2)
    split
    · extract_lets s3 _ s4
      have h3 : Keeps z s3 := Keeps.foldl h1 (fun _ _ h5 => keeps_scanSlot h5)
      have h4 : Keeps z s4.1 := by
        unfold s4
        refine Keeps.foldlPair h3 fun s6 _ h6 => ?_
        split
        · exact h6
        · exact keeps_releaseHead h6
      exact h4

theorem keeps_dropReservation {r : Nat} (h : Keeps z s) : Keeps z (dropReservation r s) := by
  unfold dropReservation
  split
  · exact h
  · exact Keeps.ite (keeps_updRing h) h

theorem keeps_removeRing {r : Nat} (h : Keeps z s) : Keeps z (removeRing r s) := by
  unfold removeRing
  extract_lets s1 _
  have h1 : Keeps z s1 := keeps_dropReservation h
  exact h1.same

theorem keeps_mgmtEnable {value : Word} (h : Keeps z s) : Keeps z (mgmtEnable value s) := by
  unfold mgmtEnable
  extract_lets _ s1 _ _ _ _ _ _
  have h1 : Keeps z s1 := keeps_putReg h
  exact Keeps.ite h (Keeps.ite (keeps_raise h1) h1.same)

theorem keeps_execMgmtEnable {value : Word} (h : Keeps z s) : KeepsNext z (execMgmtEnable value s) := by
  unfold execMgmtEnable
  exact KeepsNext.next (Keeps.whenOk h (fun _ h1 => keeps_mgmtEnable h1))

theorem keeps_execMgmtDisable {entries : List (BitVec 512)} (h : Keeps z s) :
    KeepsNext z (execMgmtDisable entries s) := by
  unfold execMgmtDisable
  refine KeepsNext.next ?_
  refine Keeps.whenOk h fun s3 h3 => ?_
  extract_lets s4 s5 _
  have h4 : Keeps z s4 := keeps_scanRing h3
  have h5 : Keeps z s5 := Keeps.ite (keeps_removeRing (keeps_removeRing h4)) h3
  exact keeps_putReg h5.same

theorem keeps_updAcc {p : Nat} {f : AccPort → AccPort} (h : Keeps z s) : Keeps z (updAcc p f s) := h.same

theorem keeps_muleMove {ingress retx begins : Bool} {bs : List Byte} (h : Keeps z s) :
    Keeps z (muleMove ingress retx begins bs s) := by
  unfold muleMove
  extract_lets _ _ _ s1
  have h1 : Keeps z s1 := h.same
  exact keeps_stream h1

theorem keeps_dropGot {owner : Nat} (h : Keeps z s) : Keeps z (dropGot owner s) := h.same

theorem keeps_portWrote {p : Nat} {w : Waiter} (h : Keeps z s) : Keeps z (portWrote p w s) := h.same

theorem keeps_dataWrite {w : Waiter} {node off : Nat} {bs : List Byte} (h : Keeps z s) :
    Keeps z (dataWrite w node off bs s).1 := by
  unfold dataWrite
  extract_lets _
  split
  · refine Keeps.fst_mk ?_
    exact h
  · split
    · extract_lets _ _ s1
      have h1 : Keeps z s1 := keeps_emit h
      refine Keeps.fst_mk ?_
      exact keeps_portWrote h1
    · split
      · rename_i s2 _ e2
        have h2 := (keeps_tierPut h).of_eq e2
        refine Keeps.fst_mk ?_
        exact h2

theorem keeps_tryFlush {p : Nat} (h : Keeps z s) : Keeps z (tryFlush p s) := by
  unfold tryFlush
  extract_lets _
  exact Keeps.ite (keeps_emit (keeps_bump (keeps_updAcc h))) h

theorem keeps_awaitFlush {w : Waiter} (h : Keeps z s) : Keeps z (awaitFlush w s).1 := by
  unfold awaitFlush
  extract_lets _
  refine Keeps.fst_mk ?_
  exact Keeps.foldl h (fun _ _ h1 => keeps_tryFlush (keeps_updAcc h1))

theorem keeps_writeRange {w : Waiter} {pages : List PageMap} {va : Nat} {bs : List Byte} (h : Keeps z s) :
    Keeps z (writeRange w pages va bs s).1 := by
  unfold writeRange
  refine Keeps.foldlPair h fun s1 _ h1 => ?_
  split
  · rename_i s2 _ _ e2
    have h2 := (keeps_dataWrite h1).of_eq e2
    refine Keeps.fst_mk ?_
    exact h2

theorem keeps_updQp {n : Nat} {f : Qp → Qp} (h : Keeps z s) : Keeps z (updQp n f s) := h.same

theorem keeps_sendCtl {qpn : Nat} {q : Qp} {kind msn : Nat} {pay : List Byte} (h : Keeps z s) :
    Keeps z (sendCtl qpn q kind msn pay s) := by
  unfold sendCtl
  split
  · exact h
  · extract_lets _ _
    exact h.same

theorem keeps_sendAck {qpn t : Nat} (h : Keeps z s) : Keeps z (sendAck qpn t s) := by
  unfold sendAck
  split
  · exact h
  · exact Keeps.foldl h (fun _ _ h1 => keeps_sendCtl h1)

theorem keeps_sendNack {qpn msn nackKind chunk : Nat} {resp : Bool} {received : List Nat} (h : Keeps z s) :
    Keeps z (sendNack qpn msn nackKind chunk resp received s) := by
  unfold sendNack
  split
  · exact h
  · extract_lets _ _ s1
    have h1 : Keeps z s1 := keeps_bump (keeps_sendCtl h)
    exact Keeps.ite (keeps_bump h1) h1

theorem keeps_sendRespAck {qpn msn : Nat} (h : Keeps z s) : Keeps z (sendRespAck qpn msn s) := by
  unfold sendRespAck
  split
  · exact h
  · exact keeps_sendCtl h

theorem keeps_updRun {key : Nat} {f : OpRun → OpRun} (h : Keeps z s) : Keeps z (updRun key f s) := h.same

theorem keeps_updTile {key i : Nat} {f : Tile → Tile} (h : Keeps z s) : Keeps z (updTile key i f s) := h.same

theorem keeps_releaseUses {us : List Nat} (h : Keeps z s) : Keeps z (releaseUses us s) := by
  unfold releaseUses
  exact Keeps.foldl h (fun _ _ h1 => keeps_l2Release h1)

theorem keeps_settleUses {w : Waiter} {pages : List PageMap} {us : List Nat} (h : Keeps z s) :
    Keeps z (settleUses w pages us s) := by
  unfold settleUses
  exact Keeps.ite h.same (keeps_releaseUses h)

theorem keeps_sweepUses (h : Keeps z s) : Keeps z (sweepUses s) := by
  unfold sweepUses
  extract_lets _ _
  exact keeps_releaseUses h.same

theorem keeps_removeRun {key : Nat} (h : Keeps z s) : Keeps z (removeRun key s) := by
  unfold removeRun
  split
  · exact h
  · extract_lets s1 s2 _ _
    have h1 : Keeps z s1 := keeps_releaseUses h
    have h2 : Keeps z s2 := keeps_dropGot h1
    exact h2.same

theorem keeps_finishRun {key : Nat} {c : Completion} (h : Keeps z s) : Keeps z (finishRun key c s) := by
  unfold finishRun
  split
  · exact h
  · split
    · rename_i s1 _ e1
      have h1 := (keeps_awaitFlush h).of_eq e1
      extract_lets s2
      have h2 : Keeps z s2 := keeps_finishOp h1
      exact Keeps.ite (keeps_removeRun h2) (keeps_updChain h2)

theorem keeps_checkRun {key : Nat} (h : Keeps z s) : Keeps z (checkRun key s) := by
  unfold checkRun
  split
  · exact h
  · exact Keeps.ite (keeps_finishRun h) h

theorem keeps_collAbort {h' seq code rank : Nat} (h : Keeps z s) : Keeps z (collAbort h' seq code rank s) := by
  unfold collAbort
  split
  · exact h
  · split
    · exact h
    · exact Keeps.ite h (keeps_putReg (keeps_putReg h.same))

theorem keeps_breakHerd {qpn : Nat} (h : Keeps z s) : Keeps z (breakHerd qpn s) := by
  unfold breakHerd
  split
  · exact h
  · split
    · exact h
    · extract_lets _ _ s1
      have h1 : Keeps z s1 := h.same
      exact Keeps.ite h (keeps_raise (Keeps.foldl h1 (fun _ _ h2 => keeps_collAbort h2)))

theorem keeps_dropRecvs {qpn status : Nat} (h : Keeps z s) : Keeps z (dropRecvs qpn status s) := by
  unfold dropRecvs
  split
  · exact h
  · extract_lets s1
    have h1 : Keeps z s1 := Keeps.foldl h (fun _ _ h2 => keeps_finishOp h2)
    exact keeps_updQp h1

theorem keeps_dropRecords {qpn : Nat} (h : Keeps z s) : Keeps z (dropRecords qpn s) := by
  unfold dropRecords
  extract_lets s1 _
  have h1 : Keeps z s1 := Keeps.foldl h (fun _ _ h2 => keeps_releaseUses h2)
  exact h1.same

theorem keeps_completeQpOps {qpn status : Nat} {keep : Nat → Bool} (h : Keeps z s) :
    Keeps z (completeQpOps qpn status keep s) := by
  unfold completeQpOps
  extract_lets _ s1
  have h1 : Keeps z s1 := by
    unfold s1
    refine Keeps.foldl h fun s3 _ h3 => ?_
    split
    · exact h3
    · exact Keeps.ite h3 (keeps_removeRun (keeps_finishOp h3))
  exact Keeps.foldl h1 (fun _ _ h4 => Keeps.ite h4 (keeps_finishOp h4))

theorem keeps_qpError {qpn : Nat} (h : Keeps z s) : Keeps z (qpError qpn s) := by
  unfold qpError
  split
  · exact h
  · refine Keeps.ite h ?_
    extract_lets s1 s2 s3
    have h1 : Keeps z s1 := keeps_updQp h
    have h2 : Keeps z s2 := keeps_completeQpOps h1
    have h3 : Keeps z s3 := keeps_dropRecords (keeps_dropRecvs h2)
    exact keeps_breakHerd (keeps_raise h3)

theorem keeps_qpMoved {qpn msn : Nat} (h : Keeps z s) : Keeps z (qpMoved qpn msn s) := by
  unfold qpMoved
  split
  · exact h
  · refine Keeps.ite h ?_
    extract_lets s1 s2 s3
    have h1 : Keeps z s1 := keeps_updQp h
    have h2 : Keeps z s2 := keeps_completeQpOps h1
    have h3 : Keeps z s3 := keeps_dropRecords (keeps_dropRecvs h2)
    exact keeps_breakHerd (keeps_raise h3)

theorem keeps_takeIf {e : XlEntry} (h : Keeps z s) : Keeps z (takeIf s e).1 := by
  unfold takeIf
  split
  · refine Keeps.fst_mk ?_
    exact keeps_l2Take h
  · refine Keeps.fst_mk ?_
    exact h

theorem keeps_xlateRange {fuel space instn va fin : Nat} {need : Need} {place : Place} {reads : NMap (BitVec 128)}
    (h : Keeps z s) : Keeps z (xlateRange fuel space instn va fin need place reads s).1 := by
  induction fuel generalizing space instn va fin need place reads s with
  | zero =>
    unfold xlateRange
    refine Keeps.fst_mk ?_
    exact h
  | succ k ih =>
    unfold xlateRange
    split
    · refine Keeps.fst_mk ?_
      exact h
    · extract_lets f1 s2 _ s3
      have h1 : ∀ a0 a1, Keeps z a0 → Keeps z (f1 a0 a1).1 := by
        intro s1' _ h1'
        unfold f1
        split
        · split
          · rename_i s4 _ e4
            have h4 := (keeps_takeIf h1').of_eq e4
            extract_lets _
            split
            · rename_i s5 _ _ e5
              have h5 := (ih h4).of_eq e5
              refine Keeps.fst_mk ?_
              exact h5
            · rename_i s6 _ e6
              have h6 := (ih h4).of_eq e6
              refine Keeps.fst_mk ?_
              exact keeps_releaseUses h6
        · refine Keeps.fst_mk ?_
          exact h1'
      have h2 : Keeps z s2 := keeps_bump h
      have h3 : Keeps z s3 := keeps_fillFromWalk h2
      split
      · refine Keeps.fst_mk ?_
        exact h
      · split
        · split
          · refine Keeps.fst_mk ?_
            exact h
          · exact h1 _ _ h
        · clear_value *
          split
          · refine Keeps.fst_mk ?_
            exact h3
          · exact h1 _ _ h3

theorem keeps_startWalk {space instn owner va : Nat} (h : Keeps z s) : Keeps z (startWalk space instn owner va s) := by
  unfold startWalk
  refine Keeps.ite h ?_
  extract_lets s1 _
  have h1 : Keeps z s1 := keeps_bump h
  exact h1.same

theorem keeps_cutRun {key i status detail va : Nat} (h : Keeps z s) : Keeps z (cutRun key i status detail va s) :=
  h.same

theorem keeps_translateTile {key i : Nat} (h : Keeps z s) : Keeps z (translateTile key i s) := by
  unfold translateTile
  split
  · exact h
  · split
    · exact h
    · refine Keeps.ite h ?_
      split
      · extract_lets _ _ s1
        have h1 : Keeps z s1 := keeps_heldDrop h
        split
        · split
          · extract_lets _ _ _ _ s2
            have h2 : Keeps z s2 := Keeps.foldl h1 (fun _ _ h3 => keeps_l2Take h3)
            refine Keeps.ite (Keeps.foldl h (fun _ _ h5 => keeps_startWalk h5)) ?_
            split
            · exact keeps_heldDrop (keeps_cutRun (keeps_recordFault h))
            · exact Keeps.ite h (keeps_updTile h2)

theorem keeps_translateRun {key : Nat} (h : Keeps z s) : Keeps z (translateRun key s) := by
  unfold translateRun
  split
  · exact h
  · refine Keeps.foldl h fun s2 _ h2 => ?_
    split
    · exact h2
    · exact Keeps.ite (keeps_translateTile h2) h2

theorem keeps_putRec {r : RxRec} (h : Keeps z s) : Keeps z (putRec r s) := h.same

theorem keeps_updRec {qpn msn : Nat} {f : RxRec → RxRec} (h : Keeps z s) : Keeps z (updRec qpn msn f s) := h.same

theorem keeps_rxStatus {qpn msn st : Nat} (h : Keeps z s) : Keeps z (rxStatus qpn msn st s) := by
  unfold rxStatus
  exact Keeps.ite h (keeps_updRec h)

theorem keeps_putResp {r : RespRec} (h : Keeps z s) : Keeps z (putResp r s) := h.same

theorem keeps_dropResp {qpn msn : Nat} (h : Keeps z s) : Keeps z (dropResp qpn msn s) := h.same

theorem keeps_freeResults {qpn msn : Nat} (h : Keeps z s) : Keeps z (freeResults qpn msn s) := h.same

theorem keeps_msnDone {qpn msn st : Nat} (h : Keeps z s) : Keeps z (msnDone qpn msn st s) := by
  unfold msnDone
  extract_lets s1
  have h1 : Keeps z s1 := keeps_updQp h
  exact keeps_sendAck h1

theorem keeps_updRecv {qpn ssn : Nat} {f : RecvEntry → RecvEntry} (h : Keeps z s) : Keeps z (updRecv qpn ssn f s) :=
  h.same

theorem keeps_herdTake {fuel qpn : Nat} (h : Keeps z s) : Keeps z (herdTake fuel qpn s) := by
  induction fuel generalizing qpn s with
  | zero =>
    unfold herdTake
    exact h
  | succ k ih =>
    unfold herdTake
    split
    · exact h
    · split
      · exact h
      · split
        · exact h
        · refine Keeps.ite h ?_
          extract_lets _ _ s1 _
          have h1 : Keeps z s1 := keeps_updQp h
          exact ih h1.same

theorem keeps_rxFinish {qpn msn : Nat} (h : Keeps z s) : Keeps z (rxFinish qpn msn s) := by
  unfold rxFinish
  split
  · exact h
  · refine Keeps.ite h ?_
    split
    · rename_i s1 _ e1
      have h1 := (keeps_awaitFlush h).of_eq e1
      refine Keeps.ite (keeps_updRec h1) ?_
      extract_lets _ s2 _ s3 _ s4 s5 _ s6 s7
      have h2 : Keeps z s2 := Keeps.ite h1 (keeps_raise (keeps_bump h1))
      have h3 : Keeps z s3 := keeps_releaseUses h2
      have h4 : Keeps z s4 := h3.same
      have h5 : Keeps z s5 := keeps_dropGot h4
      have h6 : Keeps z s6 := Keeps.ite (keeps_updRecv h5) (Keeps.ite (keeps_putResp h5) h5)
      have h7 : Keeps z s7 := keeps_msnDone h6
      exact Keeps.ite (keeps_herdTake h7) h7

theorem keeps_fetchRecvs {fuel qpn ssn : Nat} {x : RecvReads} (h : Keeps z s) :
    Keeps z (fetchRecvs fuel qpn ssn x s).1 := by
  induction fuel generalizing qpn ssn x s with
  | zero =>
    unfold fetchRecvs
    refine Keeps.fst_mk ?_
    exact h
  | succ k ih =>
    unfold fetchRecvs
    split
    · refine Keeps.fst_mk ?_
      exact h
    · extract_lets _
      split
      · refine Keeps.fst_mk ?_
        exact h
      · split
        · refine Keeps.fst_mk ?_
          exact h
        · split
          · refine Keeps.fst_mk ?_
            exact h
          · split
            · refine Keeps.fst_mk ?_
              exact h
            · extract_lets _ _ s1 _ s2 _ _ _ s3 _ s4
              have h1 : Keeps z s1 := Keeps.ite h (keeps_bump h)
              have h2 : Keeps z s2 := Keeps.ite h1 (keeps_reserveSlot h1)
              have h3 : Keeps z s3 := keeps_updRing h2
              have h4 : Keeps z s4 := keeps_updQp h3
              split
              · refine Keeps.fst_mk ?_
                exact keeps_haltFor h1
              · split
                · refine Keeps.fst_mk ?_
                  exact h1
                · split
                  · refine Keeps.fst_mk ?_
                    exact keeps_haltFor h2
                  · split
                    · refine Keeps.fst_mk ?_
                      exact h2
                    · clear_value *
                      split
                      · refine Keeps.fst_mk ?_
                        exact keeps_haltFor h3
                      · exact ih h4

theorem keeps_herdEntries {fuel qpn ssn : Nat} (h : Keeps z s) : Keeps z (herdEntries fuel qpn ssn s) := by
  induction fuel generalizing qpn ssn s with
  | zero =>
    unfold herdEntries
    exact h
  | succ k ih =>
    unfold herdEntries
    split
    · exact h
    · extract_lets _
      exact Keeps.ite h (ih (keeps_updQp h))

theorem keeps_answerRnr {qpn msn : Nat} (h : Keeps z s) : Keeps z (answerRnr qpn msn s) := by
  unfold answerRnr
  exact Keeps.ite h (keeps_sendNack h.same)

theorem keeps_placeSend {q : Qp} {c : CellIn} {msn : Nat} {r : RxRec} {x : RecvReads} (h : Keeps z s) :
    Keeps z (placeSend q c msn r x s).1 := by
  unfold placeSend
  extract_lets _ _
  split
  · refine Keeps.fst_mk ?_
    exact h
  · split
    · split
      · refine Keeps.fst_mk ?_
        exact keeps_herdEntries h
      · refine Keeps.fst_mk ?_
        exact keeps_answerRnr h
    · split
      · refine Keeps.fst_mk ?_
        exact h
      · split
        · rename_i s1 _ e1
          have h1 := (keeps_fetchRecvs h).of_eq e1
          split
          · refine Keeps.fst_mk ?_
            exact keeps_answerRnr h1
          · split
            · refine Keeps.fst_mk ?_
              exact h1
            · split
              · refine Keeps.fst_mk ?_
                exact h1
              · split
                · refine Keeps.fst_mk ?_
                  exact h1
                · split
                  · extract_lets _
                    split
                    · rename_i s2 _ e2
                      have h2 := (keeps_xlateRange h1).of_eq e2
                      split
                      · refine Keeps.fst_mk ?_
                        exact h2
                      · extract_lets s3 s4
                        have h3 : Keeps z s3 := keeps_recordFault h2
                        have h4 : Keeps z s4 := keeps_updRecv h3
                        refine Keeps.fst_mk ?_
                        exact h4

theorem keeps_rxCharge {qpn msn : Nat} {c : CellIn} (h : Keeps z s) : Keeps z (rxCharge qpn msn c s) := by
  unfold rxCharge
  split
  · exact h
  · split
    · rename_i s1 _ e1
      have h1 := (keeps_charge h).of_eq e1
      exact Keeps.ite h1 (keeps_updRec h1)

theorem keeps_rxPlain {qpn msn : Nat} {c : CellIn} {bs : List Byte} (h : Keeps z s) :
    Keeps z (rxPlain qpn msn c bs s).1 := by
  unfold rxPlain
  split
  · refine Keeps.fst_mk ?_
    exact h
  · extract_lets _ s1
    have h1 : Keeps z s1 := Keeps.ite (keeps_updRec h) h
    refine Keeps.fst_mk ?_
    exact keeps_cryptCount h1

theorem keeps_applyData {qpn msn : Nat} {c : CellIn} (h : Keeps z s) : Keeps z (applyData qpn msn c s) := by
  unfold applyData
  extract_lets _ _ _ _
  refine Keeps.ite (keeps_updRec h) ?_
  refine Keeps.ite (keeps_rxStatus h) ?_
  split
  · rename_i s1 _ e1
    have h1 := (keeps_rxPlain h).of_eq e1
    extract_lets s2
    have h2 : Keeps z s2 := keeps_muleMove h1
    split
    · rename_i s3 _ _ e3
      have h3 := (keeps_dataWrite h2).of_eq e3
      exact keeps_updRec (keeps_rxStatus h3)

theorem keeps_applyReduce {qpn msn : Nat} {c : CellIn} (h : Keeps z s) : Keeps z (applyReduce qpn msn c s) := by
  unfold applyReduce
  extract_lets _ _ _ _
  refine Keeps.ite (keeps_updRec h) ?_
  refine Keeps.ite (keeps_rxStatus h) ?_
  split
  · rename_i s1 _ e1
    have h1 := (keeps_rxPlain h).of_eq e1
    extract_lets s2
    have h2 : Keeps z s2 := keeps_muleMove h1
    split
    · split
      · extract_lets s3
        have h3 : Keeps z s3 := keeps_countResults h2
        split
        · rename_i s4 _ _ e4
          have h4 := (keeps_dataWrite h3).of_eq e4
          extract_lets s5
          have h5 : Keeps z s5 := keeps_rxStatus h4
          exact keeps_updRec h5

theorem keeps_applySend {qpn msn : Nat} {c : CellIn} (h : Keeps z s) : Keeps z (applySend qpn msn c s) := by
  unfold applySend
  split
  · extract_lets _ _ _ s1 s2 _
    have h1 : Keeps z s1 := keeps_updRecv h
    have h2 : Keeps z s2 := keeps_updRec h1
    refine Keeps.ite ?_ ?_
    · split
      · exact Keeps.ite (keeps_rxStatus h2) h2
      · exact h2
    · split
      · exact h
      · split
        · rename_i s3 _ e3
          have h3 := (keeps_rxPlain h).of_eq e3
          refine Keeps.ite (keeps_updRecv h3) ?_
          extract_lets _ _ s4
          have h4 : Keeps z s4 := keeps_muleMove h3
          split
          · rename_i s5 _ e5
            have h5 := (keeps_writeRange h4).of_eq e5
            extract_lets s6 s7
            have h6 : Keeps z s6 := keeps_rxStatus h5
            have h7 : Keeps z s7 := keeps_updRecv h6
            exact keeps_updRec h7
  · exact h

theorem keeps_applyRequest {qpn msn : Nat} {c : CellIn} (h : Keeps z s) : Keeps z (applyRequest qpn msn c s) := by
  unfold applyRequest
  extract_lets s1 _ _
  have h1 : Keeps z s1 := keeps_updRec h
  exact Keeps.ite (keeps_rxStatus h1) h1

theorem keeps_applyCell {qpn msn : Nat} {c : CellIn} (h : Keeps z s) : Keeps z (applyCell qpn msn c s) := by
  unfold applyCell
  split
  · exact keeps_applyData h
  · exact keeps_applyReduce h
  · exact keeps_applySend h
  · exact keeps_applyRequest h

theorem keeps_answerDuplicate {qpn msn kind : Nat} (h : Keeps z s) : Keeps z (answerDuplicate qpn msn kind s) := by
  unfold answerDuplicate
  split
  · exact h
  · exact Keeps.ite (keeps_putResp h) h

theorem keeps_respCell {c : CellIn} {x : RecvReads} (h : Keeps z s) : Keeps z (respCell c x s) := by
  unfold respCell
  split
  · exact keeps_badCells h
  · refine Keeps.ite (keeps_badCells h) ?_
    refine Keeps.ite (keeps_sendNack h) ?_
    extract_lets _ _ s1 _ _ s2 _
    have h1 : Keeps z s1 := keeps_freeResults h
    have h2 : Keeps z s2.1 := by
      unfold s2
      clear_value *
      split
      · refine Keeps.fst_mk ?_
        exact h1
      · split
        · refine Keeps.fst_mk ?_
          exact keeps_sendNack h1
        · split
          · refine Keeps.fst_mk ?_
            exact h1
          · split
            · refine Keeps.fst_mk ?_
              exact keeps_raise (keeps_bump h1)
            · split
              · exact keeps_placeSend h1
              · refine Keeps.fst_mk ?_
                exact h1
    refine Keeps.ite (keeps_sendNack h) ?_
    refine Keeps.ite (keeps_answerDuplicate (keeps_sendAck (keeps_bump h1))) ?_
    refine Keeps.ite (keeps_badCells h1) ?_
    refine Keeps.ite (keeps_badCells h1) ?_
    refine Keeps.ite h1 ?_
    clear_value *
    split
    · exact h2
    · refine Keeps.ite (keeps_badCells h2) ?_
      refine Keeps.ite (keeps_bump h2) ?_
      extract_lets s3 s4 s5
      have h3 : Keeps z s3 := keeps_putRec h2
      have h4 : Keeps z s4 := Keeps.ite (keeps_rxCharge h3) h3
      have h5 : Keeps z s5 := Keeps.ite (keeps_rxStatus h3) (Keeps.ite (Keeps.ite (keeps_applySend h4) h4) (keeps_applyCell h4))
      exact keeps_rxFinish h5

theorem keeps_readExecute {qpn msn : Nat} (h : Keeps z s) : Keeps z (readExecute qpn msn s) := by
  unfold readExecute
  split
  · exact h
  · extract_lets runs order lineOff
    split
    · exact h
    · extract_lets s1 tx gcm data cells fills
      have h1 : Keeps z s1 := keeps_muleMove h
      clear_value data gcm tx
      refine Keeps.ite h1 ?_
      split
      rename_i s2 ok e2
      have h2 : Keeps z s2 := by
        refine Keeps.of_eq ?_ e2
        split
        · exact h1
        · split
          · exact h1
          · exact keeps_charge h1
      exact keeps_rxFinish (Keeps.ite (keeps_updRec h2) (keeps_putResp (keeps_updRec h2)))

theorem keeps_execReadExecute {qpn msn : Nat} (h : Keeps z s) : KeepsNext z (execReadExecute qpn msn s) := by
  unfold execReadExecute
  exact KeepsNext.next (Keeps.whenOk h (fun _ h1 => keeps_readExecute h1))

theorem keeps_sendAtomicResp {qpn msn : Nat} {prior : List Byte} (h : Keeps z s) :
    Keeps z (sendAtomicResp qpn msn prior s) := by
  unfold sendAtomicResp
  split
  · exact h
  · exact keeps_sendCtl h

theorem keeps_atomicPerform {qpn msn : Nat} (h : Keeps z s) : Keeps z (atomicPerform qpn msn s) := by
  unfold atomicPerform
  split
  · exact h
  · extract_lets _ _ _ _
    split
    · exact h
    · exact keeps_rxFinish (keeps_updRec h)
    · refine Keeps.ite (keeps_rxFinish (keeps_updRec h)) ?_
      extract_lets _
      split
      · rename_i s1 _ _ e1
        have h1 := (keeps_dataWrite h).of_eq e1
        extract_lets s2 s3
        have h2 : Keeps z s2 := keeps_updRec h1
        have h3 : Keeps z s3 := Keeps.ite h2 (keeps_sendAtomicResp (keeps_putResp h2))
        exact keeps_rxFinish h3

theorem keeps_execAtomicPerform {qpn msn : Nat} (h : Keeps z s) : KeepsNext z (execAtomicPerform qpn msn s) := by
  unfold execAtomicPerform
  exact KeepsNext.next (Keeps.whenOk h (fun _ h1 => keeps_atomicPerform h1))

theorem keeps_recvComplete {qpn : Nat} (h : Keeps z s) : Keeps z (recvComplete qpn s) := by
  unfold recvComplete
  split
  · exact h
  · split
    · exact h
    · split
      · exact h
      · refine Keeps.ite h ?_
        extract_lets _ _ s1
        have h1 : Keeps z s1 := keeps_finishOp h
        exact keeps_updQp h1

theorem keeps_execRecvComplete {qpn : Nat} (h : Keeps z s) : KeepsNext z (execRecvComplete qpn s) := by
  unfold execRecvComplete
  exact KeepsNext.next (Keeps.whenOk h (fun _ h1 => keeps_recvComplete h1))

theorem keeps_execRecv {qpn : Nat} {x : RecvReads} (h : Keeps z s) : KeepsNext z (execRecv qpn x s) := by
  unfold execRecv
  refine KeepsNext.next ?_
  refine Keeps.whenOk h fun s3 h3 => ?_
  split
  · exact h3
  · exact Keeps.ite h3 (keeps_fetchRecvs h3)

theorem keeps_missingNack {qpn msn : Nat} (h : Keeps z s) : Keeps z (missingNack qpn msn s) := by
  unfold missingNack
  split
  · exact Keeps.ite (Keeps.foldl h (fun _ _ h1 => keeps_sendNack h1)) h
  · exact h

theorem keeps_recordTimeout {qpn msn : Nat} (h : Keeps z s) : Keeps z (recordTimeout qpn msn s) := by
  unfold recordTimeout
  extract_lets s1
  have h1 : Keeps z s1 := by
    unfold s1
    split
    · refine Keeps.ite ?_ h
      extract_lets s2 _
      have h2 : Keeps z s2 := keeps_releaseUses h
      exact h2.same
    · exact h
  split
  · exact Keeps.ite (keeps_dropResp h1) h1
  · exact h1

theorem keeps_respAck {c : CellIn} (h : Keeps z s) : Keeps z (respAck c s) := by
  unfold respAck
  split
  · exact keeps_badCells h
  · refine Keeps.ite (keeps_badCells h) ?_
    extract_lets _
    split
    · exact Keeps.ite h (keeps_dropResp h)
    · exact h

theorem keeps_markStarted {ring slot : Nat} (h : Keeps z s) : Keeps z (markStarted ring slot s) := h.same

theorem keeps_sealWrite {key : Nat} {ts : List Tile} {bs : List Byte} (h : Keeps z s) :
    Keeps z (sealWrite key ts bs s).1 := by
  induction ts generalizing key bs s with
  | nil =>
    unfold sealWrite
    refine Keeps.fst_mk ?_
    exact h
  | cons a l ih =>
    unfold sealWrite
    split
    · rename_i s1 _ e1
      have h1 := (keeps_writeRange h).of_eq e1
      split
      · rename_i s2 _ e2
        have h2 := (ih h1).of_eq e2
        refine Keeps.fst_mk ?_
        exact h2

theorem keeps_trySeal {key : Nat} (h : Keeps z s) : Keeps z (trySeal key s) := by
  unfold trySeal
  split
  · exact h
  · refine Keeps.ite h ?_
    refine Keeps.ite (keeps_checkRun h) ?_
    refine Keeps.ite h ?_
    extract_lets _ f1
    have h1 : ∀ a0 a1, Keeps z a1 → Keeps z (f1 a0 a1) := by
      intro _ s1' h1'
      unfold f1
      exact keeps_finishRun (keeps_updRun h1')
    refine Keeps.ite h ?_
    split
    · exact h
    · exact h1 _ _ h
    · refine Keeps.ite h ?_
      extract_lets _
      split
      · rename_i s2 _ e2
        have h2 := (keeps_charge h).of_eq e2
        refine Keeps.ite (h1 _ _ h2) ?_
        extract_lets s3
        have h3 : Keeps z s3 := keeps_cryptCount (keeps_muleMove h2)
        refine Keeps.ite ?_ ?_
        · split
          · rename_i s4 e4
            have h4 := (keeps_drawDrbg h3).of_eq_snd e4
            extract_lets s5 _ _ s6 s7
            have h5 : Keeps z s5 := Keeps.ite h4 h3
            have h6 : Keeps z s6 := Keeps.ite h5 (keeps_setKeySlot h5)
            have h7 : Keeps z s7 := keeps_muleMove h6
            split
            · rename_i s8 _ e8
              have h8 := (keeps_sealWrite h7).of_eq e8
              exact h1 _ _ h8
        · split
          · extract_lets s9
            have h9 : Keeps z s9 := keeps_muleMove h3
            split
            · rename_i s10 _ e10
              have h10 := (keeps_sealWrite h9).of_eq e10
              extract_lets s11
              have h11 : Keeps z s11 := Keeps.ite h10 (keeps_raise (keeps_bump h10))
              exact h1 _ _ h11

theorem keeps_progressRun {key : Nat} (h : Keeps z s) : Keeps z (progressRun key s) := by
  unfold progressRun
  extract_lets s1
  have h1 : Keeps z s1 := keeps_translateRun h
  split
  · exact h1
  · exact Keeps.ite (keeps_trySeal h1) (keeps_checkRun h1)

theorem keeps_startOp {opcode ring slot : Nat} (h : Keeps z s) : Keeps z (startOp opcode ring slot s) := by
  unfold startOp
  split
  · refine Keeps.ite h ?_
    split
    · extract_lets s1 _ _ _ _ s2 _ _
      have h1 : Keeps z s1 := keeps_markStarted h
      have h2 : Keeps z s2 := Keeps.ite (keeps_updQp h1) h1
      exact Keeps.ite (keeps_finishOp h1) (Keeps.ite (keeps_finishOp h1) (Keeps.ite (keeps_finishOp h1) (Keeps.ite
        (keeps_finishOp h1) (keeps_progressRun h2.same))))
    · exact h
  · exact h

theorem keeps_execWrite {ring slot : Nat} (h : Keeps z s) : KeepsNext z (execWrite ring slot s) := by
  unfold execWrite
  exact KeepsNext.next (Keeps.whenOk h (fun _ h1 => keeps_startOp h1))

theorem keeps_execRead {ring slot : Nat} (h : Keeps z s) : KeepsNext z (execRead ring slot s) := by
  unfold execRead
  exact KeepsNext.next (Keeps.whenOk h (fun _ h1 => keeps_startOp h1))

theorem keeps_execSend {ring slot : Nat} (h : Keeps z s) : KeepsNext z (execSend ring slot s) := by
  unfold execSend
  exact KeepsNext.next (Keeps.whenOk h (fun _ h1 => keeps_startOp h1))

theorem keeps_execAtomic {ring slot : Nat} (h : Keeps z s) : KeepsNext z (execAtomic ring slot s) := by
  unfold execAtomic
  exact KeepsNext.next (Keeps.whenOk h (fun _ h1 => keeps_startOp h1))

theorem keeps_execWriteReduce {ring slot : Nat} (h : Keeps z s) : KeepsNext z (execWriteReduce ring slot s) := by
  unfold execWriteReduce
  exact KeepsNext.next (Keeps.whenOk h (fun _ h1 => keeps_startOp h1))

theorem keeps_execAttn {ring slot : Nat} (h : Keeps z s) : KeepsNext z (execAttn ring slot s) := by
  unfold execAttn
  exact KeepsNext.next (Keeps.whenOk h (fun _ h1 => keeps_startOp h1))

theorem keeps_fenceOp {ring slot : Nat} (h : Keeps z s) : Keeps z (fenceOp ring slot s) := by
  unfold fenceOp
  split
  · exact h
  · split
    · exact h
    · extract_lets _ _ _
      exact Keeps.ite h (Keeps.ite (keeps_finishOp (keeps_markStarted h)) (Keeps.ite (keeps_finishOp (keeps_markStarted h))
        (Keeps.ite h (keeps_finishOp (keeps_markStarted h)))))

theorem keeps_execFence {ring slot : Nat} (h : Keeps z s) : KeepsNext z (execFence ring slot s) := by
  unfold execFence
  exact KeepsNext.next (Keeps.whenOk h (fun _ h1 => keeps_fenceOp h1))

theorem keeps_updMsg {qpn msn : Nat} {f : Msg → Msg} (h : Keeps z s) : Keeps z (updMsg qpn msn f s) := h.same

theorem keeps_msgDone {qpn msn status : Nat} (h : Keeps z s) : Keeps z (msgDone qpn msn status s) := by
  unfold msgDone
  split
  · exact h
  · extract_lets _ s1 _ _ s2 s3
    have h1 : Keeps z s1 := h.same
    have h2 : Keeps z s2 := Keeps.ite h1 (keeps_releaseUses h1)
    have h3 : Keeps z s3 := keeps_updTile h2
    exact keeps_checkRun h3

theorem keeps_roceDone {qpn msn status : Nat} (h : Keeps z s) : Keeps z (roceDone qpn msn status s) := by
  unfold roceDone
  split
  · refine Keeps.ite ?_ (keeps_msgDone h)
    extract_lets _ s1 _
    have h1 : Keeps z s1 := keeps_releaseUses h
    exact keeps_msgDone (keeps_updRun h1)
  · exact keeps_msgDone h

theorem keeps_goBack {qpn psn : Nat} (h : Keeps z s) : Keeps z (goBack qpn psn s) := h.same

theorem keeps_ackOne {qpn cum clean sack : Nat} {sts : List (Nat × Nat)} {m : Msg} (h : Keeps z s) :
    Keeps z (ackOne qpn cum clean sack sts m s) := by
  unfold ackOne
  extract_lets _ _ _ _
  exact Keeps.ite h (Keeps.ite (keeps_updMsg h) (keeps_msgDone h))

theorem keeps_takeAck {c : CellIn} (h : Keeps z s) : Keeps z (takeAck c s) := by
  unfold takeAck
  split
  · exact keeps_badCells h
  · extract_lets _ _ _ _ _
    exact Keeps.ite (keeps_badCells h) (Keeps.ite h (Keeps.foldl h (fun _ _ h1 => keeps_ackOne h1)))

theorem keeps_nackMissing {qpn : Nat} {q : Qp} {b : List Byte} (h : Keeps z s) : Keeps z (nackMissing qpn q b s) := by
  unfold nackMissing
  extract_lets _ _ _
  refine Keeps.ite ?_ (keeps_updMsg h)
  split
  · exact h
  · extract_lets _
    exact keeps_putResp h

theorem keeps_nackRnr {qpn : Nat} {q : Qp} {msn : Nat} (h : Keeps z s) : Keeps z (nackRnr qpn q msn s) := by
  unfold nackRnr
  split
  · exact h
  · refine Keeps.ite h ?_
    extract_lets _ _
    exact Keeps.ite (keeps_qpError h) (keeps_updMsg h)

theorem keeps_takeNack {kind : Nat} {c : CellIn} (h : Keeps z s) : Keeps z (takeNack kind c s) := by
  unfold takeNack
  extract_lets _
  split
  · exact keeps_badCells h
  · refine Keeps.ite (keeps_badCells h) ?_
    refine Keeps.ite h ?_
    extract_lets _
    split
    · exact keeps_nackMissing h
    · exact keeps_nackRnr h
    · exact keeps_qpMoved h
    · exact keeps_qpError h

theorem keeps_respArrive {c : CellIn} {msn : Nat} {m : Msg} (h : Keeps z s) : Keeps z (respArrive c msn m s).1 := by
  unfold respArrive
  split
  · refine Keeps.fst_mk ?_
    exact keeps_badCells h
  · split
    · refine Keeps.fst_mk ?_
      exact keeps_bump h
    · refine Keeps.fst_mk ?_
      exact keeps_updMsg h

theorem keeps_respWrite {m : Msg} {off : Nat} {begins : Bool} {bs : List Byte} (h : Keeps z s) :
    Keeps z (respWrite m off begins bs s).1 := by
  unfold respWrite
  split
  · refine Keeps.fst_mk ?_
    exact h
  · exact keeps_writeRange (keeps_muleMove h)

theorem keeps_takeReadResp {c : CellIn} (h : Keeps z s) : Keeps z (takeReadResp c s) := by
  unfold takeReadResp
  split
  · exact keeps_badCells h
  · extract_lets msn gcm isSeal slot pay
    refine Keeps.ite (keeps_sendNack h) ?_
    split
    · exact h
    · refine Keeps.ite (keeps_badCells h) (Keeps.ite h (Keeps.ite h ?_))
      split
      rename_i s1 fresh e1
      have h1 : Keeps z s1 := (keeps_respArrive h).of_eq e1
      refine Keeps.ite h1 ?_
      clear_value slot
      split
      rename_i s2 ok e2
      have h2 : Keeps z s2 := by
        refine Keeps.of_eq ?_ e2
        split
        · split
          · exact keeps_charge h1
          · exact h1
        · exact h1
      refine Keeps.ite (keeps_msgDone h2) ?_
      extract_lets s5 s3
      have h5 : Keeps z s5 := Keeps.ite (keeps_updMsg h2) h2
      have h3 : Keeps z s3 := by
        refine Keeps.ite (keeps_updMsg h2) ?_
        split
        rename_i s4 bs e4
        have h4 : Keeps z s4 := by
          refine Keeps.of_eq ?_ e4
          split
          · exact keeps_cryptCount h5
          · exact h2
        split
        rename_i s6 st e6
        exact keeps_updMsg ((keeps_respWrite h4).of_eq e6)
      clear_value s3
      split
      · exact h3
      · refine Keeps.ite h3 ?_
        exact keeps_msgDone (Keeps.ite h3 (keeps_raise (keeps_bump h3)))

theorem keeps_takeAtomicResp {c : CellIn} (h : Keeps z s) : Keeps z (takeAtomicResp c s) := by
  unfold takeAtomicResp
  split
  · exact keeps_badCells h
  · extract_lets _ _
    refine Keeps.ite (keeps_sendNack h) ?_
    refine Keeps.ite (keeps_badCells h) ?_
    split
    · exact keeps_sendRespAck h
    · refine Keeps.ite (keeps_badCells h) ?_
      refine Keeps.ite h ?_
      split
      · rename_i s1 _ e1
        have h1 := (keeps_respWrite h).of_eq e1
        exact keeps_sendRespAck (keeps_msgDone h1)

theorem keeps_takeAttnResp {c : CellIn} (h : Keeps z s) : Keeps z (takeAttnResp c s) := by
  unfold takeAttnResp
  split
  · exact keeps_badCells h
  · extract_lets _ _ _
    refine Keeps.ite (keeps_sendNack h) ?_
    split
    · exact keeps_sendRespAck h
    · refine Keeps.ite (keeps_badCells h) ?_
      refine Keeps.ite h ?_
      split
      · rename_i s1 _ e1
        have h1 := (keeps_respArrive h).of_eq e1
        refine Keeps.ite h1 ?_
        extract_lets s2 s3
        have h2 : Keeps z s2 := keeps_updRun h1
        have h3 : Keeps z s3 := by
          unfold s3
          refine Keeps.ite (keeps_updMsg h2) ?_
          split
          · rename_i s4 _ e4
            have h4 := (keeps_respWrite h1).of_eq e4
            exact Keeps.ite h4 (keeps_updTile h4)
        split
        · exact h3
        · exact Keeps.ite (keeps_sendRespAck (keeps_msgDone h3)) h3

theorem keeps_retransmit {qpn msn : Nat} (h : Keeps z s) : Keeps z (retransmit qpn msn s) := by
  unfold retransmit
  split
  · extract_lets _ _ _ _
    exact Keeps.ite h (Keeps.ite h (Keeps.ite (keeps_qpError h) (Keeps.ite (keeps_goBack (keeps_updMsg h)) (keeps_updMsg h))))
  · exact h

theorem keeps_execRetransmitTimeout {qpn msn : Nat} (h : Keeps z s) : KeepsNext z (execRetransmitTimeout qpn msn s) := by
  unfold execRetransmitTimeout
  exact KeepsNext.next (Keeps.whenOk h (fun _ h1 => keeps_retransmit h1))

theorem keeps_rnrResend {qpn msn : Nat} (h : Keeps z s) : Keeps z (rnrResend qpn msn s) := by
  unfold rnrResend
  split
  · exact h
  · exact Keeps.ite (Keeps.ite (keeps_goBack h) (keeps_updMsg h)) h

theorem keeps_execRnrResend {qpn msn : Nat} (h : Keeps z s) : KeepsNext z (execRnrResend qpn msn s) := by
  unfold execRnrResend
  exact KeepsNext.next (Keeps.whenOk h (fun _ h1 => keeps_rnrResend h1))

theorem keeps_missingRespNack {qpn msn : Nat} (h : Keeps z s) : Keeps z (missingRespNack qpn msn s) := by
  unfold missingRespNack
  split
  · exact Keeps.ite (Keeps.foldl h (fun _ _ h1 => keeps_sendNack h1)) h
  · exact h

theorem keeps_execMissingNackSend {qpn msn : Nat} {resp : Bool} (h : Keeps z s) :
    KeepsNext z (execMissingNackSend qpn msn resp s) := by
  unfold execMissingNackSend
  refine KeepsNext.next ?_
  refine Keeps.whenOk h fun s3 h3 => ?_
  split
  · exact keeps_missingRespNack h3
  · exact keeps_missingNack h3

theorem keeps_respRecTimeout {qpn msn : Nat} (h : Keeps z s) : Keeps z (respRecTimeout qpn msn s) := by
  unfold respRecTimeout
  split
  · exact Keeps.ite (keeps_updMsg h) h
  · exact h

theorem keeps_execRecordTimeout {qpn msn : Nat} {resp : Bool} (h : Keeps z s) :
    KeepsNext z (execRecordTimeout qpn msn resp s) := by
  unfold execRecordTimeout
  refine KeepsNext.next ?_
  refine Keeps.whenOk h fun s3 h3 => ?_
  split
  · exact keeps_respRecTimeout h3
  · exact keeps_recordTimeout h3

end Sys2Proof.Machine
end

section
/-! PROOFS. What every command keeps: kernels, keys, queue pairs and Herds, one lemma per operation. -/

set_option Elab.async false

namespace Sys2Proof.Machine

variable {z s : State}

theorem keeps_l1Take {core : Option Nat} {space : Nat} {pages : List PageMap} (h : Keeps z s) :
    Keeps z (l1Take core space pages s) := by
  unfold l1Take
  split
  · exact h
  · exact Keeps.foldl h (fun _ _ h1 => Keeps.elim h1 (fun _ => keeps_l1Fill h1))

theorem keeps_kernelPages {k : Kernel} {va n : Nat} {need : Need} {tier : Bool} {reads : NMap (BitVec 128)}
    (h : Keeps z s) : KeepsOut z (kernelPages k va n need tier reads s) := by
  unfold kernelPages
  split
  · rename_i s1 _ e1
    have h1 := (keeps_xlateRange h).of_eq e1
    split
    · exact h1
    · extract_lets s2
      have h2 : Keeps z s2 := keeps_l1Take (Keeps.ite (keeps_settleUses h1) (keeps_releaseUses h1))
      split
      · exact h2
      · exact h2

theorem keeps_kernelRead {k : Kernel} {va n : Nat} {reads : NMap (BitVec 128)} (h : Keeps z s) :
    KeepsOut z (kernelRead k va n reads s) := by
  unfold kernelRead
  refine keeps_kBind (keeps_kernelPages h) (fun s2 _ h2 => ?_)
  split
  · exact trivial
  · exact h2
  · split
    · exact h2
    · exact h2

theorem keeps_kernelWrite {k : Kernel} {tier : Bool} {va : Nat} {bs : List Byte} {reads : NMap (BitVec 128)}
    (h : Keeps z s) : KeepsOut z (kernelWrite k tier va bs reads s) := by
  unfold kernelWrite
  refine keeps_kBind (keeps_kernelPages h) (fun s2 _ h2 => ?_)
  split
  · exact trivial
  · split
    · rename_i s3 _ e3
      have h3 := (keeps_writeRange h2).of_eq e3
      split
      · exact h3
      · exact h3

theorem keeps_blockVa {k : Kernel} {q : KSeq} {b : Nat} {reads : NMap (BitVec 128)} (h : Keeps z s) :
    KeepsOut z (blockVa k q b reads s) := by
  unfold blockVa
  refine keeps_kBind (keeps_kernelRead h) (fun s2 _ h2 => ?_)
  extract_lets _
  split
  · exact h2
  · exact h2

theorem keeps_decodeItem {k : Kernel} {q : KSeq} {h' c core : Nat} {reads : NMap (BitVec 128)} (h : Keeps z s) :
    KeepsOut z (decodeItem k q h' c core reads s) := by
  refine keeps_kBind (keeps_kernelRead h) fun s1 qr h1 => ?_
  refine keeps_kBind (foldl_maintains (KeepsOut z) _ (fun acc b hacc => ?_) _ _ h1) fun _ _ h2 => h2
  exact keeps_kBind hacc fun _ _ h2 => keeps_kBind (keeps_blockVa h2) fun _ _ h3 =>
    keeps_kBind (keeps_kernelRead h3) fun _ _ h4 => keeps_kBind (keeps_kernelRead h4) fun _ _ h5 =>
    Keeps.ite (keeps_bump h5) h5

theorem keeps_appendItem {k : Kernel} {q : KSeq} {b : Nat} {reads : NMap (BitVec 128)} (h : Keeps z s) :
    KeepsOut z (appendItem k q b reads s) := by
  unfold appendItem
  extract_lets _ _ _ _ _ _ _
  refine keeps_kBind (keeps_blockVa h) (fun s2 _ h2 => ?_)
  extract_lets f3
  have h3 : ∀ a0 a1, Keeps z a0 → KeepsOut z (f3 a0 a1) := by
    intro s3' _ h3'
    unfold f3
    refine keeps_kBind (keeps_kernelRead h3') (fun s5 _ h5 => ?_)
    extract_lets _
    exact h5
  exact keeps_kBind (keeps_kMap (fun _ _ h6 => h3 _ _ h6) h2) (fun _ _ h7 => h7)

theorem keeps_gatherItem {k : Kernel} {q : KSeq} {b : Nat} {reads : NMap (BitVec 128)} (h : Keeps z s) :
    KeepsOut z (gatherItem k q b reads s) := by
  unfold gatherItem
  exact keeps_kBind (keeps_blockVa h) (fun _ _ h1 => keeps_kBind (keeps_kernelRead h1) (fun _ _ h2 => h2))

theorem keeps_moveItem {k : Kernel} {i : Nat} {reads : NMap (BitVec 128)} (h : Keeps z s) :
    KeepsOut z (moveItem k i reads s) := by
  unfold moveItem
  extract_lets _ _ _ _ _ _
  split
  · exact trivial
  · refine keeps_kBind ?_ (fun s1 _ h1 => ?_)
    · split
      · exact keeps_kernelPages h
      · exact h
    · refine keeps_kBind ?_ (fun s2 _ h2 => ?_)
      · split
        · exact keeps_kernelPages h1
        · exact h1
      · extract_lets _ _
        clear_value *
        split
        · exact trivial
        · exact h2
        · split
          · exact h2
          · split
            · split
              · exact trivial
              · split
                · rename_i s3 _ e3
                  have h3 := (keeps_writeRange h2).of_eq e3
                  split
                  · exact h3
                  · exact h3
            · split
              · rename_i s4 _ e4
                have h4 := (keeps_storeWrite h2).of_eq e4
                split
                · exact h4
                · exact h4

theorem keeps_kernelFail {seq status detail va : Nat} {k : Kernel} (h : Keeps z s) :
    Keeps z (kernelFail seq status detail va k s).2 := by
  unfold kernelFail
  extract_lets s1
  have h1 : Keeps z s1 := Keeps.ite (keeps_recordFault h) h
  split
  · exact h1
  · exact h1

theorem keeps_loseRows {k : Kernel} {seq : Nat} {reads : NMap (BitVec 128)} (h : Keeps z s) :
    Keeps z (loseRows k seq reads s) := by
  unfold loseRows
  refine Keeps.ite h ?_
  extract_lets _
  refine Keeps.foldl h fun s2 _ h2 => ?_
  extract_lets _
  split
  · rename_i s3 _ e3
    have h3 := (keeps_kernelWrite h2.same).of_ok e3
    exact h3
  · exact h2

theorem keeps_flushSeqs {fuel : Nat} {k : Kernel} {reads : NMap (BitVec 128)} (h : Keeps z s) :
    KeepsSomeSnd z (flushSeqs fuel k reads s) := by
  induction fuel generalizing k reads s with
  | zero =>
    unfold flushSeqs
    exact KeepsSomeSnd.some h
  | succ k ih =>
    unfold flushSeqs
    split
    · exact KeepsSomeSnd.some h
    · extract_lets _ _ _ _ s1
      have h1 : KeepsOut z s1 := by
        unfold s1
        split
        · exact keeps_kBind (keeps_kMap (fun _ _ h2 => keeps_kernelWrite h2) h) (fun _ _ h3 => h3)
        · split
          · exact h
          · exact keeps_kernelWrite h
      split
      · exact KeepsSomeSnd.some h
      · clear_value *
        split
        · exact KeepsSomeSnd.none
        · exact KeepsSomeSnd.some (keeps_kernelFail (keeps_loseRows h1))
        · extract_lets _ s4
          have h4 : Keeps z s4 := Keeps.ite h1.same h1
          exact ih h4

theorem keeps_putKernel {k : Kernel} (h : Keeps z s) : Keeps z (putKernel k s) := h.same

theorem keeps_readSeqs {k : Kernel} {reads : NMap (BitVec 128)} (h : Keeps z s) : KeepsOut z (readSeqs k reads s) := by
  unfold readSeqs
  extract_lets _ _
  split
  · exact h
  · refine keeps_kBind (keeps_kernelRead h) (fun s2 _ h2 => ?_)
    extract_lets _
    split
    · exact h2
    · exact h2

theorem keeps_startKernel {kind ring slot : Nat} {reads : NMap (BitVec 128)} (h : Keeps z s) :
    Keeps z (startKernel kind ring slot reads s) := by
  unfold startKernel
  split
  · extract_lets _ _
    refine Keeps.ite h ?_
    split
    · exact h
    · rename_i s1 _ _ _ e1
      have h1 := (keeps_readSeqs h).of_fail e1
      split
      · rename_i s2 e2
        have h2 := (keeps_kernelFail h1).of_eq_snd e2
        exact keeps_putKernel (keeps_markStarted h2)
    · rename_i s3 _ e3
      have h3 := (keeps_readSeqs h).of_ok e3
      exact keeps_haltFor (keeps_updChain h3)
    · rename_i s4 _ e4
      have h4 := (keeps_readSeqs h).of_ok e4
      extract_lets _
      split
      · exact h4
      · rename_i s5 e5
        have h5 := (keeps_flushSeqs h4).of_eq e5
        exact keeps_putKernel (keeps_markStarted h5)
  · exact h

theorem keeps_execDecodeAttn {ring slot : Nat} {reads : NMap (BitVec 128)} (h : Keeps z s) :
    KeepsNext z (execDecodeAttn ring slot reads s) := by
  unfold execDecodeAttn
  exact KeepsNext.next (Keeps.whenOk h (fun _ h1 => keeps_startKernel h1))

theorem keeps_execPrefillAppend {ring slot : Nat} {reads : NMap (BitVec 128)} (h : Keeps z s) :
    KeepsNext z (execPrefillAppend ring slot reads s) := by
  unfold execPrefillAppend
  exact KeepsNext.next (Keeps.whenOk h (fun _ h1 => keeps_startKernel h1))

theorem keeps_execKvGather {ring slot : Nat} {reads : NMap (BitVec 128)} (h : Keeps z s) :
    KeepsNext z (execKvGather ring slot reads s) := by
  unfold execKvGather
  exact KeepsNext.next (Keeps.whenOk h (fun _ h1 => keeps_startKernel h1))

theorem keeps_execTierMove {ring slot : Nat} (h : Keeps z s) : KeepsNext z (execTierMove ring slot s) := by
  unfold execTierMove
  exact KeepsNext.next (Keeps.whenOk h (fun _ h1 => keeps_startKernel h1))

theorem keeps_startAttn {qpn msn : Nat} {reads : NMap (BitVec 128)} (h : Keeps z s) :
    Keeps z (startAttn qpn msn reads s) := by
  unfold startAttn
  split
  · split
    · refine Keeps.ite h ?_
      refine Keeps.ite (keeps_raise h) ?_
      extract_lets _ _ _
      refine Keeps.ite (keeps_putKernel h) ?_
      split
      · exact h
      · rename_i s1 _ _ _ e1
        have h1 := (keeps_readSeqs h).of_fail e1
        split
        · rename_i s2 e2
          have h2 := (keeps_kernelFail h1).of_eq_snd e2
          exact keeps_putKernel h2
      · rename_i s3 _ e3
        have h3 := (keeps_readSeqs h).of_ok e3
        exact keeps_putKernel h3
      · rename_i s4 _ e4
        have h4 := (keeps_readSeqs h).of_ok e4
        split
        · exact h4
        · rename_i s5 e5
          have h5 := (keeps_flushSeqs h4).of_eq e5
          exact keeps_putKernel h5
  · exact h

theorem keeps_execAttnKernelStart {qpn msn : Nat} {reads : NMap (BitVec 128)} (h : Keeps z s) :
    KeepsNext z (execAttnKernelStart qpn msn reads s) := by
  unfold execAttnKernelStart
  exact KeepsNext.next (Keeps.whenOk h (fun _ h1 => keeps_startAttn h1))

theorem keeps_workItem {key item engine : Nat} {reads : NMap (BitVec 128)} (h : Keeps z s) :
    Keeps z (workItem key item engine reads s) := by
  unfold workItem
  split
  · exact h
  · split
    · exact h
    · refine Keeps.ite h ?_
      refine Keeps.ite ?_ ?_
      · refine Keeps.ite h ?_
        split
        · exact h
        · rename_i s1 _ _ _ e1
          have h1 := (keeps_moveItem h).of_fail e1
          split
          · rename_i s2 e2
            have h2 := (keeps_kernelFail h1).of_eq_snd e2
            exact keeps_putKernel h2
        · rename_i s3 _ e3
          have h3 := (keeps_moveItem h).of_ok e3
          exact keeps_putKernel h3
      · split
        · exact h
        · extract_lets _ _ s4 s5
          have h4 : KeepsOut z s4 := by
            unfold s4
            split
            · exact keeps_decodeItem h
            · split
              · exact keeps_appendItem h
              · exact keeps_gatherItem h
          have h5 : KeepsSomeSnd z s5 := by
            unfold s5
            clear_value *
            split
            · exact KeepsSomeSnd.none
            · exact KeepsSomeSnd.some (keeps_kernelFail (keeps_loseRows h4))
            · exact keeps_flushSeqs h4
          refine Keeps.ite h ?_
          refine Keeps.ite h ?_
          clear_value *
          split
          · exact h
          · exact keeps_putKernel ((h5.of_eq rfl))

theorem keeps_execWorkItemEnd {key item engine : Nat} {reads : NMap (BitVec 128)} (h : Keeps z s) :
    KeepsNext z (execWorkItemEnd key item engine reads s) := by
  unfold execWorkItemEnd
  exact KeepsNext.next (Keeps.whenOk h (fun _ h1 => keeps_workItem h1))

theorem keeps_kernelComplete {key : Nat} (h : Keeps z s) : Keeps z (kernelComplete key s) := by
  unfold kernelComplete
  split
  · exact h
  · extract_lets _ _ _ s1 s2 _
    have h1 : Keeps z s1 := h.same
    have h2 : Keeps z s2 := Keeps.ite (keeps_bump h1) (keeps_raise (keeps_bump h1))
    refine Keeps.ite h ?_
    split
    · split
      · rename_i s3 _ e3
        have h3 := (keeps_awaitFlush h2).of_eq e3
        extract_lets s4
        have h4 : Keeps z s4 := keeps_finishOp h3
        exact Keeps.ite h4 (keeps_updChain h4)
    · exact h2.same

theorem keeps_execKernelComplete {key : Nat} (h : Keeps z s) : KeepsNext z (execKernelComplete key s) := by
  unfold execKernelComplete
  exact KeepsNext.next (Keeps.whenOk h (fun _ h1 => keeps_kernelComplete h1))

theorem keeps_mgmtMalformed {slot reason : Nat} (h : Keeps z s) : Keeps z (mgmtMalformed slot reason s) := by
  unfold mgmtMalformed
  exact keeps_haltAdapter (keeps_updRing h)

theorem keeps_spendSlots {qpn : Nat} (h : Keeps z s) : Keeps z (spendSlots qpn s) := h.same

theorem keeps_eraseSlots {p : KeySlot → Bool} (h : Keeps z s) : Keeps z (eraseSlots p s) := by
  unfold eraseSlots
  extract_lets _ s1 _
  have h1 : Keeps z s1 := Keeps.foldl h (fun _ _ h2 => keeps_mgmtDone h2)
  exact h1.same

theorem keeps_keyChange {n : Nat} (h : Keeps z s) : Keeps z (keyChange n s) := by
  unfold keyChange
  extract_lets _
  split
  · exact h
  · refine Keeps.ite h ?_
    extract_lets _ s1 _
    have h1 : Keeps z s1 := keeps_mgmtDone (keeps_setKeySlot h)
    exact Keeps.foldl h1 (fun _ _ h2 => keeps_trySeal h2)

theorem keeps_keyLoad {action slot : Nat} {record : BitVec 512} {failed : Bool} (h : Keeps z s) :
    Keeps z (keyLoad action slot record failed s) := by
  unfold keyLoad
  split
  · exact h
  · extract_lets _ _ _
    refine Keeps.ite h ?_
    refine Keeps.ite (keeps_mgmtDone h) ?_
    refine Keeps.ite (keeps_quotaRefused h) ?_
    refine Keeps.ite (keeps_mgmtDone h) ?_
    refine Keeps.ite (keeps_mgmtMalformed h) ?_
    split
    · exact keeps_mgmtDone (keeps_raise h)
    · refine Keeps.ite (keeps_mgmtDone (keeps_setKeySlot h)) ?_
      extract_lets _
      exact keeps_keyChange (keeps_markStarted (keeps_setKeySlot h))

theorem keeps_execKeyLoad {slot : Nat} {record : BitVec 512} {failed : Bool} (h : Keeps z s) :
    KeepsNext z (execKeyLoad slot record failed s) := by
  unfold execKeyLoad
  exact KeepsNext.next (Keeps.whenOk h (fun _ h1 => keeps_keyLoad h1))

theorem keeps_execKeyRekey {slot : Nat} {record : BitVec 512} {failed : Bool} (h : Keeps z s) :
    KeepsNext z (execKeyRekey slot record failed s) := by
  unfold execKeyRekey
  exact KeepsNext.next (Keeps.whenOk h (fun _ h1 => keeps_keyLoad h1))

theorem keeps_execKeyErase {slot : Nat} (h : Keeps z s) : KeepsNext z (execKeyErase slot s) := by
  unfold execKeyErase
  exact KeepsNext.next (Keeps.whenOk h (fun _ h1 => keeps_keyLoad h1))

theorem keeps_execKeyChangeApply {n : Nat} (h : Keeps z s) : KeepsNext z (execKeyChangeApply n s) := by
  unfold execKeyChangeApply
  exact KeepsNext.next (Keeps.whenOk h (fun _ h1 => keeps_keyChange h1))

theorem keeps_updEth {p : Nat} {f : EthPort → EthPort} (h : Keeps z s) : Keeps z (updEth p f s) := h.same

theorem keeps_withRemote {slot : Nat} {q : Qp} {given : BitVec 256} {failed : Bool} {f : BitVec 256 → State → State}
    (hf : ∀ a0 a1, Keeps z a1 → Keeps z (f a0 a1)) (h : Keeps z s) : Keeps z (withRemote slot q given failed f s) := by
  unfold withRemote
  refine Keeps.ite ?_ (hf _ _ h)
  split
  · exact keeps_mgmtDone h
  · exact Keeps.ite (keeps_mgmtMalformed h) (Keeps.ite (hf _ _ h) (keeps_mgmtDone h))

theorem keeps_qpCreate {slot : Nat} {given : BitVec 256} {failed : Bool} (h : Keeps z s) :
    Keeps z (qpCreate slot given failed s) := by
  unfold qpCreate
  split
  · exact h
  · extract_lets _ _ _
    refine Keeps.ite (keeps_mgmtDone h) ?_
    refine Keeps.ite (keeps_quotaRefused h) ?_
    refine keeps_withRemote (fun _ s7 h7 => ?_) h
    extract_lets _ _ s8 s9
    have h8 : Keeps z s8 := h7.same
    have h9 : Keeps z s9 := Keeps.ite (keeps_updEth h8) h8
    exact keeps_mgmtDone h9

theorem keeps_qpModify {action slot : Nat} {f : Nat → Qp → Qp → State → State}
    (hf : ∀ a0 a1 a2 a3, Keeps z a3 → Keeps z (f a0 a1 a2 a3)) (h : Keeps z s) : Keeps z (qpModify action slot f s) := by
  unfold qpModify
  split
  · exact h
  · refine Keeps.ite h ?_
    split
    · exact keeps_mgmtDone h
    · exact Keeps.ite (keeps_mgmtDone h) (hf _ _ _ _ h)

theorem keeps_qpReconnect {slot : Nat} {given : BitVec 256} {failed : Bool} (h : Keeps z s) :
    Keeps z (qpReconnect slot given failed s) := by
  unfold qpReconnect
  refine keeps_qpModify (fun _ _ _ s5 h5 => ?_) h
  refine Keeps.ite (keeps_mgmtDone h5) ?_
  refine keeps_withRemote (fun _ s10 h10 => ?_) h5
  extract_lets s11
  have h11 : Keeps z s11 := keeps_spendSlots (keeps_dropRecords h10)
  exact keeps_mgmtDone (keeps_updQp h11)

theorem keeps_qpTimers {slot : Nat} (h : Keeps z s) : Keeps z (qpTimers slot s) := by
  unfold qpTimers
  exact keeps_qpModify (fun _ _ _ _ h1 => keeps_mgmtDone (keeps_updQp h1)) h

theorem keeps_qpToError {slot : Nat} (h : Keeps z s) : Keeps z (qpToError slot s) := by
  unfold qpToError
  exact keeps_qpModify (fun _ _ _ _ h1 => Keeps.ite (keeps_mgmtDone (keeps_qpError h1)) (keeps_mgmtDone h1)) h

theorem keeps_freeQp {qpn : Nat} (h : Keeps z s) : Keeps z (freeQp qpn s) := by
  unfold freeQp
  split
  · exact h
  · extract_lets s1 s2 _ _
    have h1 : Keeps z s1 := keeps_spendSlots (keeps_dropRecords h)
    have h2 : Keeps z s2 := Keeps.ite (keeps_updEth h1) h1
    exact h2.same

theorem keeps_qpDestroy {slot : Nat} (h : Keeps z s) : Keeps z (qpDestroy slot s) := by
  unfold qpDestroy
  split
  · exact h
  · extract_lets _
    split
    · exact keeps_mgmtDone h
    · exact Keeps.ite (keeps_mgmtDone h) (keeps_mgmtDone (keeps_freeQp h))

theorem keeps_execQpCreate {slot : Nat} {remote : BitVec 256} {failed : Bool} (h : Keeps z s) :
    KeepsNext z (execQpCreate slot remote failed s) := by
  unfold execQpCreate
  exact KeepsNext.next (Keeps.whenOk h (fun _ h1 => keeps_qpCreate h1))

theorem keeps_execQpModifyReconnect {slot : Nat} {remote : BitVec 256} {failed : Bool} (h : Keeps z s) :
    KeepsNext z (execQpModifyReconnect slot remote failed s) := by
  unfold execQpModifyReconnect
  exact KeepsNext.next (Keeps.whenOk h (fun _ h1 => keeps_qpReconnect h1))

theorem keeps_execQpModifyTimers {slot : Nat} (h : Keeps z s) : KeepsNext z (execQpModifyTimers slot s) := by
  unfold execQpModifyTimers
  exact KeepsNext.next (Keeps.whenOk h (fun _ h1 => keeps_qpTimers h1))

theorem keeps_execQpModifyError {slot : Nat} (h : Keeps z s) : KeepsNext z (execQpModifyError slot s) := by
  unfold execQpModifyError
  exact KeepsNext.next (Keeps.whenOk h (fun _ h1 => keeps_qpToError h1))

theorem keeps_execQpDestroy {slot : Nat} (h : Keeps z s) : KeepsNext z (execQpDestroy slot s) := by
  unfold execQpDestroy
  exact KeepsNext.next (Keeps.whenOk h (fun _ h1 => keeps_qpDestroy h1))

theorem keeps_updHerd {h' : Nat} {f : Herd → Herd} (h : Keeps z s) : Keeps z (updHerd h' f s) := h.same

theorem keeps_updColl {h' seq : Nat} {f : Coll → Coll} (h : Keeps z s) : Keeps z (updColl h' seq f s) := h.same

theorem keeps_herdSend {h' seq j msg code : Nat} {bs : List Byte} (h : Keeps z s) :
    Keeps z (herdSend h' seq j msg code bs s) := by
  unfold herdSend
  split
  · extract_lets _ _ _ s1 _
    have h1 : Keeps z s1 := keeps_updQp h
    refine Keeps.ite (keeps_collAbort h) ?_
    split
    · exact h
    · refine Keeps.ite h ?_
      extract_lets _ s2
      have h2 : Keeps z s2 := h1.same
      exact keeps_updColl (keeps_progressRun h2)
  · exact h

theorem keeps_collPages {d : Herd} {c : Coll} {va n : Nat} {need : Need} {reads : NMap (BitVec 128)} (h : Keeps z s) :
    KeepsOut z (collPages d c va n need reads s) := by
  unfold collPages
  split
  · rename_i s1 _ e1
    have h1 := (keeps_xlateRange h).of_eq e1
    split
    · exact keeps_recordFault h1
    · exact Keeps.ite (keeps_settleUses h1) (keeps_releaseUses h1)

theorem keeps_collRead {d : Herd} {c : Coll} {va n : Nat} {reads : NMap (BitVec 128)} (h : Keeps z s) :
    KeepsOut z (collRead d c va n reads s) := by
  unfold collRead
  refine keeps_kBind (keeps_collPages h) (fun s2 _ h2 => ?_)
  split
  · exact trivial
  · exact h2
  · split
    · exact h2
    · exact keeps_muleMove h2

theorem keeps_collWrite {d : Herd} {c : Coll} {va : Nat} {bs : List Byte} {reads : NMap (BitVec 128)} (h : Keeps z s) :
    KeepsOut z (collWrite d c va bs reads s) := by
  unfold collWrite
  refine keeps_kBind (keeps_collPages h) (fun s2 _ h2 => ?_)
  split
  · exact trivial
  · split
    · rename_i s3 _ e3
      have h3 := (keeps_writeRange (keeps_muleMove h2)).of_eq e3
      split
      · exact h3
      · exact h3

theorem keeps_collFail {h' seq status detail va : Nat} (h : Keeps z s) :
    Keeps z (collFail h' seq status detail va s) := by
  unfold collFail
  extract_lets _ s1
  have h1 : Keeps z s1 := keeps_collAbort h
  exact keeps_updColl h1

theorem keeps_collTake {α : Type} {h' seq : Nat} {s0 : State} {x : KOut α} {f : State → α → State} (hs0 : Keeps z s0)
    (hx : KeepsOut z x) (hf : ∀ a0 a1, Keeps z a0 → Keeps z (f a0 a1)) : Keeps z (collTake h' seq s0 x f) := by
  cases x with
  | wait => exact hs0
  | fail => exact keeps_collFail hx
  | ok s a => exact hf s a hx

theorem keeps_openStep {h' seq n : Nat} {reads : NMap (BitVec 128)} (h : Keeps z s) :
    Keeps z (openStep h' seq n reads s) := by
  unfold openStep
  split
  · refine Keeps.ite h ?_
    extract_lets _ _ _
    split
    · extract_lets s1
      have h1 : KeepsOut z s1 := by
        unfold s1
        split
        · exact keeps_collPages h
        · exact h
      refine keeps_collTake h h1 (fun s4 _ h4 => ?_)
      extract_lets s5 _
      have h5 : Keeps z s5 := keeps_updColl h4
      exact h5.same
  · exact h

theorem keeps_ownPart {h' seq n : Nat} {reads : NMap (BitVec 128)} (h : Keeps z s) :
    Keeps z (ownPart h' seq n reads s) := by
  unfold ownPart
  split
  · refine Keeps.ite h ?_
    extract_lets _ _ _ _ _
    split
    · extract_lets _
      exact Keeps.ite (keeps_collTake h (keeps_collRead h) (fun _ _ h1 => keeps_updColl h1)) (Keeps.ite (keeps_collTake h
        (keeps_kBind (keeps_collRead h) (fun _ _ h2 => keeps_collWrite h2)) (fun _ _ h3 => keeps_updColl h3)) (keeps_updColl h))
  · exact h

theorem keeps_pieceBytes {d : Herd} {c : Coll} {n j : Nat} {reads : NMap (BitVec 128)} (h : Keeps z s) :
    KeepsOut z (pieceBytes d c n j reads s) := by
  unfold pieceBytes
  extract_lets _ _
  split
  · extract_lets _
    split
    · exact keeps_kBind (keeps_collRead h) (fun _ _ h1 => h1)
    · split
      · exact keeps_collRead h
      · exact keeps_collRead h
    · exact keeps_collRead h
    · split
      · exact h
      · exact trivial
    · split
      · exact keeps_collRead h
      · split
        · exact h
        · exact trivial

theorem keeps_sendPieces {h' seq n : Nat} {reads : NMap (BitVec 128)} (h : Keeps z s) :
    Keeps z (sendPieces h' seq n reads s) := by
  unfold sendPieces
  split
  · refine Keeps.foldl h fun s2 _ h2 => ?_
    split
    · exact Keeps.ite h2 (keeps_collTake h2 (keeps_pieceBytes h2) (fun _ _ h3 => keeps_updColl (keeps_herdSend h3)))
    · exact h2
  · exact h

theorem keeps_endStep {h' seq n : Nat} {reads : NMap (BitVec 128)} (h : Keeps z s) :
    Keeps z (endStep h' seq n reads s) := by
  unfold endStep
  split
  · extract_lets _ _ _ _ _ _ _
    refine Keeps.ite h ?_
    split
    · clear_value *
      split
      · exact keeps_updColl h
      · exact keeps_collTake h (keeps_collWrite h) (fun _ _ h1 => keeps_countResults (keeps_updColl h1))
  · exact h

theorem keeps_stepWork {h' seq : Nat} {reads : NMap (BitVec 128)} {n : Nat} (h : Keeps z s) :
    Keeps z (stepWork h' seq reads s n) := by
  unfold stepWork
  split
  · refine Keeps.ite h ?_
    extract_lets s1
    have h1 : Keeps z s1 := keeps_openStep h
    exact Keeps.ite (keeps_endStep (keeps_sendPieces (keeps_ownPart h1))) h1
  · exact h

theorem keeps_collEnd {h' seq status detail aux : Nat} (h : Keeps z s) :
    Keeps z (collEnd h' seq status detail aux s) := by
  unfold collEnd
  split
  · extract_lets s1 s2 _
    have h1 : Keeps z s1 := keeps_updHerd h
    have h2 : Keeps z s2 := Keeps.ite (keeps_bump h1) (Keeps.ite (keeps_raise (keeps_bump h1)) (Keeps.ite (keeps_raise
      (keeps_bump h1)) h1))
    split
    · rename_i s3 _ e3
      have h3 := (keeps_awaitFlush (keeps_dropGot h2)).of_eq e3
      extract_lets s4
      have h4 : Keeps z s4 := keeps_finishOp h3
      exact Keeps.ite h4 (keeps_updChain h4)
  · exact h

theorem keeps_collComplete {h' seq : Nat} (h : Keeps z s) : Keeps z (collComplete h' seq s) := by
  unfold collComplete
  split
  · split
    · exact keeps_collEnd h
    · exact h
  · exact h

theorem keeps_execCollectiveComplete {herd seq : Nat} (h : Keeps z s) :
    KeepsNext z (execCollectiveComplete herd seq s) := by
  unfold execCollectiveComplete
  exact KeepsNext.next (Keeps.whenOk h (fun _ h1 => keeps_collComplete h1))

theorem keeps_stepMiss {h' seq : Nat} (h : Keeps z s) : Keeps z (stepMiss h' seq s) := by
  unfold stepMiss
  split
  · split
    · exact keeps_collAbort h
    · exact h
  · exact h

theorem keeps_holdOut {h' seq : Nat} (h : Keeps z s) : Keeps z (holdOut h' seq s) := by
  unfold holdOut
  split
  · exact Keeps.ite (keeps_updColl (keeps_collAbort h)) h
  · exact h

theorem keeps_execStepDeadlineMiss {herd seq : Nat} (h : Keeps z s) : KeepsNext z (execStepDeadlineMiss herd seq s) := by
  unfold execStepDeadlineMiss
  exact KeepsNext.next (Keeps.whenOk h (fun _ h1 => keeps_stepMiss h1))

theorem keeps_execHoldTimeout {herd seq : Nat} (h : Keeps z s) : KeepsNext z (execHoldTimeout herd seq s) := by
  unfold execHoldTimeout
  exact KeepsNext.next (Keeps.whenOk h (fun _ h1 => keeps_holdOut h1))

theorem keeps_memberChange {h' : Nat} (h : Keeps z s) : Keeps z (memberChange h' s) := by
  unfold memberChange
  split
  · exact h
  · extract_lets _ s1
    have h1 : Keeps z s1 := keeps_updHerd h
    split
    · exact h
    · exact keeps_raise (Keeps.foldl h1 (fun _ _ h2 => keeps_collAbort h2))

theorem keeps_execHerdMembershipChange {herd : Nat} (h : Keeps z s) : KeepsNext z (execHerdMembershipChange herd s) := by
  unfold execHerdMembershipChange
  exact KeepsNext.next (Keeps.whenOk h (fun _ h1 => keeps_memberChange h1))

theorem keeps_addPositions {h' seq : Nat} (h : Keeps z s) : Keeps z (addPositions h' seq s) := by
  unfold addPositions
  split
  · extract_lets _
    refine Keeps.foldl h fun s2 _ h2 => ?_
    extract_lets _ _ _ _
    exact h2.same
  · exact h

theorem keeps_coreLoss {h' seq : Nat} (h : Keeps z s) : Keeps z (coreLoss h' seq s) := by
  unfold coreLoss
  split
  · exact Keeps.ite (keeps_collFail h) h
  · exact h

theorem keeps_collBegin {h' seq : Nat} (h : Keeps z s) : Keeps z (collBegin h' seq s) := by
  unfold collBegin
  split
  · extract_lets _ s1
    have h1 : Keeps z s1 := keeps_updColl h
    exact Keeps.ite h (Keeps.ite (keeps_collEnd h) (Keeps.ite (keeps_collEnd h) (Keeps.ite h (Keeps.ite (keeps_collEnd h)
      (keeps_coreLoss (keeps_addPositions (Keeps.ite (keeps_bump h1) h1)))))))
  · exact h

theorem keeps_readySteps {h' seq : Nat} (h : Keeps z s) : Keeps z (readySteps h' seq s) := by
  unfold readySteps
  split
  · refine Keeps.ite h ?_
    extract_lets _
    exact keeps_updColl h
  · exact h

theorem keeps_sendSkips {h' seq : Nat} (h : Keeps z s) : Keeps z (sendSkips h' seq s) := by
  unfold sendSkips
  split
  · extract_lets _ _ s1 _ s2
    have h1 : Keeps z s1 := h.same
    have h2 : Keeps z s2 := by
      unfold s2
      refine Keeps.foldl h1 fun s4 _ h4 => ?_
      split
      · exact Keeps.ite h4 (keeps_updColl (keeps_herdSend h4))
      · exact h4
    exact keeps_updColl h2
  · exact h

theorem keeps_sendVerdicts {h' seq : Nat} {ended decided : Bool} (h : Keeps z s) :
    Keeps z (sendVerdicts h' seq ended decided s) := by
  unfold sendVerdicts
  split
  · extract_lets _ _ _ s1
    have h1 : Keeps z s1 := by
      unfold s1
      split
      · refine Keeps.ite h ?_
        refine keeps_updColl ?_
        split
        · exact keeps_herdSend h
        · exact keeps_herdSend h
      · exact Keeps.ite h (keeps_updColl h)
    split
    · exact h1
    · extract_lets _ _
      split
      · exact h1
      · refine Keeps.ite h1 ?_
        extract_lets s2
        have h2 : Keeps z s2 := Keeps.foldl h1 (fun _ _ h3 => Keeps.ite (keeps_herdSend h3) (keeps_herdSend h3))
        exact keeps_updColl h2
  · exact h

theorem keeps_collDeadlines {h' seq : Nat} (h : Keeps z s) : Keeps z (collDeadlines h' seq s) := by
  unfold collDeadlines
  extract_lets _ s1
  have h1 : Keeps z s1 := Keeps.ite (keeps_collAbort h) h
  exact keeps_coreLoss (keeps_holdOut (keeps_stepMiss h1))

theorem keeps_collDispatch {reads : NMap (BitVec 128)} {h' seq : Nat} (h : Keeps z s) :
    Keeps z (collDispatch reads h' seq s) := by
  unfold collDispatch
  extract_lets s1
  have h1 : Keeps z s1 := keeps_readySteps (keeps_collBegin h)
  split
  · refine Keeps.ite h1 ?_
    extract_lets _ _ s2 s3
    have h2 : Keeps z s2 := Keeps.ite h1 (Keeps.foldl h1 (fun _ _ h4 => keeps_stepWork h4))
    have h3 : Keeps z s3 := Keeps.ite (keeps_sendSkips h2) h2
    exact keeps_sendVerdicts h3
  · exact h1

theorem keeps_herdsDeadlines (h : Keeps z s) : Keeps z (herdsDeadlines s) := by
  unfold herdsDeadlines
  extract_lets s1
  have h1 : Keeps z s1 := Keeps.foldl h (fun _ _ h2 => keeps_memberChange h2)
  exact Keeps.foldl h1 (fun _ _ h3 => keeps_collDeadlines h3)

theorem keeps_herdsDispatch {reads : NMap (BitVec 128)} (h : Keeps z s) : Keeps z (herdsDispatch reads s) := by
  unfold herdsDispatch
  exact Keeps.foldl h (fun _ _ h1 => keeps_collDispatch h1)

theorem keeps_pieceWrite {h' seq n j : Nat} {bs : List Byte} {reads : NMap (BitVec 128)} (h : Keeps z s) :
    KeepsOut z (pieceWrite h' seq n j bs reads s) := by
  unfold pieceWrite
  split
  · split
    · split
      · exact h
      · exact keeps_collWrite h
  · exact h

theorem keeps_applyPiece {h' seq n j : Nat} {bs : List Byte} {reads : NMap (BitVec 128)} {x : KOut Unit} (h : Keeps z s)
    (e : applyPiece h' seq n j bs reads s = some x) : KeepsOut z x := by
  unfold applyPiece at e
  split at e
  · split at e
    extract_lets stage at e
    have hs : ∀ data, KeepsOut z (stage data) := fun _ => keeps_updColl h
    split at e
    · obtain ⟨us, _, rfl⟩ := Option.map_eq_some_iff.1 e
      exact hs _
    · split at e
      · cases e
      · split at e
        · cases e
          exact hs _
        · cases e
    · cases e
      exact keeps_kBind (keeps_pieceWrite h) fun _ _ h1 => keeps_updColl h1
    · cases e
      exact keeps_pieceWrite h
  · cases e
    exact h

theorem keeps_takeMsg {qpn : Nat} {m : HerdMsg} (h : Keeps z s) : Keeps z (takeMsg qpn m s) := h.same

theorem keeps_takeWord {h' seq j : Nat} {m : HerdMsg} (h : Keeps z s) : Keeps z (takeWord h' seq j m s) := by
  unfold takeWord
  split
  · exact keeps_updColl h
  · exact keeps_collAbort h
  · exact keeps_updColl h
  · extract_lets _
    exact keeps_updColl (keeps_collAbort h)
  · exact h

theorem keeps_herdReceive {msgs : List Nat} {qpn : Nat} {reads : NMap (BitVec 128)} (h : Keeps z s) :
    Keeps z (herdReceive msgs qpn reads s) := by
  unfold herdReceive
  split
  · refine Keeps.ite h ?_
    split
    · exact keeps_takeMsg h
    · split
      · extract_lets j mismatch
        have hm : ∀ s, Keeps z s → Keeps z (mismatch s) := fun _ h => keeps_updColl (keeps_collAbort h)
        split
        · exact keeps_takeMsg (hm _ h)
        · exact keeps_takeMsg (keeps_collAbort h)
        · refine Keeps.ite (keeps_takeWord (keeps_takeMsg h)) (Keeps.ite (keeps_takeMsg h) ?_)
          split
          · exact keeps_takeMsg (hm _ h)
          · exact h
          · rename_i e
            exact keeps_takeMsg (keeps_collFail (KeepsOut.of_fail (keeps_applyPiece h e) rfl))
          · rename_i e
            exact keeps_endStep (keeps_updColl (keeps_takeMsg (KeepsOut.of_ok (keeps_applyPiece h e) rfl)))
      · exact keeps_takeMsg h
  · exact h

theorem keeps_execHerdPieceReceive {qpn : Nat} {reads : NMap (BitVec 128)} (h : Keeps z s) :
    KeepsNext z (execHerdPieceReceive qpn reads s) := by
  unfold execHerdPieceReceive
  exact KeepsNext.next (Keeps.whenOk h (fun _ h1 => keeps_herdReceive h1))

theorem keeps_execHerdSkipReceive {qpn : Nat} (h : Keeps z s) : KeepsNext z (execHerdSkipReceive qpn s) := by
  unfold execHerdSkipReceive
  exact KeepsNext.next (Keeps.whenOk h (fun _ h1 => keeps_herdReceive h1))

theorem keeps_execHerdVoteReceive {qpn : Nat} (h : Keeps z s) : KeepsNext z (execHerdVoteReceive qpn s) := by
  unfold execHerdVoteReceive
  exact KeepsNext.next (Keeps.whenOk h (fun _ h1 => keeps_herdReceive h1))

theorem keeps_execHerdAbortReceive {qpn : Nat} (h : Keeps z s) : KeepsNext z (execHerdAbortReceive qpn s) := by
  unfold execHerdAbortReceive
  exact KeepsNext.next (Keeps.whenOk h (fun _ h1 => keeps_herdReceive h1))

theorem keeps_execHerdCommitReceive {qpn : Nat} (h : Keeps z s) : KeepsNext z (execHerdCommitReceive qpn s) := by
  unfold execHerdCommitReceive
  exact KeepsNext.next (Keeps.whenOk h (fun _ h1 => keeps_herdReceive h1))

theorem keeps_execHerdDecideAbortReceive {qpn : Nat} (h : Keeps z s) :
    KeepsNext z (execHerdDecideAbortReceive qpn s) := by
  unfold execHerdDecideAbortReceive
  exact KeepsNext.next (Keeps.whenOk h (fun _ h1 => keeps_herdReceive h1))

theorem keeps_slotAcquire {h' : Nat} (h : Keeps z s) : Keeps z (slotAcquire h' s) := by
  unfold slotAcquire
  split
  · exact h
  · extract_lets _
    split
    · exact Keeps.ite (keeps_updColl h) h
    · exact h

theorem keeps_execCollectiveSlotAcquire {herd : Nat} (h : Keeps z s) :
    KeepsNext z (execCollectiveSlotAcquire herd s) := by
  unfold execCollectiveSlotAcquire
  exact KeepsNext.next (Keeps.whenOk h (fun _ h1 => keeps_slotAcquire h1))

theorem keeps_collective {ring slot : Nat} (h : Keeps z s) : Keeps z (collective ring slot s) := by
  unfold collective
  split
  · extract_lets _ _ s1
    have h1 : Keeps z s1 := keeps_markStarted h
    split
    · exact h
    · refine Keeps.ite h ?_
      extract_lets _ s2
      have h2 : Keeps z s2 := keeps_updHerd h1
      exact Keeps.ite (keeps_collEnd h2) (Keeps.ite h2 (keeps_slotAcquire h2))
  · exact h

theorem keeps_execCollective {ring slot : Nat} (h : Keeps z s) : KeepsNext z (execCollective ring slot s) := by
  unfold execCollective
  exact KeepsNext.next (Keeps.whenOk h (fun _ h1 => keeps_collective h1))

theorem keeps_herdDefine {slot : Nat} {list : List (BitVec 64)} {failed : Bool} (h : Keeps z s) :
    Keeps z (herdDefine slot list failed s) := by
  unfold herdDefine
  split
  · exact h
  · extract_lets _ _ _
    split
    · exact keeps_mgmtDone h
    · extract_lets _ _ _
      exact Keeps.ite (keeps_mgmtDone h) (Keeps.ite (keeps_quotaRefused h) (keeps_mgmtDone h.same))

theorem keeps_execHerdDefine {slot : Nat} {list : List (BitVec 64)} {failed : Bool} (h : Keeps z s) :
    KeepsNext z (execHerdDefine slot list failed s) := by
  unfold execHerdDefine
  exact KeepsNext.next (Keeps.whenOk h (fun _ h1 => keeps_herdDefine h1))

theorem keeps_dropHerd {h' : Nat} (h : Keeps z s) : Keeps z (dropHerd h' s) := by
  unfold dropHerd
  extract_lets _ s1 _ s2 _
  have h1 : Keeps z s1 := Keeps.foldl h (fun _ _ h3 => keeps_freeQp h3)
  have h2 : Keeps z s2 := h1.same
  exact h2.same

theorem keeps_herdDissolve {slot : Nat} (h : Keeps z s) : Keeps z (herdDissolve slot s) := by
  unfold herdDissolve
  split
  · exact h
  · extract_lets _
    split
    · exact keeps_mgmtDone h
    · exact Keeps.ite (keeps_mgmtDone h) (keeps_mgmtDone (keeps_dropHerd h))

theorem keeps_execHerdDissolve {slot : Nat} (h : Keeps z s) : KeepsNext z (execHerdDissolve slot s) := by
  unfold execHerdDissolve
  exact KeepsNext.next (Keeps.whenOk h (fun _ h1 => keeps_herdDissolve h1))

theorem keeps_stopColls {p : Nat → Bool} {status : Nat} (h : Keeps z s) : Keeps z (stopColls p status s) := by
  unfold stopColls
  refine Keeps.foldl h fun s2 _ h2 => ?_
  split
  · refine Keeps.ite h2 ?_
    extract_lets s3
    have h3 : Keeps z s3 := keeps_updColl h2
    exact Keeps.ite (keeps_collAbort h3) (keeps_collEnd h3)
  · exact h2

theorem keeps_stopWork {p : Nat → Bool} {status : Nat} (h : Keeps z s) : Keeps z (stopWork p status s) := by
  unfold stopWork
  extract_lets _ _ _ _ _ _ s1 s2
  have h1 : Keeps z s1 := h.same
  have h2 : Keeps z s2 := Keeps.foldl h1 (fun _ _ h3 => keeps_checkRun h3)
  exact keeps_stopColls h2

theorem keeps_dropFenced {p : Nat → Bool} (h : Keeps z s) : Keeps z (dropFenced p s) := by
  unfold dropFenced
  exact Keeps.foldl h (fun _ _ h1 => keeps_finishRun h1)

theorem keeps_forgetRecvs {r : Nat} (h : Keeps z s) : Keeps z (forgetRecvs r s) := h.same

theorem keeps_ringShutdown {slot : Nat} {entries : List (BitVec 512)} {owns : List Bool} {failed : Bool} (h : Keeps z s) :
    Keeps z (ringShutdown slot entries owns failed s) := by
  unfold ringShutdown
  split
  · exact h
  · extract_lets _ s1 s2
    have h1 : Keeps z s1 := keeps_updRing h
    have h2 : Keeps z s2 := keeps_dropFenced (keeps_stopWork h1)
    split
    · exact keeps_mgmtDone h
    · refine Keeps.ite (Keeps.ite (keeps_mgmtDone h) (keeps_mgmtDone (keeps_removeRing h))) ?_
      refine Keeps.ite (keeps_mgmtDone h) ?_
      refine Keeps.ite h2 ?_
      extract_lets _
      split
      · rename_i s3 _ e3
        have h3 := (keeps_scanRing (keeps_forgetRecvs h2)).of_eq e3
        exact Keeps.ite (keeps_haltInstance h3) (keeps_mgmtDone (keeps_removeRing h3))

theorem keeps_execRingShutdown {slot : Nat} {entries : List (BitVec 512)} {owns : List Bool} {failed : Bool}
    (h : Keeps z s) : KeepsNext z (execRingShutdown slot entries owns failed s) := by
  unfold execRingShutdown
  exact KeepsNext.next (Keeps.whenOk h (fun _ h1 => keeps_ringShutdown h1))

end Sys2Proof.Machine
end

section
/-! PROOFS. What every command keeps: instances, migration, Ethernet and scheduling, one lemma per operation. -/

set_option Elab.async false

namespace Sys2Proof.Machine

variable {z s : State}

theorem keeps_endMalformed {n : Nat} (h : Keeps z s) : Keeps z (endMalformed n s) := by
  unfold endMalformed
  refine Keeps.foldl h fun s2 _ h2 => ?_
  split
  · exact h2
  · exact Keeps.foldl h2 (fun _ _ h3 => keeps_finishOp h3)

theorem keeps_abortUnstarted {n : Nat} (h : Keeps z s) : Keeps z (abortUnstarted n s) := by
  unfold abortUnstarted
  extract_lets _ _ s1 _ s2
  have h1 : Keeps z s1 := Keeps.foldl h (fun _ _ h3 => keeps_checkRun (keeps_updRun h3))
  have h2 : Keeps z s2 := Keeps.foldl h1 (fun _ _ h4 => keeps_collEnd h4)
  refine Keeps.foldl h2 fun s6 _ h6 => ?_
  split
  · exact h6
  · exact Keeps.ite h6 (Keeps.foldl h6 (fun _ _ h7 => keeps_finishOp h7))

theorem keeps_applyMode {n : Nat} {mode : ResetMode} (h : Keeps z s) : Keeps z (applyMode n mode s) := by
  unfold applyMode
  split
  · exact keeps_abortUnstarted h
  · exact keeps_dropFenced (keeps_stopWork h)
  · exact h

theorem keeps_resetBegin {n : Nat} {mode : ResetMode} {wipe : Bool} {slots : List Nat} (h : Keeps z s) :
    Keeps z (resetBegin n mode wipe slots s) := by
  unfold resetBegin
  extract_lets _ s1 s2 s3 s4 _ s5
  have h1 : Keeps z s1 := keeps_stopMoves (keeps_dropFreeze h)
  have h2 : Keeps z s2 := Keeps.foldl h1 (fun _ _ h6 => keeps_checkRun h6)
  have h3 : Keeps z s3 := keeps_endMalformed h2
  have h4 : Keeps z s4 := Keeps.elim h3 (fun _ => keeps_startUnits h3)
  have h5 : Keeps z s5 := keeps_enterState (keeps_setInst h4)
  split
  · extract_lets _ s7
    have h7 : Keeps z s7 := keeps_setInst h
    exact Keeps.ite (keeps_applyMode h7) h7
  · exact keeps_applyMode h5

theorem keeps_instanceReset {mode : ResetMode} {code slot : Nat} (h : Keeps z s) :
    Keeps z (instanceReset mode code slot s) := by
  unfold instanceReset
  split
  · exact h
  · extract_lets _ _
    exact Keeps.ite h (Keeps.ite (keeps_mgmtDone h) (keeps_resetBegin (keeps_markStarted h)))

theorem keeps_execInstanceResetDrain {slot : Nat} (h : Keeps z s) : KeepsNext z (execInstanceResetDrain slot s) := by
  unfold execInstanceResetDrain
  exact KeepsNext.next (Keeps.whenOk h (fun _ h1 => keeps_instanceReset h1))

theorem keeps_execInstanceResetSquash {slot : Nat} (h : Keeps z s) : KeepsNext z (execInstanceResetSquash slot s) := by
  unfold execInstanceResetSquash
  exact KeepsNext.next (Keeps.whenOk h (fun _ h1 => keeps_instanceReset h1))

theorem keeps_execInstanceResetDiscard {slot : Nat} (h : Keeps z s) : KeepsNext z (execInstanceResetDiscard slot s) := by
  unfold execInstanceResetDiscard
  exact KeepsNext.next (Keeps.whenOk h (fun _ h1 => keeps_instanceReset h1))

theorem keeps_resetScan {n : Nat} {x : RingScan} (h : Keeps z s) : Keeps z (resetScan n x s).1 := by
  unfold resetScan
  split
  · refine Keeps.fst_mk ?_
    exact h
  · split
    · refine Keeps.fst_mk ?_
      exact h
    · split
      · refine Keeps.fst_mk ?_
        exact h
      · refine Keeps.fst_mk ?_
        exact keeps_scanRing (keeps_forgetRecvs h)

theorem keeps_resetScans {n : Nat} {scans : List RingScan} (h : Keeps z s) : Keeps z (resetScans n scans s).1 := by
  unfold resetScans
  refine Keeps.foldlPair h fun s1 _ h1 => ?_
  split
  · exact h1
  · exact keeps_resetScan h1

theorem keeps_resetClear {n : Nat} {wipe : Bool} (h : Keeps z s) : Keeps z (resetClear n wipe s) := by
  unfold resetClear
  extract_lets s1 s2 _ s3 _ s4 s5 s6
  have h1 : Keeps z s1 := Keeps.foldl h (fun _ _ h7 => keeps_removeRing h7)
  have h2 : Keeps z s2 := Keeps.foldl h1 (fun _ _ h8 => keeps_qpError h8)
  have h3 : Keeps z s3 := h2.same
  have h4 : Keeps z s4 := Keeps.foldl h3 (fun _ _ h9 => keeps_dropHerd h9)
  have h5 : Keeps z s5 := keeps_dropSpaces (keeps_eraseSlots h4)
  have h6 : Keeps z s6 := Keeps.foldl h5 (fun _ _ h10 => keeps_wipeGranule h10)
  exact Keeps.ite h5 (Keeps.elim h6 (fun _ => keeps_wipeRegions h6))

theorem keeps_resetEnd {n : Nat} {slots : List Nat} (h : Keeps z s) : Keeps z (resetEnd n slots s) := by
  unfold resetEnd
  extract_lets _ s1 s2 s3
  have h1 : Keeps z s1 := Keeps.elim h (fun _ => keeps_endUnits h)
  have h2 : Keeps z s2 := keeps_raise (keeps_setInst h1)
  have h3 : Keeps z s3 := keeps_enterState h2
  exact Keeps.foldl h3 (fun _ _ h4 => keeps_mgmtDone h4)

theorem keeps_resetComplete {n : Nat} {scans : List RingScan} (h : Keeps z s) : Keeps z (resetComplete n scans s) := by
  unfold resetComplete
  split
  · exact h
  · extract_lets _ _ s1
    have h1 : Keeps z s1 := Keeps.ite (keeps_dropFenced h) h
    refine Keeps.ite h1 ?_
    split
    · rename_i s2 _ e2
      have h2 : Keeps z s2 := by
        refine Keeps.of_eq ?_ e2
        split
        · refine Keeps.fst_mk ?_
          exact h1
        · exact keeps_resetScans h1
      exact Keeps.ite (keeps_resetEnd (keeps_resetClear h2)) h2

theorem keeps_execInstanceResetComplete {n : Nat} {scans : List RingScan} (h : Keeps z s) :
    KeepsNext z (execInstanceResetComplete n scans s) := by
  unfold execInstanceResetComplete
  exact KeepsNext.next (Keeps.whenOk h (fun _ h1 => keeps_resetComplete h1))

theorem keeps_pageReset {n : Nat} (h : Keeps z s) : Keeps z (pageReset n s) := h.same

theorem keeps_msixReset {n : Nat} (h : Keeps z s) : Keeps z (msixReset n s) := h.same

theorem keeps_execFlrVf {n : Nat} (h : Keeps z s) : KeepsNext z (execFlrVf n s) := by
  unfold execFlrVf
  exact KeepsNext.next (Keeps.whenOk h (fun _ h1 => keeps_resetBegin (keeps_msixReset (keeps_pageReset h1))))

theorem keeps_vfChange {enable : Bool} {numVfs : Nat} (h : Keeps z s) : Keeps z (vfChange enable numVfs s) := by
  unfold vfChange
  extract_lets _ s1
  have h1 : Keeps z s1 := h.same
  refine Keeps.foldl h1 fun s3 _ h3 => ?_
  extract_lets _
  exact Keeps.ite (Keeps.ite (keeps_enterState h3) h3) (Keeps.ite h3 (keeps_resetBegin h3))

theorem keeps_execVfEnableChange {enable : Bool} {numVfs : Nat} (h : Keeps z s) :
    KeepsNext z (execVfEnableChange enable numVfs s) := by
  unfold execVfEnableChange
  exact KeepsNext.next (Keeps.whenOk h (fun _ h1 => keeps_vfChange h1))

theorem keeps_instanceFreeze {slot : Nat} (h : Keeps z s) : Keeps z (instanceFreeze slot s) := by
  unfold instanceFreeze
  split
  · exact h
  · extract_lets _ _ _ _
    exact Keeps.ite h (Keeps.ite (keeps_mgmtDone h) (keeps_setInst (keeps_markStarted h)))

theorem keeps_execInstanceFreeze {slot : Nat} (h : Keeps z s) : KeepsNext z (execInstanceFreeze slot s) := by
  unfold execInstanceFreeze
  exact KeepsNext.next (Keeps.whenOk h (fun _ h1 => keeps_instanceFreeze h1))

theorem keeps_freezeActivate {n : Nat} (h : Keeps z s) : Keeps z (freezeActivate n s) := by
  unfold freezeActivate
  extract_lets _
  split
  · refine Keeps.ite ?_ h
    split
    · rename_i s1 e1
      have h1 := (keeps_drawDrbg h).of_eq_snd e1
      exact keeps_enterState (keeps_setInst h1)
  · exact h

theorem keeps_execFreezeActivate {n : Nat} (h : Keeps z s) : KeepsNext z (execFreezeActivate n s) := by
  unfold execFreezeActivate
  exact KeepsNext.next (Keeps.whenOk h (fun _ h1 => keeps_freezeActivate h1))

theorem keeps_freezeComplete {n : Nat} (h : Keeps z s) : Keeps z (freezeComplete n s) := by
  unfold freezeComplete
  extract_lets _ _ _ s1
  have h1 : Keeps z s1 := h.same
  split
  · exact Keeps.ite (keeps_mgmtDone (keeps_enterState (keeps_setInst h1))) h
  · exact h

theorem keeps_execFreezeComplete {n : Nat} (h : Keeps z s) : KeepsNext z (execFreezeComplete n s) := by
  unfold execFreezeComplete
  exact KeepsNext.next (Keeps.whenOk h (fun _ h1 => keeps_freezeComplete h1))

theorem keeps_instanceThaw {slot : Nat} (h : Keeps z s) : Keeps z (instanceThaw slot s) := by
  unfold instanceThaw
  split
  · exact h
  · extract_lets _ _
    exact Keeps.ite h (Keeps.ite (keeps_mgmtDone h) (keeps_setInst (keeps_markStarted h)))

theorem keeps_execInstanceThaw {slot : Nat} (h : Keeps z s) : KeepsNext z (execInstanceThaw slot s) := by
  unfold execInstanceThaw
  exact KeepsNext.next (Keeps.whenOk h (fun _ h1 => keeps_instanceThaw h1))

theorem keeps_thawActivate {n : Nat} (h : Keeps z s) : Keeps z (thawActivate n s) := by
  unfold thawActivate
  extract_lets _ _ _ s1
  have h1 : Keeps z s1 := h.same
  split
  · exact Keeps.ite (keeps_mgmtDone (keeps_enterState (keeps_setInst h1))) h
  · exact h

theorem keeps_execThawActivate {n : Nat} (h : Keeps z s) : KeepsNext z (execThawActivate n s) := by
  unfold execThawActivate
  exact KeepsNext.next (Keeps.whenOk h (fun _ h1 => keeps_thawActivate h1))

theorem keeps_viEvent {n bit : Nat} (h : Keeps z s) : Keeps z (viEvent n bit s) := by
  unfold viEvent
  exact Keeps.ite h (keeps_raise h)

theorem keeps_execMbxOutPost {n : Nat} (h : Keeps z s) : KeepsNext z (execMbxOutPost n s) := by
  unfold execMbxOutPost
  exact KeepsNext.next (Keeps.whenOk h (fun _ h1 => keeps_viEvent (keeps_setInst h1)))

theorem keeps_execMbxOutTaken {n : Nat} (h : Keeps z s) : KeepsNext z (execMbxOutTaken n s) := by
  unfold execMbxOutTaken
  exact KeepsNext.next (Keeps.whenOk h (fun _ h1 => keeps_raisePage (keeps_setInst h1)))

theorem keeps_execMbxInPost {n : Nat} (h : Keeps z s) : KeepsNext z (execMbxInPost n s) := by
  unfold execMbxInPost
  exact KeepsNext.next (Keeps.whenOk h (fun _ h1 => keeps_raisePage (keeps_setInst h1)))

theorem keeps_execMbxInDone {n : Nat} (h : Keeps z s) : KeepsNext z (execMbxInDone n s) := by
  unfold execMbxInDone
  exact KeepsNext.next (Keeps.whenOk h (fun _ h1 => keeps_viEvent (keeps_setInst h1)))

theorem keeps_execMbxBufferWrite {n : Nat} {inbound : Bool} {off : Nat} {v : Word} (h : Keeps z s) :
    KeepsNext z (execMbxBufferWrite n inbound off v s) := by
  unfold execMbxBufferWrite
  extract_lets _
  exact KeepsNext.next (Keeps.whenOk h (fun _ h1 => keeps_setInst h1))

theorem keeps_moveEnd {slot : Nat} {c : Completion} (h : Keeps z s) : Keeps z (moveEnd slot c s) := by
  unfold moveEnd
  split
  · rename_i s1 _ e1
    have h1 := (keeps_awaitFlush h).of_eq e1
    extract_lets s2
    have h2 : Keeps z s2 := keeps_finishOp (keeps_dropGot h1)
    exact Keeps.ite h2 (keeps_updChain h2)

theorem keeps_movePages {space va n : Nat} {need : Need} {reads : NMap (BitVec 128)} (h : Keeps z s) :
    KeepsOut z (movePages space va n need reads s) := by
  unfold movePages
  split
  · rename_i s1 _ e1
    have h1 := (keeps_xlateRange h).of_eq e1
    split
    · exact keeps_recordFault h1
    · exact keeps_releaseUses h1

theorem keeps_moveTarget {slot space va n : Nat} {reads : NMap (BitVec 128)} (h : Keeps z s) :
    KeepsOut z (moveTarget slot space va n reads s) := by
  unfold moveTarget
  split
  · rename_i s1 _ e1
    have h1 := (keeps_xlateRange h).of_eq e1
    split
    · exact keeps_recordFault h1
    · exact keeps_settleUses h1

theorem keeps_saveBlob {slot : Nat} {e : BitVec 512} {plain : List Byte} {bad : Bool} {reads : NMap (BitVec 128)}
    (h : Keeps z s) : Keeps z (saveBlob slot e plain bad reads s) := by
  unfold saveBlob
  extract_lets _ _ _ f1 _
  have h1 : ∀ a0, Keeps z a0 → Keeps z (f1 a0).1 := by
    intro s1' h1'
    unfold f1
    split
    · rename_i s2 _ e2
      have h2 := (keeps_charge h1').of_eq e2
      extract_lets _ _ s3
      have h3 : Keeps z s3 := Keeps.ite (keeps_setKeySlot (keeps_cryptCount (keeps_muleMove h2))) h2
      refine Keeps.fst_mk ?_
      exact h3
  refine Keeps.ite h ?_
  refine Keeps.ite ?_ ?_
  · split
    · rename_i s4 _ _ e4
      have h4 := (h1 _ h).of_eq e4
      refine Keeps.ite (keeps_moveEnd h4) ?_
      extract_lets _ _ _ _
      exact keeps_progressRun h4.same
  · split
    · exact h
    · rename_i s5 _ _ _ e5
      have h5 := (keeps_moveTarget h).of_fail e5
      exact keeps_moveEnd h5
    · rename_i s6 _ e6
      have h6 := (keeps_moveTarget h).of_ok e6
      refine Keeps.ite h6 ?_
      split
      · rename_i s7 _ _ e7
        have h7 := (h1 _ h6).of_eq e7
        refine Keeps.ite (keeps_moveEnd h7) ?_
        split
        · rename_i s8 _ e8
          have h8 := (keeps_writeRange (keeps_muleMove h7)).of_eq e8
          extract_lets _
          exact keeps_moveEnd h8

theorem keeps_instanceSave {memory : Bool} {slot : Nat} {reads : NMap (BitVec 128)} (h : Keeps z s) :
    Keeps z (instanceSave memory slot reads s) := by
  unfold instanceSave
  split
  · exact h
  · extract_lets _ _ _ _ _
    refine Keeps.ite h ?_
    refine Keeps.ite (keeps_mgmtDone h) ?_
    refine Keeps.ite (keeps_mgmtDone h) ?_
    split
    · extract_lets _
      exact keeps_saveBlob (keeps_markStarted h)

theorem keeps_execInstanceSaveState {slot : Nat} {reads : NMap (BitVec 128)} (h : Keeps z s) :
    KeepsNext z (execInstanceSaveState slot reads s) := by
  unfold execInstanceSaveState
  exact KeepsNext.next (Keeps.whenOk h (fun _ h1 => keeps_instanceSave h1))

theorem keeps_execInstanceSaveMemory {slot : Nat} {reads : NMap (BitVec 128)} (h : Keeps z s) :
    KeepsNext z (execInstanceSaveMemory slot reads s) := by
  unfold execInstanceSaveMemory
  exact KeepsNext.next (Keeps.whenOk h (fun _ h1 => keeps_instanceSave h1))

theorem keeps_putBoth {key : Nat} {v : Word} (h : Keeps z s) : Keeps z (putBoth key v s) := h.same

theorem keeps_restoreState {n : Nat} {b : StateBody} {rs : List Reloc} {migration : Nat} (h : Keeps z s) :
    Keeps z (restoreState n b rs migration s) := by
  unfold restoreState
  extract_lets _ s1 s2 s3 s4 s5 s6 _
  have h1 : Keeps z s1 := Keeps.foldl h (fun _ _ h7 => h7.same)
  have h2 : Keeps z s2 := Keeps.foldl h1 (fun _ _ h8 => h8.same)
  have h3 : Keeps z s3 := Keeps.foldl h2 (fun _ _ h9 => keeps_setKeySlot h9)
  have h4 : Keeps z s4 := keeps_putReg (keeps_putReg (keeps_putReg (keeps_putReg h3)))
  have h5 : Keeps z s5 := keeps_putBoth h4
  have h6 : Keeps z s6 := Keeps.elim h5 (fun _ => keeps_wipeRegions h5)
  exact keeps_enterState (keeps_setInst h6)

theorem keeps_restoreStatePart {slot n : Nat} {plain : List Byte} {table : List (BitVec 128)} {failed : Bool}
    (h : Keeps z s) : Keeps z (restoreStatePart slot n plain table failed s) := by
  unfold restoreStatePart
  split
  · exact keeps_moveEnd h
  · extract_lets _
    exact Keeps.ite (keeps_moveEnd h) (Keeps.ite (keeps_mgmtMalformed h) (Keeps.ite (keeps_moveEnd h) (Keeps.ite
      (keeps_quotaRefused h) (keeps_moveEnd (keeps_restoreState h)))))

theorem keeps_restoreMemory {n part first : Nat} {body : List Byte} (h : Keeps z s) :
    Keeps z (restoreMemory n part first body s) := by
  unfold restoreMemory
  extract_lets _
  exact Keeps.foldl h (fun _ _ h1 => keeps_tierPut h1)

theorem keeps_restoreMemoryPart {slot n part : Nat} {plain : List Byte} {good : Bool} (h : Keeps z s) :
    Keeps z (restoreMemoryPart slot n part plain good s) := by
  unfold restoreMemoryPart
  extract_lets _ _ s1
  have h1 : Keeps z s1 := keeps_restoreMemory (keeps_muleMove h)
  exact Keeps.ite (keeps_moveEnd h) (keeps_moveEnd h1)

theorem keeps_instanceRestore {memory : Bool} {slot : Nat} {reads : NMap (BitVec 128)} {table : List (BitVec 128)}
    {failed : Bool} (h : Keeps z s) : Keeps z (instanceRestore memory slot reads table failed s) := by
  unfold instanceRestore
  split
  · exact h
  · extract_lets _ _ _ _ _ _ _ s1
    have h1 : Keeps z s1 := keeps_markStarted h
    refine Keeps.ite h ?_
    refine Keeps.ite (keeps_mgmtDone h) ?_
    refine Keeps.ite (keeps_mgmtDone h) ?_
    refine Keeps.ite (keeps_mgmtDone h) ?_
    refine Keeps.ite (keeps_mgmtDone h) ?_
    refine Keeps.ite h1 ?_
    split
    · exact h1
    · rename_i s2 _ _ _ e2
      have h2 := (keeps_movePages h1).of_fail e2
      exact keeps_moveEnd h2
    · rename_i s3 _ e3
      have h3 := (keeps_movePages h1).of_ok e3
      split
      · exact h3
      · exact keeps_moveEnd h3
      · split
        · rename_i s4 _ e4
          have h4 := (keeps_charge h3).of_eq e4
          refine Keeps.ite (keeps_moveEnd h4) ?_
          extract_lets s5
          have h5 : Keeps z s5 := keeps_cryptCount (keeps_muleMove h4)
          split
          · extract_lets s6
            have h6 : Keeps z s6 := Keeps.ite h5 (keeps_raise (keeps_bump h5))
            exact Keeps.ite (keeps_moveEnd h6) (Keeps.ite (keeps_moveEnd h6) (Keeps.ite (keeps_moveEnd h6) (Keeps.ite
              (keeps_restoreMemoryPart h6) (keeps_restoreStatePart h6))))

theorem keeps_execInstanceRestoreState {slot : Nat} {reads : NMap (BitVec 128)} {table : List (BitVec 128)}
    {failed : Bool} (h : Keeps z s) : KeepsNext z (execInstanceRestoreState slot reads table failed s) := by
  unfold execInstanceRestoreState
  exact KeepsNext.next (Keeps.whenOk h (fun _ h1 => keeps_instanceRestore h1))

theorem keeps_execInstanceRestoreMemory {slot : Nat} {reads : NMap (BitVec 128)} (h : Keeps z s) :
    KeepsNext z (execInstanceRestoreMemory slot reads s) := by
  unfold execInstanceRestoreMemory
  exact KeepsNext.next (Keeps.whenOk h (fun _ h1 => keeps_instanceRestore h1))

theorem keeps_modEth {p : Nat} {f : EthPort → EthPort} (h : Keeps z s) : Keeps z (modEth p f s) := h.same

theorem keeps_ethCount {p i n : Nat} (h : Keeps z s) : Keeps z (ethCount p i n s) := by
  unfold ethCount
  extract_lets _ _ s1
  have h1 : Keeps z s1 := keeps_modEth h
  exact Keeps.ite h1 (keeps_raise (keeps_modEth h1))

theorem keeps_ethOut {p : Nat} {bs : List Byte} (h : Keeps z s) : Keeps z (ethOut p bs s) := by
  unfold ethOut
  extract_lets _ s1 s2
  have h1 : Keeps z s1 := keeps_ethCount (keeps_ethCount h)
  have h2 : Keeps z s2 := keeps_ethCount h1
  exact keeps_emit (keeps_stream h2)

theorem keeps_sendPause {p k quanta : Nat} (h : Keeps z s) : Keeps z (sendPause p k quanta s) := by
  unfold sendPause
  extract_lets _ _ s1 s2
  have h1 : Keeps z s1 := keeps_ethOut h
  have h2 : Keeps z s2 := keeps_ethCount h1
  exact Keeps.ite h2 (keeps_ethCount h2)

theorem keeps_flowCheck {p : Nat} (h : Keeps z s) : Keeps z (flowCheck p s) := by
  unfold flowCheck
  refine Keeps.foldl h fun s2 _ h2 => ?_
  extract_lets _ _ s3
  have h3 : Keeps z s3 := Keeps.ite (keeps_modEth h2) h2
  exact Keeps.ite h3 (Keeps.ite (keeps_sendPause (keeps_modEth h3)) (Keeps.ite (keeps_sendPause (keeps_modEth h3)) h3))

theorem keeps_execXoffRepeat {port pri : Nat} (h : Keeps z s) : KeepsNext z (execXoffRepeat port pri s) := by
  unfold execXoffRepeat
  exact KeepsNext.next (Keeps.whenOk h (fun _ h1 => keeps_sendPause h1))

theorem keeps_takeQuanta {p k q : Nat} (h : Keeps z s) : Keeps z (takeQuanta p k q s) := by
  unfold takeQuanta
  exact Keeps.ite (keeps_modEth h) (keeps_modEth h)

theorem keeps_countXoff {p : Nat} {quanta : List (Nat × Nat)} (h : Keeps z s) : Keeps z (countXoff p quanta s) := by
  unfold countXoff
  exact Keeps.foldl h (fun _ _ h1 => Keeps.ite h1 (keeps_ethCount h1))

theorem keeps_takePause {p : Nat} {h' : EthHead} (h : Keeps z s) : Keeps z (takePause p h' s) := by
  unfold takePause
  refine Keeps.ite ?_ ?_
  · extract_lets s1
    have h1 : Keeps z s1 := keeps_countXoff (keeps_ethCount h)
    exact Keeps.ite (keeps_takeQuanta h1) h1
  · extract_lets _ _ s2
    have h2 : Keeps z s2 := keeps_countXoff (keeps_ethCount h)
    exact Keeps.ite (Keeps.foldl h2 (fun _ _ h3 => Keeps.ite (keeps_takeQuanta h3) h3)) h2

theorem keeps_execPauseExpiry {port pri : Nat} (h : Keeps z s) : KeepsNext z (execPauseExpiry port pri s) := by
  unfold execPauseExpiry
  exact KeepsNext.next (Keeps.whenOk h (fun _ h1 => keeps_takeQuanta h1))

theorem keeps_meterFrame {p pri n : Nat} (h : Keeps z s) : Keeps z (meterFrame p pri n s).1 := by
  unfold meterFrame
  split
  · refine Keeps.fst_mk ?_
    exact h
  · split
    · extract_lets _ f1 s2
      have h1 : ∀ a0 a1, Keeps z a1 → Keeps z (f1 a0 a1) := by
        intro _ s1' h1'
        unfold f1
        exact h1'.same
      have h2 : Keeps z s2 := keeps_bump (h1 _ _ h)
      split
      · refine Keeps.fst_mk ?_
        exact keeps_bump h
      · split
        · split
          · refine Keeps.fst_mk ?_
            exact h2
          · refine Keeps.fst_mk ?_
            exact h2
          · refine Keeps.fst_mk ?_
            exact h2
        · refine Keeps.fst_mk ?_
          exact keeps_bump (h1 _ _ h)

theorem keeps_takeRecv {qpn : Nat} {x : RecvReads} (h : Keeps z s) : Keeps z (takeRecv qpn x s).1 := by
  unfold takeRecv
  extract_lets _
  split
  · refine Keeps.fst_mk ?_
    exact h
  · split
    · refine Keeps.fst_mk ?_
      exact h
    · split
      · refine Keeps.fst_mk ?_
        exact h
      · extract_lets s1
        have h1 : Keeps z s1 := keeps_fetchRecvs h
        refine Keeps.fst_mk ?_
        exact h1

theorem keeps_recvWrite {qpn ssn off : Nat} {bs : List Byte} {tables : NMap (BitVec 128)} (h : Keeps z s) :
    Keeps z (recvWrite qpn ssn off bs tables s) := by
  unfold recvWrite
  split
  · exact h
  · split
    · exact h
    · extract_lets _ _
      refine Keeps.ite h ?_
      split
      · rename_i s1 _ e1
        have h1 := (keeps_xlateRange h).of_eq e1
        split
        · exact keeps_updRecv (keeps_recordFault h1)
        · split
          · rename_i s2 _ e2
            have h2 := (keeps_writeRange (keeps_muleMove (keeps_settleUses h1))).of_eq e2
            exact keeps_updRecv h2

theorem keeps_recvEnd {qpn ssn total imm aux last : Nat} (h : Keeps z s) :
    Keeps z (recvEnd qpn ssn total imm aux last s) := by
  unfold recvEnd
  exact keeps_awaitFlush (keeps_updRecv h)

theorem keeps_deliver {qpn : Nat} {bs : List Byte} {imm aux : Nat} {x : RecvReads} (h : Keeps z s) :
    Keeps z (deliver qpn bs imm aux x s).1 := by
  unfold deliver
  split
  · rename_i s1 _ e1
    have h1 := (keeps_takeRecv h).of_eq e1
    split
    · refine Keeps.fst_mk ?_
      exact h1
    · refine Keeps.fst_mk ?_
      exact keeps_recvEnd (keeps_recvWrite h1)

theorem keeps_rxOk {p dst : Nat} {frame : List Byte} (h : Keeps z s) : Keeps z (rxOk p dst frame s) := by
  unfold rxOk
  exact keeps_ethCount (keeps_ethCount (keeps_ethCount (keeps_stream h)))

theorem keeps_holdFrame {p : Nat} {f : RxFrame} (h : Keeps z s) : Keeps z (holdFrame p f s) := by
  unfold holdFrame
  exact keeps_flowCheck (keeps_modEth h)

theorem keeps_takeFrame {p : Nat} {c : Consumer} (h : Keeps z s) : KeepsSomeSnd z (takeFrame p c s) := by
  unfold takeFrame
  split
  · split
    · exact KeepsSomeSnd.some (keeps_flowCheck (keeps_modEth h))
    · exact KeepsSomeSnd.none
  · exact KeepsSomeSnd.none

theorem keeps_giveFrame {p : Nat} {cls : RxClass} {pri n : Nat} {bs : List Byte} {x : RecvReads} (h : Keeps z s) :
    Keeps z (giveFrame p cls pri n bs x s) := by
  unfold giveFrame
  split
  · rename_i s1 _ e1
    have h1 := (keeps_meterFrame h).of_eq e1
    split
    · exact h1
    · extract_lets _
      refine Keeps.ite (keeps_ethCount (keeps_holdFrame h1)) ?_
      split
      · exact keeps_deliver h1
      · exact h1

theorem keeps_rawReady {p : Nat} {x : RecvReads} (h : Keeps z s) : Keeps z (rawReady p x s).1 := by
  unfold rawReady
  split
  · refine Keeps.fst_mk ?_
    exact h
  · split
    · refine Keeps.fst_mk ?_
      exact h
    · split
      · rename_i s1 _ e1
        have h1 := (keeps_takeRecv h).of_eq e1
        refine Keeps.fst_mk ?_
        exact h1

theorem keeps_ethReceive {p : Nat} {frame : List Byte} {corrected uncorrectable : Nat} {x : RecvReads} (h : Keeps z s) :
    Keeps z (ethReceive p frame corrected uncorrectable x s) := by
  unfold ethReceive
  extract_lets _ s1 _ _ _ _ _
  have h1 : Keeps z s1 := keeps_ethCount (keeps_ethCount h)
  refine Keeps.ite (keeps_ethCount h1) ?_
  refine Keeps.ite (keeps_ethCount h1) ?_
  refine Keeps.ite (keeps_ethCount h1) ?_
  refine Keeps.ite (keeps_ethCount h1) ?_
  refine Keeps.ite (keeps_raise (keeps_ethCount h1)) ?_
  refine Keeps.ite (keeps_ethCount h1) ?_
  split
  · exact keeps_ethCount h1
  · exact keeps_takePause (keeps_rxOk h1)
  · exact keeps_holdFrame (keeps_rxOk h1)
  · exact keeps_giveFrame (keeps_rxOk h1)
  · split
    · rename_i s2 _ e2
      have h2 := (keeps_rawReady h1).of_eq e2
      exact Keeps.ite (keeps_giveFrame (keeps_rxOk h2)) (keeps_ethCount h2)
  · split
    · exact Keeps.ite (keeps_holdFrame h1) (keeps_ethCount h1)
    · exact keeps_ethCount h1

theorem keeps_execEthFrameReceive {port : Nat} {frame : List Byte} {corrected uncorrectable : Nat} {x : RecvReads}
    (h : Keeps z s) : KeepsNext z (execEthFrameReceive port frame corrected uncorrectable x s) := by
  unfold execEthFrameReceive
  exact KeepsNext.next (Keeps.whenOk h (fun _ h1 => keeps_ethReceive h1))

theorem keeps_execPauseFrameReceive {port : Nat} {frame : List Byte} (h : Keeps z s) :
    KeepsNext z (execPauseFrameReceive port frame s) := by
  unfold execPauseFrameReceive
  exact KeepsNext.next (Keeps.whenOk h (fun _ h1 => keeps_ethReceive h1))

theorem keeps_ptpMoved {old : Option Nat} (h : Keeps z s) : Keeps z (ptpMoved old s) := by
  unfold ptpMoved
  exact Keeps.ite h (Keeps.ite (keeps_ptpLoseLock h) h)

theorem keeps_execPtpMessageReceive {port : Nat} {offset : Option Int} (h : Keeps z s) :
    KeepsNext z (execPtpMessageReceive port offset s) := by
  unfold execPtpMessageReceive
  refine KeepsNext.next ?_
  refine Keeps.whenOk h fun s3 h3 => ?_
  extract_lets f4
  have h4 : ∀ a0, Keeps z a0 → Keeps z (f4 a0) := by
    intro s4' h4'
    unfold f4
    exact Keeps.ite h4'.same h4'
  refine Keeps.ite (h4 _ h3) ?_
  split
  · rename_i s5 e5
    have h5 := (keeps_takeFrame h3).of_eq e5
    exact h4 _ h5
  · exact h3

theorem keeps_execEthLinkUp {port lanes : Nat} (h : Keeps z s) : KeepsNext z (execEthLinkUp port lanes s) := by
  unfold execEthLinkUp
  refine KeepsNext.next ?_
  refine Keeps.whenOk h fun s3 h3 => ?_
  extract_lets _
  exact keeps_flowCheck (keeps_ptpMoved (keeps_raise (keeps_modEth h3)))

theorem keeps_ethDown {p : Nat} (h : Keeps z s) : Keeps z (ethDown p s) := by
  unfold ethDown
  refine Keeps.ite ?_ h
  extract_lets _
  exact keeps_ptpMoved (keeps_raise (keeps_modEth h))

theorem keeps_execEthLinkDown {port : Nat} (h : Keeps z s) : KeepsNext z (execEthLinkDown port s) := by
  unfold execEthLinkDown
  exact KeepsNext.next (Keeps.whenOk h (fun _ h1 => keeps_ethDown h1))

theorem keeps_udSent {f : TxFrame} (h : Keeps z s) : Keeps z (udSent f s) := by
  unfold udSent
  exact Keeps.foldl h (fun _ _ h1 => Keeps.ite (keeps_roceDone h1) h1)

theorem keeps_ganderDrop {p k : Nat} (h : Keeps z s) : Keeps z (ganderDrop p k s) := by
  unfold ganderDrop
  refine Keeps.foldl h fun s2 _ h2 => ?_
  refine Keeps.ite ?_ h2
  extract_lets _
  exact Keeps.foldl (keeps_ethCount (keeps_modEth h2)) (fun _ _ h3 => keeps_udSent h3)

theorem keeps_ganderCount {p k : Nat} (h : Keeps z s) : Keeps z (ganderCount p k s) := h.same

theorem keeps_ganderTxTrip {p k : Nat} (h : Keeps z s) : Keeps z (ganderTxTrip p k s) := by
  unfold ganderTxTrip
  extract_lets _
  exact Keeps.ite (keeps_raise (keeps_modEth (keeps_ganderDrop h))) h

theorem keeps_ganderTxClear {p k : Nat} (h : Keeps z s) : Keeps z (ganderTxClear p k s) := by
  unfold ganderTxClear
  extract_lets _
  exact Keeps.ite (keeps_raise (keeps_modEth h)) h

theorem keeps_ganderRxTrip {p k : Nat} (h : Keeps z s) : Keeps z (ganderRxTrip p k s) := by
  unfold ganderRxTrip
  extract_lets _
  exact Keeps.ite (keeps_raise (keeps_modEth (keeps_sendPause h))) h

theorem keeps_ganderRxClear {p k : Nat} (h : Keeps z s) : Keeps z (ganderRxClear p k s) := by
  unfold ganderRxClear
  extract_lets _
  exact Keeps.ite (keeps_raise (keeps_modEth h)) h

theorem keeps_ganderEdge {p : Nat} (h : Keeps z s) : Keeps z (ganderEdge p s) := by
  unfold ganderEdge
  extract_lets s1
  have h1 : Keeps z s1 := Keeps.foldl h (fun _ _ h2 => keeps_ganderRxClear (keeps_ganderRxTrip (keeps_ganderTxClear
    (keeps_ganderTxTrip (keeps_ganderCount h2)))))
  exact keeps_modEth h1

theorem keeps_execGanderTxTrip {port pri : Nat} (h : Keeps z s) : KeepsNext z (execGanderTxTrip port pri s) := by
  unfold execGanderTxTrip
  exact KeepsNext.next (Keeps.whenOk h (fun _ h1 => keeps_ganderTxTrip h1))

theorem keeps_execGanderTxClear {port pri : Nat} (h : Keeps z s) : KeepsNext z (execGanderTxClear port pri s) := by
  unfold execGanderTxClear
  exact KeepsNext.next (Keeps.whenOk h (fun _ h1 => keeps_ganderTxClear h1))

theorem keeps_execGanderRxTrip {port pri : Nat} (h : Keeps z s) : KeepsNext z (execGanderRxTrip port pri s) := by
  unfold execGanderRxTrip
  exact KeepsNext.next (Keeps.whenOk h (fun _ h1 => keeps_ganderRxTrip h1))

theorem keeps_execGanderRxClear {port pri : Nat} (h : Keeps z s) : KeepsNext z (execGanderRxClear port pri s) := by
  unfold execGanderRxClear
  exact KeepsNext.next (Keeps.whenOk h (fun _ h1 => keeps_ganderRxClear h1))

theorem keeps_queueFrame {p pri : Nat} {f : TxFrame} (h : Keeps z s) : Keeps z (queueFrame p pri f s) := by
  unfold queueFrame
  split
  · exact Keeps.ite (keeps_udSent (keeps_ethCount h)) (keeps_modEth h)
  · exact keeps_modEth h

theorem keeps_flushUnode {i : Nat} (h : Keeps z s) : Keeps z (flushUnode i s) := by
  unfold flushUnode
  split
  · exact h
  · refine Keeps.ite h ?_
    extract_lets _ _
    exact keeps_queueFrame h.same

theorem keeps_execEthCounterLoRead {port counter : Nat} (h : Keeps z s) :
    KeepsNext z (execEthCounterLoRead port counter s) := by
  unfold execEthCounterLoRead
  refine KeepsNext.next ?_
  refine Keeps.whenOk h fun s3 h3 => ?_
  extract_lets _
  exact keeps_emit (keeps_modEth h3)

theorem keeps_execUnodeRouteWrite {value : Word} {remote : BitVec 256} {failed : Bool} (h : Keeps z s) :
    KeepsNext z (execUnodeRouteWrite value remote failed s) := by
  unfold execUnodeRouteWrite
  refine KeepsNext.next ?_
  refine Keeps.whenOk h fun s3 h3 => ?_
  extract_lets _ _ _ _ _ s4 s5 _ _
  have h4 : Keeps z s4 := keeps_putReg h3
  have h5 : Keeps z s5 := Keeps.ite h4 (keeps_flushUnode h4)
  exact h5.same

theorem keeps_takeKind {c : CellIn} {x : RecvReads} (h : Keeps z s) : Keeps z (takeKind c x s) := by
  unfold takeKind
  split
  · exact keeps_respCell h
  · exact keeps_respCell h
  · exact keeps_respCell h
  · exact keeps_respCell h
  · exact keeps_takeReadResp h
  · exact keeps_respCell h
  · exact keeps_takeAtomicResp h
  · exact keeps_respCell h
  · exact keeps_takeAttnResp h
  · exact keeps_takeAck h
  · exact keeps_takeNack h
  · exact keeps_respAck h
  · exact keeps_badCells h

theorem keeps_takeStandalone {h' : Hdr} {pay : BitVec 512} {act : CellIn → State → State}
    (hact : ∀ a0 a1, Keeps z a1 → Keeps z (act a0 a1)) (h : Keeps z s) : Keeps z (takeStandalone h' pay act s) := by
  unfold takeStandalone
  extract_lets _
  exact Keeps.ite (keeps_slotCount h) (Keeps.ite (keeps_badCells h) (hact _ _ h))

theorem keeps_takeTrainHead {h' : Hdr} {pay : BitVec 512} (h : Keeps z s) : Keeps z (takeTrainHead h' pay s).1 := by
  unfold takeTrainHead
  extract_lets _
  split
  · refine Keeps.fst_mk ?_
    exact keeps_slotCount h
  · split
    · refine Keeps.fst_mk ?_
      exact keeps_badCells h
    · refine Keeps.fst_mk ?_
      exact h

theorem keeps_execTrainReceive {port : Nat} {hdr : BitVec 96} {pay : BitVec 512} (h : Keeps z s) :
    KeepsNext z (execTrainReceive port hdr pay s) := by
  unfold execTrainReceive
  refine KeepsNext.next ?_
  refine Keeps.whenOk h fun s3 h3 => ?_
  extract_lets s4
  have h4 : Keeps z s4 := keeps_stream h3
  split
  · rename_i s5 _ e5
    have h5 := (keeps_takeTrainHead h4).of_eq e5
    exact keeps_updCport h5

theorem keeps_receiveCell {kind port : Nat} {slot : SlotIn} {act : CellIn → State → State}
    (hact : ∀ a0 a1, Keeps z a1 → Keeps z (act a0 a1)) (h : Keeps z s) : Keeps z (receiveCell kind port slot act s) := by
  unfold receiveCell
  split
  · extract_lets _
    refine Keeps.ite h ?_
    refine Keeps.ite h ?_
    refine keeps_takeStandalone (fun _ s7 h7 => ?_) (keeps_stream h)
    split
    · exact keeps_badCells h7
    · exact hact _ _ h7
  · split
    · exact h
    · extract_lets _ _ s8
      have h8 : Keeps z s8 := keeps_stream h
      exact Keeps.ite h (Keeps.ite (hact _ _ h8) h8)

theorem keeps_execDataCellReceive {port : Nat} {slot : SlotIn} (h : Keeps z s) :
    KeepsNext z (execDataCellReceive port slot s) := by
  unfold execDataCellReceive
  exact KeepsNext.next (Keeps.whenOk h (fun _ h1 => keeps_receiveCell (fun _ _ h2 => keeps_respCell h2) h1))

theorem keeps_execReduceCellReceive {port : Nat} {slot : SlotIn} (h : Keeps z s) :
    KeepsNext z (execReduceCellReceive port slot s) := by
  unfold execReduceCellReceive
  exact KeepsNext.next (Keeps.whenOk h (fun _ h1 => keeps_receiveCell (fun _ _ h2 => keeps_respCell h2) h1))

theorem keeps_execSendCellReceive {port : Nat} {slot : SlotIn} {x : RecvReads} (h : Keeps z s) :
    KeepsNext z (execSendCellReceive port slot x s) := by
  unfold execSendCellReceive
  exact KeepsNext.next (Keeps.whenOk h (fun _ h1 => keeps_receiveCell (fun _ _ h2 => keeps_respCell h2) h1))

theorem keeps_execReadReqReceive {port : Nat} {slot : SlotIn} (h : Keeps z s) :
    KeepsNext z (execReadReqReceive port slot s) := by
  unfold execReadReqReceive
  exact KeepsNext.next (Keeps.whenOk h (fun _ h1 => keeps_receiveCell (fun _ _ h2 => keeps_respCell h2) h1))

theorem keeps_execReadRespReceive {port : Nat} {slot : SlotIn} (h : Keeps z s) :
    KeepsNext z (execReadRespReceive port slot s) := by
  unfold execReadRespReceive
  exact KeepsNext.next (Keeps.whenOk h (fun _ h1 => keeps_receiveCell (fun _ _ h2 => keeps_takeReadResp h2) h1))

theorem keeps_execAtomicReqReceive {port : Nat} {slot : SlotIn} (h : Keeps z s) :
    KeepsNext z (execAtomicReqReceive port slot s) := by
  unfold execAtomicReqReceive
  exact KeepsNext.next (Keeps.whenOk h (fun _ h1 => keeps_receiveCell (fun _ _ h2 => keeps_respCell h2) h1))

theorem keeps_execAtomicRespReceive {port : Nat} {slot : SlotIn} (h : Keeps z s) :
    KeepsNext z (execAtomicRespReceive port slot s) := by
  unfold execAtomicRespReceive
  exact KeepsNext.next (Keeps.whenOk h (fun _ h1 => keeps_receiveCell (fun _ _ h2 => keeps_takeAtomicResp h2) h1))

theorem keeps_execAttnReqReceive {port : Nat} {slot : SlotIn} (h : Keeps z s) :
    KeepsNext z (execAttnReqReceive port slot s) := by
  unfold execAttnReqReceive
  exact KeepsNext.next (Keeps.whenOk h (fun _ h1 => keeps_receiveCell (fun _ _ h2 => keeps_respCell h2) h1))

theorem keeps_execAttnRespReceive {port : Nat} {slot : SlotIn} (h : Keeps z s) :
    KeepsNext z (execAttnRespReceive port slot s) := by
  unfold execAttnRespReceive
  exact KeepsNext.next (Keeps.whenOk h (fun _ h1 => keeps_receiveCell (fun _ _ h2 => keeps_takeAttnResp h2) h1))

theorem keeps_execAckReceive {port : Nat} {slot : SlotIn} (h : Keeps z s) :
    KeepsNext z (execAckReceive port slot s) := by
  unfold execAckReceive
  exact KeepsNext.next (Keeps.whenOk h (fun _ h1 => keeps_receiveCell (fun _ _ h2 => keeps_takeAck h2) h1))

theorem keeps_execNackMissingReceive {port : Nat} {slot : SlotIn} (h : Keeps z s) :
    KeepsNext z (execNackMissingReceive port slot s) := by
  unfold execNackMissingReceive
  exact KeepsNext.next (Keeps.whenOk h (fun _ h1 => keeps_receiveCell (fun _ _ h2 => keeps_takeNack h2) h1))

theorem keeps_execNackRnrReceive {port : Nat} {slot : SlotIn} (h : Keeps z s) :
    KeepsNext z (execNackRnrReceive port slot s) := by
  unfold execNackRnrReceive
  exact KeepsNext.next (Keeps.whenOk h (fun _ h1 => keeps_receiveCell (fun _ _ h2 => keeps_takeNack h2) h1))

theorem keeps_execNackMovedReceive {port : Nat} {slot : SlotIn} (h : Keeps z s) :
    KeepsNext z (execNackMovedReceive port slot s) := by
  unfold execNackMovedReceive
  exact KeepsNext.next (Keeps.whenOk h (fun _ h1 => keeps_receiveCell (fun _ _ h2 => keeps_takeNack h2) h1))

theorem keeps_execNackQpErrorReceive {port : Nat} {slot : SlotIn} (h : Keeps z s) :
    KeepsNext z (execNackQpErrorReceive port slot s) := by
  unfold execNackQpErrorReceive
  exact KeepsNext.next (Keeps.whenOk h (fun _ h1 => keeps_receiveCell (fun _ _ h2 => keeps_takeNack h2) h1))

theorem keeps_execRespAckReceive {port : Nat} {slot : SlotIn} (h : Keeps z s) :
    KeepsNext z (execRespAckReceive port slot s) := by
  unfold execRespAckReceive
  exact KeepsNext.next (Keeps.whenOk h (fun _ h1 => keeps_receiveCell (fun _ _ h2 => keeps_respAck h2) h1))

theorem keeps_enqueueFirst {p : Nat} {i : WireItem} (h : Keeps z s) : Keeps z (enqueueFirst p i s) := by
  unfold enqueueFirst
  extract_lets s1
  have h1 : Keeps z s1 := keeps_updCport h
  exact keeps_drainQueue h1

theorem keeps_routeControl {i : WireItem} (h : Keeps z s) : Keeps z (routeControl i s) := by
  unfold routeControl
  split
  · exact keeps_enqueueFirst h.same
  · exact keeps_holdItem h

theorem keeps_poolRequest {h' : Hdr} {tick : Nat} {b : List Byte} (h : Keeps z s) :
    Keeps z (poolRequest h' tick b s) := by
  unfold poolRequest
  extract_lets _ _ s1 _ _
  have h1 : Keeps z s1 := h.same
  split
  · exact Keeps.ite h1.same h1
  · exact Keeps.ite h1.same (keeps_raise (keeps_bump h1))

theorem keeps_takeGrant {tick : Nat} {b : List Byte} (h : Keeps z s) : Keeps z (takeGrant tick b s) := by
  unfold takeGrant
  extract_lets _ _
  exact Keeps.ite h h.same

theorem keeps_markCnp {key port : Nat} (h : Keeps z s) : Keeps z (markCnp key port s) := h.same

theorem keeps_takeCellCnp {node : Nat} (h : Keeps z s) : Keeps z (takeCellCnp node s) := by
  unfold takeCellCnp
  exact Keeps.foldl (keeps_bump h) (fun _ _ h1 => keeps_markCnp h1)

theorem keeps_takeSched {hdr : BitVec 96} {pay : BitVec 512} (h : Keeps z s) : Keeps z (takeSched hdr pay s) := by
  unfold takeSched
  extract_lets _ _ _
  refine Keeps.ite (keeps_badCells (keeps_slotCount h)) ?_
  refine Keeps.ite (keeps_badCells h) ?_
  split
  · exact keeps_poolRequest h
  · exact keeps_takeGrant h
  · exact keeps_takeCellCnp h

theorem keeps_receiveSched {ty port : Nat} {hdr : BitVec 96} {pay : BitVec 512} (h : Keeps z s) :
    Keeps z (receiveSched ty port hdr pay s) := by
  unfold receiveSched
  extract_lets _
  exact Keeps.ite h (keeps_takeSched (keeps_stream h))

theorem keeps_execRequestReceive {port : Nat} {hdr : BitVec 96} {pay : BitVec 512} (h : Keeps z s) :
    KeepsNext z (execRequestReceive port hdr pay s) := by
  unfold execRequestReceive
  exact KeepsNext.next (Keeps.whenOk h (fun _ h1 => keeps_receiveSched h1))

theorem keeps_execGrantReceive {port : Nat} {hdr : BitVec 96} {pay : BitVec 512} (h : Keeps z s) :
    KeepsNext z (execGrantReceive port hdr pay s) := by
  unfold execGrantReceive
  exact KeepsNext.next (Keeps.whenOk h (fun _ h1 => keeps_receiveSched h1))

theorem keeps_execSchedCnpReceive {port : Nat} {hdr : BitVec 96} {pay : BitVec 512} (h : Keeps z s) :
    KeepsNext z (execSchedCnpReceive port hdr pay s) := by
  unfold execSchedCnpReceive
  exact KeepsNext.next (Keeps.whenOk h (fun _ h1 => keeps_receiveSched h1))

theorem keeps_sendSched {node ty : Nat} {pay : BitVec 512} (h : Keeps z s) : Keeps z (sendSched node ty pay s) := by
  unfold sendSched
  extract_lets _ _
  split
  · exact keeps_enqueueFirst h.same
  · exact h

theorem keeps_dropUnsent (h : Keeps z s) : Keeps z (dropUnsent s) := h.same

theorem keeps_grantCompute (h : Keeps z s) : Keeps z (grantCompute s) := by
  unfold grantCompute
  extract_lets _ _ _ _ _ _ _ s1
  have h1 : Keeps z s1 := h.same
  refine Keeps.foldl h1 fun s3 _ h3 => ?_
  extract_lets s4 _
  have h4 : Keeps z s4 := keeps_sendSched h3
  exact h4.same

theorem keeps_allowEdge (h : Keeps z s) : Keeps z (allowEdge s) := by
  unfold allowEdge
  extract_lets _ _ _ _ _ s1
  have h1 : Keeps z s1 := h.same
  exact Keeps.ite (keeps_raise h1) h1

theorem keeps_rateUpdate (h : Keeps z s) : Keeps z (rateUpdate s) := by
  unfold rateUpdate
  exact Keeps.foldl h (fun _ _ h1 => h1.same)

theorem keeps_pacerRefill (h : Keeps z s) : Keeps z (pacerRefill s) := by
  unfold pacerRefill
  refine Keeps.foldl h fun s2 _ h2 => ?_
  extract_lets _ _ _
  exact h2.same

theorem keeps_chargePacer {key port : Nat} {n : Int} (h : Keeps z s) : Keeps z (chargePacer key port n s) := h.same

theorem keeps_shaperRefill (h : Keeps z s) : Keeps z (shaperRefill s) := by
  unfold shaperRefill
  refine Keeps.foldl h fun s2 _ h2 => ?_
  extract_lets _ _ _
  exact h2.same

theorem keeps_meterRefill (h : Keeps z s) : Keeps z (meterRefill s) := by
  unfold meterRefill
  refine Keeps.foldl h fun s2 _ h2 => ?_
  split
  · extract_lets _ _ _
    exact h2.same

theorem keeps_updGcl {p : Nat} {f : GclState → GclState} (h : Keeps z s) : Keeps z (updGcl p f s) := h.same

theorem keeps_gclSwitch {p : Nat} (h : Keeps z s) : Keeps z (gclSwitch p s) := by
  unfold gclSwitch
  split
  · exact h
  · exact keeps_raise (keeps_updGcl h)

theorem keeps_gclEdge {p : Nat} (h : Keeps z s) : Keeps z (gclEdge p s) := by
  unfold gclEdge
  extract_lets s1 _
  have h1 : Keeps z s1 := by
    unfold s1
    split
    · exact Keeps.ite (keeps_gclSwitch h) h
    · exact h
  exact Keeps.ite (keeps_updGcl h1) h1

theorem keeps_gclAdvance {p : Nat} (h : Keeps z s) : Keeps z (gclAdvance p s) := by
  unfold gclAdvance
  extract_lets _ _
  split
  · exact keeps_updGcl h
  · split
    · exact keeps_updGcl h
    · exact h

theorem keeps_execGclEntryAdvance {port : Nat} (h : Keeps z s) : KeepsNext z (execGclEntryAdvance port s) := by
  unfold execGclEntryAdvance
  exact KeepsNext.next (Keeps.whenOk h (fun _ h1 => keeps_gclAdvance h1))

theorem keeps_execGclListSwitch {port : Nat} (h : Keeps z s) : KeepsNext z (execGclListSwitch port s) := by
  unfold execGclListSwitch
  exact KeepsNext.next (Keeps.whenOk h (fun _ h1 => keeps_gclSwitch h1))

theorem keeps_frameSlot {port src : Nat} {late : Int} {x : RecvReads} {slot : List Byte × List (List Byte)}
    (h : Keeps z s) : Keeps z (frameSlot port src late x slot s) := by
  unfold frameSlot
  extract_lets _ _ _
  refine Keeps.ite h ?_
  refine Keeps.ite (keeps_takeStandalone (fun _ _ h4 => keeps_takeKind h4) h) ?_
  refine Keeps.ite ?_ ?_
  · split
    · rename_i s5 _ e5
      have h5 := (keeps_takeTrainHead h).of_eq e5
      refine Keeps.ite ?_ h5
      refine Keeps.foldl h5 fun s9 _ h9 => ?_
      extract_lets _
      exact Keeps.ite (keeps_takeKind h9) h9
  · refine Keeps.ite (keeps_takeSched h) ?_
    refine Keeps.ite ?_ h
    split
    · exact keeps_takeAlignCell h
    · exact h

theorem keeps_cellCnp {node : Nat} (h : Keeps z s) : Keeps z (cellCnp node s) := by
  unfold cellCnp
  refine Keeps.ite h ?_
  extract_lets _ s1 _
  have h1 : Keeps z s1 := h.same
  split
  · exact h1
  · exact keeps_bump (keeps_ethCount (keeps_ethOut h1))

theorem keeps_cellFrameReceive {port : Nat} {late : Int} {x : RecvReads} (h : Keeps z s) :
    Keeps z (cellFrameReceive port late x s) := by
  unfold cellFrameReceive
  split
  · exact h
  · rename_i s1 e1
    have h1 := (keeps_takeFrame h).of_eq e1
    split
    · extract_lets _ s2 s3
      have h2 : Keeps z s2 := Keeps.foldl h1 (fun _ _ h4 => keeps_frameSlot h4)
      have h3 : Keeps z s3 := keeps_bump h2
      refine Keeps.ite ?_ h2
      split
      · exact keeps_cellCnp h3
      · exact h3
    · exact h1

theorem keeps_execCellFrameReceive {port : Nat} {late : Int} {x : RecvReads} (h : Keeps z s) :
    KeepsNext z (execCellFrameReceive port late x s) := by
  unfold execCellFrameReceive
  exact KeepsNext.next (Keeps.whenOk h (fun _ h1 => keeps_cellFrameReceive h1))

theorem keeps_roceHead {t : State} {p : Nat} {f : RxFrame} {u : UdpPkt} {b : RocePkt} (h : Keeps z s)
    (e : roceHead s p = some (f, u, b, t)) : Keeps z t := by
  unfold roceHead at e
  split at e
  · rename_i t' e1
    have h1 : Keeps z t' := (keeps_takeFrame h).of_eq e1
    split at e
    · simp only [Option.some.injEq, Prod.mk.injEq] at e
      obtain ⟨_, _, _, rfl⟩ := e
      exact h1
    · cases e
  · cases e

theorem keeps_sendAeth {qpn syn psn : Nat} (h : Keeps z s) : Keeps z (sendAeth qpn syn psn s) := by
  unfold sendAeth
  split
  · exact h
  · exact keeps_ethOut h

theorem keeps_updRoce {qpn : Nat} {f : RoceQp → RoceQp} (h : Keeps z s) : Keeps z (updRoce qpn f s) := h.same

theorem keeps_fatalNak {qpn syn : Nat} (h : Keeps z s) : Keeps z (fatalNak qpn syn s) := by
  unfold fatalNak
  extract_lets _
  exact keeps_qpError (keeps_sendAeth h)

theorem keeps_roceAccess {q : Qp} {kind va key len : Nat} {need : Need} {tables : NMap (BitVec 128)} (h : Keeps z s) :
    Keeps z (roceAccess q kind va key len need tables s).1 := by
  unfold roceAccess
  extract_lets _ _
  split
  · refine Keeps.fst_mk ?_
    exact h
  · split
    · rename_i s1 _ e1
      have h1 := (keeps_xlateRange h).of_eq e1
      split
      · refine Keeps.fst_mk ?_
        exact keeps_recordFault h1
      · refine Keeps.fst_mk ?_
        exact keeps_releaseUses h1

theorem keeps_rocePut {qpn : Nat} {q : Qp} {va key : Nat} {begins : Bool} {bs : List Byte} {tables : NMap (BitVec 128)}
    (h : Keeps z s) : KeepsSomeFst z (rocePut qpn q va key begins bs tables s) := by
  unfold rocePut
  split
  · exact KeepsSomeFst.some h
  · split
    · rename_i s1 _ e1
      have h1 := (keeps_roceAccess h).of_eq e1
      split
      · exact KeepsSomeFst.some h1
      · split
        · exact KeepsSomeFst.none
        · split
          · rename_i s2 _ e2
            have h2 := (keeps_writeRange (keeps_muleMove h1)).of_eq e2
            exact KeepsSomeFst.some h2

theorem keeps_rocePsn {qpn n : Nat} (h : Keeps z s) : Keeps z (rocePsn qpn n s) := h.same

theorem keeps_roceMsg {qpn : Nat} (h : Keeps z s) : Keeps z (roceMsg qpn s) := h.same

theorem keeps_roceAck {qpn : Nat} {b : RocePkt} {psn : Nat} (h : Keeps z s) : Keeps z (roceAck qpn b psn s) := by
  unfold roceAck
  exact Keeps.ite (keeps_sendAeth h) h

theorem keeps_roceRnr {qpn psn : Nat} (h : Keeps z s) : Keeps z (roceRnr qpn psn s) := by
  unfold roceRnr
  exact keeps_sendAeth (keeps_updRoce h)

theorem keeps_roceSend {qpn : Nat} {q : Qp} {mtu : Nat} {b : RocePkt} {first last : Bool} {imm : Nat} {pay : List Byte}
    {x : RecvReads} (h : Keeps z s) : Keeps z (roceSend qpn q mtu b first last imm pay x s) := by
  unfold roceSend
  refine Keeps.ite (keeps_fatalNak h) ?_
  split
  · rename_i s1 _ e1
    have h1 : Keeps z s1 := by
      refine Keeps.of_eq ?_ e1
      split
      · exact keeps_takeRecv h
      · refine Keeps.fst_mk ?_
        exact h
    split
    · exact keeps_roceRnr h1
    · extract_lets _ s2 _ _ s3 s4
      have h2 : Keeps z s2 := keeps_recvWrite h1
      have h3 : Keeps z s3 := keeps_rocePsn h2
      have h4 : Keeps z s4 := Keeps.ite (keeps_roceMsg (keeps_recvEnd h3)) (keeps_updRoce h3)
      exact Keeps.ite (keeps_fatalNak (keeps_recvComplete (keeps_recvEnd h2))) (Keeps.ite (keeps_fatalNak (keeps_recvComplete
        (keeps_recvEnd h2))) (keeps_roceAck h4))

theorem keeps_roceWrite {qpn : Nat} {q : Qp} {mtu : Nat} {b : RocePkt} {first last : Bool} {imm : Option Nat}
    {x : RecvReads} (h : Keeps z s) : KeepsSome z (roceWrite qpn q mtu b first last imm x s) := by
  unfold roceWrite
  extract_lets _ _ _ _ _ _ _
  split
  · split
    · exact KeepsSome.some (keeps_fatalNak h)
    · split
      · rename_i s1 _ e1
        have h1 : Keeps z s1 := by
          refine Keeps.of_eq ?_ e1
          split
          · exact keeps_roceAccess h
          · refine Keeps.fst_mk ?_
            exact h
        split
        · exact KeepsSome.some (keeps_fatalNak h1)
        · split
          · rename_i s2 _ e2
            have h2 : Keeps z s2 := by
              refine Keeps.of_eq ?_ e2
              split
              · exact keeps_takeRecv h1
              · refine Keeps.fst_mk ?_
                exact h1
            split
            · exact KeepsSome.some (keeps_roceRnr h2)
            · split
              · exact KeepsSome.none
              · rename_i s3 _ e3
                have h3 := (keeps_rocePut h2).of_eq e3
                split
                · exact KeepsSome.some (keeps_fatalNak h3)
                · extract_lets s4 s5 s6
                  have h4 : Keeps z s4 := keeps_rocePsn h3
                  have h5 : Keeps z s5 := by
                    unfold s5
                    split
                    · extract_lets s7
                      have h7 : Keeps z s7 := keeps_updRecv h4
                      exact keeps_recvEnd h7
                    · exact h4
                  have h6 : Keeps z s6 := Keeps.ite (keeps_roceMsg h5) (keeps_updRoce h5)
                  exact KeepsSome.some (keeps_roceAck h6)
  · split
    · exact KeepsSome.some (keeps_fatalNak h)
    · split
      · rename_i s8 _ e8
        have h8 : Keeps z s8 := by
          refine Keeps.of_eq ?_ e8
          split
          · exact keeps_roceAccess h
          · refine Keeps.fst_mk ?_
            exact h
        split
        · exact KeepsSome.some (keeps_fatalNak h8)
        · split
          · rename_i s9 _ e9
            have h9 : Keeps z s9 := by
              refine Keeps.of_eq ?_ e9
              split
              · exact keeps_takeRecv h8
              · refine Keeps.fst_mk ?_
                exact h8
            split
            · exact KeepsSome.some (keeps_roceRnr h9)
            · split
              · exact KeepsSome.none
              · rename_i s10 _ e10
                have h10 := (keeps_rocePut h9).of_eq e10
                split
                · exact KeepsSome.some (keeps_fatalNak h10)
                · extract_lets s11 s12 s13
                  have h11 : Keeps z s11 := keeps_rocePsn h10
                  have h12 : Keeps z s12 := by
                    unfold s12
                    split
                    · extract_lets s14
                      have h14 : Keeps z s14 := keeps_updRecv h11
                      exact keeps_recvEnd h14
                    · exact h11
                  have h13 : Keeps z s13 := Keeps.ite (keeps_roceMsg h12) (keeps_updRoce h12)
                  exact KeepsSome.some (keeps_roceAck h13)

theorem keeps_roceQueue {qpn op psn : Nat} {ext pay : List Byte} (h : Keeps z s) :
    Keeps z (roceQueue qpn op psn ext pay s) := by
  unfold roceQueue
  split
  · exact h
  · exact keeps_queueFrame h

theorem keeps_roceRead {qpn : Nat} {q : Qp} {mtu : Nat} {b : RocePkt} {psn : Nat} {again : Bool}
    {tables : NMap (BitVec 128)} (h : Keeps z s) : KeepsSome z (roceRead qpn q mtu b psn again tables s) := by
  unfold roceRead
  extract_lets _ _ _
  split
  · rename_i s1 _ e1
    have h1 : Keeps z s1 := by
      refine Keeps.of_eq ?_ e1
      split
      · refine Keeps.fst_mk ?_
        exact h
      · exact keeps_roceAccess h
    split
    · exact KeepsSome.some (Keeps.ite h1 (keeps_fatalNak h1))
    · split
      · exact KeepsSome.none
      · exact KeepsSome.some (Keeps.ite h1 (keeps_fatalNak h1))
      · extract_lets s2 s3 s4 _
        have h2 : Keeps z s2 := keeps_dropGot h1
        have h3 : Keeps z s3 := Keeps.ite h2 (keeps_roceMsg (keeps_rocePsn h2))
        have h4 : Keeps z s4 := keeps_muleMove h3
        split
        · exact KeepsSome.some (Keeps.ite h2 (keeps_fatalNak h2))
        · refine KeepsSome.some ?_
          refine Keeps.foldl h4 fun s7 _ h7 => ?_
          extract_lets _ _
          exact keeps_roceQueue h7

theorem keeps_roceAtomicAck {qpn psn prior : Nat} (h : Keeps z s) : Keeps z (roceAtomicAck qpn psn prior s) := by
  unfold roceAtomicAck
  extract_lets _
  exact keeps_roceQueue h

theorem keeps_roceAtomic {qpn : Nat} {q : Qp} {b : RocePkt} {tables : NMap (BitVec 128)} (h : Keeps z s) :
    KeepsSome z (roceAtomic qpn q b tables s) := by
  unfold roceAtomic
  extract_lets _ _
  split
  · exact KeepsSome.some (keeps_fatalNak h)
  · split
    · rename_i s1 _ e1
      have h1 := (keeps_roceAccess h).of_eq e1
      split
      · exact KeepsSome.some (keeps_fatalNak h1)
      · split
        · exact KeepsSome.none
        · split
          · exact KeepsSome.none
          · exact KeepsSome.some (keeps_fatalNak h1)
          · extract_lets s2 _ _
            have h2 : Keeps z s2 := keeps_dropGot h1
            split
            · exact KeepsSome.some (keeps_fatalNak h2)
            · split
              · rename_i s3 _ e3
                have h3 := (keeps_writeRange h2).of_eq e3
                split
                · exact KeepsSome.some (keeps_fatalNak h3)
                · extract_lets s4 s5
                  have h4 : Keeps z s4 := keeps_roceMsg (keeps_rocePsn h3)
                  have h5 : Keeps z s5 := keeps_updRoce h4
                  exact KeepsSome.some (keeps_roceAtomicAck h5)

theorem keeps_roceRequest {qpn : Nat} {q : Qp} {b : RocePkt} {x : RecvReads} (h : Keeps z s) :
    KeepsSome z (roceRequest qpn q b x s) := by
  unfold roceRequest
  extract_lets _ _ _ _
  split
  · split
    · exact KeepsSome.some h
    · exact KeepsSome.some (keeps_sendAeth (keeps_updRoce h))
  · split
    · split
      · exact KeepsSome.some (keeps_sendAeth h)
      · split
        · exact keeps_roceRead h
        · split
          · split
            · exact KeepsSome.some (keeps_roceAtomicAck h)
            · exact KeepsSome.some h
          · exact KeepsSome.some h
    · split
      · exact KeepsSome.some (keeps_roceSend h)
      · exact KeepsSome.some (keeps_roceSend h)
      · exact KeepsSome.some (keeps_roceSend h)
      · exact KeepsSome.some (keeps_roceSend h)
      · exact KeepsSome.some (keeps_roceSend h)
      · exact KeepsSome.some (keeps_roceSend h)
      · exact keeps_roceWrite h
      · exact keeps_roceWrite h
      · exact keeps_roceWrite h
      · exact keeps_roceWrite h
      · exact keeps_roceWrite h
      · exact keeps_roceWrite h
      · split
        · exact KeepsSome.some (keeps_fatalNak h)
        · exact keeps_roceRead h
      · split
        · exact KeepsSome.some (keeps_fatalNak h)
        · exact keeps_roceAtomic h
      · split
        · exact KeepsSome.some (keeps_fatalNak h)
        · exact keeps_roceAtomic h
      · exact KeepsSome.some (keeps_fatalNak h)

theorem keeps_roceAcked {qpn upto : Nat} (h : Keeps z s) : Keeps z (roceAcked qpn upto s) := by
  unfold roceAcked
  refine Keeps.foldlPair h fun s1 _ h1 => ?_
  extract_lets s2
  have h2 : Keeps z s2 := h1
  split
  · refine Keeps.fst_mk ?_
    exact h2
  · split
    · refine Keeps.fst_mk ?_
      exact keeps_goBack h2
    · split
      · refine Keeps.fst_mk ?_
        exact keeps_roceDone h2
      · refine Keeps.fst_mk ?_
        exact keeps_updMsg h2

theorem keeps_roceNaked {qpn psn : Nat} (h : Keeps z s) : Keeps z (roceNaked qpn psn s) := by
  unfold roceNaked
  split
  · exact keeps_qpError (keeps_roceDone h)
  · exact h

theorem keeps_roceTakeAck {qpn : Nat} {q : Qp} {psn syn : Nat} (h : Keeps z s) :
    Keeps z (roceTakeAck qpn q psn syn s) := by
  unfold roceTakeAck
  refine Keeps.ite (keeps_roceAcked h) ?_
  extract_lets s1
  have h1 : Keeps z s1 := Keeps.ite (keeps_roceAcked h) h
  refine Keeps.ite ?_ ?_
  · split
    · exact keeps_nackRnr h1
    · exact h1
  · refine Keeps.ite ?_ (Keeps.ite (keeps_roceNaked h1) h1)
    split
    · exact keeps_goBack h1
    · exact h1

theorem keeps_roceReadResp {qpn psn : Nat} {b : RocePkt} (h : Keeps z s) : KeepsSome z (roceReadResp qpn psn b s) := by
  unfold roceReadResp
  extract_lets _ _
  split
  · exact KeepsSome.some h
  · extract_lets _ _ s1
    have h1 : Keeps z s1 := Keeps.ite h (keeps_roceAcked h)
    split
    · exact KeepsSome.some h
    · split
      · exact KeepsSome.some (keeps_goBack h)
      · split
        · exact KeepsSome.some h
        · split
          · exact KeepsSome.none
          · split
            · rename_i s2 _ e2
              have h2 := (keeps_respWrite h1).of_eq e2
              extract_lets s3
              have h3 : Keeps z s3 := keeps_updMsg h2
              exact KeepsSome.some (Keeps.ite (keeps_roceDone h3) h3)

theorem keeps_roceAtomicResp {qpn psn : Nat} {b : RocePkt} (h : Keeps z s) :
    KeepsSome z (roceAtomicResp qpn psn b s) := by
  unfold roceAtomicResp
  split
  · exact KeepsSome.some h
  · split
    · exact KeepsSome.some h
    · split
      · exact KeepsSome.none
      · extract_lets s1
        have h1 : Keeps z s1 := Keeps.ite h (keeps_roceAcked h)
        split
        · rename_i s2 _ e2
          have h2 := (keeps_respWrite h1).of_eq e2
          exact KeepsSome.some (keeps_roceDone h2)

theorem keeps_roceCnp {qpn : Nat} {q : Qp} {f : RxFrame} {u : UdpPkt} {b : RocePkt} (h : Keeps z s) :
    Keeps z (roceCnp qpn q f u b s) := by
  unfold roceCnp
  extract_lets s1 _ s2
  have h1 : Keeps z s1 := keeps_ethCount h
  have h2 : Keeps z s2 := h1.same
  refine Keeps.ite h1 ?_
  split
  · exact keeps_ethCount (keeps_ethOut h2)

theorem keeps_roceDatagram {qpn : Nat} {u : UdpPkt} {b : RocePkt} {x : RecvReads} (h : Keeps z s) :
    Keeps z (roceDatagram qpn u b x s) := by
  unfold roceDatagram
  extract_lets _ _
  split
  · exact keeps_deliver h

theorem keeps_rocePassed {p : Nat} {q : Qp} {f : RxFrame} {u : UdpPkt} {b : RocePkt} (h : Keeps z s) :
    Keeps z (rocePassed p q f u b s).1 := by
  unfold rocePassed
  extract_lets _
  split
  · rename_i s1 _ e1
    have h1 := (keeps_meterFrame (keeps_rxOk h)).of_eq e1
    split
    · refine Keeps.fst_mk ?_
      exact h1
    · split
      · refine Keeps.fst_mk ?_
        exact keeps_roceCnp h1
      · refine Keeps.fst_mk ?_
        exact h1

theorem keeps_roceReceive {p : Nat} {x : RecvReads} (h : Keeps z s) : Keeps z (roceReceive p x s) := by
  unfold roceReceive
  split
  · exact h
  · rename_i f u b t e
    have ht := keeps_roceHead h e
    refine Keeps.ite h (Keeps.ite (keeps_ethCount ht) ?_)
    split
    · exact h
    · split
      rename_i t1 ok e1
      have h1 := (keeps_rocePassed ht).of_eq e1
      refine Keeps.ite h1 (Keeps.ite (keeps_roceDatagram h1) ?_)
      extract_lets psn r
      have hr : KeepsSome z r := by
        unfold r
        split
        · exact KeepsSome.some (keeps_roceTakeAck h1)
        · split
          · exact keeps_roceAtomicResp h1
          · split
            · exact keeps_roceReadResp h1
            · exact keeps_roceRequest h1
      exact hr.getD h

theorem keeps_execRocePacketReceive {port : Nat} {x : RecvReads} (h : Keeps z s) :
    KeepsNext z (execRocePacketReceive port x s) := by
  unfold execRocePacketReceive
  exact KeepsNext.next (Keeps.whenOk h (fun _ h1 => keeps_roceReceive h1))

theorem keeps_cnpReceive {p : Nat} (h : Keeps z s) : Keeps z (cnpReceive p s) := by
  unfold cnpReceive
  split
  · exact h
  · rename_i f u b t e
    have ht := keeps_roceHead h e
    refine Keeps.ite h ?_
    split
    · exact keeps_ethCount ht
    · refine Keeps.ite (keeps_ethCount ht) ?_
      split
      rename_i t1 ok e1
      have h1 := (keeps_rocePassed ht).of_eq e1
      exact Keeps.ite (keeps_markCnp (keeps_ethCount h1)) h1

theorem keeps_execCnpReceive {port : Nat} (h : Keeps z s) : KeepsNext z (execCnpReceive port s) := by
  unfold execCnpReceive
  exact KeepsNext.next (Keeps.whenOk h (fun _ h1 => keeps_cnpReceive h1))

theorem keeps_takeEntry {ring : Nat} {g : Ring} {e : BitVec 512} {bad : Option Nat} (h : Keeps z s) :
    Keeps z (takeEntry ring g e bad s) := h.same

theorem keeps_entryEffects {ring : Nat} {e : BitVec 512} {head : Nat} (h : Keeps z s) :
    Keeps z (entryEffects ring e head s) := by
  unfold entryEffects
  extract_lets s1
  have h1 : Keeps z s1 := Keeps.ite (keeps_updHerd h) h
  split
  · exact h1
  · extract_lets _
    refine Keeps.ite h1 ?_
    split
    · exact keeps_finishOp h1
    · exact keeps_finishOp h1
    · exact h1

theorem keeps_entryAccept {ring : Nat} (h : Keeps z s) : Keeps z (entryAccept ring s) := by
  unfold entryAccept
  split
  · exact h
  · split
    · exact h
    · extract_lets _ _ _ _ s1
      have h1 : Keeps z s1 := keeps_takeEntry h
      refine Keeps.ite h ?_
      clear_value *
      split
      · exact keeps_haltFor h1
      · exact keeps_entryEffects h1

theorem keeps_execEntryAccept {ring : Nat} (h : Keeps z s) : KeepsNext z (execEntryAccept ring s) := by
  unfold execEntryAccept
  exact KeepsNext.next (Keeps.whenOk h (fun _ h1 => keeps_entryAccept h1))

end Sys2Proof.Machine
end

section
/-! PROOFS. What every command keeps: images, PCIe, reliability, resets and firmware, one lemma per operation. -/

set_option Elab.async false

namespace Sys2Proof.Machine

variable {z s : State}

theorem keeps_lzStatus {state : Nat} {e : LzErr} (h : Keeps z s) : Keeps z (lzStatus state e s) := h.same

theorem keeps_lzEnd {e : LzErr} (h : Keeps z s) : Keeps z (lzEnd e s) := by
  unfold lzEnd
  extract_lets _ s1 s2
  have h1 : Keeps z s1 := keeps_lzStatus h.same
  have h2 : Keeps z s2 := keeps_raise h1
  exact Keeps.ite h2 (keeps_raise h2)

theorem keeps_lzStart {kind requester : Nat} (h : Keeps z s) : Keeps z (lzStart kind requester s) := by
  unfold lzStart
  exact Keeps.ite h (Keeps.ite (keeps_putReg h) (Keeps.ite (keeps_lzEnd h) (keeps_lzStatus h.same)))

theorem keeps_execLzVerify {requester : Nat} (h : Keeps z s) : KeepsNext z (execLzVerify requester s) := by
  unfold execLzVerify
  exact KeepsNext.next (Keeps.whenOk h (fun _ h1 => keeps_lzStart h1))

theorem keeps_execLzPartial {requester : Nat} (h : Keeps z s) : KeepsNext z (execLzPartial requester s) := by
  unfold execLzPartial
  exact KeepsNext.next (Keeps.whenOk h (fun _ h1 => keeps_lzStart h1))

theorem keeps_execLzFull {requester : Nat} (h : Keeps z s) : KeepsNext z (execLzFull requester s) := by
  unfold execLzFull
  exact KeepsNext.next (Keeps.whenOk h (fun _ h1 => keeps_lzStart h1))

theorem keeps_wipeNewRegions {old next : Structure} (h : Keeps z s) : Keeps z (wipeNewRegions old next s) :=
  ⟨⟨fun hz => ⟨(h.memory hz).1, foldl_maintains memWf _ (fun _ _ hm => bytesWipe_memWf _ _ hm) _ _ (h.memory hz).2⟩,
    h.svn, h.retired, h.uds⟩, h.count⟩

theorem keeps_settleInsts (h : Keeps z s) : Keeps z (settleInsts s) := by
  unfold settleInsts
  extract_lets _
  refine Keeps.foldl h fun s2 _ h2 => ?_
  extract_lets _
  exact Keeps.ite (Keeps.ite (keeps_enterState (keeps_setInst h2)) h2) (Keeps.ite h2 (keeps_enterState (keeps_setInst h2)))

theorem keeps_openPorts (h : Keeps z s) : Keeps z (openPorts s) := by
  unfold openPorts
  exact Keeps.foldl h (fun _ _ h1 => keeps_openPort h1)

theorem keeps_loadTick {st : Structure} (h : Keeps z s) : Keeps z (loadTick st s) := h.same

theorem keeps_applyStructure {st : Structure} {loaded : Bool} (h : Keeps z s) :
    Keeps z (applyStructure st loaded s) := by
  unfold applyStructure
  extract_lets _ s1 _ s2
  have h1 : Keeps z s1 := h.same
  have h2 : Keeps z s2 := h1.same
  exact keeps_openPorts (keeps_settleInsts (keeps_loadTick h2))

theorem keeps_tickCommitted {act : BitVec 64} (h : Keeps z s) : Keeps z (tickCommitted act s) := by
  unfold tickCommitted
  extract_lets _ _ s1
  have h1 : Keeps z s1 := h.same
  exact Keeps.ite (keeps_enterAlign h1) h1

theorem keeps_tickResize {old : State} (hold : Keeps z old) (h : Keeps z s) : Keeps z (tickResize old s) := by
  unfold tickResize
  refine Keeps.ite h ?_
  extract_lets _ _
  exact keeps_beginTick h.same

theorem keeps_reloadTick {st : Structure} (h : Keeps z s) : Keeps z (reloadTick st s) := by
  unfold reloadTick
  extract_lets s1 s2 _ _
  have h1 : Keeps z s1 := keeps_putShadow (keeps_putShadow h)
  have h2 : Keeps z s2 := Keeps.ite (keeps_raise h1.same) h1
  exact Keeps.ite (keeps_tickCommitted (Keeps.foldl h2 (fun _ _ h3 => keeps_putReg h3))) h2.same

theorem keeps_closePorts {next : Structure} (h : Keeps z s) : Keeps z (closePorts next s) := by
  unfold closePorts
  refine Keeps.foldl h fun s2 _ h2 => ?_
  extract_lets _ _ _ _ s3 s4
  have h3 : Keeps z s3 := Keeps.ite (keeps_cvLost h2) h2
  have h4 : Keeps z s4 := Keeps.ite (keeps_modEth h3) h3
  exact Keeps.ite h4 (Keeps.ite (keeps_ethDown h4) (Keeps.ite (keeps_toDisabled h4) h4))

theorem keeps_reloadTree {old : Structure} (h : Keeps z s) : Keeps z (reloadTree old s) := by
  unfold reloadTree
  extract_lets _ _ _ s1
  have h1 : Keeps z s1 := keeps_startWipe h.same
  exact keeps_settleInsts (keeps_wipeNewRegions h1)

theorem keeps_partialApply (h : Keeps z s) : Keeps z (partialApply s) := by
  unfold partialApply
  split
  · exact h
  · refine Keeps.ite (keeps_lzStatus h) ?_
    split
    · exact keeps_lzEnd h
    · refine Keeps.ite (keeps_lzEnd (keeps_raise h)) ?_
      extract_lets s1 _ s2 _ s3 s4 s5
      have h1 : Keeps z s1 := h
      have h2 : Keeps z s2 := keeps_closePorts h
      have h3 : Keeps z s3 := h2.same
      have h4 : Keeps z s4 := Keeps.ite (keeps_reloadTree h3) h3
      have h5 : Keeps z s5 := Keeps.ite (keeps_reloadTick h4) h4
      exact keeps_lzEnd (keeps_openPorts (keeps_tickResize h1 h5))

theorem keeps_execPartialReloadApply (h : Keeps z s) : KeepsNext z (execPartialReloadApply s) := by
  unfold execPartialReloadApply
  exact KeepsNext.next (Keeps.whenOk h (fun _ h1 => keeps_partialApply h1))

theorem keeps_storeImage {image : List Byte} (h : Keeps z s) : Keeps z (storeImage image s) := h.same

theorem keeps_workFailed {w : Waiter} (h : Keeps z s) : Keeps z (workFailed w s) := by
  unfold workFailed
  split
  · exact keeps_rxStatus h
  · extract_lets s1 _ s2 _ _ _ s3
    have h1 : Keeps z s1 := keeps_updRun h
    have h2 : Keeps z s2 := h1.same
    have h3 : Keeps z s3 := h2.same
    exact keeps_updChain h3

theorem keeps_workFlushed {p : Nat} {w : Waiter} (h : Keeps z s) : Keeps z (workFlushed p w s) := by
  unfold workFlushed
  split
  · exact keeps_rxFinish (keeps_updRec h)
  · extract_lets s1
    have h1 : Keeps z s1 := keeps_updChain h
    split
    · exact Keeps.ite (keeps_removeRun h1) h1
    · exact h1

theorem keeps_releaseFlushed {p : Nat} {ws : List Waiter} (h : Keeps z s) : Keeps z (releaseFlushed p ws s) := by
  unfold releaseFlushed
  extract_lets _ s1
  have h1 : Keeps z s1 := keeps_updAcc h
  exact keeps_sweepUses (Keeps.foldl h1 (fun _ _ h2 => keeps_workFlushed h2))

theorem keeps_flushReturn {p : Nat} {ok : Bool} (h : Keeps z s) : Keeps z (flushReturn p ok s) := by
  unfold flushReturn
  split
  · exact h
  · extract_lets s1 s2
    have h1 : Keeps z s1 := keeps_updAcc h
    have h2 : Keeps z s2 := Keeps.ite h1 (keeps_raise (Keeps.foldl h1 (fun _ _ h3 => keeps_workFailed h3)))
    exact keeps_tryFlush (keeps_releaseFlushed h2)

theorem keeps_execPcieFlushComplete {port : Nat} {ok : Bool} (h : Keeps z s) :
    KeepsNext z (execPcieFlushComplete port ok s) := by
  unfold execPcieFlushComplete
  exact KeepsNext.next (Keeps.whenOk h (fun _ h1 => keeps_flushReturn h1))

theorem keeps_failFlushes {p : Nat} (h : Keeps z s) : Keeps z (failFlushes p s) := by
  unfold failFlushes
  extract_lets _ _ s1 s2
  have h1 : Keeps z s1 := keeps_updAcc h
  have h2 : Keeps z s2 := Keeps.ite h1 (keeps_raise (Keeps.foldl h1 (fun _ _ h3 => keeps_workFailed h3)))
  exact keeps_releaseFlushed h2

theorem keeps_gotData {owner addr : Nat} {bs : List Byte} {failed : Bool} (h : Keeps z s) :
    Keeps z (gotData owner addr bs failed s) := by
  unfold gotData
  exact keeps_progressRun h.same

theorem keeps_readFailed {what : PcieRead} (h : Keeps z s) : Keeps z (readFailed what s) := by
  unfold readFailed
  split
  · exact keeps_gotData h
  · exact keeps_haltFor h
  · exact h

theorem keeps_execPcieReadCompletion {what : PcieRead} {outcome : Nat} {bytes : List Byte} (h : Keeps z s) :
    KeepsNext z (execPcieReadCompletion what outcome bytes s) := by
  unfold execPcieReadCompletion
  refine KeepsNext.next ?_
  refine Keeps.whenOk h fun s3 h3 => ?_
  extract_lets s4
  have h4 : Keeps z s4 := Keeps.ite (keeps_raise (keeps_bump h3)) h3
  split
  · exact keeps_gotData h4
  · exact keeps_gotData h4
  · exact h4
  · exact keeps_readFailed h4

theorem keeps_execPcieCompletionTimeout {what : PcieRead} (h : Keeps z s) :
    KeepsNext z (execPcieCompletionTimeout what s) := by
  unfold execPcieCompletionTimeout
  exact KeepsNext.next (Keeps.whenOk h (fun _ h1 => keeps_readFailed (keeps_raise (keeps_bump h1))))

theorem keeps_accState {p : Nat} {st : AccState} (h : Keeps z s) : Keeps z (accState p st s) := h.same

theorem keeps_accContain {p : Nat} (h : Keeps z s) : Keeps z (accContain p s) := by
  unfold accContain
  exact keeps_raise (keeps_failFlushes (keeps_accState h))

theorem keeps_execAccReceiverDetect {port : Nat} (h : Keeps z s) : KeepsNext z (execAccReceiverDetect port s) := by
  unfold execAccReceiverDetect
  exact KeepsNext.next (Keeps.whenOk h (fun _ h1 => keeps_accState h1))

theorem keeps_execAccLinkUp {port rate width : Nat} (h : Keeps z s) : KeepsNext z (execAccLinkUp port rate width s) := by
  unfold execAccLinkUp
  exact KeepsNext.next (Keeps.whenOk h (fun _ h1 => keeps_updAcc h1))

theorem keeps_execAccEnumerate {port vendor device : Nat} {bars : List BarFound} (h : Keeps z s) :
    KeepsNext z (execAccEnumerate port vendor device bars s) := by
  unfold execAccEnumerate
  refine KeepsNext.next ?_
  refine Keeps.whenOk h fun s3 h3 => ?_
  extract_lets _ _ _ _
  exact keeps_raise (keeps_updAcc h3)

theorem keeps_execAccLinkDown {port : Nat} (h : Keeps z s) : KeepsNext z (execAccLinkDown port s) := by
  unfold execAccLinkDown
  exact KeepsNext.next (Keeps.whenOk h (fun _ h1 => keeps_accContain (keeps_raise h1)))

theorem keeps_accErrMsg (h : Keeps z s) : Keeps z (accErrMsg s) := by
  unfold accErrMsg
  exact keeps_raise (keeps_bump h)

theorem keeps_execAccErrFatal {port : Nat} (h : Keeps z s) : KeepsNext z (execAccErrFatal port s) := by
  unfold execAccErrFatal
  exact KeepsNext.next (Keeps.whenOk h (fun _ h1 => keeps_accContain (keeps_accErrMsg h1)))

theorem keeps_execAccErrorMessage {port : Nat} (h : Keeps z s) : KeepsNext z (execAccErrorMessage port s) := by
  unfold execAccErrorMessage
  exact KeepsNext.next (Keeps.whenOk h (fun _ h1 => keeps_accErrMsg h1))

theorem keeps_execAccRequestReceive {port : Nat} (h : Keeps z s) : KeepsNext z (execAccRequestReceive port s) := by
  unfold execAccRequestReceive
  exact KeepsNext.next (Keeps.whenOk h (fun _ h1 => keeps_raise (keeps_bump h1)))

theorem keeps_accCtrlWrite {value : Word} (h : Keeps z s) : Keeps z (accCtrlWrite value s) := by
  unfold accCtrlWrite
  exact keeps_putReg h

theorem keeps_execAccAdminDown {value : Word} (h : Keeps z s) : KeepsNext z (execAccAdminDown value s) := by
  unfold execAccAdminDown
  refine KeepsNext.next ?_
  refine Keeps.whenOk h fun s3 h3 => ?_
  split
  · exact h3
  · exact keeps_failFlushes (keeps_accState (keeps_accCtrlWrite h3))

theorem keeps_execAccRestart {value : Word} (h : Keeps z s) : KeepsNext z (execAccRestart value s) := by
  unfold execAccRestart
  refine KeepsNext.next ?_
  refine Keeps.whenOk h fun s3 h3 => ?_
  split
  · exact h3
  · extract_lets s4
    have h4 : Keeps z s4 := keeps_accCtrlWrite h3
    split
    · exact keeps_accState h4
    · exact keeps_accState (keeps_emit (keeps_emit h4))
    · exact Keeps.ite (keeps_failFlushes (keeps_accState h4)) h4

theorem keeps_execHstLinkUp {rate width : Nat} (h : Keeps z s) : KeepsNext z (execHstLinkUp rate width s) := by
  unfold execHstLinkUp
  exact KeepsNext.next (Keeps.whenOk h (fun _ h1 => keeps_raise h1.same))

theorem keeps_coldBegin (h : Keeps z s) : Keeps z (coldBegin s) := h.same

theorem keeps_warmBegin {cause : Nat} (h : Keeps z s) : Keeps z (warmBegin cause s) := by
  unfold warmBegin
  exact Keeps.ite h (Keeps.ite (keeps_coldBegin h) h.same)

theorem keeps_dumpEnd (h : Keeps z s) : Keeps z (dumpEnd s) := by
  unfold dumpEnd
  extract_lets _ s1
  have h1 : Keeps z s1 := h.same
  exact Keeps.ite h1 (keeps_warmBegin h1)

theorem keeps_dumpLost (h : Keeps z s) : Keeps z (dumpLost s) := by
  unfold dumpLost
  exact keeps_dumpEnd (keeps_raise h.same)

theorem keeps_fatal {e : LogEntry} {ms : Nat} (h : Keeps z s) : Keeps z (fatal e ms s) := by
  unfold fatal
  refine Keeps.ite h ?_
  extract_lets _ _ _ s1 s2 _ _ s3 _ s4
  have h1 : Keeps z s1 := keeps_logWrite h
  have h2 : Keeps z s2 := keeps_raise (keeps_bump h1)
  have h3 : Keeps z s3 := h2.same
  have h4 : Keeps z s4 := Keeps.ite (Keeps.foldl h3.same (fun _ _ h5 => keeps_enterHalted h5)) h3
  exact Keeps.ite h2 (Keeps.ite (keeps_dumpLost h4) h4)

theorem keeps_dumpComplete {x : DumpIn} (h : Keeps z s) : Keeps z (dumpComplete x s) := by
  unfold dumpComplete
  extract_lets _ _ s1 _
  have h1 : Keeps z s1 := keeps_emit (keeps_emit h)
  refine Keeps.ite (keeps_dumpEnd (keeps_raise h1.same)) ?_
  refine Keeps.ite ?_ (keeps_dumpLost h)
  split
  · rename_i s2 _ e2
    have h2 := (keeps_tierPut h).of_eq e2
    exact Keeps.ite (keeps_dumpLost h2) (keeps_dumpEnd (keeps_raise h2.same))

theorem keeps_execDumpComplete {x : DumpIn} (h : Keeps z s) : KeepsNext z (execDumpComplete x s) := by
  unfold execDumpComplete
  exact KeepsNext.next (Keeps.whenOk h (fun _ h1 => keeps_dumpComplete h1))

theorem keeps_execDumpTimeout (h : Keeps z s) : KeepsNext z (execDumpTimeout s) := by
  unfold execDumpTimeout
  exact KeepsNext.next (Keeps.whenOk h (fun _ h1 => keeps_dumpLost h1))

theorem keeps_dumpRegion {slot : Nat} (h : Keeps z s) : Keeps z (dumpRegion slot s) := by
  unfold dumpRegion
  split
  · exact h
  · extract_lets _ _ _ _ _ s1 _ s2 _
    have h1 : Keeps z s1 := keeps_emit h
    have h2 : Keeps z s2 := Keeps.ite h1.same h
    exact Keeps.ite (keeps_mgmtDone h) (keeps_mgmtDone h2.same)

theorem keeps_execDumpRegion {slot : Nat} (h : Keeps z s) : KeepsNext z (execDumpRegion slot s) := by
  unfold execDumpRegion
  exact KeepsNext.next (Keeps.whenOk h (fun _ h1 => keeps_dumpRegion h1))

theorem keeps_withdraw {gs : List (Nat × Nat)} (h : Keeps z s) : Keeps z (withdraw gs s) := by
  unfold withdraw
  extract_lets s1
  have h1 : Keeps z s1 := keeps_repair h
  exact keeps_degraded (keeps_raise h1)

theorem keeps_withdrawCore {px : Nat} (h : Keeps z s) : Keeps z (withdrawCore px s) := by
  unfold withdrawCore
  split
  · exact h
  · extract_lets _
    exact keeps_withdraw (keeps_bumpEpoch (keeps_repair h))

theorem keeps_coreLasting {px : Nat} (h : Keeps z s) : Keeps z (coreLasting px s).1 := by
  unfold coreLasting
  extract_lets f1 _
  have h1 : ∀ a0 a1, Keeps z a1 → Keeps z (f1 a0 a1) := by
    intro _ s1' h1'
    unfold f1
    exact h1'.same
  split
  · refine Keeps.fst_mk ?_
    exact h
  · split
    · split
      · refine Keeps.fst_mk ?_
        exact h1 _ _ (keeps_repair h.same)
      · split
        · refine Keeps.fst_mk ?_
          exact h
        · refine Keeps.fst_mk ?_
          exact h1 _ _ h
    · refine Keeps.fst_mk ?_
      exact keeps_repair h
    · split
      · refine Keeps.fst_mk ?_
        exact h.same
      · refine Keeps.fst_mk ?_
        exact h1 _ _ h

theorem keeps_coreSwapBegin (h : Keeps z s) : Keeps z (coreSwapBegin s) := by
  unfold coreSwapBegin
  split
  · exact Keeps.ite h (keeps_bumpEpoch h.same)
  · exact h

theorem keeps_coreLosses (h : Keeps z s) : Keeps z (coreLosses s) := by
  unfold coreLosses
  exact Keeps.ite h (Keeps.foldl h.same (fun _ _ h1 => keeps_withdrawCore h1))

theorem keeps_execCoreSwapBegin (h : Keeps z s) : KeepsNext z (execCoreSwapBegin s) := by
  unfold execCoreSwapBegin
  exact KeepsNext.next (Keeps.whenOk h (fun _ h1 => keeps_coreSwapBegin h1))

theorem keeps_coreSwapComplete (h : Keeps z s) : Keeps z (coreSwapComplete s) := by
  unfold coreSwapComplete
  split
  · refine Keeps.ite h ?_
    extract_lets _ _ s1
    have h1 : Keeps z s1 := keeps_repair h.same
    exact keeps_coreLosses (keeps_raise h1)
  · exact h

theorem keeps_execCoreSwapComplete (h : Keeps z s) : KeepsNext z (execCoreSwapComplete s) := by
  unfold execCoreSwapComplete
  exact KeepsNext.next (Keeps.whenOk h (fun _ h1 => keeps_coreSwapComplete h1))

theorem keeps_pcLasting {stack pc : Nat} (h : Keeps z s) : Keeps z (pcLasting stack pc s).1 := by
  unfold pcLasting
  split
  · refine Keeps.fst_mk ?_
    exact h
  · split
    · refine Keeps.fst_mk ?_
      exact keeps_withdraw h
    · refine Keeps.fst_mk ?_
      exact h.same

theorem keeps_tier1Lasting {stack bank pc : Nat} (h : Keeps z s) : Keeps z (tier1Lasting stack bank pc s).1 := by
  unfold tier1Lasting
  split
  · refine Keeps.fst_mk ?_
    exact keeps_repair h.same
  · exact keeps_pcLasting h

theorem keeps_tier2Lasting {off : Nat} (h : Keeps z s) : Keeps z (tier2Lasting off s).1 := by
  unfold tier2Lasting
  extract_lets _ _ _ _ _ _
  split
  · refine Keeps.fst_mk ?_
    exact h
  · split
    · refine Keeps.fst_mk ?_
      exact h.same
    · refine Keeps.fst_mk ?_
      exact keeps_degraded (keeps_raise (keeps_repair h))

theorem keeps_memoryError {x : ErrorIn} (h : Keeps z s) : Keeps z (memoryError x s) := by
  unfold memoryError
  refine Keeps.ite h ?_
  refine Keeps.ite (keeps_raise (keeps_bump h)) ?_
  refine Keeps.ite ?_ h
  extract_lets s1 _ _
  have h1 : Keeps z s1 := keeps_raise (keeps_bump h)
  exact Keeps.ite h1.same h1.same

theorem keeps_fencePart {cls index : Nat} (h : Keeps z s) : Keeps z (fencePart cls index s).1 := by
  unfold fencePart
  extract_lets _ s1
  have h1 : Keeps z s1 := Keeps.ite (keeps_raise h) h
  refine Keeps.fst_mk ?_
  exact keeps_degraded (Keeps.elim (keeps_repair h1) (fun _ => keeps_bumpEpoch (keeps_repair h1)))

theorem keeps_lastingAction {x : ErrorIn} (h : Keeps z s) : KeepsSomeFst z (lastingAction x s) := by
  unfold lastingAction
  split
  · exact KeepsSomeFst.some (keeps_tier1Lasting h)
  · exact KeepsSomeFst.some (keeps_tier2Lasting h)
  · exact KeepsSomeFst.some (keeps_pcLasting h)
  · exact KeepsSomeFst.some (keeps_coreLasting h)
  · split
    · refine KeepsSomeFst.some (Keeps.fst_mk ?_)
      exact keeps_repair h
    · exact KeepsSomeFst.some (keeps_coreLasting h)
  · split
    · refine KeepsSomeFst.some (Keeps.fst_mk ?_)
      exact keeps_repair h
    · exact KeepsSomeFst.none
  · exact KeepsSomeFst.some (keeps_fencePart h)
  · exact KeepsSomeFst.some (keeps_fencePart h)
  · exact KeepsSomeFst.some (keeps_fencePart h)
  · refine KeepsSomeFst.some (Keeps.fst_mk ?_)
    exact keeps_degraded h.same
  · exact KeepsSomeFst.none

theorem keeps_classifyError {x : ErrorIn} (h : Keeps z s) : Keeps z (classifyError x s) := by
  unfold classifyError
  extract_lets _
  refine Keeps.ite (keeps_logClassified h) ?_
  split
  · rename_i s1 _ e1
    have h1 := (keeps_lastingAction h).of_eq e1
    exact keeps_logClassified h1
  · exact keeps_fatal h

theorem keeps_portError {x : ErrorIn} (h : Keeps z s) : Keeps z (portError x s) := by
  unfold portError
  extract_lets _ _ _ s1 s2 _ s3
  have h1 : Keeps z s1 := Keeps.ite (keeps_modEth (keeps_repair h)) h
  have h2 : Keeps z s2 := keeps_ethDown h1
  have h3 : Keeps z s3 := keeps_degraded h2.same
  exact Keeps.ite (keeps_classify h) (Keeps.ite (keeps_lastingFault h) (Keeps.ite (keeps_classify h3) h))

theorem keeps_errorDetected {x : ErrorIn} (h : Keeps z s) : Keeps z (errorDetected x s) := by
  unfold errorDetected
  refine Keeps.ite (keeps_portError h) ?_
  refine Keeps.ite (Keeps.ite h (keeps_setCv (keeps_cvStopped h))) ?_
  refine Keeps.ite h ?_
  extract_lets s1 _ s2 _
  have h1 : Keeps z s1 := keeps_memoryError h
  have h2 : Keeps z s2 := Keeps.ite (keeps_raise h1.same) h1
  exact Keeps.ite (Keeps.ite h2 h2.same) (keeps_classifyError h2)

theorem keeps_execErrorDetected {x : ErrorIn} (h : Keeps z s) : KeepsNext z (execErrorDetected x s) := by
  unfold execErrorDetected
  exact KeepsNext.next (Keeps.whenOk h (fun _ h1 => keeps_errorDetected h1))

theorem keeps_classifyCaptured (h : Keeps z s) : Keeps z (classifyCaptured s) := by
  unfold classifyCaptured
  refine Keeps.foldl h.same fun s2 _ h2 => ?_
  split
  · exact keeps_logClassified h2
  · exact keeps_classifyError h2

theorem keeps_cvTestDone {unit : Nat} {pass : Bool} (h : Keeps z s) : Keeps z (cvTestDone unit pass s) := by
  unfold cvTestDone
  extract_lets _ s1 _ _
  have h1 : Keeps z s1 := keeps_setCv h
  exact Keeps.ite h1.same (keeps_classifyError h1)

theorem keeps_execCvSelfTestDone {unit : Nat} {pass : Bool} (h : Keeps z s) :
    KeepsNext z (execCvSelfTestDone unit pass s) := by
  unfold execCvSelfTestDone
  exact KeepsNext.next (Keeps.whenOk h (fun _ h1 => keeps_cvTestDone h1))

theorem keeps_execStaleRequestDiscard {part epoch : Nat} (h : Keeps z s) :
    KeepsNext z (execStaleRequestDiscard part epoch s) := by
  unfold execStaleRequestDiscard
  exact KeepsNext.next (Keeps.whenOk h (fun _ h1 => keeps_raise (keeps_bump h1)))

theorem keeps_applyLanes (h : Keeps z s) : Keeps z (applyLanes s) := by
  unfold applyLanes
  refine Keeps.foldl h fun s2 _ h2 => ?_
  refine Keeps.ite h2.same ?_
  extract_lets _ _
  exact Keeps.ite (keeps_updCport h2) (Keeps.ite (keeps_modEth h2) h2)

theorem keeps_bootImage {x : BootIn} (h : Keeps z s) : Keeps z (bootImage x s) := by
  unfold bootImage
  extract_lets _ f1
  have h1 : ∀ a0 a1, Keeps z a1 → Keeps z (f1 a0 a1) := by
    intro _ s1' h1'
    unfold f1
    exact keeps_applyLanes (keeps_applyStructure h1')
  split
  · exact h1 _ _ h
  · exact h1 _ _ h
  · exact keeps_lzStatus (keeps_applyStructure h)

theorem keeps_enterRecovery (h : Keeps z s) : Keeps z (enterRecovery s) := h.same

theorem keeps_bootFirmware {b : Bool} (h : Keeps z s) : Keeps z (bootFirmware b s) := by
  unfold bootFirmware
  extract_lets _ _ _ s1
  have h1 : Keeps z s1 := h.same
  split
  · rename_i s2 e2
    have h2 := (keeps_drawDrbg h1).of_eq_snd e2
    extract_lets _ s3
    have h3 : Keeps z s3 := h2.same
    exact Keeps.ite (keeps_raise h3) h3

theorem keeps_bootSteps {x : BootIn} (h : Keeps z s) : Keeps z (bootSteps x s) := by
  unfold bootSteps
  split
  · exact keeps_enterRecovery h
  · exact keeps_classifyCaptured (keeps_bootImage (keeps_bootFirmware h))

theorem keeps_releasePerst (h : Keeps z s) : Keeps z (releasePerst s) := by
  unfold releasePerst
  exact Keeps.foldl h (fun _ _ h1 => Keeps.ite h1 (keeps_emit h1.same))

theorem keeps_tier1Clean (h : Keeps z s) : Keeps z (tier1Clean s) := h.same

theorem keeps_firmwareBoot {x : BootIn} (h : Keeps z s) : Keeps z (firmwareBoot x s) := by
  unfold firmwareBoot
  extract_lets s1
  have h1 : Keeps z s1 := keeps_bootSteps (keeps_tier1Clean h)
  exact Keeps.ite (keeps_releasePerst h1) h1

theorem keeps_execFirmwareBoot {x : BootIn} (h : Keeps z s) : KeepsNext z (execFirmwareBoot x s) := by
  unfold execFirmwareBoot
  exact KeepsNext.next (Keeps.whenOk h (fun _ h1 => keeps_firmwareBoot h1))

theorem keeps_repairLoad {a b : Bool} {record : RepairRecord} (h : Keeps z s) : Keeps z (repairLoad a b record s) := by
  unfold repairLoad
  extract_lets _ s1
  have h1 : Keeps z s1 := h.same
  exact Keeps.ite h1 (keeps_raise h1)

theorem keeps_reportTrip (h : Keeps z s) : Keeps z (reportTrip s) := by
  unfold reportTrip
  refine Keeps.ite ?_ h
  extract_lets s1
  have h1 : Keeps z s1 := keeps_repair h
  exact keeps_raise (keeps_logWrite h1)

theorem lasts_coldState (h : Lasts z s) : Lasts z (coldState s) :=
  ⟨fun _ => ⟨memWf_nil, memWf_nil⟩, h.svn, h.retired, h.uds⟩

theorem lasts_coldReset {selfTestOk copyAOk copyBOk : Bool} {straps : Nat} (h : Lasts z s) :
    Lasts z (coldReset selfTestOk copyAOk copyBOk straps s) := by
  unfold coldReset
  refine Lasts.ite h.same ?_
  extract_lets _ s1 _ s2 s3 s4
  have h2 : Lasts z s2 := (lasts_coldState h).same
  have h3 : Keeps s2 s3 := Keeps.foldl (Keeps.refl s2) (fun _ _ h5 => keeps_emit h5)
  have h4 : Keeps s2 s4 := keeps_reportTrip (keeps_repairLoad h3)
  exact h2.trans (Keeps.ite h4 (keeps_repair h4)).toLasts

theorem keeps_execColdReset {selfTestOk copyAOk copyBOk : Bool} {straps : Nat} (h : Keeps z s) :
    KeepsNext z (execColdReset selfTestOk copyAOk copyBOk straps s) := by
  unfold execColdReset
  exact KeepsNext.lasts (Lasts.whenOk h.toLasts (lasts_coldReset h.toLasts))

theorem lasts_warmState {cause : Nat} (h : Lasts z s) : Lasts z (warmState cause s) := by
  refine ⟨fun hz => ?_, h.svn, h.retired, h.uds⟩
  obtain ⟨hb, hs⟩ := h.memory hz
  unfold warmState
  by_cases ha : asleep s = true <;> by_cases hp : s.pw.ps = .ps4
  · simp only [ha, hp, if_true]
    exact ⟨memWf_nil, memWf_nil⟩
  · simp only [ha, hp, if_true, if_false]
    exact ⟨hb, memWf_nil⟩
  · simp only [ha, hp, if_true, Bool.false_eq_true, if_false]
    exact ⟨memWf_nil, hs⟩
  · simp only [ha, hp, Bool.false_eq_true, if_false]
    exact ⟨hb, hs⟩

theorem keeps_reissue {r : Nat} (h : Keeps z s) : Keeps z (reissue r s) := by
  unfold reissue
  split
  · exact h
  · split
    · extract_lets _
      split
      · rename_i s1 _ e1
        have h1 := (keeps_placeWrite h).of_eq e1
        split
        · rename_i s2 _ e2
          have h2 := (keeps_placeWrite h1).of_eq e2
          exact keeps_placeWrite h2
    · exact h

theorem keeps_warmScan {x : RingScan} (h : Keeps z s) : Keeps z (warmScan x s).1 := by
  unfold warmScan
  split
  · refine Keeps.fst_mk ?_
    exact h
  · split
    · refine Keeps.fst_mk ?_
      exact h
    · extract_lets _
      split
      · rename_i s1 _ e1
        have h1 := (keeps_scanRing h).of_eq e1
        refine Keeps.fst_mk ?_
        exact Keeps.ite (keeps_haltFor h1) h1

theorem keeps_warmScans {scans : List RingScan} (h : Keeps z s) : Keeps z (warmScans scans s) := by
  refine Keeps.foldlPair h fun p r hp => ?_
  obtain ⟨s1, stuck⟩ := p
  have h1 : Keeps z s1 := hp
  dsimp only
  split
  · exact h1.same
  · have h2 : ∀ x, Keeps z (warmScan x s1).1 := fun _ => keeps_warmScan h1
    split
    · exact h1
    · split
      · exact (h2 _).same
      · exact h2 _

theorem lasts_warmReset {x : BootIn} {scans : List RingScan} (h : Lasts z s) : Lasts z (warmReset x scans s) := by
  unfold warmReset
  split
  · extract_lets s1 _ s2 _
    have h1 : Lasts z s1 := (lasts_warmState h).trans (keeps_bootSteps (Keeps.refl _)).toLasts
    have h2 : Keeps s1 s2 := Keeps.foldl (Keeps.refl s1) (fun _ _ h3 => keeps_reissue h3)
    exact Lasts.ite h1 (h1.trans (keeps_warmScans h2.same).toLasts)
  · exact Lasts.ite (h.trans (keeps_warmScans (Keeps.refl s)).toLasts) h

theorem keeps_execWarmReset {x : BootIn} {scans : List RingScan} (h : Keeps z s) :
    KeepsNext z (execWarmReset x scans s) := by
  unfold execWarmReset
  exact KeepsNext.lasts (Lasts.whenOk h.toLasts (lasts_warmReset h.toLasts))

theorem keeps_execGxCtrlWarmReset {value : Word} (h : Keeps z s) : KeepsNext z (execGxCtrlWarmReset value s) := by
  unfold execGxCtrlWarmReset
  exact KeepsNext.next (Keeps.whenOk h (fun _ h1 => keeps_warmBegin h1))

theorem keeps_execFlrPf (h : Keeps z s) : KeepsNext z (execFlrPf s) := by
  unfold execFlrPf
  exact KeepsNext.next (Keeps.whenOk h (fun _ h1 => keeps_warmBegin h1))

theorem keeps_hostLinkLoss (h : Keeps z s) : Keeps z (hostLinkLoss s) := by
  unfold hostLinkLoss
  extract_lets _ s1 _ s2 _ s3 s4
  have h1 : Keeps z s1 := h.same
  have h2 : Keeps z s2 := Keeps.foldl h1 (fun _ _ h5 => keeps_removeRing h5)
  have h3 : Keeps z s3 := h2.same
  have h4 : Keeps z s4 := keeps_putReg h3
  exact Keeps.ite h1 (keeps_warmBegin (keeps_raise h4))

theorem keeps_execHostLinkLoss (h : Keeps z s) : KeepsNext z (execHostLinkLoss s) := by
  unfold execHostLinkLoss
  exact KeepsNext.next (Keeps.whenOk h (fun _ h1 => keeps_hostLinkLoss h1))

theorem keeps_fwEvent {bit : Nat} (h : Keeps z s) : Keeps z (fwEvent bit s) := by
  unfold fwEvent
  exact keeps_raise h

theorem keeps_fwEnd {result detail : Nat} (h : Keeps z s) : Keeps z (fwEnd result detail s) := by
  unfold fwEnd
  extract_lets _ s1
  have h1 : Keeps z s1 := keeps_fwEvent h.same
  exact Keeps.ite h1 (keeps_fwEvent h1)

theorem keeps_fwRun {a : FwAction} (h : Keeps z s) : Keeps z (fwRun a s) := h.same

theorem keeps_fwBusy (h : Keeps z s) : Keeps z (fwBusy s) := by
  unfold fwBusy
  exact keeps_fwEvent (keeps_fwEvent h.same)

theorem keeps_fwStart {a : FwAction} {f : State → State} (hf : ∀ a0, Keeps z a0 → Keeps z (f a0)) (h : Keeps z s) :
    Keeps z (fwStart a f s) := by
  unfold fwStart
  exact Keeps.ite (keeps_fwBusy h) (Keeps.ite (keeps_fwEnd h) (hf _ h))

theorem keeps_fwMail (h : Keeps z s) : Keeps z (fwMail s) := by
  unfold fwMail
  split
  · refine Keeps.ite h ?_
    extract_lets _ _ _ s1 _
    have h1 : Keeps z s1 := h.same
    exact keeps_raisePage (keeps_setInst h1)
  · exact h

theorem keeps_fwSend {m : List Byte} (h : Keeps z s) : Keeps z (fwSend m s) := by
  unfold fwSend
  exact keeps_fwMail h.same

theorem keeps_fwNotice {event : Nat} {extra : List Byte} (h : Keeps z s) : Keeps z (fwNotice event extra s) := by
  unfold fwNotice
  extract_lets _ _
  exact keeps_fwSend h.same

theorem keeps_restartBegin {b : Nat} {roll : Bool} (h : Keeps z s) : Keeps z (restartBegin b roll s) := by
  unfold restartBegin
  extract_lets _ s1 s2
  have h1 : Keeps z s1 := keeps_bump h.same
  have h2 : Keeps z s2 := Keeps.ite h1.same h1
  exact Keeps.ite (keeps_ptpLoseLock h2) h2

theorem keeps_restartNext (h : Keeps z s) : Keeps z (restartNext s) := by
  unfold restartNext
  refine Keeps.ite h ?_
  split
  · exact keeps_restartBegin h.same
  · split
    · split
      · exact keeps_restartBegin h
      · exact h
    · exact h

theorem keeps_restartRequest {b : Nat} (h : Keeps z s) : Keeps z (restartRequest b s) := by
  unfold restartRequest
  exact Keeps.ite h (keeps_restartNext h.same)

theorem keeps_rollBack {b : Nat} (h : Keeps z s) : Keeps z (rollBack b s) := by
  unfold rollBack
  split
  · extract_lets _ _
    exact keeps_restartNext h.same
  · exact h

theorem keeps_reAgree (h : Keeps z s) : Keeps z (reAgree s) := by
  unfold reAgree
  split
  · exact Keeps.ite h h.same
  · exact h

theorem keeps_rollStep {b : Nat} (h : Keeps z s) : Keeps z (rollStep b s) := by
  unfold rollStep
  split
  · exact h
  · extract_lets _ _ s1
    have h1 : Keeps z s1 := h.same
    exact Keeps.ite h.same (Keeps.ite (keeps_fwEnd h.same) (keeps_fwNotice (keeps_fwEvent (keeps_fwEnd (keeps_reAgree h1)))))

theorem keeps_bantamUp {b : Nat} (h : Keeps z s) : Keeps z (bantamUp b s) := by
  unfold bantamUp
  exact Keeps.ite h.same (Keeps.ite (keeps_classifyCaptured h) (Keeps.ite (keeps_fwMail h) h))

theorem keeps_restartComplete {digestOk : Bool} {ms : Nat} (h : Keeps z s) :
    Keeps z (restartComplete digestOk ms s) := by
  unfold restartComplete
  split
  · exact h
  · extract_lets _ _ _ s1 _ _ s2 s3 s4 s5
    have h1 : Keeps z s1 := h.same
    have h2 : Keeps z s2 := h1.same
    have h3 : Keeps z s3 := keeps_bantamUp h2
    have h4 : Keeps z s4 := Keeps.ite (keeps_classify h3) h3
    have h5 : Keeps z s5 := Keeps.ite (keeps_fwEnd h4) h4
    exact Keeps.ite (Keeps.ite (keeps_rollBack h1) (keeps_fatal h1)) (keeps_restartNext (Keeps.ite (keeps_rollStep h5) h5))

theorem keeps_execBantamRestartComplete {digestOk : Bool} {ms : Nat} (h : Keeps z s) :
    KeepsNext z (execBantamRestartComplete digestOk ms s) := by
  unfold execBantamRestartComplete
  exact KeepsNext.next (Keeps.whenOk h (fun _ h1 => keeps_restartComplete h1))

theorem keeps_watchdog {b ms : Nat} (h : Keeps z s) : Keeps z (watchdog b ms s) := by
  unfold watchdog
  refine Keeps.ite h ?_
  extract_lets _ _ s1
  have h1 : Keeps z s1 := keeps_fwNotice (keeps_fwEvent h.same)
  exact Keeps.ite (Keeps.ite (keeps_rollBack h) (keeps_fatal h)) (keeps_restartRequest h1)

theorem keeps_execWatchdogExpiry {bantam ms : Nat} (h : Keeps z s) : KeepsNext z (execWatchdogExpiry bantam ms s) := by
  unfold execWatchdogExpiry
  exact KeepsNext.next (Keeps.whenOk h (fun _ h1 => keeps_watchdog h1))

theorem keeps_execRestartBantam {bantam : Nat} (h : Keeps z s) : KeepsNext z (execRestartBantam bantam s) := by
  unfold execRestartBantam
  refine KeepsNext.next ?_
  refine Keeps.whenOk h fun s5 h5 => ?_
  refine keeps_fwStart (fun s8 h8 => ?_) h5
  refine Keeps.ite (keeps_fwEnd h8) ?_
  extract_lets s9 _
  have h9 : Keeps z s9 := keeps_fwRun h8
  exact keeps_restartRequest h9.same

theorem keeps_stagedStart {a : FwAction} {lenOk : Nat → Bool} (h : Keeps z s) : Keeps z (stagedStart a lenOk s) := by
  unfold stagedStart
  exact Keeps.ite (keeps_fwRun h) (keeps_fwEnd h)

theorem keeps_execFwVerify (h : Keeps z s) : KeepsNext z (execFwVerify s) := by
  unfold execFwVerify
  exact KeepsNext.next (Keeps.whenOk h (fun _ h1 => keeps_fwStart (fun _ h2 => keeps_stagedStart h2) h1))

theorem keeps_execFwInstall (h : Keeps z s) : KeepsNext z (execFwInstall s) := by
  unfold execFwInstall
  exact KeepsNext.next (Keeps.whenOk h (fun _ h1 => keeps_fwStart (fun _ h2 => keeps_stagedStart h2) h1))

theorem keeps_execCommitSvn (h : Keeps z s) : KeepsNext z (execCommitSvn s) := by
  unfold execCommitSvn
  exact KeepsNext.next (Keeps.whenOk h (fun _ h1 => keeps_fwStart (fun _ h2 => keeps_fwRun h2) h1))

theorem keeps_installEnd {b : List Byte} {flashOk : Bool} (h : Keeps z s) : Keeps z (installEnd b flashOk s) := by
  unfold installEnd
  extract_lets f1 s2 _ s3 _
  have h1 : ∀ a0 a1, Keeps z a1 → Keeps z (f1 a0 a1) := by
    intro _ s1' h1'
    unfold f1
    exact Keeps.ite h1'.same h1'.same
  have h2 : Keeps z s2 := h1 _ _ h
  have h3 : Keeps z s3 := h1 _ _ h
  exact Keeps.ite (keeps_fwEnd h2.same) (keeps_fwEnd h3.same)

theorem keeps_rollBegin (h : Keeps z s) : Keeps z (rollBegin s) := by
  unfold rollBegin
  refine keeps_restartNext ?_
  extract_lets s1 _
  have h1 : Keeps z s1 := keeps_fwRun h
  exact h1.same

theorem keeps_activateWarm (h : Keeps z s) : Keeps z (activateWarm s) := by
  unfold activateWarm
  exact keeps_warmBegin h.same

theorem keeps_fwDefer {a : FwAction} (h : Keeps z s) : Keeps z (fwDefer a s) := by
  unfold fwDefer
  exact keeps_fwNotice (keeps_fwEvent h.same)

theorem keeps_execActivateRolling (h : Keeps z s) : KeepsNext z (execActivateRolling s) := by
  unfold execActivateRolling
  exact KeepsNext.next (Keeps.whenOk h (fun _ h1 => keeps_fwStart (fun _ h2 => Keeps.ite (keeps_fwEnd h2) (Keeps.ite
    (keeps_fwEnd h2) (Keeps.ite (keeps_fwDefer h2) (keeps_rollBegin h2)))) h1))

theorem keeps_execActivateWarm (h : Keeps z s) : KeepsNext z (execActivateWarm s) := by
  unfold execActivateWarm
  exact KeepsNext.next (Keeps.whenOk h (fun _ h1 => keeps_fwStart (fun _ h2 => Keeps.ite (keeps_fwEnd h2) (Keeps.ite
    (keeps_fwEnd h2) (Keeps.ite (keeps_fwDefer h2) (keeps_activateWarm h2)))) h1))

theorem keeps_fwResume (h : Keeps z s) : Keeps z (fwResume s) := by
  unfold fwResume
  refine Keeps.ite h ?_
  split
  · exact keeps_rollBegin h
  · exact keeps_activateWarm h
  · exact h

theorem keeps_execFwActivationResume (h : Keeps z s) : KeepsNext z (execFwActivationResume s) := by
  unfold execFwActivationResume
  exact KeepsNext.next (Keeps.whenOk h (fun _ h1 => keeps_fwResume h1))

theorem keeps_newNonce (h : Keeps z s) : Keeps z (newNonce s) := by
  unfold newNonce
  split
  · rename_i s1 e1
    have h1 := (keeps_drawDrbg h).of_eq_snd e1
    exact h1.same

theorem keeps_execLcChange (h : Keeps z s) : KeepsNext z (execLcChange s) := by
  unfold execLcChange
  exact KeepsNext.next (Keeps.whenOk h (fun _ h1 => keeps_fwStart (fun _ h2 => Keeps.ite (keeps_fwRun h2) (keeps_newNonce
    (keeps_fwEnd h2))) h1))

/-- The life cycle may be recorded on what was no decommissioned adapter. -/
theorem keeps_lcRecord {to_ : Nat} (h : Keeps z s) (hl : z.sec.lc ≠ .decommissioned) : Keeps z (lcRecord to_ s) := by
  refine ⟨⟨h.memory, h.svn, fun hz => absurd hz hl, fun hz => ?_⟩, h.count⟩
  have hu : s.sec.udsErased = true := h.uds hz
  unfold lcRecord
  by_cases he : (to_ == 2) = true <;> by_cases hd : (s.sec.lc == .deployed) = true <;> simp [he, hd, hu]

/-- No token leads on from DECOMMISSIONED (Table 17.13). -/
theorem tokenCheck_decommissioned {b : List Byte} {v : Verdict} (hl : s.sec.lc = .decommissioned) :
    tokenCheck s b v ≠ 0 := by
  have hno : ∀ from_ to_ : Nat, ((from_ != lcCode s.sec.lc) || !(lcAllowed from_ to_)) = true := by
    intro from_ to_
    by_cases hf : from_ = 4
    · simp [hf, hl, lcCode, lcAllowed]
    · simp [hf, hl, lcCode]
  simp only [tokenCheck, hno, if_true]
  split
  · decide
  · split <;> decide

theorem keeps_lcEnd {x : FwEnd} (h : Keeps z s) : Keeps z (lcEnd x s) := by
  unfold lcEnd
  by_cases hz : z.sec.lc = .decommissioned
  · simp only [tokenCheck_decommissioned (h.retired hz), ne_eq, not_false_eq_true, if_true]
    exact Keeps.ite h (keeps_newNonce (keeps_fwEnd h))
  · have ht := keeps_warmScans (scans := x.scans) (h.same (t := { s with q := { s.q with
      rings := s.q.rings.map (fun e => (e.1, warmRing e.2))
      scanning := (s.q.rings.filter (fun e => e.2.kind != .cq)).map Prod.fst } }))
    exact Keeps.ite h (Keeps.ite (keeps_newNonce (keeps_fwEnd h)) (Keeps.ite (keeps_newNonce (keeps_fwEnd h.same))
      (Keeps.ite (keeps_coldBegin (keeps_lcRecord ht hz)) h)))

theorem keeps_execKekInstall (h : Keeps z s) : KeepsNext z (execKekInstall s) := by
  unfold execKekInstall
  exact KeepsNext.next (Keeps.whenOk h (fun _ h1 => keeps_fwStart (fun _ h2 => Keeps.ite (keeps_fwEnd h2) (keeps_stagedStart
    h2)) h1))

theorem keeps_fwActionEnd {x : FwEnd} (h : Keeps z s) : Keeps z (fwActionEnd x s) := by
  unfold fwActionEnd
  split
  · exact keeps_fwEnd h
  · exact Keeps.ite (keeps_fwEnd h) (keeps_installEnd h)
  · exact keeps_fwEnd ⟨⟨h.memory, Nat.le_trans h.svn (Nat.le_max_left _ _), h.retired, h.uds⟩, h.count⟩
  · exact keeps_lcEnd h
  · exact Keeps.ite (keeps_fwEnd h) (Keeps.ite (keeps_fwEnd h) (keeps_fwEnd h.same))
  · exact h

theorem keeps_execFwActionEnd {x : FwEnd} (h : Keeps z s) : KeepsNext z (execFwActionEnd x s) := by
  unfold execFwActionEnd
  exact KeepsNext.next (Keeps.whenOk h (fun _ h1 => keeps_fwActionEnd h1))

theorem keeps_fwHello (h : Keeps z s) : Keeps z (fwHello s) := by
  unfold fwHello
  extract_lets _ _ _ _ s1 _
  have h1 : Keeps z s1 := keeps_raisePage (keeps_setInst h)
  split
  · refine Keeps.ite ?_ (keeps_fwSend h1)
    extract_lets _ _ _ s2
    have h2 : Keeps z s2 := h1.same
    exact keeps_fwSend h2
  · exact h1

theorem keeps_execFwHello (h : Keeps z s) : KeepsNext z (execFwHello s) := by
  unfold execFwHello
  exact KeepsNext.next (Keeps.whenOk h (fun _ h1 => keeps_fwHello h1))

theorem keeps_joinEdge (h : Keeps z s) : Keeps z (joinEdge s) := by
  unfold joinEdge
  refine Keeps.ite (Keeps.ite h.same (Keeps.ite (Keeps.ite h (keeps_fwEvent h.same)) h.same)) ?_
  split
  · exact h.same
  · exact Keeps.ite h (keeps_fwNotice (keeps_fwEvent h.same))
  · exact h.same

theorem keeps_execJoinDomain (h : Keeps z s) : KeepsNext z (execJoinDomain s) := by
  unfold execJoinDomain
  exact KeepsNext.next (Keeps.whenOk h (fun _ h1 => keeps_joinEdge h1))

theorem keeps_execHostBeat {value : Word} {ms : Nat} (h : Keeps z s) : KeepsNext z (execHostBeat value ms s) := by
  unfold execHostBeat
  exact KeepsNext.next (Keeps.whenOk h (fun _ h1 => keeps_putReg h1.same))

theorem keeps_execHostSilent {ms : Nat} (h : Keeps z s) : KeepsNext z (execHostSilent ms s) := by
  unfold execHostSilent
  extract_lets _
  exact KeepsNext.next (Keeps.whenOk h (fun _ h1 => keeps_fwEvent h1))

theorem keeps_execDrbgReseed (h : Keeps z s) : KeepsNext z (execDrbgReseed s) := by
  unfold execDrbgReseed
  exact KeepsNext.next (Keeps.whenOk h (fun _ h1 => h1.same))

end Sys2Proof.Machine
end

section
/-! PROOFS. What every command keeps: power, commits, register writes, SPDM, transmission and the step, one lemma per operation. -/

set_option Elab.async false

namespace Sys2Proof.Machine

variable {z s : State}

theorem keeps_setCond {d : Nat} {c : Cond} (h : Keeps z s) : Keeps z (setCond d c s) := h.same

theorem keeps_execDomainIdleTimeout {domain : Nat} (h : Keeps z s) : KeepsNext z (execDomainIdleTimeout domain s) := by
  unfold execDomainIdleTimeout
  exact KeepsNext.next (Keeps.whenOk h (fun _ h1 => keeps_setCond h1))

theorem keeps_execDomainWake {domain : Nat} (h : Keeps z s) : KeepsNext z (execDomainWake domain s) := by
  unfold execDomainWake
  exact KeepsNext.next (Keeps.whenOk h (fun _ h1 => keeps_bump (keeps_setCond h1)))

theorem keeps_parkEdge (h : Keeps z s) : Keeps z (parkEdge s) := by
  unfold parkEdge
  exact Keeps.foldl h (fun _ _ h1 => keeps_setCond h1)

theorem keeps_parkProgress (h : Keeps z s) : Keeps z (parkProgress s) := by
  unfold parkProgress
  split
  · exact h
  · refine Keeps.ite (Keeps.ite h h.same) ?_
    refine Keeps.ite h ?_
    extract_lets s1 _ _ s2
    have h1 : Keeps z s1 := keeps_endUnits h
    have h2 : Keeps z s2 := h1.same
    exact Keeps.ite (keeps_parkEdge h2) (Keeps.foldl h2 (fun _ _ h3 => keeps_setCond h3))

theorem keeps_parkWrite {park : Bool} {value : Word} (h : Keeps z s) : Keeps z (parkWrite park value s) := by
  unfold parkWrite
  extract_lets s1 _ _ s2 _
  have h1 : Keeps z s1 := keeps_putReg h
  have h2 : Keeps z s2 := Keeps.ite h1 (keeps_startUnits h1)
  exact Keeps.ite h1 (keeps_parkProgress h2.same)

theorem keeps_execFlockPark {value : Word} (h : Keeps z s) : KeepsNext z (execFlockPark value s) := by
  unfold execFlockPark
  exact KeepsNext.next (Keeps.whenOk h (fun _ h1 => keeps_parkWrite h1))

theorem keeps_execFlockUnpark {value : Word} (h : Keeps z s) : KeepsNext z (execFlockUnpark value s) := by
  unfold execFlockUnpark
  exact KeepsNext.next (Keeps.whenOk h (fun _ h1 => keeps_parkWrite h1))

theorem keeps_enterLow {ps : PowerState} (h : Keeps z s) : Keeps z (enterLow ps s) := by
  unfold enterLow
  extract_lets s1 s2 s3
  have h1 : Keeps z s1 := Keeps.foldl h fun _ _ h => Keeps.ite (keeps_ethDown h) (Keeps.ite (keeps_toDisabled h) h)
  have h3 : Keeps z s3 := keeps_raise (Keeps.foldl h1 fun _ _ h => keeps_failFlushes (keeps_accState h))
  refine ⟨⟨fun hz => ⟨?_, memWf_nil⟩, h3.svn, h3.retired, h3.uds⟩, h3.count⟩
  dsimp only
  split
  · exact memWf_nil
  · exact (h3.memory hz).1

theorem keeps_shiftAwake {ps : PowerState} (h : Keeps z s) : Keeps z (shiftAwake ps s) := by
  unfold shiftAwake
  extract_lets _ _ _
  exact keeps_raise (keeps_parkEdge h.same)

theorem keeps_psRequest {target : PowerState} (h : Keeps z s) : Keeps z (psRequest target s) := by
  unfold psRequest
  extract_lets _ _ s1 _
  have h1 : Keeps z s1 := h.same
  exact Keeps.ite h.same (Keeps.ite (keeps_raise h.same) (Keeps.ite h.same (Keeps.ite (Keeps.ite h1.same (keeps_shiftAwake
    h1)) (Keeps.ite (keeps_enterLow h1) (keeps_raise h1.same)))))

theorem keeps_psHeld (h : Keeps z s) : Keeps z (psHeld s) := by
  unfold psHeld
  split
  · exact Keeps.ite h (keeps_psRequest h)
  · exact h

theorem keeps_psExit (h : Keeps z s) : Keeps z (psExit s) := by
  unfold psExit
  split
  · exact h
  · extract_lets s1 _ s2 s3
    have h1 : Keeps z s1 := Keeps.ite (keeps_tier1Clean h) h
    have h2 : Keeps z s2 := keeps_raise h1.same
    have h3 : Keeps z s3 := keeps_applyLanes (keeps_openPorts h2)
    exact Keeps.foldl h3 (fun _ _ h4 => Keeps.ite h4 (keeps_accState h4))

theorem keeps_execPsExitComplete (h : Keeps z s) : KeepsNext z (execPsExitComplete s) := by
  unfold execPsExitComplete
  exact KeepsNext.next (Keeps.whenOk h (fun _ h1 => keeps_psExit h1))

theorem keeps_execAsleepAccess {write : Bool} {off : Nat} (h : Keeps z s) :
    KeepsNext z (execAsleepAccess write off s) := by
  unfold execAsleepAccess
  refine KeepsNext.next ?_
  refine Keeps.whenOk h fun s3 h3 => ?_
  extract_lets s4
  have h4 : Keeps z s4 := keeps_raise (keeps_bump h3)
  exact Keeps.ite h4 (keeps_emit h4)

theorem keeps_inputSample {sensor degC mv : Nat} {voltBad : Bool} {sampleW avgW : Nat} (h : Keeps z s) :
    Keeps z (inputSample sensor degC mv voltBad sampleW avgW s) := by
  unfold inputSample
  extract_lets _ s1 _
  have h1 : Keeps z s1 := h.same
  exact Keeps.ite (keeps_bump h1.same) (Keeps.ite h1.same h1)

theorem keeps_execInputSample {sensor degC mv : Nat} {voltBad : Bool} {sampleW avgW : Nat} (h : Keeps z s) :
    KeepsNext z (execInputSample sensor degC mv voltBad sampleW avgW s) := by
  unfold execInputSample
  exact KeepsNext.next (Keeps.whenOk h (fun _ h1 => keeps_inputSample h1))

theorem keeps_demandFall (h : Keeps z s) : Keeps z (demandFall s) := h.same

theorem keeps_execDemandDecrease (h : Keeps z s) : KeepsNext z (execDemandDecrease s) := by
  unfold execDemandDecrease
  exact KeepsNext.next (Keeps.whenOk h (fun _ h1 => keeps_demandFall h1))

theorem keeps_setLevel (h : Keeps z s) : Keeps z (setLevel s) := by
  unfold setLevel
  extract_lets _ _ s1
  have h1 : Keeps z s1 := h.same
  exact Keeps.ite (keeps_raise h1) h1

theorem keeps_emergencyBegin (h : Keeps z s) : Keeps z (emergencyBegin s) := by
  unfold emergencyBegin
  extract_lets _ _ s1
  have h1 : Keeps z s1 := h.same
  exact Keeps.ite h (keeps_setLevel (keeps_raise h1))

theorem keeps_execEmergencyBegin (h : Keeps z s) : KeepsNext z (execEmergencyBegin s) := by
  unfold execEmergencyBegin
  exact KeepsNext.next (Keeps.whenOk h (fun _ h1 => keeps_emergencyBegin h1))

theorem keeps_emergencyEnd (h : Keeps z s) : Keeps z (emergencyEnd s) := by
  unfold emergencyEnd
  exact Keeps.ite (keeps_raise h.same) h

theorem keeps_execEmergencyEnd (h : Keeps z s) : KeepsNext z (execEmergencyEnd s) := by
  unfold execEmergencyEnd
  exact KeepsNext.next (Keeps.whenOk h (fun _ h1 => keeps_emergencyEnd h1))

theorem keeps_throttleEdge (h : Keeps z s) : Keeps z (throttleEdge s) := by
  unfold throttleEdge
  extract_lets _ _ _ _ s1 _ _ s2 s3
  have h1 : Keeps z s1 := keeps_demandFall h.same
  have h2 : Keeps z s2 := h1.same
  have h3 : Keeps z s3 := keeps_setLevel (keeps_emergencyEnd (keeps_emergencyBegin h2))
  exact Keeps.ite h3 (keeps_bump h3)

theorem keeps_thermalTrip {sensor degC : Nat} (h : Keeps z s) : Keeps z (thermalTrip sensor degC s) := h.same

theorem keeps_execThermalTrip {sensor degC : Nat} (h : Keeps z s) : KeepsNext z (execThermalTrip sensor degC s) := by
  unfold execThermalTrip
  exact KeepsNext.next (Keeps.whenOk h (fun _ h1 => keeps_thermalTrip h1))

theorem keeps_makeLive {vals : NMap Word} (h : Keeps z s) : Keeps z (makeLive vals s) := by
  unfold makeLive
  exact Keeps.foldl h (fun _ _ h1 => keeps_putReg h1)

theorem keeps_commitReject {b : CommitBlock} (h : Keeps z s) : Keeps z (commitReject b s) := by
  unfold commitReject
  exact Keeps.elim h (fun _ => keeps_raise h)

theorem keeps_commitMake {b : Nat} {seq : Word} {group : Bool} {atTick : BitVec 64} (h : Keeps z s) :
    Keeps z (commitMake b seq group atTick s) := h.same

theorem keeps_commitWrite {b : CommitBlock} {seq : Word} (h : Keeps z s) : Keeps z (commitWrite b seq s) := by
  unfold commitWrite
  exact Keeps.ite (keeps_commitReject h) (keeps_commitMake h)

theorem keeps_execCommitWrite {off : Nat} {seq : Word} (h : Keeps z s) : KeepsNext z (execCommitWrite off seq s) := by
  unfold execCommitWrite
  refine KeepsNext.next ?_
  split
  · exact Keeps.whenOk h (fun _ h1 => keeps_commitWrite h1)
  · exact h

theorem keeps_execTickCommitWrite {seq : Word} (h : Keeps z s) : KeepsNext z (execTickCommitWrite seq s) := by
  unfold execTickCommitWrite
  exact KeepsNext.next (Keeps.whenOk h (fun _ h1 => keeps_commitWrite h1))

theorem keeps_commitMulti {blocks : Word} (h : Keeps z s) : Keeps z (commitMulti blocks s) := by
  unfold commitMulti
  extract_lets _ _ _ _ _ s1 _
  have h1 : Keeps z s1 := h.same
  exact Keeps.ite h (Keeps.ite (Keeps.foldl h1 (fun _ _ h2 => keeps_commitMake h2)) (Keeps.foldl h1 (fun _ _ h3 =>
    keeps_commitReject h3)))

theorem keeps_execCommitMulti {value : Word} (h : Keeps z s) : KeepsNext z (execCommitMulti value s) := by
  unfold execCommitMulti
  exact KeepsNext.next (Keeps.whenOk h (fun _ h1 => keeps_commitMulti h1))

theorem keeps_flowRelease {new : State} {p : Nat} (hnew : Keeps z new) (h : Keeps z s) :
    Keeps z (flowRelease new p s) := by
  unfold flowRelease
  extract_lets _ _ _ s1
  have h1 : Keeps z s1 := Keeps.foldl h (fun _ _ h2 => keeps_sendPause h2)
  exact keeps_modEth h1

theorem keeps_csCommitted {old : State} {vals : NMap Word} (hold : Keeps z old) (h : Keeps z s) :
    Keeps z (csCommitted old vals s) := by
  unfold csCommitted
  extract_lets _ _ s1 s2
  have h1 : Keeps z s1 := by
    unfold s1
    refine Keeps.foldl h fun s4 _ h4 => ?_
    extract_lets _ _
    exact h4.same
  have h2 : Keeps z s2 := by
    unfold s2
    refine Keeps.foldl h1 fun s6 _ h6 => ?_
    extract_lets _ _
    exact h6.same
  exact Keeps.foldl h2 (fun _ _ h7 => keeps_updGcl h7)

theorem keeps_closeSlots (h : Keeps z s) : Keeps z (closeSlots s) := by
  unfold closeSlots
  exact Keeps.foldl h (fun _ _ h1 => keeps_putReg h1)

theorem keeps_commitTake {b : CommitBlock} {c : CommitSet} (h : Keeps z s) : Keeps z (commitTake b c s) := by
  unfold commitTake
  extract_lets s1 s2 s3 s4 s5 _
  have h1 : Keeps z s1 := h
  have h2 : Keeps z s2 := keeps_makeLive h
  have h3 : Keeps z s3 := Keeps.ite (Keeps.foldl h (fun _ _ h6 => Keeps.ite (keeps_flowRelease h2 h6) h6)) h
  have h4 : Keeps z s4 := keeps_putReg (keeps_makeLive h3.same)
  have h5 : Keeps z s5 := keeps_closeSlots h4
  split
  · exact keeps_tickCommitted h4
  · exact Keeps.ite h5 h5.same
  · exact Keeps.foldl h4 (fun _ _ h7 => Keeps.ite (keeps_flowCheck h7) h7)
  · exact keeps_csCommitted h1 h4
  · exact keeps_psRequest h4
  · exact h4

theorem keeps_commitsTake {due : CommitSet → Bool} (h : Keeps z s) : Keeps z (commitsTake due s) := by
  unfold commitsTake
  extract_lets s1 s2
  have h1 : Keeps z s1 := h
  have h2 : Keeps z s2 := by
    unfold s2
    refine Keeps.foldl h fun s4 _ h4 => ?_
    split
    · exact Keeps.ite (keeps_commitTake h4) h4
    · exact h4
  exact keeps_tickResize h1 h2

theorem keeps_execCommitApply (h : Keeps z s) : KeepsNext z (execCommitApply s) := by
  unfold execCommitApply
  exact KeepsNext.next (Keeps.whenOk h (fun _ h1 => keeps_commitsTake h1))

theorem keeps_execTickCommitActivate (h : Keeps z s) : KeepsNext z (execTickCommitActivate s) := by
  unfold execTickCommitActivate
  exact KeepsNext.next (Keeps.whenOk h (fun _ h1 => keeps_commitsTake h1))

theorem keeps_invalidate {slot : Nat} (h : Keeps z s) : Keeps z (invalidate slot s) := by
  unfold invalidate
  split
  · exact h
  · refine Keeps.ite h ?_
    extract_lets _
    exact keeps_markStarted (keeps_invalidateStart h)

theorem keeps_execInvalidate {slot : Nat} (h : Keeps z s) : KeepsNext z (execInvalidate slot s) := by
  unfold execInvalidate
  exact KeepsNext.next (Keeps.whenOk h (fun _ h1 => keeps_invalidate h1))

theorem keeps_execInvalidateComplete {slot : Nat} (h : Keeps z s) : KeepsNext z (execInvalidateComplete slot s) := by
  unfold execInvalidateComplete
  refine KeepsNext.next ?_
  refine Keeps.whenOk h fun s3 h3 => ?_
  split
  · exact h3
  · exact Keeps.ite h3 (keeps_mgmtDone (keeps_invalRemove h3))

theorem keeps_walkComplete {n : Nat} {reads : NMap (BitVec 128)} (h : Keeps z s) : Keeps z (walkComplete n reads s) := by
  unfold walkComplete
  split
  · exact h
  · extract_lets _ _ _ s1 _ s2 s3
    have h1 : Keeps z s1 := h.same
    have h2 : Keeps z s2 := by
      unfold s2
      clear_value *
      split
      · exact Keeps.ite (keeps_fillFromWalk h1) (Keeps.ite h1 h1.same)
      · exact keeps_updRun (keeps_fillFromWalk h1)
    have h3 : Keeps z s3 := keeps_progressRun h2
    exact Keeps.ite (Keeps.foldl h3 (fun _ _ h4 => keeps_progressRun h4)) h3

theorem keeps_execWalkComplete {n : Nat} {reads : NMap (BitVec 128)} (h : Keeps z s) :
    KeepsNext z (execWalkComplete n reads s) := by
  unfold execWalkComplete
  exact KeepsNext.next (Keeps.whenOk h (fun _ h1 => keeps_walkComplete h1))

theorem keeps_execPowerUp (h : Keeps z s) : KeepsNext z (execPowerUp s) := by
  unfold execPowerUp
  exact KeepsNext.next (Keeps.whenOk h (fun _ h1 => h1.same))

theorem keeps_execPowerGood (h : Keeps z s) : KeepsNext z (execPowerGood s) := by
  unfold execPowerGood
  exact KeepsNext.next (Keeps.whenOk h (fun _ h1 => keeps_coldBegin h1.same))

theorem lasts_unpowered (h : Lasts z s) : Lasts z (unpowered s) :=
  ⟨fun _ => ⟨memWf_nil, memWf_nil⟩, h.svn, h.retired, h.uds⟩

theorem lasts_powerLoss {cause : Nat} (h : Lasts z s) : Lasts z (powerLoss cause s) := by
  unfold powerLoss
  extract_lets _ s1 _
  have h1 : Lasts z s1 := lasts_unpowered h
  exact h1.same

theorem keeps_execPowerLoss {cause : Nat} (h : Keeps z s) : KeepsNext z (execPowerLoss cause s) := by
  unfold execPowerLoss
  exact KeepsNext.lasts (lasts_powerLoss h.toLasts)

theorem keeps_execColdRstNAssert (h : Keeps z s) : KeepsNext z (execColdRstNAssert s) := by
  unfold execColdRstNAssert
  exact KeepsNext.next (keeps_coldBegin h.same)

theorem keeps_execPtpPortLinkChange {up : Bool} (h : Keeps z s) : KeepsNext z (execPtpPortLinkChange up s) := by
  unfold execPtpPortLinkChange
  exact KeepsNext.next (Keeps.whenOk h (fun _ h1 => keeps_ptpMoved h1.same))

theorem keeps_writeLive {key : Nat} {i : RegInfo} {v : Word} (h : Keeps z s) : Keeps z (writeLive key i v s) := by
  unfold writeLive
  extract_lets s1
  have h1 : Keeps z s1 := keeps_putReg h
  exact Keeps.ite h1 (keeps_putShadow h1)

theorem keeps_writeShadow {key : Nat} {i : RegInfo} {v : Word} (h : Keeps z s) : Keeps z (writeShadow key i v s) :=
  h.same

theorem keeps_counterWrite {off : Nat} {v : Word} (h : Keeps z s) : Keeps z (counterWrite off v s) := by
  unfold counterWrite
  extract_lets _ _ _
  exact Keeps.ite h (keeps_modEth h)

theorem keeps_msixWrite {fn word : Nat} {v : Word} (h : Keeps z s) : Keeps z (msixWrite fn word v s) := by
  unfold msixWrite
  refine Keeps.ite ?_ h
  extract_lets _ _ _ _
  exact keeps_msixSend h.same

theorem keeps_regWrite {off : Nat} {v : Word} (h : Keeps z s) : Keeps z (regWrite off v s) := by
  unfold regWrite
  refine Keeps.ite h ?_
  split
  · extract_lets _
    exact Keeps.ite (keeps_writeLive h) h
  · split
    · exact Keeps.ite (keeps_msixWrite h) h
    · refine Keeps.ite (keeps_counterWrite h) ?_
      split
      · extract_lets _
        exact Keeps.ite (keeps_writeShadow h) h
      · exact h

theorem keeps_execRegisterWrite {off : Nat} {v : Word} {full : Bool} (h : Keeps z s) :
    KeepsNext z (execRegisterWrite off v full s) := by
  unfold execRegisterWrite
  exact KeepsNext.next (Keeps.whenOk h (fun _ h1 => keeps_regWrite h1))

theorem keeps_enableWrite {v : Word} (h : Keeps z s) : Keeps z (enableWrite v s) := by
  unfold enableWrite
  extract_lets _ s1
  have h1 : Keeps z s1 := keeps_putReg h
  exact Keeps.foldl h1 (fun _ _ h2 => Keeps.ite (keeps_intFire h2) h2)

theorem keeps_pageEnableWrite {n : Nat} {v : Word} (h : Keeps z s) : Keeps z (pageEnableWrite n v s) := by
  unfold pageEnableWrite
  extract_lets _ _ s1
  have h1 : Keeps z s1 := keeps_putReg h
  exact Keeps.foldl h1 (fun _ _ h2 => Keeps.ite (keeps_msixRaise h2) h2)

theorem keeps_execIntEnableWrite {page : Option Nat} {v : Word} (h : Keeps z s) :
    KeepsNext z (execIntEnableWrite page v s) := by
  unfold execIntEnableWrite
  refine KeepsNext.next ?_
  split
  · exact Keeps.whenOk h (fun _ h1 => keeps_enableWrite h1)
  · exact Keeps.whenOk h (fun _ h2 => keeps_pageEnableWrite h2)

theorem keeps_unmask {fn : Nat} {vector : Option Nat} (h : Keeps z s) : Keeps z (unmask fn vector s) := by
  unfold unmask
  split
  · exact keeps_msixWrite h
  · exact Keeps.foldl h.same (fun _ _ h1 => keeps_msixSend h1)

theorem keeps_execMsixVectorUnmask {fn : Nat} {vector : Option Nat} (h : Keeps z s) :
    KeepsNext z (execMsixVectorUnmask fn vector s) := by
  unfold execMsixVectorUnmask
  exact KeepsNext.next (Keeps.whenOk h (fun _ h1 => keeps_unmask h1))

theorem keeps_latchHigh {off : Nat} {hi : Word} (h : Keeps z s) : Keeps z (latchHigh off hi s) := by
  unfold latchHigh
  extract_lets _ _ _ _ _
  exact Keeps.ite h.same (Keeps.ite h.same (Keeps.ite h.same (Keeps.ite h.same (Keeps.ite h.same (Keeps.ite (keeps_setInst h)
    (Keeps.ite (keeps_setInst h) h))))))

theorem keeps_execLatchedLoRead {off : Nat} (h : Keeps z s) : KeepsNext z (execLatchedLoRead off s) := by
  unfold execLatchedLoRead
  refine KeepsNext.next ?_
  refine Keeps.whenOk h fun s3 h3 => ?_
  split
  · exact keeps_emit (keeps_latchHigh h3)
  · exact h3

theorem keeps_spdmOut {hst : Bool} {r : SpdmReply} (h : Keeps z s) : Keeps z (spdmOut hst r s) := h.same

theorem keeps_spdmRequest {hst : Bool} {f : State → State} (hf : ∀ a0, Keeps z a0 → Keeps z (f a0)) (h : Keeps z s) :
    KeepsNext z (spdmRequest hst f s) := by
  unfold spdmRequest
  exact KeepsNext.next (Keeps.whenOk h (fun _ h1 => Keeps.ite (keeps_spdmOut h1) (hf _ h1)))

theorem keeps_spdmAfter {hst : Bool} {f : State → State} (hf : ∀ a0, Keeps z a0 → Keeps z (f a0)) (h : Keeps z s) :
    Keeps z (spdmAfter hst f s) := by
  unfold spdmAfter
  exact Keeps.ite (hf _ h) (keeps_spdmOut h)

theorem keeps_spdmWithin {hst : Bool} {session : Nat} {f : State → State} (hf : ∀ a0, Keeps z a0 → Keeps z (f a0))
    (h : Keeps z s) : Keeps z (spdmWithin hst session f s) := by
  unfold spdmWithin
  exact Keeps.ite (hf _ h) (keeps_spdmOut h)

theorem keeps_execGetVersion {hst : Bool} (h : Keeps z s) : KeepsNext z (execGetVersion hst s) := by
  unfold execGetVersion
  exact keeps_spdmRequest (fun _ h1 => keeps_spdmOut h1.same) h

theorem keeps_execGetCapabilities {hst : Bool} {version : Nat} (h : Keeps z s) :
    KeepsNext z (execGetCapabilities hst version s) := by
  unfold execGetCapabilities
  exact keeps_spdmRequest (fun _ h1 => Keeps.ite (keeps_spdmOut h1) (Keeps.ite (keeps_spdmOut h1) (keeps_spdmOut h1.same))) h

theorem keeps_execNegotiateAlgorithms {hst offered : Bool} (h : Keeps z s) :
    KeepsNext z (execNegotiateAlgorithms hst offered s) := by
  unfold execNegotiateAlgorithms
  exact keeps_spdmRequest (fun _ h1 => Keeps.ite (keeps_spdmOut h1) (Keeps.ite (keeps_spdmOut h1) (keeps_spdmOut h1.same))) h

theorem keeps_execGetDigests {hst : Bool} (h : Keeps z s) : KeepsNext z (execGetDigests hst s) := by
  unfold execGetDigests
  exact keeps_spdmRequest (fun _ h1 => keeps_spdmAfter (fun _ h2 => keeps_spdmOut h2) h1) h

theorem keeps_execGetCertificate {hst : Bool} {slot offset length : Nat} (h : Keeps z s) :
    KeepsNext z (execGetCertificate hst slot offset length s) := by
  unfold execGetCertificate
  exact keeps_spdmRequest (fun _ h1 => keeps_spdmAfter (fun _ h2 => keeps_spdmOut h2) h1) h

theorem keeps_execChallenge {hst : Bool} {slot : Nat} (h : Keeps z s) : KeepsNext z (execChallenge hst slot s) := by
  unfold execChallenge
  exact keeps_spdmRequest (fun _ h1 => keeps_spdmAfter (fun _ h2 => keeps_spdmOut h2) h1) h

theorem keeps_execGetMeasurements {hst : Bool} {index : Nat} (h : Keeps z s) :
    KeepsNext z (execGetMeasurements hst index s) := by
  unfold execGetMeasurements
  refine keeps_spdmRequest (fun s5 h5 => ?_) h
  refine keeps_spdmAfter (fun s8 h8 => ?_) h5
  extract_lets _
  exact Keeps.ite (keeps_spdmOut h8) (Keeps.ite (keeps_spdmOut h8) (Keeps.ite (keeps_spdmOut h8) (keeps_spdmOut h8)))

theorem keeps_execKeyExchange {hst : Bool} {slot session : Nat} (h : Keeps z s) :
    KeepsNext z (execKeyExchange hst slot session s) := by
  unfold execKeyExchange
  exact keeps_spdmRequest (fun _ h1 => keeps_spdmAfter (fun _ h2 => Keeps.ite (keeps_spdmOut h2) (keeps_spdmOut h2.same)) h1) h

theorem keeps_execFinish {hst : Bool} {session : Nat} {good : Bool} (h : Keeps z s) :
    KeepsNext z (execFinish hst session good s) := by
  unfold execFinish
  exact keeps_spdmRequest (fun _ h1 => Keeps.ite (keeps_spdmOut h1) (Keeps.ite (keeps_spdmOut h1.same) (keeps_spdmOut h1.same))) h

theorem keeps_execHeartbeat {hst : Bool} {session : Nat} (h : Keeps z s) :
    KeepsNext z (execHeartbeat hst session s) := by
  unfold execHeartbeat
  exact keeps_spdmRequest (fun _ h1 => keeps_spdmWithin (fun _ h2 => keeps_spdmOut h2) h1) h

theorem keeps_execKeyUpdate {hst : Bool} {session : Nat} (h : Keeps z s) :
    KeepsNext z (execKeyUpdate hst session s) := by
  unfold execKeyUpdate
  refine keeps_spdmRequest (fun s5 h5 => ?_) h
  refine keeps_spdmWithin (fun s8 h8 => ?_) h5
  extract_lets _ _
  exact keeps_spdmOut h8.same

theorem keeps_execEndSession {hst : Bool} {session : Nat} (h : Keeps z s) :
    KeepsNext z (execEndSession hst session s) := by
  unfold execEndSession
  exact keeps_spdmRequest (fun _ h1 => keeps_spdmWithin (fun _ h2 => keeps_spdmOut h2.same) h1) h

theorem keeps_execSpdmUnsupportedRequest {hst : Bool} (h : Keeps z s) :
    KeepsNext z (execSpdmUnsupportedRequest hst s) := by
  unfold execSpdmUnsupportedRequest
  exact keeps_spdmRequest (fun _ h1 => keeps_spdmOut h1) h

theorem keeps_execMctpControlMessage {eid : Nat} (h : Keeps z s) : KeepsNext z (execMctpControlMessage eid s) := by
  unfold execMctpControlMessage
  exact KeepsNext.next (Keeps.whenOk h (fun _ h1 => keeps_emit h1.same))

theorem keeps_pickInClass {α : Type} {ck cls : Nat} {cands : List (Cand α)} (h : Keeps z s) :
    KeepsSomeSnd z (pickInClass ck cls cands s) := by
  intro p e
  unfold pickInClass at e
  obtain ⟨w, _, e⟩ := Option.bind_eq_some_iff.1 e
  obtain ⟨c, _, rfl⟩ := Option.map_eq_some_iff.1 e
  exact h.same

theorem keeps_pick {α : Type} {line : Nat} {cands : List (Cand α)} (h : Keeps z s) :
    KeepsSomeSnd z (pick line cands s) := by
  unfold pick
  extract_lets classes of
  have hof : ∀ c, KeepsSomeSnd z (of c) := fun c => keeps_pickInClass h
  split
  · exact hof _
  · intro p e
    obtain ⟨w, _, e⟩ := Option.bind_eq_some_iff.1 e
    obtain ⟨y, hy, rfl⟩ := Option.map_eq_some_iff.1 e
    obtain ⟨c, _, hc⟩ := List.mem_filterMap.1 (List.mem_of_find?_eq_some hy)
    obtain ⟨q, hq, rfl⟩ := Option.map_eq_some_iff.1 hc
    exact (hof c q hq).same

theorem keeps_localItem {i : WireItem} {x : RecvReads} (h : Keeps z s) : Keeps z (localItem i x s) := by
  unfold localItem
  extract_lets _
  refine Keeps.ite ?_ (keeps_takeStandalone (fun _ _ h1 => keeps_takeKind h1) h)
  split
  · rename_i s2 _ e2
    have h2 := (keeps_takeTrainHead h).of_eq e2
    exact Keeps.ite (Keeps.foldl h2 (fun _ _ h3 => keeps_takeKind h3)) h2

theorem keeps_packUdp {i : WireItem} (h : Keeps z s) : Keeps z (packUdp i s) := by
  unfold packUdp
  extract_lets _
  split
  · exact keeps_holdItem h
  · extract_lets s1 _ _ _
    have h1 : Keeps z s1 := Keeps.ite (keeps_flushUnode h) h
    exact h1.same

theorem keeps_sendItem {q : Qp} {i : WireItem} {x : RecvReads} (h : Keeps z s) : Keeps z (sendItem q i x s) := by
  unfold sendItem
  exact Keeps.ite (keeps_localItem h) (Keeps.ite (keeps_packUdp h) (keeps_routeItem h))

theorem keeps_sendMsg {qpn : Nat} {q : Qp} {msn : Nat} {cells : List Nat} {retx : Bool} {x : RecvReads} (h : Keeps z s) :
    Keeps z (sendMsg qpn q msn cells retx x s) := by
  unfold sendMsg
  split
  · exact h
  · split
    · exact h
    · extract_lets _ _ s1 s2 _ s3 _ s4
      have h1 : Keeps z s1 := Keeps.ite (keeps_muleMove h) h
      have h2 : Keeps z s2 := Keeps.ite (keeps_cryptCount h1) h1
      have h3 : Keeps z s3 := keeps_updTile h2.same
      have h4 : Keeps z s4 := Keeps.ite (keeps_bumpBy (keeps_updMsg h3)) (keeps_updMsg h3)
      split
      · exact h
      · exact keeps_sendItem h4

theorem keeps_sendResp {qpn : Nat} {q : Qp} {msn : Nat} {cells : List Nat} {retx : Bool} {x : RecvReads} (h : Keeps z s) :
    Keeps z (sendResp qpn q msn cells retx x s) := by
  unfold sendResp
  split
  · exact h
  · split
    · exact h
    · extract_lets s1 _ _ s2 s3 _ s4
      have h1 : Keeps z s1 := keeps_dropGot h
      have h2 : Keeps z s2 := Keeps.ite (keeps_cryptCount h1) h1
      have h3 : Keeps z s3 := Keeps.ite (keeps_muleMove h2) h2
      have h4 : Keeps z s4 := Keeps.ite (keeps_bumpBy (keeps_putResp h3)) (keeps_putResp h3)
      split
      · exact h1
      · exact keeps_sendItem h4

theorem keeps_startMsg {qpn : Nat} {q : Qp} {key i cells span : Nat} (h : Keeps z s) :
    Keeps z (startMsg qpn q key i cells span s).1 := by
  unfold startMsg
  split
  · exact h
  · extract_lets refused slot fills
    clear_value slot
    split
    · exact keeps_checkRun (keeps_cutRun h)
    · split
      rename_i s1 ok e1
      have h1 : Keeps z s1 := by
        refine Keeps.of_eq ?_ e1
        split
        · exact keeps_charge h
        · exact h
      split
      · exact keeps_checkRun (keeps_cutRun h1)
      · extract_lets m s2 s3
        have h3 : Keeps z s3 := keeps_updQp (keeps_updTile h1)
        exact h3.same

theorem keeps_sendLoad {qpn : Nat} {l : Load} {retx : Bool} {x : RecvReads} (h : Keeps z s) :
    Keeps z (sendLoad qpn l retx x s) := by
  unfold sendLoad
  split
  · exact h
  · split
    · exact keeps_sendMsg h
    · exact keeps_sendResp h
    · extract_lets _
      split
      · rename_i s1 _ e1
        have h1 := (keeps_startMsg h).of_eq e1
        exact Keeps.ite (keeps_sendMsg h1) h1

theorem keeps_linkRetx {x : RecvReads} (h : Keeps z s) : KeepsSome z (linkRetx x s) := by
  intro t e
  unfold linkRetx at e
  obtain ⟨w, _, e⟩ := Option.bind_eq_some_iff.1 e
  obtain ⟨c, _, rfl⟩ := Option.map_eq_some_iff.1 e
  exact keeps_sendLoad h.same

theorem keeps_linkNew {x : RecvReads} (h : Keeps z s) : KeepsSome z (linkNew x s) := by
  intro t e
  unfold linkNew at e
  obtain ⟨w, hw, rfl⟩ := Option.map_eq_some_iff.1 e
  exact keeps_sendLoad (keeps_pick h w hw)

theorem keeps_sendRoce {qpn : Nat} {q : Qp} {msn k : Nat} {retx : Bool} (h : Keeps z s) :
    Keeps z (sendRoce qpn q msn k retx s).1 := by
  unfold sendRoce
  split
  · refine Keeps.fst_mk ?_
    exact h
  · split
    · refine Keeps.fst_mk ?_
      exact h
    · extract_lets _ _ _ s1 s2 s3
      have h1 : Keeps z s1 := Keeps.ite h (keeps_muleMove h)
      have h2 : Keeps z s2 := Keeps.ite (keeps_updTile h1.same) h1
      have h3 : Keeps z s3 := keeps_updMsg h2
      split
      · refine Keeps.fst_mk ?_
        exact h
      · refine Keeps.fst_mk ?_
        exact keeps_queueFrame h3

theorem keeps_cutRoce {qpn : Nat} (h : Keeps z s) : Keeps z (cutRoce s qpn) := by
  unfold cutRoce
  refine Keeps.foldl h fun s2 _ h2 => ?_
  split
  · exact Keeps.ite (keeps_checkRun (keeps_updRun h2)) h2
  · exact h2

theorem keeps_roceStep {qpn : Nat} {q : Qp} (h : Keeps z s) : KeepsSome z (roceStep qpn q s) := by
  unfold roceStep
  extract_lets ms done
  have hdone : ∀ x : State × Bool, Keeps z x.1 → KeepsSome z (done x) := by
    intro x hx
    unfold done
    split
    · exact KeepsSome.some hx
    · exact KeepsSome.none
  split
  · exact KeepsSome.none
  · split
    · exact hdone _ (keeps_sendRoce h)
    · split
      · exact hdone _ (keeps_sendRoce h)
      · split
        · exact KeepsSome.none
        · extract_lets mtu whole len n span
          split
          · exact KeepsSome.none
          · split
            rename_i s1 ok e1
            have h1 := (keeps_startMsg h).of_eq e1
            split
            · exact hdone _ (keeps_sendRoce h1)
            · exact KeepsSome.some h1

theorem keeps_roceNew (h : Keeps z s) : KeepsSome z (roceNew s) := by
  unfold roceNew
  extract_lets qps s1 last order
  have h1 : Keeps z s1 := Keeps.foldl h fun _ _ h => keeps_cutRoce h
  intro t e
  obtain ⟨a, _, e⟩ := List.exists_of_findSome?_eq_some e
  obtain ⟨q, _, e⟩ := Option.bind_eq_some_iff.1 e
  obtain ⟨s2, e2, rfl⟩ := Option.map_eq_some_iff.1 e
  exact ((keeps_roceStep h1).of_eq e2).same

theorem keeps_udpNew {x : RecvReads} (h : Keeps z s) : KeepsSome z (udpNew x s) := by
  intro t e
  unfold udpNew at e
  obtain ⟨l, _, rfl⟩ := Option.map_eq_some_iff.1 e
  exact keeps_sendLoad h.same

theorem keeps_portFrame {p clk : Nat} (h : Keeps z s) : KeepsSome z (portFrame p clk s) := by
  intro t e
  unfold portFrame at e
  obtain ⟨w, hw, rfl⟩ := Option.map_eq_some_iff.1 e
  have hw2 : Keeps z w.2 := keeps_pick h w hw
  split
  extract_lets s1 n s2 s3 s4 s5 now s6
  have h3 : Keeps z s3 := keeps_chargeShaper (keeps_chargeShaper (keeps_modEth hw2))
  have h4 : Keeps z s4 := by
    unfold s4
    split
    · exact keeps_chargePacer h3
    · exact h3
  have h5 : Keeps z s5 := Keeps.ite (keeps_ethCount h4) h4
  have h6 : Keeps z s6 := by
    refine Keeps.foldl h5 fun s7 _ h7 => ?_
    split
    · exact keeps_updMsg h7
    · exact h7
  exact keeps_udSent (keeps_ethOut h6)

theorem keeps_anyFrame {clk : Nat} (h : Keeps z s) : KeepsSome z (anyFrame clk s) := by
  intro t e
  obtain ⟨p, _, e⟩ := List.exists_of_findSome?_eq_some e
  exact (keeps_portFrame h).of_eq e

theorem keeps_sendControl {x : RecvReads} (h : Keeps z s) : KeepsSome z (sendControl x s) := by
  unfold sendControl
  split
  · exact KeepsSome.none
  · extract_lets _ s1 _
    have h1 : Keeps z s1 := h.same
    refine KeepsSome.some ?_
    refine Keeps.ite (keeps_localItem h1) ?_
    refine Keeps.ite (keeps_routeControl h1) ?_
    split
    · exact keeps_ethCount (keeps_ethOut h1)
    · exact keeps_holdItem h1

theorem keeps_flushOne (h : Keeps z s) : KeepsSome z (flushOne s) := by
  intro t e
  obtain ⟨a, _, rfl⟩ := Option.map_eq_some_iff.1 e
  exact keeps_flushUnode h

theorem keeps_flushAll (h : Keeps z s) : Keeps z (flushAll s) := by
  unfold flushAll
  exact Keeps.foldl h (fun _ _ h1 => keeps_flushUnode h1)

theorem keeps_transmit {clk : Nat} {x : RecvReads} (h : Keeps z s) : Keeps z (transmit clk x s) := by
  unfold transmit
  refine KeepsSome.getD ?_ h
  exact (keeps_sendControl h).orElse <| (keeps_anyFrame h).orElse <| (keeps_linkRetx h).orElse <|
    (keeps_linkNew h).orElse <| (keeps_udpNew h).orElse <| (keeps_roceNew h).orElse (keeps_flushOne h)

theorem keeps_execTransmitSelect {clk : Nat} {x : RecvReads} (h : Keeps z s) :
    KeepsNext z (execTransmitSelect clk x s) := by
  unfold execTransmitSelect
  exact KeepsNext.next (Keeps.whenOk h (fun _ h1 => keeps_transmit h1))

theorem keeps_retryAll (h : Keeps z s) : Keeps z (retryAll s) := by
  unfold retryAll
  extract_lets _ _ s1 s2
  have h1 : Keeps z s1 := keeps_retryHeld h.same
  have h2 : Keeps z s2 := Keeps.foldl h1 (fun _ _ h3 => keeps_packUdp h3)
  exact Keeps.foldl h2 (fun _ _ h4 => keeps_drainQueue h4)

theorem keeps_execNoRouteRetry (h : Keeps z s) : KeepsNext z (execNoRouteRetry s) := by
  unfold execNoRouteRetry
  exact KeepsNext.next (Keeps.whenOk h (fun _ h1 => keeps_retryAll h1))

theorem keeps_requestSend (h : Keeps z s) : Keeps z (requestSend s) := by
  unfold requestSend
  refine Keeps.ite ?_ h
  extract_lets _
  exact Keeps.foldl h (fun _ _ h1 => keeps_sendSched h1)

theorem keeps_latchTelemetry (h : Keeps z s) : Keeps z (latchTelemetry s) := h.same

theorem keeps_mapEdge (h : Keeps z s) : Keeps z (mapEdge s) := by
  unfold mapEdge
  split
  · exact h
  · exact h.same

theorem keeps_liveEdge (h : Keeps z s) : Keeps z (liveEdge s) := by
  unfold liveEdge
  extract_lets s1 s2
  have h1 : Keeps z s1 := Keeps.whenOk h (fun _ h3 => keeps_partialApply h3)
  have h2 : Keeps z s2 := keeps_throttleEdge (keeps_commitsTake h1)
  exact keeps_psHeld h2

theorem keeps_each {α : Type} {l : List α} {f : α → State → State} (hf : ∀ a0 a1, Keeps z a1 → Keeps z (f a0 a1))
    (h : Keeps z s) : Keeps z (each l f s) := by
  unfold each
  exact Keeps.foldl h (fun _ _ h1 => hf _ _ h1)

theorem keeps_identEdge {p : Nat} (h : Keeps z s) : Keeps z (identEdge p s) := by
  unfold identEdge
  exact Keeps.ite (keeps_identExpire (keeps_updCport h)) h

theorem keeps_transportEdge (h : Keeps z s) : Keeps z (transportEdge s) := by
  unfold transportEdge
  extract_lets s1 s2
  have h1 : Keeps z s1 := keeps_each (fun _ _ h3 => keeps_retransmit (keeps_respRecTimeout (keeps_missingRespNack
    (keeps_rnrResend h3)))) h
  have h2 : Keeps z s2 := keeps_each (fun _ _ h4 => keeps_recordTimeout (keeps_missingNack h4)) h1
  exact keeps_each (fun _ _ h5 => keeps_recordTimeout h5) h2

theorem keeps_instanceEdge (h : Keeps z s) : Keeps z (instanceEdge s) := by
  unfold instanceEdge
  exact keeps_each (fun _ _ h1 => keeps_thawActivate (keeps_freezeComplete (keeps_freezeActivate h1))) h

theorem keeps_deadlineEdge (h : Keeps z s) : Keeps z (deadlineEdge s) := by
  unfold deadlineEdge
  extract_lets s1 s2 s3 s4 s5
  have h1 : Keeps z s1 := keeps_coreSwapBegin (keeps_coreLosses (keeps_sweepUses h))
  have h2 : Keeps z s2 := keeps_each (fun _ _ h6 => keeps_identEdge h6) h1
  have h3 : Keeps z s3 := keeps_transportEdge (keeps_herdsDeadlines h2)
  have h4 : Keeps z s4 := keeps_each (fun _ _ h7 => keeps_ganderEdge h7) h3
  have h5 : Keeps z s5 := keeps_parkProgress (keeps_parkEdge (keeps_instanceEdge h4))
  exact keeps_each (fun _ _ h8 => keeps_keyChange h8) (keeps_rateUpdate h5)

theorem keeps_pollRefill (h : Keeps z s) : Keeps z (pollRefill s) := h.same

theorem keeps_overrunEdge {overruns : List (Nat × Nat)} (h : Keeps z s) : Keeps z (overrunEdge overruns s) := by
  unfold overrunEdge
  extract_lets _ _ _ _
  exact keeps_each (fun _ _ h1 => keeps_raise (keeps_bump h1)) h.same

theorem keeps_budgetEdge (h : Keeps z s) : Keeps z (budgetEdge s) := by
  unfold budgetEdge
  extract_lets s1
  have h1 : Keeps z s1 := keeps_meterRefill (keeps_shaperRefill (keeps_pacerRefill (keeps_grantCompute (keeps_allowEdge
    (keeps_dropUnsent (keeps_pollRefill h))))))
  exact keeps_each (fun _ _ h2 => keeps_gclEdge h2) h1

theorem keeps_alignCells (h : Keeps z s) : Keeps z (alignCells s) := by
  unfold alignCells
  extract_lets s1
  have h1 : Keeps z s1 := keeps_each (fun _ _ h2 => keeps_emit h2) h
  exact Keeps.ite (keeps_each (fun _ _ h3 => keeps_ethOut h3) h1) h1

theorem keeps_pubWrite {off : Nat} {bs : List Byte} (h : Keeps z s) : Keeps z (pubWrite off bs s) := by
  unfold pubWrite
  extract_lets _
  exact Keeps.ite (Keeps.ite (keeps_tierPut h) h) (keeps_emit h)

theorem keeps_publish {map : List Byte} (h : Keeps z s) : Keeps z (publish map s) := by
  unfold publish
  extract_lets _ _
  exact Keeps.ite (keeps_pubWrite (keeps_pubWrite h)) h

theorem keeps_dispatchEdge {map : List Byte} {reads : NMap (BitVec 128)} (h : Keeps z s) :
    Keeps z (dispatchEdge map reads s) := by
  unfold dispatchEdge
  extract_lets _ _ _ s1 s2 s3 s4
  have h1 : Keeps z s1 := h.same
  have h2 : Keeps z s2 := keeps_retryAll (keeps_requestSend (keeps_publish (keeps_alignCells h1)))
  have h3 : Keeps z s3 := keeps_flushAll (keeps_each (fun _ _ h5 => keeps_progressRun h5) h2)
  have h4 : Keeps z s4 := Keeps.ite h3 (keeps_herdsDispatch h3)
  exact keeps_fwMail h4

theorem keeps_wipeEdge (h : Keeps z s) : Keeps z (wipeEdge s) := by
  unfold wipeEdge
  refine Keeps.ite h ?_
  extract_lets _ _
  exact h.same

theorem keeps_workEdge {map : List Byte} {reads : NMap (BitVec 128)} {overruns : List (Nat × Nat)} (h : Keeps z s) :
    Keeps z (workEdge map reads overruns s) := by
  unfold workEdge
  exact keeps_dispatchEdge (keeps_overrunEdge (keeps_budgetEdge (keeps_deadlineEdge h)))

theorem lasts_tickEdge {reads : NMap (BitVec 128)} {overruns : List (Nat × Nat)} (h : Lasts z s) :
    Lasts z (tickEdge reads overruns s) := by
  unfold tickEdge
  extract_lets s1 s2 _ s3 s4 s5
  have h1 : Lasts z s1 := h.trans (keeps_wipeEdge (Keeps.refl s)).toLasts
  have h2 : Lasts z s2 := lasts_beginTick h1
  have h3 : Lasts z s3 := lasts_alignEdge (h1.trans (keeps_latchTelemetry (Keeps.refl s1)).toLasts)
  have h4 : Keeps s3 s4 := keeps_liveEdge (keeps_emit (Keeps.refl s3))
  have h5 : Keeps s3 s5 := keeps_fwResume (keeps_joinEdge (keeps_mapEdge h4))
  exact Lasts.ite (h2.trans (keeps_emit (Keeps.refl s2)).toLasts)
    (h3.trans (Keeps.ite h4 (Keeps.whenOk h5 (fun _ h6 => keeps_workEdge h6))).toLasts)

theorem keeps_execTickEdge {reads : NMap (BitVec 128)} {overruns : List (Nat × Nat)} (h : Keeps z s) :
    KeepsNext z (execTickEdge reads overruns s) := by
  unfold execTickEdge
  exact KeepsNext.lasts (Lasts.whenOk h.toLasts (lasts_tickEdge h.toLasts))

theorem keeps_lzActionEnd {image : List Byte} {v : Verdict} (h : Keeps z s) : Keeps z (lzActionEnd image v s) := by
  unfold lzActionEnd
  split
  · exact keeps_lzEnd h
  · split
    · extract_lets _ _ _
      exact h.same
    · exact keeps_warmBegin (keeps_lzEnd (keeps_storeImage h))
    · exact keeps_lzEnd h

theorem keeps_execLzActionEnd {image : List Byte} {v : Verdict} (h : Keeps z s) :
    KeepsNext z (execLzActionEnd image v s) := by
  unfold execLzActionEnd
  exact KeepsNext.next (Keeps.whenOk h (fun _ h1 => keeps_lzActionEnd h1))

theorem keeps_execBondForm {flock : Nat} (h : Keeps z s) : KeepsNext z (execBondForm flock s) := by
  unfold execBondForm
  exact KeepsNext.next (Keeps.whenOk h (fun _ h1 => h1.same))

theorem keeps_execBondActionAck {flock member : Nat} (h : Keeps z s) :
    KeepsNext z (execBondActionAck flock member s) := by
  unfold execBondActionAck
  exact KeepsNext.next (Keeps.whenOk h (fun _ h1 => keeps_parkProgress (keeps_unitAcked h1)))

theorem keeps_fenceMember {node unit : Nat} (h : Keeps z s) : Keeps z (fenceMember node unit s) := by
  unfold fenceMember
  extract_lets _ _ _ _
  clear_value *
  split
  · exact h
  · exact keeps_retryHeld h.same

theorem keeps_bondTimeout {flock member node unit : Nat} (h : Keeps z s) :
    Keeps z (bondTimeout flock member node unit s) := by
  unfold bondTimeout
  extract_lets _ _ s1 _ s2
  have h1 : Keeps z s1 := keeps_fenceMember h
  have h2 : Keeps z s2 := h1.same
  exact keeps_parkProgress (keeps_unitAcked h2)

theorem keeps_execBondAckTimeout {flock member node unit : Nat} (h : Keeps z s) :
    KeepsNext z (execBondAckTimeout flock member node unit s) := by
  unfold execBondAckTimeout
  exact KeepsNext.next (Keeps.whenOk h (fun _ h1 => keeps_bondTimeout h1))

theorem keeps_unitCarry {flock : Nat} {kind : UnitActionKind} (h : Keeps z s) : Keeps z (unitCarry flock kind s) := by
  unfold unitCarry
  split
  · exact keeps_parkEdge h.same
  · extract_lets _ s1
    have h1 : Keeps z s1 := h.same
    exact Keeps.foldl h1 (fun _ _ h2 => keeps_setCond h2)
  · exact Keeps.foldl h (fun _ _ h3 => keeps_enterHalted h3)
  · exact Keeps.foldl h (fun _ _ h4 => keeps_resetBegin h4)
  · exact h.same

theorem keeps_execBondUnitActionReceive {flock : Nat} {kind : UnitActionKind} (h : Keeps z s) :
    KeepsNext z (execBondUnitActionReceive flock kind s) := by
  unfold execBondUnitActionReceive
  exact KeepsNext.next (Keeps.whenOk h (fun _ h1 => keeps_emit (keeps_unitCarry h1)))

theorem keeps_exec {i : Instr} (h : Keeps z s) : KeepsNext z (exec i s) := by
  unfold exec
  split
  · exact keeps_execPowerUp h
  · exact keeps_execPowerGood h
  · exact keeps_execPowerLoss h
  · exact keeps_execColdRstNAssert h
  · exact keeps_execColdReset h
  · exact keeps_execFirmwareBoot h
  · exact keeps_execWipeDone h
  · exact keeps_execWarmReset h
  · exact keeps_execGxCtrlWarmReset h
  · exact keeps_execHostLinkLoss h
  · exact keeps_execHstLinkUp h
  · exact keeps_execFlrVf h
  · exact keeps_execFlrPf h
  · exact keeps_execVfEnableChange h
  · exact keeps_execTickEdge h
  · exact keeps_execCommitApply h
  · exact keeps_execTickCommitActivate h
  · exact keeps_execCommitWrite h
  · exact keeps_execTickCommitWrite h
  · exact keeps_execCommitMulti h
  · exact keeps_execTickCountLoRead h
  · exact keeps_execTickAlignCellReceive h
  · exact keeps_execPtpMessageReceive h
  · exact keeps_execPtpLock h
  · exact keeps_execPtpLockLost h
  · exact keeps_execAlignAcquired h
  · exact keeps_execAlignLost h
  · exact keeps_execAlignInputTimeout h
  · exact keeps_execHoldoverTimeout h
  · exact keeps_execLzVerify h
  · exact keeps_execLzPartial h
  · exact keeps_execLzFull h
  · exact keeps_execPartialReloadApply h
  · exact keeps_execGranuleWipeDone h
  · exact keeps_execBondForm h
  · exact keeps_execBondActionAck h
  · exact keeps_execBondAckTimeout h
  · exact keeps_execInvalidate h
  · exact keeps_execInvalidateComplete h
  · exact keeps_execWalkComplete h
  · exact keeps_execScrubPass h
  · exact keeps_execErrorDetected h
  · exact keeps_execRowRepairDone h
  · exact keeps_execPcSwapComplete h
  · exact keeps_execFrameRetireRedirect h
  · exact keeps_execCoreSwapBegin h
  · exact keeps_execCoreSwapComplete h
  · exact keeps_execDumpComplete h
  · exact keeps_execDumpTimeout h
  · exact keeps_execStaleRequestDiscard h
  · exact keeps_execDumpRegion h
  · exact keeps_execRingRegister h
  · exact keeps_execRingShutdown h
  · exact keeps_execMgmtEnable h
  · exact keeps_execMgmtDisable h
  · exact keeps_execSqPoll h
  · exact keeps_execEntryAccept h
  · exact keeps_execCqReservationCheck h
  · exact keeps_execDoorbell h
  · exact keeps_execCompletionRelease h
  · exact keeps_execQpCreate h
  · exact keeps_execQpModifyReconnect h
  · exact keeps_execQpModifyTimers h
  · exact keeps_execQpModifyError h
  · exact keeps_execQpDestroy h
  · exact keeps_execWrite h
  · exact keeps_execRead h
  · exact keeps_execSend h
  · exact keeps_execAtomic h
  · exact keeps_execWriteReduce h
  · exact keeps_execAttn h
  · exact keeps_execFence h
  · exact keeps_execDecodeAttn h
  · exact keeps_execPrefillAppend h
  · exact keeps_execKvGather h
  · exact keeps_execTierMove h
  · exact keeps_execCollective h
  · exact keeps_execRecv h
  · exact keeps_execTrainReceive h
  · exact keeps_execDataCellReceive h
  · exact keeps_execReduceCellReceive h
  · exact keeps_execSendCellReceive h
  · exact keeps_execReadReqReceive h
  · exact keeps_execReadRespReceive h
  · exact keeps_execAtomicReqReceive h
  · exact keeps_execAtomicRespReceive h
  · exact keeps_execAttnReqReceive h
  · exact keeps_execAttnRespReceive h
  · exact keeps_execAckReceive h
  · exact keeps_execNackMissingReceive h
  · exact keeps_execNackRnrReceive h
  · exact keeps_execNackMovedReceive h
  · exact keeps_execNackQpErrorReceive h
  · exact keeps_execRespAckReceive h
  · exact keeps_execReadExecute h
  · exact keeps_execAtomicPerform h
  · exact keeps_execAttnKernelStart h
  · exact keeps_execRecvComplete h
  · exact keeps_execMissingNackSend h
  · exact keeps_execRecordTimeout h
  · exact keeps_execRetransmitTimeout h
  · exact keeps_execRnrResend h
  · exact keeps_execCodewordReceive h
  · exact keeps_execSpareLaneSwap h
  · exact keeps_execReceiverDetect h
  · exact keeps_execTrainingSuccess h
  · exact keeps_execTrainingAttemptTimeout h
  · exact keeps_execFecLock h
  · exact keeps_execFecLockTimeout h
  · exact keeps_execIdentReceive h
  · exact keeps_execIdentRoundTimeout h
  · exact keeps_execIdentTimeout h
  · exact keeps_execCodewordLockLoss h
  · exact keeps_execPortAdminDown h
  · exact keeps_execPortRestart h
  · exact keeps_execTransmitSelect h
  · exact keeps_execNoRouteRetry h
  · exact keeps_execCmapLoad h
  · exact keeps_execFenceTableWrite h
  · exact keeps_execEthLinkUp h
  · exact keeps_execEthLinkDown h
  · exact keeps_execEthFrameReceive h
  · exact keeps_execXoffRepeat h
  · exact keeps_execPauseFrameReceive h
  · exact keeps_execPauseExpiry h
  · exact keeps_execGanderTxTrip h
  · exact keeps_execGanderTxClear h
  · exact keeps_execGanderRxTrip h
  · exact keeps_execGanderRxClear h
  · exact keeps_execRocePacketReceive h
  · exact keeps_execCnpReceive h
  · exact keeps_execCellFrameReceive h
  · exact keeps_execEthCounterLoRead h
  · exact keeps_execUnodeRouteWrite h
  · exact keeps_execRequestReceive h
  · exact keeps_execGrantReceive h
  · exact keeps_execSchedCnpReceive h
  · exact keeps_execGclEntryAdvance h
  · exact keeps_execGclListSwitch h
  · exact keeps_execHerdDefine h
  · exact keeps_execHerdDissolve h
  · exact keeps_execCollectiveSlotAcquire h
  · exact keeps_execStepDeadlineMiss h
  · exact keeps_execHerdPieceReceive h
  · exact keeps_execHerdSkipReceive h
  · exact keeps_execHerdVoteReceive h
  · exact keeps_execHerdAbortReceive h
  · exact keeps_execHerdCommitReceive h
  · exact keeps_execHerdDecideAbortReceive h
  · exact keeps_execHoldTimeout h
  · exact keeps_execCollectiveComplete h
  · exact keeps_execHerdMembershipChange h
  · exact keeps_execWorkItemEnd h
  · exact keeps_execKernelComplete h
  · exact keeps_execAccReceiverDetect h
  · exact keeps_execAccLinkUp h
  · exact keeps_execAccEnumerate h
  · exact keeps_execAccLinkDown h
  · exact keeps_execAccErrFatal h
  · exact keeps_execAccAdminDown h
  · exact keeps_execAccRestart h
  · exact keeps_execAccRequestReceive h
  · exact keeps_execPcieFlushComplete h
  · exact keeps_execPcieReadCompletion h
  · exact keeps_execPcieCompletionTimeout h
  · exact keeps_execCvClear h
  · exact keeps_execCvStart h
  · exact keeps_execCvStop h
  · exact keeps_execCvStreamBoundary h
  · exact keeps_execCvConfigWrite h
  · exact keeps_execCvBytesLoRead h
  · exact keeps_execCvSelfTestDone h
  · exact keeps_execKeyLoad h
  · exact keeps_execKeyRekey h
  · exact keeps_execKeyErase h
  · exact keeps_execKeyChangeApply h
  · exact keeps_execInstanceResetDrain h
  · exact keeps_execInstanceResetSquash h
  · exact keeps_execInstanceResetDiscard h
  · exact keeps_execInstanceResetComplete h
  · exact keeps_execInstanceFreeze h
  · exact keeps_execFreezeActivate h
  · exact keeps_execFreezeComplete h
  · exact keeps_execInstanceThaw h
  · exact keeps_execThawActivate h
  · exact keeps_execInstanceSaveState h
  · exact keeps_execInstanceSaveMemory h
  · exact keeps_execInstanceRestoreState h
  · exact keeps_execInstanceRestoreMemory h
  · exact keeps_execMbxOutPost h
  · exact keeps_execMbxOutTaken h
  · exact keeps_execMbxInPost h
  · exact keeps_execMbxInDone h
  · exact keeps_execMbxBufferWrite h
  · exact keeps_execFwVerify h
  · exact keeps_execFwInstall h
  · exact keeps_execActivateRolling h
  · exact keeps_execActivateWarm h
  · exact keeps_execCommitSvn h
  · exact keeps_execRestartBantam h
  · exact keeps_execLcChange h
  · exact keeps_execKekInstall h
  · exact keeps_execWatchdogExpiry h
  · exact keeps_execBantamRestartComplete h
  · exact keeps_execFwActivationResume h
  · exact keeps_execFwHello h
  · exact keeps_execJoinDomain h
  · exact keeps_execHostBeat h
  · exact keeps_execHostSilent h
  · exact keeps_execGetVersion h
  · exact keeps_execGetCapabilities h
  · exact keeps_execNegotiateAlgorithms h
  · exact keeps_execGetDigests h
  · exact keeps_execGetCertificate h
  · exact keeps_execChallenge h
  · exact keeps_execGetMeasurements h
  · exact keeps_execKeyExchange h
  · exact keeps_execFinish h
  · exact keeps_execHeartbeat h
  · exact keeps_execKeyUpdate h
  · exact keeps_execEndSession h
  · exact keeps_execSpdmUnsupportedRequest h
  · exact keeps_execDrbgReseed h
  · exact keeps_execPsExitComplete h
  · exact keeps_execAsleepAccess h
  · exact keeps_execDomainIdleTimeout h
  · exact keeps_execDomainWake h
  · exact keeps_execFlockPark h
  · exact keeps_execFlockUnpark h
  · exact keeps_execInputSample h
  · exact keeps_execDemandDecrease h
  · exact keeps_execEmergencyBegin h
  · exact keeps_execEmergencyEnd h
  · exact keeps_execThermalTrip h
  · exact keeps_execIntEnableWrite h
  · exact keeps_execMsixVectorUnmask h
  · exact keeps_execInstTickLoRead h
  · exact keeps_execLatchedLoRead h
  · exact keeps_execRegisterWrite h
  · exact keeps_execPpsPulse h
  · exact keeps_execPtpPortLinkChange h
  · exact keeps_execMctpControlMessage h
  · exact keeps_execAccErrorMessage h
  · exact keeps_execBondUnitActionReceive h
  · exact keeps_execLzActionEnd h
  · exact keeps_execFwActionEnd h

theorem keeps_step (h : Keeps z s) : KeepsNext z (step s) := by
  unfold step
  split
  · exact KeepsNext.next h
  · exact keeps_exec h.same

end Sys2Proof.Machine
end

section
/-! PROOFS. The two invariants of every step. -/

namespace Sys2Proof.Machine

/-- Settles O59: no step takes the memories out of their canonical form. -/
theorem everyStepKeepsMemoryCanonical : Obligations.EveryStepKeepsMemoryCanonical := by
  unfold Obligations.EveryStepKeepsMemoryCanonical
  exact fun s t hs e => (keeps_step (Keeps.refl s) t e).memory hs

/-- Settles O60: no step turns a fuse back. -/
theorem fusesNeverGoBack : Obligations.FusesNeverGoBack := by
  unfold Obligations.FusesNeverGoBack
  intro s t e
  have h : Lasts s t := keeps_step (Keeps.refl s) t e
  exact ⟨h.svn, h.retired, h.uds⟩

end Sys2Proof.Machine
end

section
/-! PROOFS. The step, the state after reset, and the writes of registers. -/

namespace Sys2Proof.Machine

/-- Settles O1: both clauses are the two branches of `step`. -/
theorem stepRunsTheFrontCommand : Obligations.StepRunsTheFrontCommand := by
  unfold Obligations.StepRunsTheFrontCommand
  refine ⟨fun c rest s => rfl, fun s h => ?_⟩
  unfold step
  rw [h]

/-- Settles O2: with no stored register or shadow every position reads its reset value. -/
theorem resetStateHoldsTheResetValues : Obligations.ResetStateHoldsTheResetValues := by
  unfold Obligations.ResetStateHoldsTheResetValues
  refine ⟨fun _ => rfl, fun _ => rfl, rfl, rfl, rfl, rfl, rfl, rfl, rfl, rfl, rfl, rfl, ?_, ?_, ?_⟩
  · decide
  · decide
  · decide

/-- A bit of a written register, by the masks of its access types. -/
theorem getLsbD_writtenLive (i : RegInfo) (old v : Word) {k : Nat} (hk : k < 32) (hw : i.w1s = 0) :
    (writtenLive i old v).getLsbD k =
      ((if (i.rw ||| i.rws).getLsbD k then v.getLsbD k else old.getLsbD k) && !(v.getLsbD k && i.w1c.getLsbD k)) := by
  unfold writtenLive
  simp only [hw, BitVec.getLsbD_and, BitVec.getLsbD_or, BitVec.getLsbD_not, hk, decide_true]
  cases i.rw.getLsbD k <;> cases i.rws.getLsbD k <;> simp

/-- Settles O17, bit by bit by the masks of the access types. -/
theorem accessTypesBitByBit : Obligations.AccessTypesBitByBit := by
  unfold Obligations.AccessTypesBitByBit
  intro i old v k hk hw hx
  have hdis : (i.w1c.getLsbD k && (i.rw ||| i.rws).getLsbD k) = false := by
    rw [← BitVec.getLsbD_and, hx]
    exact BitVec.getLsbD_zero
  rw [getLsbD_writtenLive i old v hk hw, BitVec.getLsbD_or (x := i.rw ||| i.rws)]
  generalize (i.rw ||| i.rws).getLsbD k = sets at *
  generalize i.w1c.getLsbD k = clears at *
  refine ⟨fun hs => ?_, fun hc => ?_, fun hn => ?_⟩
  · subst hs
    simp_all
  · subst hc
    simp_all
  · simp_all

/-! ### A write of a register (R5, R544) -/

theorem writeLive_frame (key : Nat) (i : RegInfo) (v : Word) (s : State) :
    writeLive key i v s = { s with regs := (writeLive key i v s).regs, shadows := (writeLive key i v s).shadows } := by
  unfold writeLive
  split <;> rfl

theorem regAt_writeLive_same (key : Nat) (i : RegInfo) (v : Word) (s : State) :
    regAt (writeLive key i v s) key = writtenLive i (regAt s key) v := by
  unfold writeLive
  split
  · exact regAt_putReg_same s key _
  · rw [regAt_putShadow]
    exact regAt_putReg_same s key _

theorem shadowAt_writeLive_same (key : Nat) {i : RegInfo} (v : Word) (s : State) (h : i.cmt ≠ 0) :
    shadowAt (writeLive key i v s) key = (shadowAt s key &&& ~~~i.cmt) ||| (v &&& i.cmt) := by
  unfold writeLive
  rw [if_neg h]
  exact shadowAt_putShadow_same _ key _

theorem regAt_writeLive_ne {key k : Nat} (i : RegInfo) (v : Word) (s : State) (h : k ≠ key) :
    regAt (writeLive key i v s) k = regAt s k := by
  unfold writeLive
  split
  · exact regAt_putReg_ne s _ h
  · rw [regAt_putShadow]
    exact regAt_putReg_ne s _ h

theorem shadowAt_writeLive_ne {key k : Nat} (i : RegInfo) (v : Word) (s : State) (h : k ≠ key) :
    shadowAt (writeLive key i v s) k = shadowAt s k := by
  unfold writeLive
  split
  · rfl
  · exact shadowAt_putShadow_ne _ _ h

theorem pageOf_window {off : Nat} (h : off < 0x04000000) : pageOf off = none := if_neg (by omega)

/-- A write of a register of the window without an index, which has no row of its own, is a write of its live fields. -/
theorem exec_registerWrite_window {off : Nat} {i : RegInfo} (v : Word) {s : State} (hw : off < 0x04000000) (ha : off % 4 = 0)
    (hs : served s off = true) (hi : regInfo off = some i) (hx : i.ix = []) (ho : ownRow s off v = false)
    (hm : mgmtHeld s off = false) (hp : positionOk off 0 = true) :
    exec (.registerWrite off v true) s = .next (writeLive off i v s) := by
  have hpage := pageOf_window hw
  have hc : (accessed s off && true && off % 4 == 0) = true := by simp [accessed, hpage, hs, ha]
  have hkey : accessKey s off i = off := by simp [accessKey, hx]
  have hdiv : off / 4294967296 = 0 := by omega
  change execRegisterWrite off v true s = _
  rw [execRegisterWrite, hc, whenOk_true]
  simp [regWrite, liveInfo, hpage, ho, hm, hi, hkey, hdiv, hp]

/-- Settles O16: the write is one `writeLive`, and the two ignored writes stop at its guards. -/
theorem registerWriteFollowsTheAccessTypes : Obligations.RegisterWriteFollowsTheAccessTypes := by
  unfold Obligations.RegisterWriteFollowsTheAccessTypes
  refine ⟨fun off i v s hw ha hs hi hx ho hm hp => ?_, fun off v s => ?_, fun off v full s hm => ?_⟩
  · refine ⟨_, exec_registerWrite_window v hw ha hs hi hx ho hm hp, regAt_writeLive_same off i v s,
      shadowAt_writeLive_same off v s, fun k hk => ⟨regAt_writeLive_ne i v s hk, shadowAt_writeLive_ne i v s hk⟩,
      writeLive_frame off i v s⟩
  · change execRegisterWrite off v false s = _
    simp [execRegisterWrite]
  · change execRegisterWrite off v full s = _
    have hsame : regWrite off v s = s := by simp [regWrite, hm]
    unfold execRegisterWrite
    congr 1
    exact whenOk_keeps (P := (· = s)) _ _ rfl fun _ => hsame

end Sys2Proof.Machine
end

section
/-! PROOFS. Interrupts: enabling a source and unmasking a vector. -/

namespace Sys2Proof.Machine

/-- What a fold reaches at one of its members, if the rest of it keeps that. -/
theorem foldl_reaches {σ β : Type} (P Q : σ → Prop) (f : σ → β → σ) (hP : ∀ s b, P s → P (f s b))
    (hQ : ∀ s b, P s → Q s → Q (f s b)) {l : List β} {a : β} (ha : a ∈ l) (hr : ∀ s, P s → Q (f s a)) {s : σ} (hs : P s) :
    Q (l.foldl f s) := by
  induction l generalizing s with
  | nil => exact absurd ha List.not_mem_nil
  | cons b t ih =>
    rw [List.foldl_cons]
    rcases List.mem_cons.1 ha with rfl | ht
    · exact (foldl_maintains (fun s => P s ∧ Q s) f (fun s b h => ⟨hP s b h.1, hQ s b h.1 h.2⟩) t _ ⟨hP s a hs, hr s hs⟩).2
    · exact ih ht (hP s b hs)

@[simp] theorem mem_insertNew {l : List Nat} {n k : Nat} : k ∈ insertNew l n ↔ k ∈ l ∨ k = n := by
  unfold insertNew
  split
  · exact ⟨.inl, fun h => h.elim id (fun e => e ▸ ‹n ∈ l›)⟩
  · simp

theorem wfld_lt (w : Word) (hi lo : Nat) : wfld w hi lo < 2 ^ (hi + 1 - lo) := Nat.mod_lt _ (Nat.two_pow_pos _)

/-- `t` is `s` with more vectors pending: what raising interrupts does while MSI-X is masked for every function (R548). -/
structure PendsMore (s t : State) : Prop where
  frame : t = { s with gl := { s.gl with msixPending := t.gl.msixPending } }
  more : ∀ v, v ∈ s.gl.msixPending → v ∈ t.gl.msixPending

theorem PendsMore.refl (s : State) : PendsMore s s := ⟨rfl, fun _ h => h⟩

theorem PendsMore.trans {s t u : State} (h : PendsMore s t) (g : PendsMore t u) : PendsMore s u :=
  ⟨by rw [g.frame, h.frame], fun v hv => g.more v (h.more v hv)⟩

theorem PendsMore.msixOn {s t : State} (h : PendsMore s t) : t.gl.msixOn = s.gl.msixOn := by rw [h.frame]

theorem PendsMore.regAt {s t : State} (h : PendsMore s t) (k : Nat) : regAt t k = Machine.regAt s k := by rw [h.frame]; rfl

theorem PendsMore.sourceAsserted {s t : State} (h : PendsMore s t) (src : Nat) :
    sourceAsserted t src = Machine.sourceAsserted s src := by rw [h.frame]; rfl

/-- While MSI-X is masked a raised vector becomes pending and nothing is sent. -/
theorem msixRaise_masked {s : State} (fn : Nat) {v : Nat} (h : s.gl.msixOn = []) (hv : v < msixVectors fn) :
    msixRaise fn v s = { s with gl := { s.gl with msixPending := insertNew s.gl.msixPending (64 * fn + v) } } := by
  simp [msixRaise, msixSend, msixOpen, h, hv]

theorem msixRaise_pends {s : State} (fn : Nat) {v : Nat} (h : s.gl.msixOn = []) (hv : v < msixVectors fn) :
    64 * fn + v ∈ (msixRaise fn v s).gl.msixPending := by
  rw [msixRaise_masked fn h hv]
  exact mem_insertNew.2 (.inr rfl)

theorem msixRaise_pendsMore {s : State} (fn v : Nat) (h : s.gl.msixOn = []) : PendsMore s (msixRaise fn v s) := by
  by_cases hv : v < msixVectors fn
  · rw [msixRaise_masked fn h hv]
    exact ⟨rfl, fun _ hm => mem_insertNew.2 (.inl hm)⟩
  · rw [msixRaise, if_neg hv]
    exact PendsMore.refl s

theorem intFire_pendsMore {s : State} (src : Nat) (h : s.gl.msixOn = []) : PendsMore s (intFire src s) := by
  unfold intFire
  split
  · exact msixRaise_pendsMore 0 _ h
  · exact PendsMore.refl s

theorem intFire_pends {s : State} {src : Nat} (h : s.gl.msixOn = []) (he : (rg s Reg.GX_INT_ENABLE).getLsbD src = true) :
    wfld (rg s (Reg.GX_INT_VECTOR + 4 * src)) 5 0 ∈ (intFire src s).gl.msixPending := by
  rw [intFire, if_pos he]
  have := msixRaise_pends 0 h (v := wfld (rg s (Reg.GX_INT_VECTOR + 4 * src)) 5 0) (wfld_lt _ 5 0)
  simpa using this

/-- A fold of interrupts raised under conditions leaves a state with more vectors pending. -/
theorem foldl_pendsMore {s : State} (f : State → Nat → State) (hf : ∀ t i, t.gl.msixOn = [] → PendsMore t (f t i))
    (h : s.gl.msixOn = []) (l : List Nat) : PendsMore s (l.foldl f s) :=
  foldl_maintains (PendsMore s) f (fun t i ht => ht.trans (hf t i (ht.msixOn.trans h))) l s (PendsMore.refl s)

/-- A fold of interrupts makes the vector of one of them pending that is raised in every state with more vectors pending. -/
theorem foldl_pends {s : State} (f : State → Nat → State) (hf : ∀ t i, t.gl.msixOn = [] → PendsMore t (f t i))
    (h : s.gl.msixOn = []) {l : List Nat} {i v : Nat} (hi : i ∈ l)
    (hr : ∀ t, PendsMore s t → v ∈ (f t i).gl.msixPending) : v ∈ (l.foldl f s).gl.msixPending :=
  foldl_reaches (PendsMore s) (fun t => v ∈ t.gl.msixPending) f (fun t j ht => ht.trans (hf t j (ht.msixOn.trans h)))
    (fun t j ht hv => (hf t j (ht.msixOn.trans h)).more v hv) hi hr (PendsMore.refl s)

/-! ### Enabling a source (R548, R551) -/

/-- The effect of one source of GX_INT_ENABLE when it is written. -/
theorem enableWrite_eq (v : Word) (s : State) :
    enableWrite v s = (List.range 19).foldl (fun t i =>
      if v.getLsbD i && !(rg s Reg.GX_INT_ENABLE).getLsbD i && sourceAsserted t i then intFire i t else t)
      (putReg Reg.GX_INT_ENABLE (v &&& 0x7FFFF) s) := rfl

theorem sourceAsserted_putReg_intEnable (v : Word) (s : State) (src : Nat) :
    sourceAsserted (putReg Reg.GX_INT_ENABLE v s) src = sourceAsserted s src := by
  unfold sourceAsserted
  refine Bool.eq_iff_iff.2 ?_
  simp only [List.any_eq_true]
  have hne : ∀ e ∈ sourceRegs, e.1 ≠ Reg.GX_INT_ENABLE := by decide
  constructor <;> rintro ⟨e, he, hb⟩ <;> refine ⟨e, he, ?_⟩
  · rwa [rg, regAt_putReg_ne s _ (hne e he)] at hb
  · rwa [rg, regAt_putReg_ne s _ (hne e he)]

theorem enableWrite_step_pendsMore (v old : Word) (t : State) (i : Nat) (h : t.gl.msixOn = []) :
    PendsMore t (if v.getLsbD i && !old.getLsbD i && sourceAsserted t i then intFire i t else t) := by
  split
  · exact intFire_pendsMore i h
  · exact PendsMore.refl t

theorem enableWrite_pendsMore (v : Word) {s : State} (h : s.gl.msixOn = []) :
    PendsMore (putReg Reg.GX_INT_ENABLE (v &&& 0x7FFFF) s) (enableWrite v s) :=
  foldl_pendsMore (s := putReg Reg.GX_INT_ENABLE (v &&& 0x7FFFF) s) _
    (enableWrite_step_pendsMore v (rg s Reg.GX_INT_ENABLE)) h _

theorem enableWrite_pends {v : Word} {src : Nat} {s : State} (h : s.gl.msixOn = []) (hs : src < 19)
    (hv : v.getLsbD src = true) (ho : (rg s Reg.GX_INT_ENABLE).getLsbD src = false) (ha : sourceAsserted s src = true) :
    wfld (rg s (Reg.GX_INT_VECTOR + 4 * src)) 5 0 ∈ (enableWrite v s).gl.msixPending := by
  refine foldl_pends (s := putReg Reg.GX_INT_ENABLE (v &&& 0x7FFFF) s) _ (enableWrite_step_pendsMore v _) h
    (List.mem_range.2 hs) fun t ht => ?_
  have hat : sourceAsserted t src = true := by
    rw [ht.sourceAsserted, sourceAsserted_putReg_intEnable, ha]
  have hen : (rg t Reg.GX_INT_ENABLE).getLsbD src = true := by
    have hmask : ∀ i < 19, (0x7FFFF : Word).getLsbD i = true := by decide
    rw [rg, ht.regAt, regAt_putReg_same, BitVec.getLsbD_and, hv, hmask src hs]
    rfl
  have hvec : rg t (Reg.GX_INT_VECTOR + 4 * src) = rg s (Reg.GX_INT_VECTOR + 4 * src) := by
    rw [rg, ht.regAt]
    exact regAt_putReg_ne s _ (by simp only [Reg.GX_INT_VECTOR, Reg.GX_INT_ENABLE]; omega)
  rw [hv, ho, hat, ← hvec]
  exact intFire_pends (ht.msixOn.trans h) hen

theorem exec_intEnableWrite_window {v : Word} {s : State} (h : served s Reg.GX_INT_ENABLE = true) :
    exec (.intEnableWrite none v) s = .next (enableWrite v s) := by
  change execIntEnableWrite none v s = _
  simp [execIntEnableWrite, h]

theorem exec_intEnableWrite_page {v : Word} {n : Nat} {s : State} (h : accessed s (pageKey Reg.GX_INST_INT_ENABLE n) = true) :
    exec (.intEnableWrite (some n) v) s = .next (pageEnableWrite n v s) := by
  change execIntEnableWrite (some n) v s = _
  simp [execIntEnableWrite, h]

theorem pageEnableWrite_step_pendsMore (n : Nat) (v old : Word) (t : State) (i : Nat) (h : t.gl.msixOn = []) :
    PendsMore t (if v.getLsbD i && !old.getLsbD i && (regAt t (pageKey Reg.GX_INST_INT_STATUS n)).getLsbD i
      then msixRaise n (wfld (regAt t (pageKey Reg.GX_INST_INT_VECTOR n)) (8 * i + 5) (8 * i)) t else t) := by
  split
  · exact msixRaise_pendsMore n _ h
  · exact PendsMore.refl t

theorem pageEnableWrite_pends {n bit : Nat} {v : Word} {s : State} (h : s.gl.msixOn = []) (hb : bit < 4)
    (hv : v.getLsbD bit = true) (ho : (regAt s (pageKey Reg.GX_INST_INT_ENABLE n)).getLsbD bit = false)
    (hs : (regAt s (pageKey Reg.GX_INST_INT_STATUS n)).getLsbD bit = true)
    (hm : wfld (regAt s (pageKey Reg.GX_INST_INT_VECTOR n)) (8 * bit + 5) (8 * bit) < msixVectors n) :
    64 * n + wfld (regAt s (pageKey Reg.GX_INST_INT_VECTOR n)) (8 * bit + 5) (8 * bit) ∈ (pageEnableWrite n v s).gl.msixPending := by
  have hkeep : ∀ o w, o ≠ Reg.GX_INST_INT_ENABLE →
      regAt (putReg (pageKey Reg.GX_INST_INT_ENABLE n) w s) (pageKey o n) = regAt s (pageKey o n) := fun o w hne =>
    regAt_putReg_ne s w (by unfold pageKey; omega)
  refine foldl_pends (s := putReg (pageKey Reg.GX_INST_INT_ENABLE n) (v &&& 0xF) s) _ (pageEnableWrite_step_pendsMore n v _) h
    (List.mem_range.2 hb) fun t ht => ?_
  have hstat : regAt t (pageKey Reg.GX_INST_INT_STATUS n) = regAt s (pageKey Reg.GX_INST_INT_STATUS n) := by
    rw [ht.regAt, hkeep _ _ (by decide)]
  have hvec : regAt t (pageKey Reg.GX_INST_INT_VECTOR n) = regAt s (pageKey Reg.GX_INST_INT_VECTOR n) := by
    rw [ht.regAt, hkeep _ _ (by decide)]
  rw [hv, ho, hstat, hs, hvec]
  exact msixRaise_pends n (ht.msixOn.trans h) hm

/-! ### Unmasking a vector or a function (R548) -/

/-- The state after the mask bit of a vector is cleared, before anything is sent. -/
def unmasked (fn v : Nat) (s : State) : State :=
  { s with gl := { s.gl with msixTable := mapPut 1 s.gl.msixTable (1024 * fn + (4 * v + 3)) 0 } }

theorem unmask_vector {fn v : Nat} (s : State) (hv : v < msixVectors fn) :
    unmask fn (some v) s = msixSend fn v (unmasked fn v s) := by
  have h4 : (4 * v + 3) / 4 = v := by omega
  have hm : (4 * v + 3) % 4 = 3 := by omega
  simp [unmask, msixWrite, unmasked, h4, hm, hv]

theorem msixWord_unmasked_other (fn v : Nat) {i : Nat} (s : State) (hi : i < 3) :
    msixWord (unmasked fn v s) fn v i = msixWord s fn v i := by
  unfold msixWord unmasked
  rw [mapGet_mapPut_ne _ _ _ (by omega)]

theorem msixOpen_unmasked {fn v : Nat} {s : State} (h : fn ∈ s.gl.msixOn) : msixOpen (unmasked fn v s) fn v = true := by
  have hw : msixWord (unmasked fn v s) fn v 3 = 0 := by
    unfold msixWord unmasked
    rw [if_pos rfl, ← Nat.add_assoc]
    exact getD_mapPut_same (1 : Word) s.gl.msixTable _ 0
  unfold msixOpen
  rw [hw]
  simpa [unmasked] using h

theorem unmask_vector_sends {fn v : Nat} {s : State} (hv : v < msixVectors fn) (hon : fn ∈ s.gl.msixOn)
    (hp : 64 * fn + v ∈ s.gl.msixPending) :
    unmask fn (some v) s =
      emit (.msix fn v (msixWord s fn v 1 ++ msixWord s fn v 0) (msixWord s fn v 2))
        { unmasked fn v s with gl := { (unmasked fn v s).gl with
            msixPending := s.gl.msixPending.filter (· != 64 * fn + v) } } := by
  have hc : ((unmasked fn v s).gl.msixPending.contains (64 * fn + v) && msixOpen (unmasked fn v s) fn v) = true := by
    rw [msixOpen_unmasked hon, Bool.and_true]
    exact List.elem_eq_true_of_mem hp
  rw [unmask_vector s hv, msixSend, if_pos hc, msixWord_unmasked_other fn v s (by decide),
    msixWord_unmasked_other fn v s (by decide), msixWord_unmasked_other fn v s (by decide)]
  rfl

theorem exec_msixVectorUnmask {fn : Nat} {vector : Option Nat} {s : State} (hp : powered s = true) (hb : s.fw.boot = .ready)
    (hi : (inst s fn).state ≠ .disabled) : exec (.msixVectorUnmask fn vector) s = .next (unmask fn vector s) := by
  have hc : (powered s && s.fw.boot == .ready && (inst s fn).state != .disabled) = true := by simp [hp, hb, hi]
  change execMsixVectorUnmask fn vector s = _
  rw [execMsixVectorUnmask, hc, whenOk_true]

theorem msixSend_msixOn (fn v : Nat) (s : State) : (msixSend fn v s).gl.msixOn = s.gl.msixOn := by
  unfold msixSend
  split <;> rfl

theorem unmask_function_opens (fn : Nat) (s : State) : fn ∈ (unmask fn none s).gl.msixOn := by
  unfold unmask
  refine foldl_maintains (fun t : State => fn ∈ t.gl.msixOn) _ (fun t v ht => ?_) _ _ (mem_insertNew.2 (.inr rfl))
  rwa [msixSend_msixOn]

/-- Settles O18: masked sources only become pending, and an open vector sends what is pending. -/
theorem enablingAndUnmaskingInterrupts : Obligations.EnablingAndUnmaskingInterrupts := by
  unfold Obligations.EnablingAndUnmaskingInterrupts
  refine ⟨fun v src s hserved hon hsrc hv ho ha => ?_, fun n bit v s hacc hon hb hv ho hs hm => ?_,
    fun fn v s hp hb hi hv hon hpend => ?_, fun fn s hp hb hi => ?_⟩
  · have hmore := enableWrite_pendsMore v hon
    refine ⟨_, exec_intEnableWrite_window hserved, ?_, enableWrite_pends hon hsrc hv ho ha, ?_⟩
    · rw [rg, hmore.regAt, regAt_putReg_same]
    · rw [hmore.frame]; rfl
  · exact ⟨_, exec_intEnableWrite_page hacc, pageEnableWrite_pends hon hb hv ho hs hm⟩
  · refine ⟨_, exec_msixVectorUnmask hp hb hi, ?_⟩
    rw [unmask_vector_sends hv hon hpend]
    refine ⟨rfl, ?_, rfl⟩
    simp [emit]
  · exact ⟨_, exec_msixVectorUnmask hp hb hi, unmask_function_opens fn s⟩

end Sys2Proof.Machine
end

section
/-! PROOFS. The tick's alignment: its states, the cells and PTP messages that move it, and the PTP pins. -/

namespace Sys2Proof.Machine

/-! ### Entering an alignment state -/

/-- The tick block on entering an alignment state, before its events. -/
def alignEntered (st : AlignState) (s : State) : State :=
  { s with tick := { s.tick with align := st, inTol := 0, outTol := 0, noInput := 0, noNbr := 0 } }

theorem enterAlign_eventsOnly (st : AlignState) (s : State) :
    eventsOnly (alignEntered st s) (enterAlign st s) [Reg.GX_TICK_EVENTS] := by
  have hraise : ∀ (c : Prop) [Decidable c] (u : State) (bit : Nat),
      eventsOnly u (if c then raise Reg.GX_TICK_EVENTS bit u else u) [Reg.GX_TICK_EVENTS] := by
    intro c _ u bit
    split
    · exact raise_eventsOnly u _ bit
    · exact eventsOnly_refl u _
  exact eventsOnly_mono (eventsOnly_trans (hraise (st = .aligned) _ 1) (hraise _ _ 0)) (by simp)

theorem eventsOnly_tick {s t : State} {ks : List Nat} (h : eventsOnly s t ks) : t.tick = s.tick := by rw [h.1]

@[simp] theorem enterAlign_tick (st : AlignState) (s : State) : (enterAlign st s).tick = (alignEntered st s).tick :=
  eventsOnly_tick (enterAlign_eventsOnly st s)

/-- All that entering a state changes. -/
theorem enterAlign_frame (st : AlignState) (s : State) :
    enterAlign st s = { s with tick := (alignEntered st s).tick, regs := (enterAlign st s).regs,
                               gl := (enterAlign st s).gl, out := (enterAlign st s).out } := by
  rw [(enterAlign_eventsOnly st s).1]
  rfl

theorem regAt_enterAlign_ne (st : AlignState) (s : State) {k : Nat} (h : k ≠ Reg.GX_TICK_EVENTS) :
    regAt (enterAlign st s) k = regAt s k :=
  (enterAlign_eventsOnly st s).2 k (by simpa using h)

theorem enterAlign_sets_acquired (s : State) : (rg (enterAlign .aligned s) Reg.GX_TICK_EVENTS).getLsbD 1 = true := by
  unfold enterAlign
  simp only [if_true, reduceCtorEq, or_self, and_false, if_false]
  exact raise_sets _ _ 1 (by decide)

theorem enterAlign_sets_lost {st : AlignState} {s : State} (hold : s.tick.align = .aligned ∨ s.tick.align = .holdover)
    (hst : st = .acquire ∨ st = .free) : (rg (enterAlign st s) Reg.GX_TICK_EVENTS).getLsbD 0 = true := by
  unfold enterAlign
  simp only [hold, hst, and_self, if_true]
  exact raise_sets _ _ 0 (by decide)

/-! ### The transitions of Table 1.4 -/

theorem exec_alignAcquired {s : State} (hp : powered s = true) (hd : acquiredDue s = true) :
    exec .alignAcquired s = .next (enterAlign .aligned s) := by
  change execAlignAcquired s = _
  rw [execAlignAcquired, hp, hd, Bool.and_self, whenOk_true]

theorem exec_alignAcquired_early {s : State} (hd : acquiredDue s = false) : exec .alignAcquired s = .next s := by
  change execAlignAcquired s = _
  rw [execAlignAcquired, hd, Bool.and_false, whenOk_false]

theorem exec_alignLost {s : State} (hp : powered s = true) (hd : alignLostDue s = true) :
    exec .alignLost s = .next (enterAlign .acquire s) := by
  change execAlignLost s = _
  rw [execAlignLost, hp, hd, Bool.and_self, whenOk_true]

theorem exec_alignLost_early {s : State} (hd : alignLostDue s = false) : exec .alignLost s = .next s := by
  change execAlignLost s = _
  rw [execAlignLost, hd, Bool.and_false, whenOk_false]

theorem exec_alignInputTimeout {s : State} (hp : powered s = true) (hd : inputTimeoutDue s = true) :
    exec .alignInputTimeout s = .next (enterAlign .free s) := by
  change execAlignInputTimeout s = _
  rw [execAlignInputTimeout, hp, hd, Bool.and_self, whenOk_true]

theorem exec_alignInputTimeout_early {s : State} (hd : inputTimeoutDue s = false) :
    exec .alignInputTimeout s = .next s := by
  change execAlignInputTimeout s = _
  rw [execAlignInputTimeout, hd, Bool.and_false, whenOk_false]

theorem exec_holdoverTimeout {s : State} (hp : powered s = true) (hd : holdoverDue s = true) :
    exec .holdoverTimeout s = .next (enterAlign .free s) := by
  change execHoldoverTimeout s = _
  rw [execHoldoverTimeout, hp, hd, Bool.and_self, whenOk_true]

theorem exec_holdoverTimeout_early {s : State} (hd : holdoverDue s = false) : exec .holdoverTimeout s = .next s := by
  change execHoldoverTimeout s = _
  rw [execHoldoverTimeout, hd, Bool.and_false, whenOk_false]

/-- Settles O7: each transition is `enterAlign` behind its count. -/
theorem alignmentTransitionsNeedTheirTicks : Obligations.AlignmentTransitionsNeedTheirTicks := by
  unfold Obligations.AlignmentTransitionsNeedTheirTicks
  refine ⟨fun s hp ha hn => ?_, fun s h => ?_, fun s hp ha hn => ?_, fun s h => ?_, fun s hp ha hn => ?_, fun s h => ?_,
    fun s hp ha hn => ?_, fun s h => ?_⟩
  · exact ⟨_, exec_alignAcquired hp (by simp [acquiredDue, ha, hn]), by simp [alignEntered], enterAlign_sets_acquired s⟩
  · exact exec_alignAcquired_early (by simpa [acquiredDue, Decidable.imp_iff_not_or] using h)
  · exact ⟨_, exec_alignLost hp (by simp [alignLostDue, ha, hn]), by simp [alignEntered],
      enterAlign_sets_lost ha (.inl rfl)⟩
  · exact exec_alignLost_early (by simp [alignLostDue, h])
  · exact ⟨_, exec_alignInputTimeout hp (by simp [inputTimeoutDue, ha, hn]), by simp [alignEntered]⟩
  · exact exec_alignInputTimeout_early (by simpa [inputTimeoutDue, Decidable.imp_iff_not_or] using h)
  · exact ⟨_, exec_holdoverTimeout hp (by simp [holdoverDue, ha, hn]), by simp [alignEntered],
      enterAlign_sets_lost (.inr ha) (.inr rfl)⟩
  · exact exec_holdoverTimeout_early (by simpa [holdoverDue, Decidable.imp_iff_not_or] using h)

/-! ### Alignment cells (R35, R210) -/

/-- The state code of a tick-alignment cell. -/
abbrev alignCellState (pay : BitVec 512) : Nat := leAt (payBytes pay) 8 1 % 4

theorem takeAlignCell_aligned {key : Nat} {pay : BitVec 512} {late : Int} {delay : Nat} {s : State}
    (h : 2 ≤ alignCellState pay) :
    mapGet (takeAlignCell key pay late delay s).tick.nbrOffsets key
        = some (late + 3 * (delay : Int) + 2 * ((leAt (payBytes pay) 9 1 % 64 : Nat) : Int)) ∧
      (s.tick.align = .free → s.tick.behind = false → (takeAlignCell key pay late delay s).tick.align = .acquire) := by
  have hst : leAt (payBytes pay) 8 1 % 4 = 2 ∨ leAt (payBytes pay) 8 1 % 4 = 3 := by
    have := Nat.mod_lt (leAt (payBytes pay) 8 1) (show 0 < 4 by decide)
    change 2 ≤ leAt (payBytes pay) 8 1 % 4 at h
    omega
  unfold takeAlignCell
  simp only [hst, if_true, true_and]
  refine ⟨?_, fun ha hb => ?_⟩
  · split <;> simp [alignEntered]
  · simp [ha, hb, alignEntered]

theorem takeAlignCell_unaligned {key : Nat} {pay : BitVec 512} {late : Int} {delay : Nat} {s : State}
    (h : alignCellState pay < 2) :
    takeAlignCell key pay late delay s =
      { s with tick := { s.tick with nbrCounts := mapSet s.tick.nbrCounts key (BitVec.ofNat 64 (leAt (payBytes pay) 0 8)) } } := by
  have hst : ¬(leAt (payBytes pay) 8 1 % 4 = 2 ∨ leAt (payBytes pay) 8 1 % 4 = 3) := by
    change leAt (payBytes pay) 8 1 % 4 < 2 at h
    omega
  unfold takeAlignCell
  simp only [hst, if_false, false_and]

theorem exec_tickAlignCellReceive {p : Nat} {pay : BitVec 512} {late : Int} {s : State} (hr : running s = true) (hp : p < 32)
    (hu : linkUp s p = true) :
    exec (.tickAlignCellReceive p pay late) s = .next (takeAlignCell p pay late (cport s p).delay s) := by
  change execTickAlignCellReceive p pay late s = _
  rw [execTickAlignCellReceive, if_pos hp, hr, hu, Bool.and_self, whenOk_true]

/-! ### The PTP client and its port (R36, R229, R559) -/

theorem portCount_le (mode : Nat) : portCount mode ≤ 32 := by
  unfold portCount
  split <;> omega

/-- Without the PTP port the client's source is another one. -/
theorem ptpSource_portDown {s : State} (h : s.pins.ptpPortUp = false) : ptpSource s ≠ some 32 := by
  intro he
  rw [ptpSource, h, if_neg (by decide)] at he
  have hm := List.mem_of_find?_eq_some he
  have := portCount_le s.lz.run.widthMode
  rw [List.mem_range] at hm
  omega

theorem ptpLoseLock_unlocked (s : State) : (ptpLoseLock s).tick.ptpLocked = false := by
  unfold ptpLoseLock
  split
  · simp only []
    split <;> simp [alignEntered]
  · simpa using ‹¬s.tick.ptpLocked = true›

theorem ptpLoseLock_frame (s : State) :
    ptpLoseLock s = { s with tick := (ptpLoseLock s).tick, regs := (ptpLoseLock s).regs, gl := (ptpLoseLock s).gl,
                             out := (ptpLoseLock s).out } := by
  unfold ptpLoseLock
  split
  · simp only []
    split
    · rw [enterAlign_frame, raise_frame]
    · rw [raise_frame]
  · rfl

theorem ptpMoved_pins (old : Option Nat) (s : State) : (ptpMoved old s).pins = s.pins := by
  unfold ptpMoved
  split
  · rfl
  · split
    · rw [ptpLoseLock_frame]
    · rfl

theorem ptpMoved_unlocked {old : Option Nat} {s : State} (h : ptpSource s ≠ old) (ho : old.isSome = true) :
    (ptpMoved old s).tick.ptpLocked = false := by
  rw [ptpMoved, if_neg h, if_pos ho]
  exact ptpLoseLock_unlocked s

theorem exec_ptpMessageReceive_ownPort {x : Int} {s : State} (hr : running s = true) (hb : s.fw.restarting ≠ some 2)
    (hu : s.pins.ptpPortUp = true) (hl : s.tick.ptpLocked = true) :
    exec (.ptpMessageReceive 32 (some x)) s = .next { s with tick := { s.tick with ptpOffset := some x } } := by
  have hc : ptpServed s = true := by simp [ptpServed, hr, bantamBusy, hb]
  change execPtpMessageReceive 32 (some x) s = _
  rw [execPtpMessageReceive, hc, whenOk_true]
  simp [ptpSource, hu, hl]

theorem exec_ptpPortLinkChange {up : Bool} {s : State} (hp : powered s = true) (hb : s.fw.boot = .ready) :
    exec (.ptpPortLinkChange up) s
      = .next (ptpMoved (ptpSource s) { s with pins := { s.pins with ptpPortUp := up } }) := by
  have hc : (powered s && s.fw.boot == .ready) = true := by simp [hp, hb]
  change execPtpPortLinkChange up s = _
  rw [execPtpPortLinkChange, hc, whenOk_true]

theorem exec_ppsPulse {s : State} (hp : powered s = true) (hl : s.tick.ptpLocked = true) :
    exec .ppsPulse s = .next (emit .ppsOut { s with pins := { s.pins with ppsCount := s.pins.ppsCount + 1 } }) := by
  change execPpsPulse s = _
  rw [execPpsPulse, hp, hl, Bool.and_self, whenOk_true]

/-- Settles O8, by what an alignment cell of each state does and by the PTP source of the port that is lost. -/
theorem alignmentInputs : Obligations.AlignmentInputs := by
  unfold Obligations.AlignmentInputs
  refine ⟨fun p pay late s hr hp hu hst => ?_, fun p pay late s hr hp hu hst => ?_, fun x s hr hb hu hl => ?_,
    fun up s hp hb => ?_, fun s hp hl => ?_⟩
  · exact ⟨_, exec_tickAlignCellReceive hr hp hu, takeAlignCell_aligned hst⟩
  · refine ⟨_, exec_tickAlignCellReceive hr hp hu, ?_⟩
    rw [takeAlignCell_unaligned hst]
    exact ⟨rfl, rfl, rfl⟩
  · exact ⟨_, exec_ptpMessageReceive_ownPort hr hb hu hl, rfl, rfl⟩
  · refine ⟨_, exec_ptpPortLinkChange hp hb, by rw [ptpMoved_pins], fun hup hdown => ?_⟩
    have hold : ptpSource s = some 32 := by rw [ptpSource, if_pos hup]
    rw [hold]
    exact ptpMoved_unlocked (ptpSource_portDown hdown) rfl
  · exact ⟨_, exec_ppsPulse hp hl, rfl, rfl⟩

end Sys2Proof.Machine
end

section
/-! PROOFS. Commits: the commit write, the group commit, and a set that takes effect. -/

namespace Sys2Proof.Machine

/-! ### Values become live (R67) -/

/-- The value of a register of a set once its CMT bits are live. -/
abbrev liveValue (s : State) (e : Nat × Word) : Word := (regAt s e.1 &&& ~~~(cmtMask e.1)) ||| (e.2 &&& cmtMask e.1)

theorem makeLive_cons (e : Nat × Word) (vals : NMap Word) (s : State) :
    makeLive (e :: vals) s = makeLive vals (putReg e.1 (liveValue s e) s) := rfl

@[simp] theorem makeLive_nil (s : State) : makeLive [] s = s := rfl

theorem makeLive_frame (vals : NMap Word) (s : State) : makeLive vals s = { s with regs := (makeLive vals s).regs } := by
  induction vals generalizing s with
  | nil => rfl
  | cons e t ih =>
    rw [makeLive_cons, ih]
    rfl

theorem regAt_makeLive_other {vals : NMap Word} {k : Nat} (s : State) (h : ∀ e ∈ vals, e.1 ≠ k) :
    regAt (makeLive vals s) k = regAt s k := by
  induction vals generalizing s with
  | nil => rfl
  | cons e t ih =>
    rw [makeLive_cons, ih _ fun x hx => h x (List.mem_cons_of_mem _ hx)]
    exact regAt_putReg_ne s _ (h e List.mem_cons_self).symm

theorem regAt_makeLive_listed {vals : NMap Word} (hs : mapSorted vals) {e : Nat × Word} (he : e ∈ vals) (s : State) :
    regAt (makeLive vals s) e.1 = liveValue s e := by
  induction vals generalizing s with
  | nil => exact absurd he List.not_mem_nil
  | cons a t ih =>
    obtain ⟨ha, ht⟩ := List.pairwise_cons.1 hs
    rw [makeLive_cons]
    rcases List.mem_cons.1 he with rfl | he
    · rw [regAt_makeLive_other _ fun x hx => Nat.ne_of_gt (ha x hx), regAt_putReg_same]
    · rw [ih ht he]
      unfold liveValue
      rw [regAt_putReg_ne s _ (Nat.ne_of_gt (ha e he))]

/-! ### The commit registers -/

theorem commitBlocks_find {b : CommitBlock} (hb : b ∈ commitBlocks) : commitBlocks.find? (fun x => x.reg == b.reg) = some b := by
  revert b
  decide

theorem commitBlocks_block_inj {a b : CommitBlock} (ha : a ∈ commitBlocks) (hb : b ∈ commitBlocks) (h : a.block = b.block) :
    a = b := by
  have hall : ∀ a ∈ commitBlocks, ∀ b ∈ commitBlocks, a.block = b.block → a = b := by decide
  exact hall a ha b hb h

theorem commitBlocks_reject_lt {b : CommitBlock} (hb : b ∈ commitBlocks) {r : Nat × Nat} (hr : b.reject = some r) : r.2 < 32 := by
  revert b
  simp only [commitBlocks]
  intro b hb hr
  simp only [List.mem_cons, List.not_mem_nil, or_false] at hb
  rcases hb with rfl | rfl | rfl | rfl | rfl | rfl | rfl | rfl | rfl <;> simp at hr <;> subst hr <;> decide

/-! ### The commit write (R41, R67, R68) -/

theorem exec_commitWrite {b : CommitBlock} (seq : Word) {s : State} (hb : b ∈ commitBlocks) (hs : served s b.reg = true) :
    exec (.commitWrite b.reg seq) s = .next (commitWrite b seq s) := by
  change execCommitWrite b.reg seq s = _
  rw [execCommitWrite, commitBlocks_find hb]
  simp only [hs, whenOk_true]

theorem exec_tickCommitWrite (seq : Word) {s : State} (hs : served s Reg.GX_TICK_COMMIT = true) :
    exec (.tickCommitWrite seq) s
      = .next (commitWrite ⟨0x1, Reg.GX_TICK_COMMIT, some (Reg.GX_TICK_EVENTS, 3)⟩ seq s) := by
  change execTickCommitWrite seq s = _
  rw [execTickCommitWrite, hs, whenOk_true]

theorem commitWrite_accepted (b : CommitBlock) (seq : Word) {s : State} (h : commitBad s (period s) b.block = false) :
    commitWrite b seq s = commitMake b.block seq false (if b.block = 0x1 then activateTick s else 0) s := by
  rw [commitWrite, h]
  rfl

theorem commitWrite_rejected (b : CommitBlock) (seq : Word) {s : State} (h : commitBad s (period s) b.block = true) :
    commitWrite b seq s = commitReject b s := by
  rw [commitWrite, h]
  rfl

theorem commitReject_frame (b : CommitBlock) (s : State) :
    commitReject b s = { s with regs := (commitReject b s).regs, gl := (commitReject b s).gl, out := (commitReject b s).out } := by
  unfold commitReject
  cases b.reject with
  | none => rfl
  | some r => exact raise_frame s r.1 r.2

@[simp] theorem commitReject_commits (b : CommitBlock) (s : State) : (commitReject b s).commits = s.commits := by
  rw [commitReject_frame]

theorem commitReject_rejected (b : CommitBlock) (s : State) : (commitReject b s).gl.rejected = s.gl.rejected := by
  unfold commitReject
  cases b.reject with
  | none => rfl
  | some r =>
    change (raise r.1 r.2 s).gl.rejected = s.gl.rejected
    rw [(raise_eventsOnly s r.1 r.2).1]

theorem commitReject_sets {b : CommitBlock} (hb : b ∈ commitBlocks) (s : State) {r : Nat × Nat} (hr : b.reject = some r) :
    (rg (commitReject b s) r.1).getLsbD r.2 = true := by
  rw [commitReject, hr]
  exact raise_sets s r.1 r.2 (commitBlocks_reject_lt hb hr)

/-- Settles O12, by the two outcomes of a commit write. -/
theorem commitWriteMakesOrRejectsASet : Obligations.CommitWriteMakesOrRejectsASet := by
  unfold Obligations.CommitWriteMakesOrRejectsASet
  refine ⟨fun b seq s hb hne hs hok => ?_, fun b seq s hb hs hbad => ?_⟩
  · refine ⟨_, exec_commitWrite seq hb hs, ?_⟩
    rw [commitWrite_accepted b seq hok, if_neg hne]
    exact ⟨rfl, mapGet_mapSet_same _ _ _, fun k hk => mapGet_mapSet_ne _ _ hk⟩
  · refine ⟨_, exec_commitWrite seq hb hs, ?_⟩
    rw [commitWrite_rejected b seq hbad]
    exact ⟨commitReject_commits b s, fun r hr => commitReject_sets hb s hr, commitReject_frame b s⟩

/-! ### The group commit (R546) -/

/-- The blocks of a group commit, each with its bit. -/
def namedBlocks (v : Word) : List (CommitBlock × Nat) := commitBlocks.zipIdx.filter (fun e => v.getLsbD e.2)

/-- Those of them whose check fails. -/
def badBlocks (v : Word) (s : State) : List (CommitBlock × Nat) :=
  (namedBlocks v).filter (fun e => commitBad s (period s) e.1.block)

theorem mem_namedBlocks {v : Word} {b : CommitBlock} {i : Nat} :
    (b, i) ∈ namedBlocks v ↔ commitBlocks[i]? = some b ∧ v.getLsbD i = true := by
  simp [namedBlocks, List.mem_zipIdx_iff_getElem?]

theorem mem_badBlocks {v : Word} {s : State} {b : CommitBlock} {i : Nat} :
    (b, i) ∈ badBlocks v s ↔
      commitBlocks[i]? = some b ∧ v.getLsbD i = true ∧ commitBad s (period s) b.block = true := by
  simp [badBlocks, mem_namedBlocks, and_assoc]

theorem badBlocks_indices_sorted (v : Word) (s : State) : ((badBlocks v s).map Prod.snd).Pairwise (· < ·) := by
  have hz : (commitBlocks.zipIdx.map Prod.snd).Pairwise (· < ·) := by decide
  have hsub : ((badBlocks v s).map Prod.snd).Sublist (commitBlocks.zipIdx.map Prod.snd) :=
    (List.filter_sublist.trans List.filter_sublist).map _
  exact hz.sublist hsub

/-- A sum of different powers of two has their bits. -/
theorem testBit_sum_two_pow {l : List Nat} {i : Nat} (h : l.Pairwise (· < ·)) (hi : i ∈ l) :
    (l.map (fun i => 2 ^ i)).sum.testBit i = true := by
  have hmul : ∀ {l : List Nat} {a : Nat}, (∀ x ∈ l, a < x) → ∃ k, (l.map (fun i => 2 ^ i)).sum = 2 ^ (a + 1) * k := by
    intro l a hl
    induction l with
    | nil => exact ⟨0, rfl⟩
    | cons b t ih =>
      obtain ⟨k, hk⟩ := ih fun x hx => hl x (List.mem_cons_of_mem _ hx)
      refine ⟨2 ^ (b - (a + 1)) + k, ?_⟩
      rw [List.map_cons, List.sum_cons, hk, Nat.mul_add, ← Nat.pow_add,
        Nat.add_sub_cancel' (hl b List.mem_cons_self)]
  induction l with
  | nil => exact absurd hi List.not_mem_nil
  | cons a t ih =>
    obtain ⟨ha, ht⟩ := List.pairwise_cons.1 h
    obtain ⟨k, hk⟩ := hmul ha
    rw [List.map_cons, List.sum_cons, hk, Nat.add_comm, Nat.testBit_two_pow_mul_add k (Nat.pow_lt_pow_right (by decide) (by omega))]
    rcases List.mem_cons.1 hi with rfl | hi
    · rw [if_pos (by omega), Nat.testBit_two_pow_self]
    · have hlt := ha i hi
      have hbit := ih ht hi
      rw [hk, Nat.testBit_two_pow_mul, Bool.and_eq_true] at hbit
      rw [if_neg (by omega)]
      exact hbit.2

theorem sum_badBlocks_testBit {v : Word} {s : State} {b : CommitBlock} {i : Nat} (h : (b, i) ∈ badBlocks v s) :
    ((badBlocks v s).map (fun e : CommitBlock × Nat => 2 ^ e.2)).sum.testBit i = true := by
  have hsum : (badBlocks v s).map (fun e : CommitBlock × Nat => 2 ^ e.2) = ((badBlocks v s).map Prod.snd).map (fun i => 2 ^ i) := by
    rw [List.map_map]
    rfl
  rw [hsum]
  exact testBit_sum_two_pow (badBlocks_indices_sorted v s) (List.mem_map_of_mem (f := Prod.snd) h)

/-- A group commit without the tick block: every block's set or none. -/
theorem commitMulti_eq {v : Word} {s : State} (h0 : v.getLsbD 0 = false) (hn : (namedBlocks v).isEmpty = false) :
    commitMulti v s =
      if (badBlocks v s).isEmpty then
        (namedBlocks v).foldl (fun t e => commitMake e.1.block (rg s Reg.GX_COMMIT_MULTI_SEQ) true 0 t)
          { s with gl := { s.gl with rejected := ((badBlocks v s).map (fun e => 2 ^ e.2)).sum } }
      else
        (badBlocks v s).foldl (fun t e => commitReject e.1 t)
          { s with gl := { s.gl with rejected := ((badBlocks v s).map (fun e => 2 ^ e.2)).sum } } := by
  unfold badBlocks
  unfold namedBlocks at hn ⊢
  simp only [commitMulti, h0, Bool.false_eq_true, if_false, hn]

/-- Induction over a list from its end, for what a fold has made so far. -/
theorem snoc_induction {α : Type} {p : List α → Prop} (nil : p []) (snoc : ∀ l a, p l → p (l ++ [a])) (l : List α) : p l := by
  rw [← l.reverse_reverse]
  induction l.reverse with
  | nil => exact nil
  | cons a t ih =>
    rw [List.reverse_cons]
    exact snoc _ _ ih

/-- The sets of a group, as they stand after it: each named block holds its shadows' set. -/
theorem foldl_commitMake {seq : Word} {l : List (CommitBlock × Nat)} {s : State} :
    let t := l.foldl (fun t e => commitMake e.1.block seq true 0 t) s
    t = { s with commits := t.commits } ∧
      ∀ e ∈ l, mapGet t.commits e.1.block = some { seq := seq, vals := commitVals s e.1.block, group := true } := by
  induction l using snoc_induction with
  | nil => exact ⟨rfl, fun _ h => absurd h List.not_mem_nil⟩
  | snoc l a ih =>
    obtain ⟨hframe, hsets⟩ := ih
    simp only [List.foldl_append, List.foldl_cons, List.foldl_nil]
    generalize l.foldl (fun t e => commitMake e.1.block seq true 0 t) s = t at hframe hsets ⊢
    have hvals : ∀ b, commitVals t b = commitVals s b := fun b => by rw [hframe]; rfl
    refine ⟨by rw [hframe]; rfl, fun e he => ?_⟩
    unfold commitMake
    by_cases hb : e.1.block = a.1.block
    · rw [hb, mapGet_mapSet_same, hvals]
    · rw [mapGet_mapSet_ne _ _ hb]
      rcases List.mem_append.1 he with he | he
      · exact hsets e he
      · rw [List.mem_singleton] at he
        exact absurd (he ▸ rfl) hb

theorem foldl_commitReject (l : List (CommitBlock × Nat)) (s : State) :
    (l.foldl (fun t e => commitReject e.1 t) s).commits = s.commits ∧
      (l.foldl (fun t e => commitReject e.1 t) s).gl.rejected = s.gl.rejected :=
  ⟨foldl_keeps State.commits _ (fun t e => commitReject_commits e.1 t) l s,
    foldl_keeps (fun t : State => t.gl.rejected) _ (fun t e => commitReject_rejected e.1 t) l s⟩

theorem exec_commitMulti (v : Word) {s : State} (hs : served s Reg.GX_COMMIT_MULTI = true) :
    exec (.commitMulti v) s = .next (commitMulti v s) := by
  change execCommitMulti v s = _
  rw [execCommitMulti, hs, whenOk_true]

/-- Settles O14: with no failing block every named one gets its set, and with one none does. -/
theorem groupCommitIsAllOrNothing : Obligations.GroupCommitIsAllOrNothing := by
  unfold Obligations.GroupCommitIsAllOrNothing
  refine ⟨fun v s hs h0 hok hsome => ?_, fun v s i b hs h0 hb hv hbad => ?_⟩
  · obtain ⟨i, hi, hv⟩ := hsome
    have hn : (namedBlocks v).isEmpty = false := by
      have : (commitBlocks[i], i) ∈ namedBlocks v := mem_namedBlocks.2 ⟨List.getElem?_eq_getElem hi, hv⟩
      exact List.isEmpty_eq_false_iff_exists_mem.2 ⟨_, this⟩
    have hnone : badBlocks v s = [] := by
      refine List.eq_nil_iff_forall_not_mem.2 fun e he => ?_
      obtain ⟨b, j⟩ := e
      obtain ⟨hb, hj, hbad⟩ := mem_badBlocks.1 he
      rw [hok j b hb hj] at hbad
      exact absurd hbad (by decide)
    refine ⟨_, exec_commitMulti v hs, ?_⟩
    rw [commitMulti_eq h0 hn, hnone]
    simp only [List.isEmpty_nil, if_true, List.map_nil, List.sum_nil]
    obtain ⟨hframe, hsets⟩ := foldl_commitMake (seq := rg s Reg.GX_COMMIT_MULTI_SEQ) (l := namedBlocks v)
      (s := { s with gl := { s.gl with rejected := 0 } })
    refine ⟨by rw [hframe], by rw [hframe], fun i b hb hv => ?_⟩
    exact hsets (b, i) (mem_namedBlocks.2 ⟨hb, hv⟩)
  · have hmem : (b, i) ∈ badBlocks v s := mem_badBlocks.2 ⟨hb, hv, hbad⟩
    have hn : (namedBlocks v).isEmpty = false :=
      List.isEmpty_eq_false_iff_exists_mem.2 ⟨_, mem_namedBlocks.2 ⟨hb, hv⟩⟩
    have hnb : (badBlocks v s).isEmpty = false := List.isEmpty_eq_false_iff_exists_mem.2 ⟨_, hmem⟩
    refine ⟨_, exec_commitMulti v hs, ?_⟩
    rw [commitMulti_eq h0 hn, hnb, if_neg (by decide)]
    obtain ⟨hcommits, hrej⟩ := foldl_commitReject (badBlocks v s)
      { s with gl := { s.gl with rejected := ((badBlocks v s).map (fun e => 2 ^ e.2)).sum } }
    exact ⟨hcommits, by rw [hrej]; exact sum_badBlocks_testBit hmem⟩

/-! ### A set takes effect (R41, R67) -/

/-- The test and the taking of one block's set, in a pass over the blocks. -/
abbrev takeIfDue (due : CommitSet → Bool) (s : State) (b : CommitBlock) : State :=
  match mapGet s.commits b.block with
  | some c => if due c then commitTake b c s else s
  | none => s

theorem foldl_takeIfDue_none (due : CommitSet → Bool) (l : List CommitBlock) {s : State} (h : s.commits = []) :
    l.foldl (takeIfDue due) s = s := by
  induction l with
  | nil => rfl
  | cons a t ih =>
    have : takeIfDue due s a = s := by simp [takeIfDue, h]
    rw [List.foldl_cons, this, ih]

/-- With one pending set the pass over the blocks takes that set alone. -/
theorem foldl_takeIfDue_one {due : CommitSet → Bool} {l : List CommitBlock} {b : CommitBlock} {c : CommitSet} {s : State}
    (hl : ∀ a ∈ l, a.block = b.block → a = b) (hb : b ∈ l) (hs : s.commits = [(b.block, c)]) (hd : due c = true)
    (he : (commitTake b c s).commits = []) : l.foldl (takeIfDue due) s = commitTake b c s := by
  induction l with
  | nil => exact absurd hb List.not_mem_nil
  | cons a t ih =>
    rw [List.foldl_cons]
    by_cases hab : a.block = b.block
    · obtain rfl := hl a List.mem_cons_self hab
      have : takeIfDue due s a = commitTake a c s := by simp [takeIfDue, hs, mapGet, hd]
      rw [this, foldl_takeIfDue_none due t he]
    · have hskip : takeIfDue due s a = s := by simp [takeIfDue, hs, mapGet, Ne.symm hab]
      have hbt : b ∈ t := (List.mem_cons.1 hb).resolve_left fun h => hab (h ▸ rfl)
      rw [hskip, ih (fun x hx => hl x (List.mem_cons_of_mem _ hx)) hbt]

theorem commitsTake_one {due : CommitSet → Bool} {b : CommitBlock} {c : CommitSet} {s : State} (hb : b ∈ commitBlocks)
    (hs : s.commits = [(b.block, c)]) (hd : due c = true) (he : (commitTake b c s).commits = []) :
    commitsTake due s = tickResize s (commitTake b c s) := by
  have := foldl_takeIfDue_one (due := due) (fun a ha => commitBlocks_block_inj ha hb) hb hs hd he
  unfold commitsTake
  exact congrArg (tickResize s) this

theorem takeIfDue_early {due : CommitSet → Bool} {n : Nat} {c : CommitSet} {s : State} (hs : s.commits = [(n, c)])
    (hd : due c = false) (b : CommitBlock) : takeIfDue due s b = s := by
  by_cases h : n = b.block
  · simp [takeIfDue, hs, mapGet, h, hd]
  · simp [takeIfDue, hs, mapGet, h]

theorem tickResize_same {old s : State} (h : period old = period s) : tickResize old s = s := if_pos h

/-- A set that is not due waits. -/
theorem commitsTake_early {due : CommitSet → Bool} {n : Nat} {c : CommitSet} {s : State} (hs : s.commits = [(n, c)])
    (hd : due c = false) : commitsTake due s = s := by
  have hfold : ∀ l : List CommitBlock, l.foldl (takeIfDue due) s = s := by
    intro l
    induction l with
    | nil => rfl
    | cons a t ih => rw [List.foldl_cons, takeIfDue_early hs hd a, ih]
  have h := hfold commitBlocks
  unfold commitsTake
  exact (congrArg (tickResize s) h).trans (tickResize_same rfl)

theorem mapErase_single {α : Type} (k : Nat) (v : α) : mapErase [(k, v)] k = [] := by simp [mapErase]

/-- A set of a block without further effects: its values become live and the commit register returns its number. -/
theorem commitTake_plain {b : CommitBlock} {c : CommitSet} {s : State} (hb : b.block ∈ [0x4, 0x5, 0x6, 0x7])
    (hs : s.commits = [(b.block, c)]) :
    commitTake b c s = putReg b.reg c.seq (makeLive c.vals { s with commits := [] }) := by
  have h8 : b.block ≠ 0x8 := by rintro h; rw [h] at hb; exact absurd hb (by decide)
  unfold commitTake
  simp only [hs, h8, if_false, mapErase_single]
  simp only [List.mem_cons, List.not_mem_nil, or_false] at hb
  rcases hb with h | h | h | h <;> simp only [h]

theorem commitBlocks_reg_block {b : CommitBlock} (hb : b ∈ commitBlocks) : blockOf b.reg = b.block := by
  revert b
  decide

theorem exec_commitApply {s : State} (hp : powered s = true) :
    exec .commitApply s = .next (commitsTake (fun c => c.atTick == 0) s) := by
  change execCommitApply s = _
  rw [execCommitApply, hp, whenOk_true]

/-- Settles O15: the one pending set is `makeLive` and the commit register's number, and PERIOD stays. -/
theorem commitAppliesTheWholeSet : Obligations.CommitAppliesTheWholeSet := by
  unfold Obligations.CommitAppliesTheWholeSet
  intro b c s hb hblock hp hs hat hsorted hreg hof
  have htake := commitTake_plain (c := c) (s := s) hblock hs
  have hcommits : (commitTake b c s).commits = [] := by
    rw [htake, putReg_commits, makeLive_frame]
  have hother : ∀ k, k ≠ b.reg → (∀ e ∈ c.vals, e.1 ≠ k) → regAt (commitTake b c s) k = regAt s k := by
    intro k hk hv
    rw [htake, regAt_putReg_ne _ _ hk, regAt_makeLive_other _ hv]
    rfl
  have hne1 : b.block ≠ 0x1 := by rintro h; rw [h] at hblock; exact absurd hblock (by decide)
  have hperiod : period s = period (commitTake b c s) := by
    have h1 : blockOf Reg.GX_TICK_PERIOD = 0x1 := by decide
    unfold period
    rw [rg, rg, hother]
    · rintro he
      exact hne1 (by rw [← commitBlocks_reg_block hb, ← he, h1])
    · rintro e he hk
      exact hne1 (by rw [← hof e he, hk, h1])
  have hall : commitsTake (fun c => c.atTick == 0) s = commitTake b c s := by
    rw [commitsTake_one hb hs (by simp [hat]) hcommits, tickResize_same hperiod]
  refine ⟨_, exec_commitApply hp, ?_⟩
  rw [hall]
  refine ⟨hcommits, ?_, fun e he => ?_, hother, ?_⟩
  · rw [htake, rg, regAt_putReg_same]
  · rw [htake, regAt_putReg_ne _ _ (hreg e he), regAt_makeLive_listed hsorted he]
    rfl
  · rw [htake, makeLive_frame]
    rfl

/-! ### The tick block's set (R33, R41) -/

/-- A tick-block set without values: the commit register returns its number and the anchor pair is set. -/
theorem commitTake_tick (c : CommitSet) {s : State} (hs : s.commits = [(0x1, c)]) (hv : c.vals = []) :
    commitTake ⟨0x1, Reg.GX_TICK_COMMIT, some (Reg.GX_TICK_EVENTS, 3)⟩ c s
      = tickCommitted c.atTick (putReg Reg.GX_TICK_COMMIT c.seq { s with commits := [] }) := by
  unfold commitTake
  simp [hs, hv, mapErase_single]

/-- The anchor that a tick-block set leaves. -/
def anchored (act : BitVec 64) (s : State) : State :=
  { s with tick := { s.tick with anchorTick := act, anchorTime := rg s Reg.GX_TICK_EPOCH_HI ++ rg s Reg.GX_TICK_EPOCH_LO,
                                 behind := false } }

theorem tickCommitted_eq (act : BitVec 64) (s : State) :
    tickCommitted act s = if s.tick.align = .free && s.tick.ptpLocked then enterAlign .acquire (anchored act s) else anchored act s :=
  rfl

theorem regAt_tickCommitted (act : BitVec 64) (s : State) {k : Nat} (h : k ≠ Reg.GX_TICK_EVENTS) :
    regAt (tickCommitted act s) k = regAt s k := by
  rw [tickCommitted_eq]
  split
  · rw [regAt_enterAlign_ne _ _ h]
    rfl
  · rfl

theorem tickCommitted_commits (act : BitVec 64) (s : State) : (tickCommitted act s).commits = s.commits := by
  rw [tickCommitted_eq]
  split
  · rw [enterAlign_frame]
    rfl
  · rfl

theorem tickCommitted_anchor (act : BitVec 64) (s : State) :
    (tickCommitted act s).tick.anchorTick = act ∧
      (tickCommitted act s).tick.anchorTime = rg s Reg.GX_TICK_EPOCH_HI ++ rg s Reg.GX_TICK_EPOCH_LO ∧
      (tickCommitted act s).tick.behind = false := by
  rw [tickCommitted_eq]
  split
  · rw [enterAlign_tick]
    exact ⟨rfl, rfl, rfl⟩
  · exact ⟨rfl, rfl, rfl⟩

theorem exec_tickCommitActivate {s : State} (hp : powered s = true) :
    exec .tickCommitActivate s = .next (commitsTake (fun c => c.atTick != 0 && setDue s.tick.count c) s) := by
  change execTickCommitActivate s = _
  rw [execTickCommitActivate, hp, whenOk_true]

/-- What R41 rejects of a tick-block set. -/
theorem commitBad_tick_iff (per : Nat) (s : State) :
    commitBad s per 0x1 = true ↔
      (activateTick s ≠ 0 ∧ (activateTick s).toNat ≤ s.tick.count.toNat) ∨
        period (makeLive (commitVals s 0x1) s) < 4 ∨ 64 < period (makeLive (commitVals s 0x1) s) ∨
        guardFits (period (makeLive (commitVals s 0x1) s)) (guardClk (makeLive (commitVals s 0x1) s)) = false := by
  simp [commitBad, tickCommitBad, activateTick, or_assoc]

/-- Settles O13: the write by its check, the activation by the count and the set's tick. -/
theorem tickCommitWaitsForItsTick : Obligations.TickCommitWaitsForItsTick := by
  unfold Obligations.TickCommitWaitsForItsTick
  have hb : (⟨0x1, Reg.GX_TICK_COMMIT, some (Reg.GX_TICK_EVENTS, 3)⟩ : CommitBlock) ∈ commitBlocks := by decide
  refine ⟨fun seq s hs hok => ?_, fun seq s v hs hv hbad => ?_, fun c s hp hs hat hvals hcount => ?_, fun c s hs hcount => ?_⟩
  · refine ⟨_, exec_tickCommitWrite seq hs, ?_⟩
    rw [commitWrite_accepted _ seq hok]
    exact ⟨rfl, mapGet_mapSet_same _ _ _⟩
  · subst hv
    have hrej := (commitBad_tick_iff (period s) s).2 hbad
    refine ⟨_, exec_tickCommitWrite seq hs, ?_⟩
    rw [commitWrite_rejected _ seq hrej]
    exact ⟨commitReject_commits _ s, commitReject_sets hb s (r := (Reg.GX_TICK_EVENTS, 3)) rfl⟩
  · have htake := commitTake_tick c hs hvals
    have hreg : ∀ k, k ≠ Reg.GX_TICK_EVENTS → k ≠ Reg.GX_TICK_COMMIT →
        regAt (commitTake ⟨0x1, Reg.GX_TICK_COMMIT, some (Reg.GX_TICK_EVENTS, 3)⟩ c s) k = regAt s k := by
      intro k hk hk'
      rw [htake, regAt_tickCommitted _ _ hk, regAt_putReg_ne _ _ hk']
      rfl
    have hcommits : (commitTake ⟨0x1, Reg.GX_TICK_COMMIT, some (Reg.GX_TICK_EVENTS, 3)⟩ c s).commits = [] := by
      rw [htake, tickCommitted_commits, putReg_commits]
    have hperiod : period s = period (commitTake ⟨0x1, Reg.GX_TICK_COMMIT, some (Reg.GX_TICK_EVENTS, 3)⟩ c s) := by
      unfold period
      rw [rg, rg, hreg _ (by decide) (by decide)]
    refine ⟨_, exec_tickCommitActivate hp, ?_⟩
    rw [commitsTake_one hb hs (by simp [setDue, hcount]; exact hat) hcommits, tickResize_same hperiod]
    refine ⟨hcommits, ?_, ?_⟩
    · rw [htake, rg, regAt_tickCommitted _ _ (by decide), regAt_putReg_same]
    · obtain ⟨hact, htime, hbehind⟩ :=
        tickCommitted_anchor c.atTick (putReg Reg.GX_TICK_COMMIT c.seq { s with commits := [] })
      rw [rg, rg, regAt_putReg_ne _ _ (by decide), regAt_putReg_ne _ _ (by decide)] at htime
      rw [htake]
      exact ⟨hact, htime, hbehind⟩
  · have hd : (fun c : CommitSet => c.atTick != 0 && setDue s.tick.count c) c = false := by
      simp [setDue, hcount]
    change execTickCommitActivate s = _
    unfold execTickCommitActivate
    congr 1
    exact whenOk_keeps (P := (· = s)) _ _ rfl fun _ => commitsTake_early hs hd

end Sys2Proof.Machine
end

section
/-! PROOFS. The power pins and the cold reset. -/

namespace Sys2Proof.Machine

/-! ### The pins (R564 to R567) -/

theorem exec_powerUp {s : State} (h : s.pins.pwrGood = false) :
    exec .powerUp s = .next { s with pins := { s.pins with vinOk := true, pwrEn := true, charging := !s.pins.ocLatched } } := by
  change execPowerUp s = _
  rw [execPowerUp, h]
  rfl

theorem exec_powerGood {s : State} (h : s.pins.charging = true) :
    exec .powerGood s =
      .next (coldBegin { s with pins := { s.pins with pwrGood := true, charging := false, accRefclk := true } }) := by
  change execPowerGood s = _
  rw [execPowerGood, h, whenOk_true]

theorem powered_coldHeld {s : State} (h : s.pins.coldHeld = true) : powered s = false := by simp [powered, h]

theorem powered_hotHold {s : State} (h : s.pins.hotHold = true) : powered s = false := by simp [powered, h]

/-! ### The cold reset (R125, R469, R531, R532) -/

theorem exec_coldReset {ok a b : Bool} {straps : Nat} {s : State} (hg : s.pins.pwrGood = true)
    (hd : s.fw.coldDue = true ∨ s.pins.coldHeld = true) :
    exec (.coldReset ok a b straps) s = .next (coldReset ok a b straps s) := by
  have hc : (s.pins.pwrGood && (s.fw.coldDue || s.pins.coldHeld)) = true := by
    rcases hd with h | h <;> simp [hg, h]
  change execColdReset ok a b straps s = _
  rw [execColdReset, hc, whenOk_true]

/-- `t` is `s` but for what the repair record's load, its reports and their interrupts may change. -/
def reportsOnly (s t : State) : Prop :=
  t = { s with regs := t.regs, gl := { s.gl with msixPending := t.gl.msixPending }, out := t.out, re := t.re } ∧
  ∀ k, k ≠ Reg.GX_RE_EVENTS → regAt t k = regAt s k

theorem reportsOnly.refl (s : State) : reportsOnly s s := ⟨rfl, fun _ _ => rfl⟩

theorem reportsOnly.trans {s t u : State} (h : reportsOnly s t) (g : reportsOnly t u) : reportsOnly s u :=
  ⟨by rw [g.1, h.1], fun k hk => (g.2 k hk).trans (h.2 k hk)⟩

theorem eventsOnly.reportsOnly {s t : State} (h : eventsOnly s t [Reg.GX_RE_EVENTS]) : reportsOnly s t :=
  ⟨by rw [h.1], fun k hk => h.2 k (by simpa using hk)⟩

theorem raise_reportsOnly (s : State) (bit : Nat) : reportsOnly s (raise Reg.GX_RE_EVENTS bit s) :=
  (raise_eventsOnly s _ bit).reportsOnly

/-- Another reliability state, then what follows it. -/
theorem reportsOnly.ofRe {s t : State} {re : ReState} (h : reportsOnly { s with re := re } t) : reportsOnly s t :=
  reportsOnly.trans ⟨rfl, fun _ _ => rfl⟩ h

theorem repair_reportsOnly (f : RepairRecord → RepairRecord) (s : State) : reportsOnly s (repair f s) :=
  ⟨rfl, fun _ _ => rfl⟩

theorem logWrite_reportsOnly (e : LogEntry) (s : State) : reportsOnly s (logWrite e s) := by
  unfold logWrite
  simp only []
  split
  · exact (raise_reportsOnly _ 5).ofRe
  · exact (reportsOnly.refl _).ofRe

theorem repairLoad_reportsOnly (a b : Bool) (record : RepairRecord) (s : State) : reportsOnly s (repairLoad a b record s) := by
  unfold repairLoad
  simp only []
  split
  · exact (reportsOnly.refl _).ofRe
  · exact (raise_reportsOnly _ 10).ofRe

theorem reportTrip_reportsOnly (s : State) : reportsOnly s (reportTrip s) := by
  unfold reportTrip
  split
  · exact ((repair_reportsOnly _ s).trans (logWrite_reportsOnly _ _)).trans (raise_reportsOnly _ 9)
  · exact reportsOnly.refl s

/-- The adapter in its cold reset, with the straps sampled and ACC_PERST_N asserted on every port. -/
def coldSampled (straps : Nat) (s : State) : State :=
  (List.range 4).foldl (fun s p => emit (.accPerst p true) s)
    { coldState s with pins := { (coldState s).pins with smbAddr := straps % 8, sris := straps.testBit 3 } }

theorem coldReset_cool {ok a b : Bool} {straps : Nat} {s : State} (h : s.pw.degC < 95) :
    reportsOnly (coldSampled straps s) (coldReset ok a b straps s) := by
  have hload := (repairLoad_reportsOnly a b s.re.record (coldSampled straps s)).trans (reportTrip_reportsOnly _)
  have heq : coldReset ok a b straps s =
      if ok then reportTrip (repairLoad a b s.re.record (coldSampled straps s))
      else repair (fun r => { r with spareBad := true }) (reportTrip (repairLoad a b s.re.record (coldSampled straps s))) := by
    rw [coldReset, if_neg (by omega)]
    rfl
  rw [heq]
  split
  · exact hload
  · exact hload.trans (repair_reportsOnly _ _)

theorem coldReset_hot {ok a b : Bool} {straps : Nat} {s : State} (h : 95 ≤ s.pw.degC) :
    coldReset ok a b straps s =
      { s with pins := { s.pins with coldHeld := false, hotHold := true }, fw := { s.fw with coldDue := true } } := if_pos h

/-- Settles O3: the pins by their equations, the cold reset by what is left after it and its reports. -/
theorem powerPinsAndColdReset : Obligations.PowerPinsAndColdReset := by
  unfold Obligations.PowerPinsAndColdReset
  refine ⟨fun s h => ⟨_, exec_powerUp h, rfl, rfl, rfl⟩, fun s h => ⟨_, exec_powerGood h, rfl, rfl, rfl, rfl, rfl⟩,
    fun cause s => ?_, fun s => ?_, fun ok a b straps s hg hd ht => ?_, fun ok a b straps s hg hd ht => ?_⟩
  · exact ⟨_, rfl, rfl, rfl, rfl, rfl, rfl, rfl, rfl, rfl, rfl, rfl, rfl, rfl, rfl, rfl, rfl⟩
  · exact ⟨_, rfl, rfl, rfl, rfl, powered_coldHeld rfl, rfl⟩
  · obtain ⟨hframe, hregs⟩ := coldReset_cool (ok := ok) (a := a) (b := b) (straps := straps) ht
    refine ⟨_, exec_coldReset hg hd, ?_⟩
    have hkeys : ∀ key, key ≠ Reg.GX_RE_EVENTS → regAt (coldReset ok a b straps s) key = keyReset key := fun key hk => by
      rw [hregs key hk]
      rfl
    rw [hframe] at hkeys ⊢
    exact ⟨rfl, rfl, rfl, rfl, rfl, rfl, rfl, rfl, rfl, rfl, rfl, rfl, rfl, rfl, rfl, hkeys⟩
  · refine ⟨_, exec_coldReset hg hd, ?_⟩
    rw [coldReset_hot ht]
    exact ⟨rfl, powered_hotHold rfl, rfl⟩

end Sys2Proof.Machine
end

section
/-! PROOFS. The firmware's boot and the warm resets. -/

namespace Sys2Proof.Machine

/-! ### What the structure of an image leaves as it is when it takes effect at a reset -/

/-- What loading a boot image leaves as it is. -/
structure KeptByBoot (s t : State) : Prop where
  fw : t.fw = s.fw
  re : t.re = s.re
  q : t.q = s.q
  sec : t.sec = s.sec
  tick : t.tick = s.tick
  mem : t.mem = { s.mem with owner := t.mem.owner }

theorem KeptByBoot.refl (s : State) : KeptByBoot s s := ⟨rfl, rfl, rfl, rfl, rfl, rfl⟩

theorem KeptByBoot.trans {s t u : State} (h : KeptByBoot s t) (g : KeptByBoot t u) : KeptByBoot s u :=
  ⟨g.fw.trans h.fw, g.re.trans h.re, g.q.trans h.q, g.sec.trans h.sec, g.tick.trans h.tick, by rw [g.mem, h.mem]⟩

theorem KeptByBoot.foldl {β : Type} (f : State → β → State) (hf : ∀ s b, KeptByBoot s (f s b)) (l : List β) (s : State) :
    KeptByBoot s (l.foldl f s) :=
  foldl_maintains (KeptByBoot s) f (fun t b ht => ht.trans (hf t b)) l s (KeptByBoot.refl s)

theorem raise_keptByBoot (off bit : Nat) (s : State) : KeptByBoot s (raise off bit s) := by
  rw [raise_frame]
  exact ⟨rfl, rfl, rfl, rfl, rfl, rfl⟩

theorem enterState_keptByBoot (n : Nat) (st : InstState) (s : State) : KeptByBoot s (enterState n st s) := by
  rw [enterState_frame]
  exact ⟨rfl, rfl, rfl, rfl, rfl, rfl⟩

theorem setInst_keptByBoot (n : Nat) (i : Instance) (s : State) : KeptByBoot s (setInst n i s) :=
  ⟨rfl, rfl, rfl, rfl, rfl, rfl⟩

theorem updCport_keptByBoot (p : Nat) (f : CellPort → CellPort) (s : State) : KeptByBoot s (updCport p f s) :=
  ⟨rfl, rfl, rfl, rfl, rfl, rfl⟩

theorem toTraining_keptByBoot (p : Nat) (s : State) : KeptByBoot s (toTraining p s) := by
  have hleft : KeptByBoot s (leftUp p s) := by
    unfold leftUp
    split
    · exact raise_keptByBoot _ _ s
    · exact KeptByBoot.refl s
  unfold toTraining
  exact hleft.trans (updCport_keptByBoot p _ _)

theorem openPorts_keptByBoot (s : State) : KeptByBoot s (openPorts s) := by
  refine KeptByBoot.foldl _ (fun t p => ?_) _ s
  unfold openPort
  split
  · exact toTraining_keptByBoot p t
  · exact KeptByBoot.refl t

theorem settleInsts_keptByBoot (s : State) : KeptByBoot s (settleInsts s) := by
  refine KeptByBoot.foldl _ (fun t n => ?_) _ s
  simp only []
  split
  · split
    · exact (setInst_keptByBoot n _ t).trans (enterState_keptByBoot n _ _)
    · exact KeptByBoot.refl t
  · split
    · exact KeptByBoot.refl t
    · exact (setInst_keptByBoot n _ t).trans (enterState_keptByBoot n _ _)

theorem applyStructure_keptByBoot (st : Structure) (loaded : Bool) (s : State) :
    KeptByBoot s (applyStructure st loaded s) := by
  have hrun : ∀ (lz : LzState) (owner : NMap Nat), KeptByBoot s { s with lz := lz, mem := { s.mem with owner := owner } } :=
    fun _ _ => ⟨rfl, rfl, rfl, rfl, rfl, rfl⟩
  have htick : ∀ u, KeptByBoot u (loadTick st u) := fun _ => ⟨rfl, rfl, rfl, rfl, rfl, rfl⟩
  unfold applyStructure
  exact (hrun _ _).trans ((htick _).trans ((settleInsts_keptByBoot _).trans (openPorts_keptByBoot _)))

theorem applyLanes_keptByBoot (s : State) : KeptByBoot s (applyLanes s) := by
  refine KeptByBoot.foldl _ (fun t l => ?_) _ s
  split
  · exact ⟨rfl, rfl, rfl, rfl, rfl, rfl⟩
  · simp only []
    split
    · exact updCport_keptByBoot _ _ t
    · split
      · exact ⟨rfl, rfl, rfl, rfl, rfl, rfl⟩
      · exact KeptByBoot.refl t

theorem bootImage_keptByBoot (x : BootIn) (s : State) : KeptByBoot s (bootImage x s) := by
  unfold bootImage
  simp only []
  split
  · exact (applyStructure_keptByBoot _ true s).trans (applyLanes_keptByBoot _)
  · exact (applyStructure_keptByBoot _ true s).trans (applyLanes_keptByBoot _)
  · exact (applyStructure_keptByBoot _ false s).trans ⟨rfl, rfl, rfl, rfl, rfl, rfl⟩

theorem releasePerst_keptByBoot (s : State) : KeptByBoot s (releasePerst s) := by
  refine KeptByBoot.foldl _ (fun t p => ?_) _ s
  split
  · exact KeptByBoot.refl t
  · exact ⟨rfl, rfl, rfl, rfl, rfl, rfl⟩

/-! ### The bank that boots (R469) -/

/-- What a boot from bank b leaves of the state before it. -/
structure BootedFrom (b : Bool) (s t : State) : Prop where
  boot : t.fw.boot = .ready
  warmDue : t.fw.warmDue = none
  activeB : t.fw.activeB = b
  fallback : t.fw.fallback = (b != s.fw.activeB)
  fusedSvn : t.fw.fusedSvn = s.fw.fusedSvn
  lc : t.sec.lc = s.sec.lc
  q : t.q = s.q
  tick : t.tick = s.tick
  captured : t.re.captured = s.re.captured
  mem : t.mem = { s.mem with owner := t.mem.owner }

theorem BootedFrom.trans {b : Bool} {s t u : State} (h : BootedFrom b s t) (g : KeptByBoot t u) : BootedFrom b s u :=
  ⟨g.fw ▸ h.boot, g.fw ▸ h.warmDue, g.fw ▸ h.activeB, g.fw ▸ h.fallback, g.fw ▸ h.fusedSvn, g.sec ▸ h.lc,
    g.q.trans h.q, g.tick.trans h.tick, g.re ▸ h.captured, by rw [g.mem, h.mem]⟩

theorem bootFirmware_bootedFrom (b : Bool) (s : State) : BootedFrom b s (bootFirmware b s) := by
  unfold bootFirmware drawDrbg
  simp only []
  split
  · refine BootedFrom.trans ?_ (raise_keptByBoot _ _ _)
    exact ⟨rfl, rfl, rfl, rfl, rfl, rfl, rfl, rfl, rfl, rfl⟩
  · exact ⟨rfl, rfl, rfl, rfl, rfl, rfl, rfl, rfl, rfl, rfl⟩

/-- With nothing captured the classification of what was captured changes nothing. -/
theorem classifyCaptured_nil {s : State} (h : s.re.captured = []) :
    classifyCaptured s = { s with re := { s.re with captured := [] } } := by
  unfold classifyCaptured
  rw [h]
  rfl

theorem bootSteps_bootedFrom {x : BootIn} {b : Bool} {s : State} (hb : bootBank s x = some b) (hc : s.re.captured = []) :
    BootedFrom b s (bootSteps x s) := by
  have hload := (bootFirmware_bootedFrom b s).trans (bootImage_keptByBoot x (bootFirmware b s))
  unfold bootSteps
  rw [hb]
  simp only []
  rw [classifyCaptured_nil (hload.captured.trans hc)]
  exact ⟨hload.boot, hload.warmDue, hload.activeB, hload.fallback, hload.fusedSvn, hload.lc, hload.q, hload.tick, hc.symm,
    hload.mem⟩

theorem bootSteps_recovery {x : BootIn} {s : State} (hb : bootBank s x = none) : bootSteps x s = enterRecovery s := by
  unfold bootSteps
  rw [hb]

theorem bootBank_active {x : BootIn} {s : State} (h : bankBoots s x s.fw.activeB = true) : bootBank s x = some s.fw.activeB :=
  if_pos h

theorem bootBank_other {x : BootIn} {s : State} (h : bankBoots s x s.fw.activeB = false)
    (ho : bankBoots s x (!s.fw.activeB) = true) : bootBank s x = some (!s.fw.activeB) := by
  simp [bootBank, h, ho]

theorem bootBank_none {x : BootIn} {s : State} (h : bankBoots s x s.fw.activeB = false)
    (ho : bankBoots s x (!s.fw.activeB) = false) : bootBank s x = none := by
  simp [bootBank, h, ho]

/-! ### FIRMWARE_BOOT -/

theorem exec_firmwareBoot {x : BootIn} {s : State} (hp : powered s = true) (hd : s.fw.coldDue = false)
    (hb : s.fw.boot = .rom) (hw : s.fw.warmDue = none) : exec (.firmwareBoot x) s = .next (firmwareBoot x s) := by
  have hc : (powered s && !s.fw.coldDue && s.fw.boot == .rom && s.fw.warmDue.isNone) = true := by simp [hp, hd, hb, hw]
  change execFirmwareBoot x s = _
  rw [execFirmwareBoot, hc, whenOk_true]

theorem firmwareBoot_bootedFrom {x : BootIn} {b : Bool} {s : State} (hb : bootBank s x = some b) (hc : s.re.captured = []) :
    BootedFrom b (tier1Clean s) (firmwareBoot x s) := by
  have hsteps := bootSteps_bootedFrom (x := x) (b := b) (s := tier1Clean s) hb hc
  unfold firmwareBoot
  rw [if_pos hsteps.boot]
  exact hsteps.trans (releasePerst_keptByBoot _)

theorem firmwareBoot_recovery {x : BootIn} {s : State} (hb : bootBank s x = none) :
    firmwareBoot x s = enterRecovery (tier1Clean s) := by
  have hsteps := bootSteps_recovery (x := x) (s := tier1Clean s) hb
  unfold firmwareBoot
  rw [hsteps, if_neg (by simp [enterRecovery])]

/-- Settles O4, by the bank that `bootBank` chooses. -/
theorem firmwareBootChoosesTheBank : Obligations.FirmwareBootChoosesTheBank := by
  unfold Obligations.FirmwareBootChoosesTheBank
  refine ⟨fun x s hp hd hb hw hc hact => ?_, fun x s hp hd hb hw hc hact hoth => ?_,
    fun x s hp hd hb hw hc hact hoth => ?_⟩
  · have h := firmwareBoot_bootedFrom (bootBank_active hact) hc
    exact ⟨_, exec_firmwareBoot hp hd hb hw, h.boot, h.activeB, h.fallback.trans (bne_self_eq_false _)⟩
  · have h := firmwareBoot_bootedFrom (bootBank_other hact hoth) hc
    refine ⟨_, exec_firmwareBoot hp hd hb hw, h.boot, h.activeB, h.fallback.trans ?_⟩
    change ((!s.fw.activeB) != s.fw.activeB) = true
    cases s.fw.activeB <;> rfl
  · refine ⟨_, exec_firmwareBoot hp hd hb hw, ?_⟩
    rw [firmwareBoot_recovery (bootBank_none hact hoth)]
    refine ⟨rfl, fun c hc' => ?_, rfl, rfl, rfl⟩
    rw [List.eq_of_mem_replicate hc']

/-! ### The causes of a warm reset (R379, R486, R543) -/

theorem warmBegin_running {cause : Nat} {s : State} (hr : running s = true) (hd : s.fw.coldDue = false) :
    warmBegin cause s =
      { s with fw := { s.fw with warmDue := some cause, boot := .loading }, gl := { s.gl with resetCause := cause } } := by
  simp only [running, Bool.and_eq_true, beq_iff_eq, Bool.not_eq_true'] at hr
  obtain ⟨⟨⟨hp, hb⟩, _⟩, hf⟩ := hr
  simp [warmBegin, hp, hb, hf, hd]

theorem exec_gxCtrlWarmReset {value : Word} {s : State} (hr : running s = true) (hk : value.toNat / 2 ^ 24 = 0x5A)
    (h0 : value.getLsbD 0 = true) : exec (.gxCtrlWarmReset value) s = .next (warmBegin 3 s) := by
  have hw : windowUp s = true := by
    simp only [running, Bool.and_eq_true] at hr
    obtain ⟨⟨⟨hp, hb⟩, ha⟩, _⟩ := hr
    simp [windowUp, hp, hb, ha]
  have hkey : wfld value 31 24 = 0x5A := by
    change value.toNat / 2 ^ 24 % 2 ^ 8 = 0x5A
    omega
  have hc : (windowUp s && wfld value 31 24 == 0x5A && value.getLsbD 0) = true := by simp only [hw, hkey, h0]; decide
  change execGxCtrlWarmReset value s = _
  rw [execGxCtrlWarmReset, hc, whenOk_true]

theorem exec_gxCtrlWarmReset_otherKey {value : Word} (s : State) (hk : value.toNat / 2 ^ 24 ≠ 0x5A) :
    exec (.gxCtrlWarmReset value) s = .next s := by
  have hkey : (wfld value 31 24 == 0x5A) = false := by
    have hlt := value.isLt
    have hmod : wfld value 31 24 = value.toNat / 2 ^ 24 := Nat.mod_eq_of_lt (by omega)
    rw [hmod]
    exact beq_eq_false_iff_ne.2 hk
  change execGxCtrlWarmReset value s = _
  rw [execGxCtrlWarmReset, hkey, Bool.and_false, Bool.false_and, whenOk_false]

theorem running_powered {s : State} (hr : running s = true) : powered s = true := by
  simp only [running, Bool.and_eq_true] at hr
  exact hr.1.1.1

theorem running_boot {s : State} (hr : running s = true) : s.fw.boot = .ready := by
  simp only [running, Bool.and_eq_true, beq_iff_eq] at hr
  exact hr.1.1.2

theorem exec_flrPf {s : State} (hp : powered s = true) : exec .flrPf s = .next (warmBegin 1 s) := by
  change execFlrPf s = _
  rw [execFlrPf, hp, whenOk_true]

theorem exec_hostLinkLoss {s : State} (hp : powered s = true) : exec .hostLinkLoss s = .next (hostLinkLoss s) := by
  change execHostLinkLoss s = _
  rw [execHostLinkLoss, hp, whenOk_true]

/-! ### Rings in host memory go with the host link (R486) -/

/-- Every ring of `t` stood in `s` under its number and at its place. -/
def ringsFrom (s t : State) : Prop := ∀ e ∈ t.q.rings, ∃ d ∈ s.q.rings, d.1 = e.1 ∧ d.2.loc = e.2.loc

theorem ringsFrom.trans {s t u : State} (h : ringsFrom s t) (g : ringsFrom t u) : ringsFrom s u := by
  intro e he
  obtain ⟨d, hd, hde, hdl⟩ := g e he
  obtain ⟨c, hc, hcd, hcl⟩ := h d hd
  exact ⟨c, hc, hcd.trans hde, hcl.trans hdl⟩

theorem dropReservation_ringsFrom (r : Nat) (s : State) : ringsFrom s (dropReservation r s) := by
  unfold dropReservation
  split
  · exact fun e he => ⟨e, he, rfl, rfl⟩
  · split
    · intro e he
      obtain ⟨d, hd, hde⟩ := List.mem_map.1 he
      refine ⟨d, hd, ?_⟩
      rw [← hde]
      split <;> exact ⟨rfl, rfl⟩
    · exact fun e he => ⟨e, he, rfl, rfl⟩

theorem removeRing_ringsFrom (r : Nat) (s : State) : ringsFrom s (removeRing r s) :=
  (dropReservation_ringsFrom r s).trans fun e he => ⟨e, (List.mem_filter.1 he).1, rfl, rfl⟩

theorem removeRing_removes {r : Nat} {s : State} {e : Nat × Ring} (he : e ∈ (removeRing r s).q.rings) : e.1 ≠ r := by
  have := (List.mem_filter.1 he).2
  simpa using this

theorem removeRing_frame (r : Nat) (s : State) : removeRing r s = { s with q := (removeRing r s).q } := by
  unfold removeRing dropReservation
  split
  · rfl
  · split <;> rfl

theorem foldl_removeRing (l : List Nat) (s : State) :
    let t := l.foldl (fun s r => removeRing r s) s
    t = { s with q := t.q } ∧ ringsFrom s t ∧ ∀ e ∈ t.q.rings, e.1 ∉ l := by
  induction l using snoc_induction with
  | nil => exact ⟨rfl, fun e he => ⟨e, he, rfl, rfl⟩, fun _ _ => List.not_mem_nil⟩
  | snoc l r ih =>
    obtain ⟨hframe, hfrom, hgone⟩ := ih
    simp only [List.foldl_append, List.foldl_cons, List.foldl_nil]
    generalize l.foldl (fun s r => removeRing r s) s = t at hframe hfrom hgone ⊢
    refine ⟨by rw [removeRing_frame, hframe], hfrom.trans (removeRing_ringsFrom r t), fun e he hm => ?_⟩
    rcases List.mem_append.1 hm with hm | hm
    · obtain ⟨d, hd, hde, _⟩ := removeRing_ringsFrom r t e he
      exact hgone d hd (hde ▸ hm)
    · exact removeRing_removes he (List.mem_singleton.1 hm)

/-- The rings in host memory. -/
abbrev hostRings (s : State) : List Nat := (s.q.rings.filter (fun e => e.2.loc == 0)).map Prod.fst

/-- The loss of the host link before the warm reset that it causes. -/
def hostLost (s : State) : State :=
  let g := (hostRings s).foldl (fun s r => removeRing r s)
    { s with pc := { s.pc with hstUp := false, hstRate := 0, hstWidth := 0 } }
  let g := { g with q := { g.q with mgmtActive := false,
                                    scanning := g.q.scanning.filter (fun r => !((hostRings s).contains r)) } }
  putReg Reg.GX_Q_MGMT_CTRL (rg g Reg.GX_Q_MGMT_CTRL &&& ~~~(1 : Word)) g

theorem hostLinkLoss_running {s : State} (hr : running s = true) (hd : s.fw.coldDue = false) (hw : s.fw.warmDue = none) :
    hostLinkLoss s = warmBegin 4 (raise Reg.GX_FW_EVENTS 8 (hostLost s)) := by
  have hb := running_boot hr
  unfold hostLinkLoss hostLost hostRings
  simp [hd, hb, hw]

theorem hostLost_frame (s : State) :
    hostLost s = { s with pc := { s.pc with hstUp := false, hstRate := 0, hstWidth := 0 }, q := (hostLost s).q,
                          regs := (hostLost s).regs } := by
  obtain ⟨hframe, _⟩ := foldl_removeRing (hostRings s)
    { s with pc := { s.pc with hstUp := false, hstRate := 0, hstWidth := 0 } }
  unfold hostLost
  simp only []
  rw [hframe]
  rfl

theorem hostLost_rings {s : State} {e : Nat × Ring} (he : e ∈ (hostLost s).q.rings) : e.2.loc ≠ 0 := by
  obtain ⟨_, hfrom, hgone⟩ := foldl_removeRing (hostRings s)
    { s with pc := { s.pc with hstUp := false, hstRate := 0, hstWidth := 0 } }
  intro h0
  obtain ⟨d, hd, hde, hdl⟩ := hfrom e he
  refine hgone e he (hde ▸ ?_)
  exact List.mem_map_of_mem (List.mem_filter.2 ⟨hd, by simp [hdl, h0]⟩)

/-! ### WARM_RESET (R125, R471) -/

theorem exec_warmReset {x : BootIn} {scans : List RingScan} {s : State} (hp : powered s = true) :
    exec (.warmReset x scans) s = .next (warmReset x scans s) := by
  change execWarmReset x scans s = _
  rw [execWarmReset, hp, whenOk_true]

theorem warmState_mem {cause : Nat} {s : State} (h4 : s.pw.ps ≠ .ps4) :
    (warmState cause s).mem.bytes = s.mem.bytes ∧ (warmState cause s).mem.bad = s.mem.bad := by
  simp only [warmState, h4, if_false]
  split <;> exact ⟨rfl, rfl⟩

theorem warmScans_nil {scans : List RingScan} {s : State} (h : s.q.scanning = []) : warmScans scans s = s := by
  unfold warmScans
  rw [h]
  rfl

/-- A warm reset without rings ends with its boot. -/
theorem warmReset_noRings {x : BootIn} {scans : List RingScan} {s : State} {cause : Nat} (hw : s.fw.warmDue = some cause)
    (hr : s.q.rings = []) (hc : s.re.captured = []) (hb : bankBoots s x s.fw.activeB = true) :
    BootedFrom s.fw.activeB (warmState cause s) (warmReset x scans s) := by
  have hre : (warmState cause s).re.captured = [] := hc
  have hboot := bootSteps_bootedFrom (x := x) (s := warmState cause s) (bootBank_active hb) hre
  have hrings : (bootSteps x (warmState cause s)).q.rings = [] := by
    rw [hboot.q]
    change s.q.rings.map _ = []
    rw [hr]
    rfl
  have hscan : (bootSteps x (warmState cause s)).q.scanning = [] := by
    rw [hboot.q]
    rfl
  unfold warmReset
  rw [hw]
  simp only [hboot.boot, hrings, List.filter_nil, List.map_nil, List.foldl_nil, ne_eq, not_true_eq_false, if_false]
  rw [warmScans_nil rfl]
  refine ⟨hboot.boot, hboot.warmDue, hboot.activeB, hboot.fallback, hboot.fusedSvn, hboot.lc, ?_, hboot.tick,
    hboot.captured, hboot.mem⟩
  rw [← hboot.q, ← hrings, ← hscan]

/-- Settles O5: each cause by `warmBegin`, the reset by what its boot leaves. -/
theorem warmResetsAndTheirCauses : Obligations.WarmResetsAndTheirCauses := by
  unfold Obligations.WarmResetsAndTheirCauses
  refine ⟨fun value s hr hd hk h0 => ?_, fun value s hk => exec_gxCtrlWarmReset_otherKey s hk, fun s hr hd => ?_,
    fun s hr hd hw => ?_, fun x s cause hp hw h4 hq hc hb => ?_⟩
  · refine ⟨_, exec_gxCtrlWarmReset hr hk h0, ?_⟩
    rw [warmBegin_running hr hd]
    exact ⟨rfl, rfl, rfl, rfl⟩
  · refine ⟨_, exec_flrPf (running_powered hr), ?_⟩
    rw [warmBegin_running hr hd]
    exact ⟨rfl, rfl, rfl, rfl⟩
  · refine ⟨_, exec_hostLinkLoss (running_powered hr), ?_⟩
    have hlost : raise Reg.GX_FW_EVENTS 8 (hostLost s)
        = { s with pc := { s.pc with hstUp := false, hstRate := 0, hstWidth := 0 }, q := (hostLost s).q,
                   regs := (raise Reg.GX_FW_EVENTS 8 (hostLost s)).regs,
                   gl := { s.gl with msixPending := (raise Reg.GX_FW_EVENTS 8 (hostLost s)).gl.msixPending },
                   out := (raise Reg.GX_FW_EVENTS 8 (hostLost s)).out } := by
      rw [(raise_eventsOnly (hostLost s) Reg.GX_FW_EVENTS 8).1, hostLost_frame]
    have hr' : running (raise Reg.GX_FW_EVENTS 8 (hostLost s)) = true := by
      rw [hlost]
      exact hr
    have hd' : (raise Reg.GX_FW_EVENTS 8 (hostLost s)).fw.coldDue = false := by
      rw [hlost]
      exact hd
    rw [hostLinkLoss_running hr hd hw, warmBegin_running hr' hd']
    refine ⟨rfl, rfl, rfl, ?_, raise_sets (hostLost s) _ 8 (by decide), ?_, fun e he => ?_⟩
    · simp only []
      rw [hlost]
    · simp only [raise_q]
      rfl
    · simp only [raise_q] at he
      exact hostLost_rings he
  · have h := warmReset_noRings (x := x) (scans := []) hw hq hc hb
    obtain ⟨hbytes, hbad⟩ := warmState_mem (cause := cause) h4
    refine ⟨_, exec_warmReset hp, h.boot, h.warmDue, ?_, ?_, h.lc, h.fusedSvn, ?_⟩
    · rw [h.mem]; exact hbytes
    · rw [h.mem]; exact hbad
    · rw [h.tick]; rfl

end Sys2Proof.Machine
end

section
/-! PROOFS. Sending over the cell fabric: what queueing, routing and holding an item leaves as it is. -/

namespace Sys2Proof.Machine

/-! ### Events and streams -/

/-- The state without its registers, its pending vectors and what it has sent. -/
def beyondEvents (s : State) : State := { s with regs := [], gl := { s.gl with msixPending := [] }, out := [] }

@[simp] theorem beyondEvents_raise (off bit : Nat) (s : State) : beyondEvents (raise off bit s) = beyondEvents s := by
  rw [(raise_eventsOnly s off bit).1]
  rfl

@[simp] theorem beyondEvents_bump (k : Nat) (s : State) : beyondEvents (bump k s) = beyondEvents s := rfl

@[simp] theorem beyondEvents_bumpBy (k n : Nat) (s : State) : beyondEvents (bumpBy k n s) = beyondEvents s := rfl

@[simp] theorem beyondEvents_putReg (k : Nat) (v : Word) (s : State) : beyondEvents (putReg k v s) = beyondEvents s := rfl

@[simp] theorem beyondEvents_emit (o : Output) (s : State) : beyondEvents (emit o s) = beyondEvents s := rfl

/-- The state without what passing bytes by the check-value units may change. -/
def beyondStream (s : State) : State := { beyondEvents s with cv := [] }

theorem beyondStream_of_beyondEvents {s t : State} (h : beyondEvents t = beyondEvents s) : beyondStream t = beyondStream s := by
  rw [beyondStream, beyondStream, h]

@[simp] theorem beyondStream_setCv (u : Nat) (c : CvUnit) (s : State) : beyondStream (setCv u c s) = beyondStream s := rfl

@[simp] theorem beyondStream_raise (off bit : Nat) (s : State) : beyondStream (raise off bit s) = beyondStream s :=
  beyondStream_of_beyondEvents (beyondEvents_raise off bit s)

@[simp] theorem beyondStream_cvStopped (u : Nat) (s : State) : beyondStream (cvStopped u s) = beyondStream s := by
  rw [cvStopped, beyondStream_raise, beyondStream_setCv]

@[simp] theorem beyondStream_cvBoundary (u : Nat) (s : State) : beyondStream (cvBoundary u s) = beyondStream s := by
  unfold cvBoundary
  split
  · rfl
  · exact beyondStream_cvStopped u s
  · rfl

@[simp] theorem beyondStream_stream (src idx : Nat) (retx begins : Bool) (bs : List Byte) (s : State) :
    beyondStream (stream src idx retx begins bs s) = beyondStream s := by
  refine foldl_keeps beyondStream _ (fun t u => ?_) _ s
  split
  · extract_lets t1 c p
    have hbegin : beyondStream t1 = beyondStream t := by
      simp only [t1]
      split
      · exact beyondStream_cvBoundary u t
      · rfl
    split
    · rw [beyondStream_setCv, hbegin]
    · exact hbegin
  · rfl

/-! ### Items on their way (R205, R215, R216) -/

/-- The state without what sending an item over the cell fabric may change. -/
def beyondSend (s : State) : State :=
  { beyondStream s with cf := { s.cf with ports := [], held := [], rotor := 0, txBytes := [] }
                        cs := { s.cs with grantedSum := 0, allow := [], shapers := [] } }

theorem beyondSend_of_beyondStream {s t : State} (h : beyondStream t = beyondStream s) : beyondSend t = beyondSend s := by
  have hcf : (beyondStream t).cf = (beyondStream s).cf := congrArg State.cf h
  have hcs : (beyondStream t).cs = (beyondStream s).cs := congrArg State.cs h
  change t.cf = s.cf at hcf
  change t.cs = s.cs at hcs
  rw [beyondSend, beyondSend, h, hcf, hcs]

theorem beyondSend_of_beyondEvents {s t : State} (h : beyondEvents t = beyondEvents s) : beyondSend t = beyondSend s :=
  beyondSend_of_beyondStream (beyondStream_of_beyondEvents h)

@[simp] theorem beyondSend_stream (src idx : Nat) (retx begins : Bool) (bs : List Byte) (s : State) :
    beyondSend (stream src idx retx begins bs s) = beyondSend s := beyondSend_of_beyondStream (beyondStream_stream ..)

@[simp] theorem beyondSend_raise (off bit : Nat) (s : State) : beyondSend (raise off bit s) = beyondSend s :=
  beyondSend_of_beyondEvents (beyondEvents_raise off bit s)

@[simp] theorem beyondSend_bump (k : Nat) (s : State) : beyondSend (bump k s) = beyondSend s := rfl

@[simp] theorem beyondSend_setCport (p : Nat) (c : CellPort) (s : State) : beyondSend (setCport p c s) = beyondSend s := rfl

@[simp] theorem beyondSend_updCport (p : Nat) (f : CellPort → CellPort) (s : State) :
    beyondSend (updCport p f s) = beyondSend s := rfl

theorem beyondSend_grantedSum (n : Nat) (s : State) :
    beyondSend { s with cs := { s.cs with grantedSum := n } } = beyondSend s := rfl

@[simp] theorem beyondSend_wireOut (p : Nat) (i : WireItem) (s : State) : beyondSend (wireOut p i s) = beyondSend s := by
  have hstream : ∀ (l : List (List Byte)) (t : State),
      beyondSend (l.foldl (fun t bs => stream 2 p false true bs t) t) = beyondSend t :=
    fun l t => foldl_keeps beyondSend _ (fun t bs => beyondSend_stream 2 p false true bs t) l t
  unfold wireOut
  extract_lets j _ s1 _ s2 h _ s3
  have h2 : beyondSend s2 = beyondSend s := hstream _ _
  have h3 : beyondSend s3 = beyondSend s2 := by
    simp only [s3]
    split
    · exact beyondSend_grantedSum _ s2
    · rfl
  rw [beyondSend_setCport, h3, h2]

@[simp] theorem beyondSend_drainQueue (fuel p : Nat) (s : State) : beyondSend (drainQueue fuel p s) = beyondSend s := by
  induction fuel generalizing s with
  | zero => rfl
  | succ k ih =>
    unfold drainQueue
    simp only []
    split
    · rfl
    · split
      · rw [ih, beyondSend_wireOut, beyondSend_setCport]
      · rfl

@[simp] theorem beyondSend_enqueueOn (p : Nat) (i : WireItem) (s : State) : beyondSend (enqueueOn p i s) = beyondSend s := by
  unfold enqueueOn
  rw [beyondSend_drainQueue, beyondSend_updCport]

@[simp] theorem beyondSend_chargeItem (p : Nat) (i : WireItem) (s : State) : beyondSend (chargeItem p i s) = beyondSend s := by
  have hshaper : ∀ (k : Nat) (n : Int) (t : State), beyondSend (chargeShaper k n t) = beyondSend t := by
    intro k n t
    unfold chargeShaper
    split <;> rfl
  unfold chargeItem
  split
  · rfl
  · rw [hshaper]
    unfold chargeAllow
    simp only []
    split
    · rw [beyondSend_raise]
      rfl
    · rfl

@[simp] theorem beyondSend_holdItem (i : WireItem) (s : State) : beyondSend (holdItem i s) = beyondSend s := by
  unfold holdItem
  simp only []
  split <;> rfl

@[simp] theorem beyondSend_routeItem (i : WireItem) (s : State) : beyondSend (routeItem i s) = beyondSend s := by
  unfold routeItem
  split
  · rw [beyondSend_enqueueOn, beyondSend_chargeItem]
    rfl
  · exact beyondSend_holdItem i s

@[simp] theorem beyondSend_retryHeld (s : State) : beyondSend (retryHeld s) = beyondSend s := by
  refine (foldl_keeps beyondSend _ (fun t i => ?_) s.cf.held _).trans ?_
  · split
    · rfl
    · exact beyondSend_routeItem i t
  · rfl

end Sys2Proof.Machine
end

section
/-! PROOFS. Lanzil actions and reloads, and bonded Flocks. -/

namespace Sys2Proof.Machine

/-! ### GX_LZ_STATUS and the actions (R61, R62, R73) -/

theorem rg_lzStatus (state : Nat) (e : LzErr) (s : State) :
    rg (lzStatus state e s) Reg.GX_LZ_STATUS = BitVec.ofNat 32 (state + 8 * e.kind + 256 * e.result + 65536 * e.detail) :=
  regAt_putReg_same s _ _

theorem lzStatus_eventsOnly (state : Nat) (e : LzErr) (s : State) : eventsOnly s (lzStatus state e s) [Reg.GX_LZ_STATUS] :=
  putReg_eventsOnly s _ _

/-- The Lanzil block after an action that has ended, before its status and events. -/
def lzIdle (s : State) : State := { s with lz := { s.lz with action := 0, held := none } }

theorem lzEnd_eventsOnly (e : LzErr) (s : State) :
    eventsOnly (lzIdle s) (lzEnd e s) [Reg.GX_LZ_STATUS, Reg.GX_LZ_EVENTS] := by
  have hdone := eventsOnly_trans (lzStatus_eventsOnly 3 e (lzIdle s)) (raise_eventsOnly _ Reg.GX_LZ_EVENTS 0)
  unfold lzEnd
  simp only []
  split
  · exact eventsOnly_mono hdone (by simp)
  · exact eventsOnly_mono (eventsOnly_trans hdone (raise_eventsOnly _ Reg.GX_LZ_EVENTS 1)) (by simp)

theorem rg_lzEnd_status (e : LzErr) (s : State) :
    rg (lzEnd e s) Reg.GX_LZ_STATUS = BitVec.ofNat 32 (3 + 8 * e.kind + 256 * e.result + 65536 * e.detail) := by
  have hdone : rg (raise Reg.GX_LZ_EVENTS 0 (lzStatus 3 e (lzIdle s))) Reg.GX_LZ_STATUS
      = BitVec.ofNat 32 (3 + 8 * e.kind + 256 * e.result + 65536 * e.detail) := by
    rw [rg, regAt_raise_ne _ _ (by decide)]
    exact rg_lzStatus 3 e _
  unfold lzEnd
  simp only []
  split
  · exact hdone
  · rw [rg, regAt_raise_ne _ _ (by decide)]
    exact hdone

theorem lzEnd_done (e : LzErr) (s : State) : (rg (lzEnd e s) Reg.GX_LZ_EVENTS).getLsbD 0 = true := by
  unfold lzEnd
  simp only []
  split
  · exact raise_sets _ _ 0 (by decide)
  · exact raise_keeps _ _ 1 0 (raise_sets _ _ 0 (by decide))

theorem lzEnd_failed {e : LzErr} (s : State) (h : e.result ≠ 0) : (rg (lzEnd e s) Reg.GX_LZ_EVENTS).getLsbD 1 = true := by
  unfold lzEnd
  simp only [h, if_false]
  exact raise_sets _ _ 1 (by decide)

/-- The three actions, by their number (R61). -/
theorem exec_lanzil {c : Instr} {kind r : Nat} {s : State}
    (h : (c, kind) ∈ [(Instr.lzVerify r, 1), (.lzPartial r, 2), (.lzFull r, 3)]) :
    exec c s = .next (whenOk (running s) (lzStart kind r) s) := by
  simp only [List.mem_cons, Prod.mk.injEq, List.not_mem_nil, or_false] at h
  rcases h with ⟨rfl, rfl⟩ | ⟨rfl, rfl⟩ | ⟨rfl, rfl⟩ <;> rfl

theorem lanzil_kind {c : Instr} {r : Nat} (h : c ∈ [Instr.lzVerify r, .lzPartial r, .lzFull r]) :
    ∃ kind, (c, kind) ∈ [(Instr.lzVerify r, 1), (.lzPartial r, 2), (.lzFull r, 3)] := by
  simp only [List.mem_cons, List.not_mem_nil, or_false] at h
  rcases h with rfl | rfl | rfl
  · exact ⟨1, by simp⟩
  · exact ⟨2, by simp⟩
  · exact ⟨3, by simp⟩

theorem lzStart_starts {kind : Nat} {s : State} (ha : s.lz.action = 0) (hl : rg s Reg.GX_LZ_STAGE_LEN ≠ 0) :
    lzStart kind 0 s = lzStatus 1 ⟨0, 0, 0⟩ { s with lz := { s.lz with action := kind } } := by
  rw [lzStart, if_neg (by simp), if_neg (by simp [ha]), if_neg hl]

theorem lzStart_busy {kind : Nat} {s : State} (ha : s.lz.action ≠ 0) :
    lzStart kind 0 s = putReg Reg.GX_LZ_STATUS ((rg s Reg.GX_LZ_STATUS &&& 0xFFFF00FF) ||| 0x0800) s := by
  simp [lzStart, ha]

theorem lzStart_empty {kind : Nat} {s : State} (ha : s.lz.action = 0) (hl : rg s Reg.GX_LZ_STAGE_LEN = 0) :
    lzStart kind 0 s = lzEnd ⟨1, 0, 0⟩ s := by
  rw [lzStart, if_neg (by simp), if_neg (by simp [ha]), if_pos hl]

theorem lzStart_other {kind r : Nat} (s : State) (h : r ≠ 0) : lzStart kind r s = s := if_pos h

/-- RESULT reads BUSY once its field has been replaced. -/
theorem wfld_busy (w : Word) : wfld ((w &&& 0xFFFF00FF) ||| 0x0800) 15 8 = 8 := by
  have hbits : ((w &&& 0xFFFF00FF) ||| 0x0800 : Word).extractLsb' 8 8 = 8#8 := by
    have hmask : ∀ i < 8, (0xFFFF00FF : Word).getLsbD (8 + i) = false := by decide
    have hbusy : ∀ i < 8, (0x0800 : Word).getLsbD (8 + i) = (8#8).getLsbD i := by decide
    apply BitVec.eq_of_getLsbD_eq
    intro i hi
    rw [BitVec.getLsbD_extractLsb', BitVec.getLsbD_or, BitVec.getLsbD_and, hmask i hi, hbusy i hi, decide_eq_true hi,
      Bool.and_false, Bool.false_or, Bool.true_and]
  have hnat := congrArg BitVec.toNat hbits
  rw [BitVec.extractLsb'_toNat, Nat.shiftRight_eq_div_pow] at hnat
  exact hnat

/-- Settles O19, by the four outcomes of `lzStart`. -/
theorem lanzilActionsStartOnce : Obligations.LanzilActionsStartOnce := by
  unfold Obligations.LanzilActionsStartOnce
  refine ⟨fun c kind s hc hr ha hl => ?_, fun c s hc hr ha => ?_, fun c s hc hr ha hl => ?_, fun c r s h0 hc => ?_⟩
  · refine ⟨_, exec_lanzil hc, ?_⟩
    rw [hr, whenOk_true, lzStart_starts ha hl]
    exact ⟨rg_lzStatus 1 _ _, lzStatus_eventsOnly 1 _ _⟩
  · obtain ⟨kind, hk⟩ := lanzil_kind hc
    refine ⟨_, exec_lanzil hk, ?_⟩
    rw [hr, whenOk_true, lzStart_busy ha]
    refine ⟨?_, putReg_eventsOnly s _ _⟩
    rw [rg, regAt_putReg_same]
    exact wfld_busy _
  · obtain ⟨kind, hk⟩ := lanzil_kind hc
    refine ⟨_, exec_lanzil hk, ?_⟩
    rw [hr, whenOk_true, lzStart_empty ha hl, rg_lzEnd_status]
    exact ⟨by decide, by decide⟩
  · obtain ⟨kind, hk⟩ := lanzil_kind hc
    rw [exec_lanzil hk]
    congr 1
    exact whenOk_keeps (P := (· = s)) _ _ rfl fun _ => lzStart_other s h0

/-! ### The partial reload (R63, R64, R66) -/

theorem exec_partialReloadApply {s : State} (hr : running s = true) :
    exec .partialReloadApply s = .next (partialApply s) := by
  change execPartialReloadApply s = _
  rw [execPartialReloadApply, hr, whenOk_true]

theorem partialApply_emergency {r : Reload} {s : State} (hh : s.lz.held = some r) (he : s.pw.emergency = true) :
    partialApply s = lzStatus 2 ⟨0, 0, 0⟩ s := by
  unfold partialApply
  rw [hh]
  simp only [he, if_true]

theorem partialApply_turnedAway {r : Reload} {e : LzErr} {s : State} (hh : s.lz.held = some r) (he : s.pw.emergency = false)
    (ht : r.tree = true) (herr : reloadErr s r.next = some e) : partialApply s = lzEnd e s := by
  unfold partialApply
  rw [hh]
  simp only [he, ht, herr, if_true, Bool.false_eq_true, if_false]

/-- A reload of ports alone. -/
theorem partialApply_ports {r : Reload} {s : State} (hh : s.lz.held = some r) (he : s.pw.emergency = false)
    (ht : r.tree = false) (hk : r.tick = none) :
    partialApply s = lzEnd ⟨0, 0, 0⟩ (openPorts (tickResize s
      { closePorts r.next s with lz := { (closePorts r.next s).lz with run := r.next } })) := by
  unfold partialApply
  rw [hh]
  simp only [he, ht, hk, Option.isSome_none, Bool.false_and, Bool.false_eq_true, if_false]

/-- The state without what closing and opening ports may change, and PERIOD. -/
def beyondPorts (s : State) : State × Nat :=
  ({ beyondStream s with cf := { s.cf with ports := [] }, eth := { s.eth with ports := [] } }, period s)

theorem beyondPorts_raise {off : Nat} (bit : Nat) (s : State) (h : Reg.GX_TICK_PERIOD ≠ off) :
    beyondPorts (raise off bit s) = beyondPorts s := by
  have hp : period (raise off bit s) = period s := by rw [period, rg, regAt_raise_ne s bit h, period]
  have hs := beyondStream_raise off bit s
  rw [beyondPorts, beyondPorts, hp, hs]
  simp

theorem beyondPorts_setCv (u : Nat) (c : CvUnit) (s : State) : beyondPorts (setCv u c s) = beyondPorts s := rfl

theorem beyondPorts_updCport (p : Nat) (f : CellPort → CellPort) (s : State) : beyondPorts (updCport p f s) = beyondPorts s := rfl

theorem beyondPorts_modEth (p : Nat) (f : EthPort → EthPort) (s : State) : beyondPorts (modEth p f s) = beyondPorts s := rfl

theorem beyondPorts_leftUp (p : Nat) (s : State) : beyondPorts (leftUp p s) = beyondPorts s := by
  unfold leftUp
  split
  · exact beyondPorts_raise 1 s (by decide)
  · rfl

theorem beyondPorts_toDisabled (p : Nat) (s : State) : beyondPorts (toDisabled p s) = beyondPorts s := by
  unfold toDisabled
  rw [beyondPorts_updCport, beyondPorts_leftUp]

theorem beyondPorts_openPorts (s : State) : beyondPorts (openPorts s) = beyondPorts s := by
  refine foldl_keeps beyondPorts _ (fun t p => ?_) _ s
  unfold openPort
  split
  · unfold toTraining
    rw [beyondPorts_updCport, beyondPorts_leftUp]
  · rfl

theorem beyondPorts_cvLost (p : Nat) (s : State) : beyondPorts (cvLost p s) = beyondPorts s := by
  refine foldl_keeps beyondPorts _ (fun t u => ?_) _ s
  split
  · rw [beyondPorts_raise 1 _ (by decide)]
    unfold cvStopped
    rw [beyondPorts_raise u _ (by decide), beyondPorts_setCv]
  · rfl

/-- While PTP runs on its own port no other port is its source. -/
theorem ptpSource_ownPort {s : State} (h : s.pins.ptpPortUp = true) : ptpSource s = some 32 := if_pos h

theorem beyondPorts_ethDown (p : Nat) {s : State} (h : s.pins.ptpPortUp = true) : beyondPorts (ethDown p s) = beyondPorts s := by
  unfold ethDown
  split
  · simp only []
    rw [ptpMoved, if_pos, beyondPorts_raise 6 _ (by decide), beyondPorts_modEth]
    rw [ptpSource_ownPort h, ptpSource_ownPort (by rw [raise_pins]; exact h)]
  · rfl

theorem pins_of_beyondPorts {s t : State} (h : beyondPorts t = beyondPorts s) : t.pins = s.pins := by
  have hp : (beyondPorts t).1.pins = (beyondPorts s).1.pins := congrArg (fun x => x.1.pins) h
  exact hp

theorem beyondPorts_closePorts (next : Structure) {s : State} (h : s.pins.ptpPortUp = true) :
    beyondPorts (closePorts next s) = beyondPorts s := by
  refine foldl_maintains (fun t => beyondPorts t = beyondPorts s) _ (fun t p ht => ?_) _ s rfl
  extract_lets was now wide turned t1 t2
  have h1 : beyondPorts t1 = beyondPorts t := by
    simp only [t1]
    split
    · exact beyondPorts_cvLost p t
    · rfl
  have h2 : beyondPorts t2 = beyondPorts t1 := by
    simp only [t2]
    split
    · exact beyondPorts_modEth p _ t1
    · rfl
  have h12 : beyondPorts t2 = beyondPorts s := by rw [h2, h1, ht]
  have hpins : t2.pins.ptpPortUp = true := by rw [pins_of_beyondPorts h12]; exact h
  split
  · exact h12
  · split
    · rw [beyondPorts_ethDown p hpins, h12]
    · split
      · rw [beyondPorts_toDisabled, h12]
      · exact h12

theorem beyondPorts_setRun {s t : State} (next : Structure) (h : beyondPorts t = beyondPorts s) :
    beyondPorts { t with lz := { t.lz with run := next } } = beyondPorts { s with lz := { s.lz with run := next } } := by
  have h1 : (beyondPorts t).1 = (beyondPorts s).1 := congrArg Prod.fst h
  have h2 : period t = period s := congrArg Prod.snd h
  refine Prod.ext ?_ h2
  exact congrArg (fun u : State => { u with lz := { u.lz with run := next } }) h1

/-- Settles O21, by the three outcomes at the edge. -/
theorem partialReloadAtItsEdge : Obligations.PartialReloadAtItsEdge := by
  unfold Obligations.PartialReloadAtItsEdge
  refine ⟨fun r s hr hh he => ?_, fun r e s hr hh he ht herr hres => ?_, fun r s hr hh he ht hk hp => ?_⟩
  · refine ⟨_, exec_partialReloadApply hr, ?_⟩
    rw [partialApply_emergency hh he]
    exact ⟨rg_lzStatus 2 _ s, rfl, lzStatus_eventsOnly 2 _ s⟩
  · refine ⟨_, exec_partialReloadApply hr, ?_⟩
    rw [partialApply_turnedAway hh he ht herr]
    exact ⟨lzEnd_failed s hres, lzEnd_eventsOnly e s⟩
  · refine ⟨_, exec_partialReloadApply hr, ?_⟩
    have hclosed := beyondPorts_setRun r.next (beyondPorts_closePorts r.next hp)
    have hperiod : period s = period { closePorts r.next s with lz := { (closePorts r.next s).lz with run := r.next } } :=
      (congrArg Prod.snd hclosed).symm
    rw [partialApply_ports hh he ht hk, tickResize_same hperiod]
    have hopen := (beyondPorts_openPorts _).trans hclosed
    have hframe := congrArg Prod.fst hopen
    generalize openPorts _ = u at hframe ⊢
    have hlz : u.lz = { s.lz with run := r.next } := (congrArg State.lz hframe :)
    have hmem : u.mem = s.mem := (congrArg State.mem hframe :)
    have hvi : u.vi = s.vi := (congrArg State.vi hframe :)
    have htick : u.tick = s.tick := (congrArg State.tick hframe :)
    have hcommits : u.commits = s.commits := (congrArg State.commits hframe :)
    have hend := (lzEnd_eventsOnly ⟨0, 0, 0⟩ u).1
    refine ⟨?_, ?_, ?_, rg_lzEnd_status _ u, lzEnd_done _ u, ?_, ?_, ?_, ?_⟩
    · rw [hend]; simp [lzIdle, hlz]
    · rw [hend]; rfl
    · rw [hend]; rfl
    · rw [hend]; exact hmem
    · rw [hend]; exact hvi
    · rw [hend]; exact htick
    · rw [hend]; exact hcommits

end Sys2Proof.Machine
end

section
/-! PROOFS. Bonded Flocks: their forming, their unit actions and the members that do not answer. -/

namespace Sys2Proof.Machine

/-! ### Parks that wait for members (R70, R507) -/

theorem foldl_setCond_frame (l : List Nat) (c : Cond) (s : State) :
    l.foldl (fun s d => setCond d c s) s
      = { s with dom := { s.dom with conds := (l.foldl (fun s d => setCond d c s) s).dom.conds } } := by
  induction l generalizing s with
  | nil => rfl
  | cons d t ih =>
    rw [List.foldl_cons, ih]
    rfl

theorem parkEdge_frame (s : State) : parkEdge s = { s with dom := { s.dom with conds := (parkEdge s).dom.conds } } :=
  foldl_setCond_frame _ _ s

/-- What a park that goes on may change. -/
theorem parkProgress_frame (s : State) :
    parkProgress s = { s with lz := { s.lz with unitActions := (parkProgress s).lz.unitActions }, dom := (parkProgress s).dom } := by
  unfold parkProgress
  split
  · rfl
  · split
    · split <;> rfl
    · split
      · rfl
      · simp only []
        split
        · rw [parkEdge_frame]
          rfl
        · rw [foldl_setCond_frame]
          rfl

/-- Unit actions that are neither parks nor unparks stay. -/
theorem parkProgress_unitActions {s : State} (h : ∀ u ∈ s.lz.unitActions, u.kind = .reset) :
    (parkProgress s).lz.unitActions = s.lz.unitActions := by
  have hstay : ∀ (a : Nat) (park : Bool), (endUnits a (parkKind park) s).lz.unitActions = s.lz.unitActions := by
    intro a park
    refine List.filter_eq_self.2 fun u hu => ?_
    rw [h u hu]
    cases park <;> rfl
  unfold parkProgress
  split
  · rfl
  · split
    · split <;> rfl
    · split
      · rfl
      · simp only []
        split
        · rw [parkEdge_frame]
          exact hstay _ _
        · rw [foldl_setCond_frame]
          exact hstay _ _

/-! ### The member's fence (R71) -/

theorem fields_of_beyondSend {s t : State} (h : beyondSend t = beyondSend s) :
    t.lz = s.lz ∧ t.cf.fences = s.cf.fences ∧ t.tick = s.tick :=
  ⟨(congrArg State.lz h :), (congrArg (fun u : State => u.cf.fences) h :), (congrArg State.tick h :)⟩

/-- With an empty fence table the coordinate takes an empty entry. -/
theorem fenceMember_empty (node unit : Nat) {s : State} (h : s.cf.fences = []) :
    (fenceMember node unit s).lz = s.lz ∧
      ∃ i, mapGet (fenceMember node unit s).cf.fences i = some ⟨node, unit, 2, 1⟩ := by
  have hfree : ∃ i, (List.range 16384).find? (fun i => ((mapGet s.cf.fences i).map FenceEntry.state).getD 0 == 0) = some i := by
    refine Option.isSome_iff_exists.1 (List.find?_isSome.2 ⟨0, List.mem_range.2 (by decide), ?_⟩)
    rw [h]
    rfl
  obtain ⟨i, hi⟩ := hfree
  have hold : s.cf.fences.find? (fun e => e.2.node == node && e.2.unit == unit && e.2.state != 0) = none := by
    rw [h]
    rfl
  unfold fenceMember
  simp only [hold, hi]
  obtain ⟨hlz, hfences, _⟩ := fields_of_beyondSend (beyondSend_retryHeld
    { s with cf := { s.cf with fences := mapSet s.cf.fences i ⟨node, unit, 2, 1⟩, fencedAt := s.tick.count.toNat } })
  refine ⟨hlz, i, ?_⟩
  have hget := mapGet_mapSet_same s.cf.fences i (⟨node, unit, 2, 1⟩ : FenceEntry)
  rw [← hget]
  exact congrArg (fun m => mapGet m i) hfences

/-! ### The commands (R58, R70, R71) -/

theorem exec_bondForm {flock : Nat} {f : Flock} {b : LzBond} {s : State} (hr : running s = true) (hu : upPorts s ≠ [])
    (hn : s.lz.formed.contains flock = false) (hf : flockOf s.lz.run flock = some f) (hb : bondOf s f = some b) :
    exec (.bondForm flock) s = .next { s with lz := { s.lz with formed := s.lz.formed ++ [flock] } } := by
  have hc : (running s && !((upPorts s).isEmpty) && !(s.lz.formed.contains flock)
      && (flockOf s.lz.run flock).any (fun f => (bondOf s f).isSome)) = true := by
    simp [hr, hu, hn, hf, hb, -List.contains_eq_mem]
  change execBondForm flock s = _
  rw [execBondForm, hc, whenOk_true]

theorem exec_bondActionAck {flock member : Nat} {u : UnitAction} {s : State} (hr : running s = true)
    (hs : s.lz.unitActions = [u]) (hf : u.flock = flock) (hm : member ∈ u.waiting) :
    exec (.bondActionAck flock member) s = .next (parkProgress (unitAcked flock member s)) := by
  have hc : (running s && s.lz.unitActions.any (fun u => u.flock == flock && u.waiting.contains member)) = true := by
    simp [hr, hs, hf, hm]
  change execBondActionAck flock member s = _
  rw [execBondActionAck, hc, whenOk_true]

theorem exec_bondAckTimeout {flock member node unit : Nat} {u : UnitAction} {s : State} (hr : running s = true)
    (hs : s.lz.unitActions = [u]) (hf : u.flock = flock) (hm : member ∈ u.waiting)
    (ht : u.sentAt.toNat + 256 ≤ s.tick.count.toNat) :
    exec (.bondAckTimeout flock member node unit) s = .next (bondTimeout flock member node unit s) := by
  have hc : (running s && s.lz.unitActions.any (fun u => u.flock == flock && u.waiting.contains member
      && decide (u.sentAt.toNat + 256 ≤ s.tick.count.toNat))) = true := by
    simp [hr, hs, hf, hm, ht]
  change execBondAckTimeout flock member node unit s = _
  rw [execBondAckTimeout, hc, whenOk_true]

theorem exec_bondUnitActionReceive {flock : Nat} {f : Flock} {b : LzBond} (kind : UnitActionKind) {s : State}
    (hr : running s = true) (hf : flockOf s.lz.run flock = some f) (hb : bondOf s f = some b) (hi : b.index ≠ 0) :
    exec (.bondUnitActionReceive flock kind) s = .next (emit (.unitAck flock kind) (unitCarry flock kind s)) := by
  have hc : (running s && (flockOf s.lz.run flock).any (fun f => (bondOf s f).any (fun b => b.index != 0))) = true := by
    simp [hr, hf, hb, hi]
  change execBondUnitActionReceive flock kind s = _
  rw [execBondUnitActionReceive, hc, whenOk_true]

/-- A member's acknowledgement of the one action that runs, a reset. -/
theorem unitAcked_one {flock member : Nat} {u : UnitAction} {s : State} (hs : s.lz.unitActions = [u]) (hf : u.flock = flock)
    (hk : u.kind = .reset) :
    unitAcked flock member s
      = { s with lz := { s.lz with unitActions := [{ u with waiting := u.waiting.filter (· != member) }] } } := by
  simp [unitAcked, hs, hf, hk]

theorem parkProgress_reset {u : UnitAction} {s : State} (hs : s.lz.unitActions = [u]) (hk : u.kind = .reset) :
    (parkProgress s).lz = s.lz := by
  have h := parkProgress_unitActions (s := s) (by simp [hs, hk])
  rw [parkProgress_frame, h]

/-- Settles O22, by what each message does to the one action that runs. -/
theorem bondsFormAndAct : Obligations.BondsFormAndAct := by
  unfold Obligations.BondsFormAndAct
  refine ⟨fun flock f b s hr hu hn hf hb => exec_bondForm hr hu hn hf hb, fun flock member u s hr hs hf hm hk => ?_,
    fun flock member node unit u s hr hs hf hm ht hk he => ?_, fun flock f b s hr hf hb hi => ?_⟩
  · refine ⟨_, exec_bondActionAck hr hs hf hm, ?_⟩
    rw [unitAcked_one hs hf hk, parkProgress_reset (u := { u with waiting := u.waiting.filter (· != member) }) rfl hk]
  · obtain ⟨hlz, i, hi⟩ := fenceMember_empty node unit he
    refine ⟨_, exec_bondAckTimeout hr hs hf hm ht, ?_⟩
    have hlist : ((fenceMember node unit s).lz.unitActions.map
        fun u => if u.flock = flock then { u with degraded := true } else u) = [{ u with degraded := true }] := by
      rw [hlz, hs]
      simp [hf]
    unfold bondTimeout
    simp only [hlist]
    rw [unitAcked_one (u := { u with degraded := true }) rfl hf hk]
    let left : UnitAction := { u with degraded := true, waiting := u.waiting.filter (· != member) }
    refine ⟨⟨i, ⟨node, unit, 2, 1⟩, ?_, rfl, rfl, rfl⟩, ?_, ?_⟩
    · rw [parkProgress_frame]
      exact hi
    · rw [parkProgress_reset (u := left) rfl hk]
      simp only [hlz]
    · rw [parkProgress_reset (u := left) rfl hk]
      simp
  · exact ⟨_, exec_bondUnitActionReceive .fence hr hf hb hi, mem_insertNew.2 (.inr rfl), rfl, rfl⟩

end Sys2Proof.Machine
end

section
/-! PROOFS. Counters and management commands, the memory block's own work, spares and dumps. -/

namespace Sys2Proof.Machine

/-- A guarded operation whose guard holds. -/
theorem next_whenOk {c : Bool} {f : State → State} {s : State} (h : c = true) :
    (Host.Outcome.next (whenOk c f s) : Res) = .next (f s) := by
  rw [h, whenOk_true]

/-- A guarded operation whose guard fails. -/
theorem next_whenOk_false {c : Bool} {f : State → State} {s : State} (h : c = false) :
    (Host.Outcome.next (whenOk c f s) : Res) = .next s := by
  rw [h, whenOk_false]

/-! ### Saturating counters -/

theorem counted_bumpBy (k n : Nat) (s : State) : counted s (bumpBy k n s) k n := by
  unfold counted bumpBy
  rw [rg, regAt_putReg_same, BitVec.toNat_ofNat]
  exact Nat.mod_eq_of_lt (by omega)

theorem counted_bump (k : Nat) (s : State) : counted s (bump k s) k 1 := by
  unfold counted
  rw [rg, regAt_bump_same]
  have hlt := (regAt s k).isLt
  by_cases h : regAt s k = 0xFFFFFFFF
  · rw [if_pos h, rg, h]
    rfl
  · have hne : (regAt s k).toNat ≠ 0xFFFFFFFF := fun hn => h (BitVec.eq_of_toNat_eq hn)
    rw [if_neg h, BitVec.toNat_add]
    have h1 : (1 : Word).toNat = 1 := rfl
    have hrg : rg s k = regAt s k := rfl
    rw [h1, hrg]
    omega

/-- A count stands while the register does. -/
theorem counted_of_rg {s t u : State} {k n : Nat} (h : counted s t k n) (hr : rg u k = rg t k) : counted s u k n := by
  unfold counted
  rw [hr]
  exact h

theorem counted_from {s s' t : State} {k n : Nat} (h : counted s' t k n) (hr : rg s' k = rg s k) : counted s t k n := by
  unfold counted
  rw [← hr]
  exact h

theorem counted_raise {s t : State} {k n : Nat} (off bit : Nat) (h : counted s t k n) (hk : k ≠ off) :
    counted s (raise off bit t) k n :=
  counted_of_rg h (regAt_raise_ne t bit hk)

/-! ### Management commands (R131) -/

theorem waitsAt_opAt {s : State} {slot opcode : Nat} {o : Op} (h : waitsAt s slot opcode o) :
    opAt s 0 slot = some o ∧ o.head = slot ∧ o.done = none := by
  obtain ⟨hm, hh⟩ := h
  obtain ⟨x, hx, hif⟩ := Option.bind_eq_some_iff.1 hm
  split at hif
  · rename_i hc
    obtain rfl := Option.some.inj hif
    simp only [Bool.and_eq_true, Option.isNone_iff_eq_none] at hc
    exact ⟨hx, hh, hc.1.1.1⟩
  · exact absurd hif (by simp)

theorem opAt_of_q {s t : State} (h : t.q = s.q) (ring slot : Nat) : opAt t ring slot = opAt s ring slot := by
  unfold opAt ringOf
  rw [h]

/-- A waiting command ends with the status that its end gives. -/
theorem waitsAt_endsWith {s t : State} {slot opcode : Nat} {o : Op} (h : waitsAt s slot opcode o) (hq : t.q = s.q)
    (status : Nat) : endsWith (mgmtDone slot status t) 0 slot status := by
  obtain ⟨ho, hh, hd⟩ := waitsAt_opAt h
  exact mgmtDone_endsWith ((opAt_of_q hq 0 slot).trans ho) hh hd

theorem mgmtDone_frame (slot status : Nat) (s : State) :
    mgmtDone slot status s = { s with q := { s.q with rings := (mgmtDone slot status s).q.rings } } := rfl

/-! ### The memory block's own work (R112, R119, R121 to R126) -/

theorem exec_wipeDone {s : State} (hp : powered s = true) (hm : s.mem.phase ≠ 0) :
    exec .wipeDone s = .next (raise Reg.GX_MEM_EVENTS 0 { s with mem := { s.mem with phase := 0, t2Clean := 1024 } }) :=
  next_whenOk (by simp [hp, hm])

theorem exec_granuleWipeDone {g : Nat} {s : State} (hp : powered s = true) (hg : g ∈ s.mem.wiping) :
    exec (.granuleWipeDone g) s = .next { s with mem := { s.mem with wiping := s.mem.wiping.filter (· != g) } } :=
  next_whenOk (by simp [hp, hg])

theorem exec_scrubPass {n : Nat} {s : State} (hr : running s = true) (hs : rg s Reg.GX_MEM_SCRUB ≠ 0) (hn : 0 < n) :
    exec (.scrubPass n) s = .next (raise Reg.GX_MEM_EVENTS 1 (bumpBy Reg.GX_MEM_CE_CNT n s)) := by
  have hc : (running s && rg s Reg.GX_MEM_SCRUB != 0) = true := by rw [hr, Bool.true_and, bne_iff_ne]; exact hs
  change execScrubPass n s = _
  rw [execScrubPass, hc, whenOk_true, if_neg (by omega)]

theorem exec_rowRepairDone {bank : Nat} {s : State} (hr : running s = true) (hb : bank ∈ s.mem.rowBusy) :
    exec (.rowRepairDone bank) s = .next (raise Reg.GX_MEM_EVENTS 3
      { s with mem := { s.mem with rowBusy := s.mem.rowBusy.filter (· != bank) } }) :=
  next_whenOk (by simp [hr, hb])

/-- The state in which a pseudo-channel's spare has taken its place. -/
def pcSwapped (stack pc : Nat) (s : State) : State :=
  { s with mem := { s.mem with pcRun := s.mem.pcRun.filter (· != (stack, pc)) },
           re := { s.re with now := { s.re.now with pcs := s.re.now.pcs ++ [(stack, pc)] },
                             record := { s.re.record with pcs := s.re.now.pcs ++ [(stack, pc)] } } }

theorem exec_pcSwapComplete {stack pc : Nat} {s : State} (hr : running s = true) (hb : (stack, pc) ∈ s.mem.pcRun) :
    exec (.pcSwapComplete stack pc) s = .next (raise Reg.GX_MEM_EVENTS 4 (pcSwapped stack pc s)) :=
  next_whenOk (by simp [hr, hb])

/-- The state in which a retired frame's accesses go to its new place. -/
def frameRetired (frame : Nat) (s : State) : State :=
  { s with mem := { s.mem with frameRun := s.mem.frameRun.filter (· != frame) },
           re := { s.re with now := { s.re.now with frames := s.re.now.frames ++ [frame] },
                             record := { s.re.record with frames := s.re.now.frames ++ [frame] } } }

theorem exec_frameRetireRedirect {frame : Nat} {s : State} (hr : running s = true) (hb : frame ∈ s.mem.frameRun) :
    exec (.frameRetireRedirect frame) s = .next (raise Reg.GX_MEM_EVENTS 5 (frameRetired frame s)) :=
  next_whenOk (by simp [hr, hb])

/-- Settles O23: each end changes its own list and raises its event. -/
theorem memoryBlockWorkEnds : Obligations.MemoryBlockWorkEnds := by
  unfold Obligations.MemoryBlockWorkEnds
  refine ⟨fun s hp hm => ⟨_, exec_wipeDone hp hm, raise_sets _ _ 0 (by decide), raise_eventsOnly _ _ 0⟩,
    fun g s hp hg => exec_granuleWipeDone hp hg, fun n s hr hs hn hlt => ?_,
    fun bank s hr hb => ⟨_, exec_rowRepairDone hr hb, raise_sets _ _ 3 (by decide), raise_eventsOnly _ _ 3⟩,
    fun stack pc s hr hb => ?_, fun frame s hr hb => ?_⟩
  · have hcount : counted s (raise Reg.GX_MEM_EVENTS 1 (bumpBy Reg.GX_MEM_CE_CNT n s)) Reg.GX_MEM_CE_CNT n :=
      counted_raise _ _ (counted_bumpBy _ n s) (by decide)
    refine ⟨_, exec_scrubPass hr hs hn, ?_, raise_sets _ _ 1 (by decide), ?_⟩
    · rw [hcount]
      omega
    · have hbump : eventsOnly s (bumpBy Reg.GX_MEM_CE_CNT n s) [Reg.GX_MEM_CE_CNT] := putReg_eventsOnly s _ _
      exact eventsOnly_mono (eventsOnly_trans hbump (raise_eventsOnly _ Reg.GX_MEM_EVENTS 1)) (by simp)
  · have hre : (raise Reg.GX_MEM_EVENTS 4 (pcSwapped stack pc s)).re = (pcSwapped stack pc s).re := raise_re _ _ _
    have hmem : (raise Reg.GX_MEM_EVENTS 4 (pcSwapped stack pc s)).mem = (pcSwapped stack pc s).mem := raise_mem _ _ _
    refine ⟨_, exec_pcSwapComplete hr hb, ?_, ?_, raise_sets _ _ 4 (by decide), by rw [hmem]; rfl, ?_⟩
    · rw [hre]; simp [pcSwapped]
    · rw [hre]; simp [pcSwapped]
    · rw [hre, hmem]; exact raise_eventsOnly (pcSwapped stack pc s) _ 4
  · have hre : (raise Reg.GX_MEM_EVENTS 5 (frameRetired frame s)).re = (frameRetired frame s).re := raise_re _ _ _
    have hmem : (raise Reg.GX_MEM_EVENTS 5 (frameRetired frame s)).mem = (frameRetired frame s).mem := raise_mem _ _ _
    refine ⟨_, exec_frameRetireRedirect hr hb, ?_, ?_, raise_sets _ _ 5 (by decide), by rw [hmem]; rfl, ?_⟩
    · rw [hre]; simp [frameRetired]
    · rw [hre]; simp [frameRetired]
    · rw [hre, hmem]; exact raise_eventsOnly (frameRetired frame s) _ 5

end Sys2Proof.Machine
end

section
/-! PROOFS. Spare cores and dumps. -/

namespace Sys2Proof.Machine

/-! ### Spare cores (R521) -/

theorem coreSwapBegin_starts {w : CoreSwap} {s : State} (hs : s.re.swap = some w) (hc : w.copying = false) :
    coreSwapBegin s = bumpEpoch w.lk { s with re := { s.re with swap := some { w with copying := true } } } := by
  unfold coreSwapBegin
  rw [hs]
  simp only [hc, Bool.false_eq_true, if_false]

theorem partEpoch_bumpEpoch (key : Nat) (s : State) : partEpoch (bumpEpoch key s) key = (partEpoch s key + 1) % 16 :=
  getD_mapPut_same 0 s.re.epochs key _

/-- The state in which the spare serves its core. -/
def spareServes (w : CoreSwap) (s : State) : State :=
  repair (fun r => { r with spareMap := some w.lk, fencedCores := insertNew r.fencedCores w.px })
    { s with re := { s.re with swap := none }, xl := { s.xl with l1 := s.xl.l1.filter (fun e => e.1 != w.lk) } }

theorem coreLosses_idle {s : State} (hs : s.re.swap = none) (hq : s.re.coreQueue = []) : coreLosses s = s := by
  rw [coreLosses, hs, if_neg (by decide), hq, List.foldl_nil, ← hq]

theorem coreSwapComplete_ends {w : CoreSwap} {s : State} (hs : s.re.swap = some w) (hc : w.copying = true)
    (hq : s.re.coreQueue = []) :
    coreSwapComplete s = raise Reg.GX_RE_EVENTS 2 (spareServes w s) := by
  have hswap : (raise Reg.GX_RE_EVENTS 2 (spareServes w s)).re.swap = none := by rw [raise_re]; rfl
  have hqueue : (raise Reg.GX_RE_EVENTS 2 (spareServes w s)).re.coreQueue = [] := by rw [raise_re]; exact hq
  unfold coreSwapComplete
  rw [hs]
  simp only [hc, Bool.not_true, Bool.false_eq_true, if_false]
  exact coreLosses_idle hswap hqueue

/-! ### Dumps (R533, R535, R537) -/

theorem exec_dumpRegion {slot : Nat} {s : State} (hw : working s = true) :
    exec (.dumpRegion slot) s = .next (dumpRegion slot s) := next_whenOk hw

/-- The regions that a DUMP_REGION entry names. -/
def dumpRegOf (e : BitVec 512) : DumpReg :=
  { hostValid := (ef e 28 1).testBit 0, hostAddr := BitVec.ofNat 64 (ef e 16 8), hostLen := ef e 24 4
    tierValid := (ef e 28 1).testBit 1, tierOffset := ef e 32 8, tierLen := ef e 40 4 }

theorem dumpRegion_host {slot : Nat} {o : Op} {s : State} (ho : waitsAt s slot 0x1D o) (hf : ef o.entry 28 1 = 1)
    (hl : 0x400000 ≤ ef o.entry 24 4) (hd : s.re.dumpState ≠ 3) :
    dumpRegion slot s = mgmtDone slot stOk { s with re := { s.re with dumpReg := dumpRegOf o.entry } } := by
  have h0 : Nat.testBit 1 0 = true := by decide
  have h1 : Nat.testBit 1 1 = false := by decide
  have hlen : decide (ef o.entry 24 4 < 0x400000) = false := by simpa using hl
  unfold dumpRegion dumpRegOf
  rw [ho.1]
  simp only [hf, h0, h1, hlen, hd, Bool.true_and, Bool.false_and, Bool.or_false, Bool.false_eq_true,
    if_false, Nat.one_ne_zero, decide_false]

theorem dumpRegion_short {slot : Nat} {o : Op} {s : State} (ho : waitsAt s slot 0x1D o) (hf : ef o.entry 28 1 = 1)
    (hl : ef o.entry 24 4 < 0x400000) : dumpRegion slot s = mgmtDone slot stAborted s := by
  have h0 : Nat.testBit 1 0 = true := by decide
  unfold dumpRegion
  rw [ho.1]
  simp only [hf, h0, hl, decide_true, Bool.true_and, Bool.true_or, if_true]

theorem warmBegin_up {cause : Nat} {s : State} (hf : s.gl.fatalHalt = false) (hp : powered s = true)
    (hd : s.fw.coldDue = false) (hb : s.fw.boot = .ready) :
    warmBegin cause s =
      { s with fw := { s.fw with warmDue := some cause, boot := .loading }, gl := { s.gl with resetCause := cause } } := by
  simp [warmBegin, hf, hp, hd, hb]

/-- The end of a dump keeps the registers and the memory. -/
theorem dumpEnd_keeps (s : State) :
    (dumpEnd s).regs = s.regs ∧ (dumpEnd s).mem = s.mem ∧ (dumpEnd s).re = { s.re with dumping := false } := by
  unfold dumpEnd
  simp only []
  split
  · exact ⟨rfl, rfl, rfl⟩
  · unfold warmBegin
    split
    · exact ⟨rfl, rfl, rfl⟩
    · split <;> exact ⟨rfl, rfl, rfl⟩

/-- The dump has gone to the host region. -/
def dumpSent (x : DumpIn) (s : State) : State :=
  { emit (.flushRead 0) (emit (.busWrite 0 s.re.dumpReg.hostAddr (dumpBytes x s)) s) with
    re := { s.re with dumpState := 2 } }

theorem dumpComplete_host {x : DumpIn} {s : State} (hv : s.re.dumpReg.hostValid = true) (hu : s.pc.hstUp = true)
    (hx : x.hostOk = true) : dumpComplete x s = dumpEnd (raise Reg.GX_RE_EVENTS 7 (dumpSent x s)) := by
  unfold dumpComplete dumpSent
  simp only [hv, hu, hx, Bool.and_self, if_true]
  rfl

/-- What a raised event adds to the messages sent comes after them. -/
theorem raise_out (off bit : Nat) (s : State) : ∃ l, (raise off bit s).out = s.out ++ l := by
  have hsend : ∀ fn v (t : State), ∃ l, (msixSend fn v t).out = t.out ++ l := by
    intro fn v t
    unfold msixSend
    split
    · exact ⟨_, rfl⟩
    · exact ⟨[], (List.append_nil _).symm⟩
  unfold raise
  simp only []
  split
  · exact ⟨[], (List.append_nil _).symm⟩
  · split
    · unfold intFire msixRaise
      split
      · split
        · exact hsend _ _ _
        · exact ⟨[], (List.append_nil _).symm⟩
      · exact ⟨[], (List.append_nil _).symm⟩
    · exact ⟨[], (List.append_nil _).symm⟩

theorem dumpEnd_up {s : State} (hf : s.gl.fatalHalt = false) (hp : powered s = true) (hd : s.fw.coldDue = false)
    (hb : s.fw.boot = .ready) :
    dumpEnd s = { s with re := { s.re with dumping := false }, fw := { s.fw with warmDue := some 6, boot := .loading }
                         gl := { s.gl with resetCause := 6 } } := by
  unfold dumpEnd
  exact (if_neg (by simp [hf])).trans (warmBegin_up (s := { s with re := { s.re with dumping := false } }) hf hp hd hb)

/-- Settles O26, by the equations of the swaps and of the dump's ends. -/
theorem sparesAndDumps : Obligations.SparesAndDumps := by
  unfold Obligations.SparesAndDumps
  refine ⟨fun w s hw hs hc => ?_, fun w s hw hs hc hq => ?_, fun slot o s hw ho hf hl hd => ?_,
    fun slot o s hw ho hf hl => ?_, fun x s hp hd hv hu hx hf hcd hb => ?_, fun s hp hd => ?_⟩
  · refine ⟨_, next_whenOk hw, ?_⟩
    rw [coreSwapBegin_starts hs hc]
    exact ⟨rfl, partEpoch_bumpEpoch w.lk _, rfl⟩
  · refine ⟨_, next_whenOk hw, ?_⟩
    rw [coreSwapComplete_ends hs hc hq]
    have hev := raise_eventsOnly (spareServes w s) Reg.GX_RE_EVENTS 2
    have hbit := raise_sets (spareServes w s) Reg.GX_RE_EVENTS 2 (by decide)
    generalize raise Reg.GX_RE_EVENTS 2 (spareServes w s) = u at hev hbit ⊢
    obtain ⟨hframe, hregs⟩ := hev
    rw [hframe] at hregs hbit ⊢
    refine ⟨rfl, rfl, mem_insertNew.2 (.inr rfl), rfl, fun e he => ?_, hbit, rfl, rfl, hregs⟩
    simpa using (List.mem_filter.1 he).2
  · refine ⟨_, exec_dumpRegion hw, ?_⟩
    rw [dumpRegion_host ho hf hl hd]
    refine ⟨waitsAt_endsWith ho rfl _, ?_, rfl, ?_, rfl⟩
    · change (ef o.entry 28 1).testBit 0 = true
      rw [hf]
      decide
    · change (ef o.entry 28 1).testBit 1 = false
      rw [hf]
      decide
  · refine ⟨_, exec_dumpRegion hw, ?_⟩
    rw [dumpRegion_short ho hf hl]
    exact ⟨waitsAt_endsWith ho rfl _, rfl⟩
  · refine ⟨_, next_whenOk (by simp [hp, hd]), ?_⟩
    rw [dumpComplete_host hv hu hx]
    obtain ⟨l, hl⟩ := raise_out Reg.GX_RE_EVENTS 7 (dumpSent x s)
    have hev := raise_eventsOnly (dumpSent x s) Reg.GX_RE_EVENTS 7
    have hbit := raise_sets (dumpSent x s) Reg.GX_RE_EVENTS 7 (by decide)
    generalize raise Reg.GX_RE_EVENTS 7 (dumpSent x s) = u at hl hev hbit ⊢
    obtain ⟨hframe, _⟩ := hev
    have hup : dumpEnd u = { u with re := { u.re with dumping := false }
                                    fw := { u.fw with warmDue := some 6, boot := .loading }
                                    gl := { u.gl with resetCause := 6 } } := by
      rw [hframe]
      exact dumpEnd_up hf hp hcd hb
    rw [hup]
    refine ⟨rfl, ?_, rfl, rfl, rfl, hbit, ⟨l, ?_⟩, ?_⟩
    · rw [hframe]; rfl
    · simp only []
      rw [hl]
      simp [dumpSent, emit]
    · rw [hframe]; rfl
  · refine ⟨_, next_whenOk (by simp [hp, hd]), ?_⟩
    obtain ⟨hregs, hmem, hre⟩ := dumpEnd_keeps (raise Reg.GX_RE_EVENTS 8 { s with re := { s.re with dumpState := 4 } })
    rw [raise_re] at hre
    rw [raise_mem] at hmem
    refine ⟨?_, ?_, ?_, hmem⟩
    · rw [dumpLost, hre]
    · rw [dumpLost, hre]
    · have hbit := raise_sets { s with re := { s.re with dumpState := 4 } } Reg.GX_RE_EVENTS 8 (by decide)
      rw [dumpLost, rg, regAt, hregs]
      exact hbit

end Sys2Proof.Machine
end

section
/-! PROOFS. The registration and removal of rings: a shutdown that names the management SQ's own number. -/

namespace Sys2Proof.Machine

/-- A READY adapter with nothing under way. -/
def readyState : State :=
  { State.reset with pins := { State.reset.pins with pwrGood := true }, fw := { State.reset.fw with boot := .ready } }

/-- A RING_SHUTDOWN that names ring 0, accepted at slot 0. -/
def shutZeroOp : Op := { slot := 0, entry := 0x1100, head := 0 }

/-- A ring of number 0 that is a completion queue and holds that command. -/
def cqZero : Ring := { kind := .cq, base := 0, loc := 0, log2 := 3, inst := 0, ops := [shutZeroOp] }

/-- A READY adapter whose one ring is that one. -/
def cqZeroState : State := { readyState with q := { rings := [(0, cqZero)] } }

/-- Refutes O27: clause 6 does not keep the shut CQ apart from ring 0, which holds the command.  Where ring 0 itself is a CQ that no ring
uses, the command removes it and with it the entry whose completion the clause promises. -/
theorem not_ringsAreRegisteredAndRemoved : ¬ Obligations.RingsAreRegisteredAndRemoved := by
  unfold Obligations.RingsAreRegisteredAndRemoved
  rintro ⟨_, _, _, _, _, hshut, _⟩
  obtain ⟨t, ht, hend, hgone, _⟩ := hshut 0 shutZeroOp cqZero [] [] false cqZeroState (by decide +kernel) (by decide +kernel)
    (by decide +kernel) rfl (by decide +kernel)
  have h0 : ef shutZeroOp.entry 16 2 % 2 ^ 15 = 0 := by decide +kernel
  rw [h0] at hgone
  unfold endsWith opAt at hend
  rw [hgone] at hend
  exact absurd hend (by simp)

end Sys2Proof.Machine
end

section
/-! PROOFS. Entries through rings: polls, reservations, doorbells, acceptance, halts and the release of completions. -/

namespace Sys2Proof.Machine

/-! ### Rings -/

theorem ringOf_updRing_same {r : Nat} {g : Ring} {s : State} (h : ringOf s r = some g) (f : Ring → Ring) :
    ringOf (updRing r f s) r = some (f g) := by
  rw [ringOf_updRing, if_pos rfl, h]
  rfl

theorem ringOf_updRing_ne {q r : Nat} (s : State) (f : Ring → Ring) (h : q ≠ r) : ringOf (updRing r f s) q = ringOf s q := by
  rw [ringOf_updRing, if_neg h]

/-! ### Polls and reservations (R138, R139, R148 to R150) -/

/-- The state once a poll or check of a tenant's ring has been charged and counted. -/
def polledState (s : State) : State := bump Reg.GX_Q_POLL_CNT { s with q := { s.q with budget := s.q.budget - 1 } }

theorem chargePoll_now {r : Nat} {s : State} (doorbell : Bool) (hr : 2 ≤ r) (hi : s.q.issued = []) (hb : 0 < s.q.budget) :
    chargePoll r doorbell s = .now { s with q := { s.q with budget := s.q.budget - 1 } } := by
  have h2 : ¬r < 2 := by omega
  simp [chargePoll, h2, hi, hb]

theorem pollSq_served {r : Nat} {entry : BitVec 512} {failed : Bool} {g : Ring} {s : State} (hg : ringOf s r = some g)
    (hr : 2 ≤ r) (hs : sqServed s r g = true) (hv : g.reserved = true) (hf : g.fetched = none) (hi : s.q.issued = [])
    (hb : 0 < s.q.budget) (hread : slotReadFails s g (g.nextFetch % ringSize g) 64 failed = false) :
    pollSq r entry failed s =
      if (slotRead s g (g.nextFetch % ringSize g) entry).getLsbD 0 then
        updRing r (fun g' => { g' with interval := g'.pollInt, doorbell := false,
                                       fetched := some (slotRead s g (g.nextFetch % ringSize g) entry) }) (polledState s)
      else updRing r backOff (polledState s) := by
  have hguard : (!(sqServed s r g && g.reserved && g.fetched.isNone)) = false := by rw [hs, hv, hf]; rfl
  have hfails : slotReadFails (polledState s) g (g.nextFetch % ringSize g) 64 failed = false := hread
  unfold pollSq
  rw [hg]
  simp only [hguard, Bool.false_eq_true, if_false]
  rw [chargePoll_now _ hr hi hb]
  simp only []
  exact if_neg (by rw [← polledState, hfails]; decide)

theorem checkCq_reserves {r : Nat} {own failed : Bool} {g c : Ring} {s : State} (hg : ringOf s r = some g) (hr : 2 ≤ r)
    (hs : sqServed s r g = true) (hv : g.reserved = false) (hc : ringOf s g.cq = some c) (hi : s.q.issued = [])
    (hb : 0 < s.q.budget) (hread : slotReadFails s c (c.resNext % ringSize c) 32 failed = false)
    (hown : cqOwn s c (c.resNext % ringSize c) own = true) : checkCq r own failed s = reserveSlot r g.cq (polledState s) := by
  have hguard : (!(sqServed s r g && !g.reserved)) = false := by rw [hs, hv]; rfl
  have hfails : slotReadFails (polledState s) c (c.resNext % ringSize c) 32 failed = false := hread
  have howns : cqOwn (polledState s) c (c.resNext % ringSize c) own = true := hown
  unfold checkCq
  rw [hg]
  simp only [hguard, Bool.false_eq_true, if_false]
  rw [hc]
  simp only []
  rw [chargePoll_now _ hr hi hb]
  simp only []
  rw [← polledState, hfails, howns]
  rfl

theorem ringOf_polledState (s : State) (r : Nat) : ringOf (polledState s) r = ringOf s r := rfl

/-! ### Doorbells (R151) -/

theorem doorbell_sq {n r : Nat} {g : Ring} {s : State} (hg : ringOf s r = some g) (hn : g.inst = n) (hk : g.kind = .sq) :
    doorbell n r s = { (updRing r (fun g => { g with doorbell := true }) s) with
      q := { (updRing r (fun g => { g with doorbell := true }) s).q with
        deferred := s.q.deferred.map (fun d => if d.1 = r then (r, true) else d) } } := by
  unfold doorbell
  rw [hg]
  simp only [hn, ne_eq, not_true_eq_false, if_false, hk]

theorem doorbell_bad {n r : Nat} {s : State} (h : ∀ g, ringOf s r = some g → g.inst ≠ n ∨ g.kind = .rq) :
    doorbell n r s = raise Reg.GX_Q_EVENTS 3 (bump Reg.GX_Q_DOORBELL_BAD_CNT s) := by
  unfold doorbell
  cases hg : ringOf s r with
  | none => rfl
  | some g =>
    rcases h g hg with hn | hk
    · simp only [hn, ne_eq, not_false_eq_true, if_true]
    · simp only [hk, ite_self]

/-! ### Halts (R154) -/

@[simp] theorem recordHalt_frame (n ring slot reason : Nat) (s : State) :
    (recordHalt n ring slot reason s).vi = s.vi ∧ (recordHalt n ring slot reason s).lz = s.lz := by
  unfold recordHalt
  split
  · exact ⟨rfl, rfl⟩
  · exact ⟨(putReg_vi ..).trans (putReg_vi ..), (putReg_lz ..).trans (putReg_lz ..)⟩

theorem stopMoves_vi (n status : Nat) (s : State) : (stopMoves n status s).vi = s.vi := by
  refine foldl_keeps State.vi _ (fun t slot => ?_) _ s
  unfold stopMgmt
  split <;> rfl

/-- Sending a unit action to members leaves the virtualization block. -/
theorem announce_vi (f : Nat) (kind : UnitActionKind) (ms : List Nat) (s : State) :
    (ms.foldl (fun s m => { s with out := s.out ++ [.unitAction f m kind] }) s).vi = s.vi :=
  foldl_keeps State.vi (fun s m => { s with out := s.out ++ [.unitAction f m kind] }) (fun _ _ => rfl) ms s

theorem startUnits_vi (a : Nat) (kind : UnitActionKind) (s : State) : (startUnits a kind s).vi = s.vi := by
  refine foldl_keeps State.vi _ (fun t f => ?_) _ s
  split
  · rfl
  · simp only []
    split
    · rfl
    · rw [announce_vi]

theorem inst_of_vi {s t : State} (h : t.vi = s.vi) (n : Nat) : inst t n = inst s n := by
  unfold inst
  rw [h]

theorem inst_enterState_same (n : Nat) (st : InstState) (s : State) :
    inst (enterState n st s) n = { inst s n with state := st } := by
  unfold enterState
  cases st with
  | disabled => exact inst_setInst_same n _ s
  | ready => exact (inst_of_vi (raisePage_vi _ n 3) n).trans (inst_setInst_same n _ s)
  | freezing => exact (inst_of_vi (raisePage_vi _ n 3) n).trans (inst_setInst_same n _ s)
  | frozen => exact (inst_of_vi (raisePage_vi _ n 3) n).trans (inst_setInst_same n _ s)
  | resetting => exact (inst_of_vi (raisePage_vi _ n 3) n).trans (inst_setInst_same n _ s)
  | halted => exact (inst_of_vi (raisePage_vi _ n 2) n).trans (inst_setInst_same n _ s)

theorem inst_dropFreeze_same (n : Nat) (s : State) :
    inst (dropFreeze n s) n = { inst s n with freeze := none, thaw := none } := by
  have hdone : ∀ (slot : Option Nat) (t : State), inst (slot.elim t (fun slot => mgmtDone slot stAborted t)) n = inst t n := by
    intro slot t
    cases slot <;> rfl
  unfold dropFreeze
  simp only []
  rw [inst_setInst_same, hdone, hdone]

/-- What a halted instance looks like. -/
theorem enterHalted_halts {n reason : Nat} {s : State} (h : (inst s n).state = .ready) :
    inst (enterHalted n reason s) n = { inst s n with state := .halted, reason := reason, freeze := none, thaw := none } ∧
      (rg (enterHalted n reason s) Reg.GX_Q_EVENTS).getLsbD 0 = true := by
  have hunits : ∀ (o : Option Nat) (t : State), (o.elim t (fun a => startUnits a .halt t)).vi = t.vi := by
    intro o t
    cases o with
    | none => rfl
    | some a => exact startUnits_vi a .halt t
  unfold enterHalted
  simp only [h, beq_self_eq_true, Bool.true_or, if_true]
  refine ⟨?_, raise_sets _ _ 0 (by decide)⟩
  rw [inst_of_vi (raise_vi _ _ _), inst_enterState_same, inst_of_vi (hunits _ _), inst_setInst_same,
    inst_of_vi (stopMoves_vi n stAborted (dropFreeze n s)), inst_dropFreeze_same]

theorem haltFor_ready {ring slot reason : Nat} {g : Ring} {s : State} (hr : 2 ≤ ring) (hg : ringOf s ring = some g)
    (hi : (inst s g.inst).state = .ready) :
    (inst (haltFor ring slot reason s) g.inst).state = .halted ∧ (inst (haltFor ring slot reason s) g.inst).reason = reason ∧
      (rg (haltFor ring slot reason s) Reg.GX_Q_EVENTS).getLsbD 0 = true := by
  have hrec : inst (recordHalt g.inst ring slot reason s) g.inst = inst s g.inst := inst_of_vi (recordHalt_frame ..).1 _
  have hhalt : haltFor ring slot reason s = enterHalted g.inst reason (recordHalt g.inst ring slot reason s) := by
    unfold haltFor haltInstance
    rw [hg]
    simp only [if_neg (show ¬ring < 2 by omega), hi, beq_self_eq_true, Bool.true_or, if_true]
  obtain ⟨hinst, hev⟩ := enterHalted_halts (n := g.inst) (reason := reason) (s := recordHalt g.inst ring slot reason s)
    (by rw [hrec, hi])
  rw [hhalt, hinst]
  exact ⟨rfl, rfl, hev⟩

/-! ### Acceptance (R138, R153) -/

theorem firstReason_none {checks : List (Bool × Nat)} (h : firstReason checks = none) : ∀ c ∈ checks, c.1 = false := by
  intro c hc
  unfold firstReason at h
  rw [Option.map_eq_none_iff, List.find?_eq_none] at h
  simpa using h c hc

/-- A whole kernel entry in one slot is never sound: its parameters need continuations (R145, R334). -/
theorem entryReason_kernel_alone {s : State} {r : Nat} {g : Ring} {e : BitVec 512} (hr : r ≠ 0) (h1 : e.getLsbD 1 = true)
    (h2 : e.getLsbD 2 = true) (h9 : entryOpcode e ≠ 9) (h7 : 7 < entryOpcode e) : entryReason s r g e ≠ none := by
  intro h
  unfold entryReason at h
  simp only [] at h
  split at h
  · exact absurd h (by simp)
  · rename_i hcode
    have hok : opcodeOk r (entryOpcode e) = true := by simpa using hcode
    have h8 : entryOpcode e = 8 := by
      rw [opcodeOk, if_neg hr] at hok
      simp only [Bool.and_eq_true, decide_eq_true_eq] at hok
      omega
    have hall := firstReason_none h
    have hchain := hall (g.openChain.isSome || e.getLsbD 2 && continuations e != 0, 3) (by simp [tenantChecks])
    have hfield := hall (tenantField s r g e, 4) (by simp [tenantChecks])
    have hcont : continuations e = 0 := by simpa [h2] using (Bool.or_eq_false_iff.1 hchain).2
    have hlen : eParamLen e ≠ 0 := by
      simp only [tenantField, h8, Bool.or_eq_false_iff] at hfield
      simpa using hfield.1.1.1.2
    simp only [continuations, h8] at hcont
    omega

/-- The state after a sound entry of one slot has been taken. -/
theorem takeEntry_alone {r : Nat} {g : Ring} {e : BitVec 512} {s : State} (h1 : e.getLsbD 1 = true) (h2 : e.getLsbD 2 = true) :
    takeEntry r g e none s = updRing r (fun g' => { g' with
      nextFetch := g'.nextFetch + 1, reserved := false, fetched := none, openChain := none
      ops := g'.ops ++ [{ slot := g.nextFetch % ringSize g, entry := e, head := g.nextFetch % ringSize g }] }) s := by
  have hmap : ∀ l : List Op, l.map (fun x => x) = l := fun l => List.map_id l
  unfold takeEntry
  simp only [h1, h2, if_true, Option.isSome_none, Bool.false_and, Bool.false_eq_true, if_false, Bool.false_or,
    Option.getD_none, hmap]

theorem entryAccept_eq {r : Nat} {g : Ring} {e : BitVec 512} {s : State} (hg : ringOf s r = some g) (hf : g.fetched = some e)
    (hv : g.reserved = true) (hb : bantamBusy s 1 = false) (hi : (inst s g.inst).state = .ready)
    (hw : bondWaits s g.inst = false) :
    entryAccept r s = match entryReason s r g e with
      | some reason => haltFor r (g.nextFetch % ringSize g) reason (takeEntry r g e (some reason) s)
      | none => entryEffects r e (if e.getLsbD 1 then g.nextFetch % ringSize g
          else g.openChain.getD (g.nextFetch % ringSize g)) (takeEntry r g e none s) := by
  unfold entryAccept
  rw [hg]
  simp only [hf, hv, hb, hi, hw, Bool.not_true, bne_self_eq_false, Bool.or_false, Bool.and_false, Bool.false_eq_true, if_false]
  split <;> simp_all

/-- A management entry has no effect at its acceptance. -/
theorem entryEffects_mgmt {e : BitVec 512} (head : Nat) (s : State) (h9 : entryOpcode e ≠ 9) : entryEffects 0 e head s = s := by
  unfold entryEffects
  simp only [h9, if_false]
  split
  · rfl
  · simp

/-! ### The release of completions (R137, R140) -/

theorem placeWrite_host {addr : Nat} (bs : List Byte) {s : State} (h : s.pc.hstUp = true) :
    placeWrite 0 addr bs s = (emit (.busWrite 0 (BitVec.ofNat 64 addr) bs) s, false) := by
  simp [placeWrite, h]

/-- The three writes of a completion over HST. -/
def completionWrites (r : Nat) (o : Op) (c : Completion) (g q : Ring) (s : State) : State :=
  emit (.busWrite 0 (BitVec.ofNat 64 (g.base.toNat + 64 * o.slot)) (leBytes 1 (ef o.entry 0 1 / 2 * 2)))
    (emit (.busWrite 0 (BitVec.ofNat 64 (q.base.toNat + 32 * (q.wrNext % ringSize q))) ((completionBytes r o c).take 1))
      (emit (.busWrite 0 (BitVec.ofNat 64 (q.base.toNat + 32 * (q.wrNext % ringSize q) + 1)) ((completionBytes r o c).drop 1)) s))

theorem releaseHead_host {r : Nat} {o : Op} {c : Completion} {g q : Ring} {s : State} (hg : ringOf s r = some g)
    (hh : headReady g = some (o, c)) (hq : ringOf s g.cq = some q) (hgl : g.loc = 0) (hql : q.loc = 0)
    (hup : s.pc.hstUp = true) :
    releaseHead r s =
      (updRing r (fun g => { g with ops := g.ops.drop 1, nextDone := g.nextDone + 1,
                                    last := some (o.slot, q.wrNext % ringSize q, completionBytes r o c, ef o.entry 0 1 / 2 * 2) })
        (updRing g.cq (fun q => { q with wrNext := q.wrNext + 1 }) (completionWrites r o c g q s)), false) := by
  unfold releaseHead
  rw [hg]
  simp only [hh, hq, hgl, hql]
  rw [placeWrite_host _ hup]
  simp only []
  rw [placeWrite_host _ (by exact hup)]
  simp only []
  rw [placeWrite_host _ (by exact hup)]
  rfl

/-- Settles O28, command by command. -/
theorem entriesGoThroughRings : Obligations.EntriesGoThroughRings := by
  unfold Obligations.EntriesGoThroughRings
  refine ⟨fun r entry failed g s hw hg hr hs hv hf hi hb hread => ?_,
    fun r own failed g c s hw hg hr hs hv hc hne hi hb hread hown => ?_, fun n r g s hrun hin hg hn hk => ?_,
    fun n r s hrun hin h => ?_, fun r e g s hw hg hf hv hb hi hwait h1 h2 hok h9 h7 => ?_,
    fun r reason e g s hw hr hg hf hv hb hi hwait hbad => ?_, fun r o c g q s hw hr hg hh hi hq hne hgl hql hup => ?_⟩
  · have heq := pollSq_served (entry := entry) hg hr hs hv hf hi hb hread
    have hcount : counted s (polledState s) Reg.GX_Q_POLL_CNT 1 :=
      counted_from (s' := { s with q := { s.q with budget := s.q.budget - 1 } }) (counted_bump _ _) rfl
    have hown : exec (.sqPoll r entry failed) s = .next (pollSq r entry failed s) := next_whenOk hw
    rw [hown, heq]
    split
    · rename_i h0
      refine ⟨_, _, rfl, hcount, rfl, ringOf_updRing_same hg _, fun _ => rfl, fun h => absurd (h0.symm.trans h) (by decide),
        fun k hk => ringOf_updRing_ne (polledState s) _ hk, rfl⟩
    · rename_i h0
      refine ⟨_, _, rfl, hcount, rfl, ringOf_updRing_same hg _, fun h => absurd h h0, fun _ hd => ?_,
        fun k hk => ringOf_updRing_ne (polledState s) _ hk, rfl⟩
      simp [backOff, hd]
  · refine ⟨_, next_whenOk hw, ?_⟩
    rw [checkCq_reserves hg hr hs hv hc hi hb hread hown]
    refine ⟨?_, ?_, rfl⟩
    · unfold reserveSlot
      rw [ringOf_updRing_ne _ _ (Ne.symm hne), ringOf_updRing_same (s := polledState s) hg]
    · unfold reserveSlot
      refine ringOf_updRing_same ?_ _
      rw [ringOf_updRing_ne _ _ hne]
      exact hc
  · refine ⟨_, next_whenOk (by simp [hrun, hin]), ?_⟩
    rw [doorbell_sq hg hn hk]
    exact ⟨(ringOf_updRing_same (r := r % 32768) (s := s) hg (fun g => { g with doorbell := true }) :), rfl⟩
  · refine ⟨_, next_whenOk (by simp [hrun, hin]), ?_⟩
    rw [doorbell_bad h]
    exact ⟨counted_raise _ _ (counted_bump _ s) (by decide), raise_sets _ _ 3 (by decide),
      eventsOnly_mono (eventsOnly_trans (bump_eventsOnly s _) (raise_eventsOnly _ _ 3)) (by simp)⟩
  · have h0 : r = 0 := Decidable.byContradiction fun hne => entryReason_kernel_alone hne h1 h2 h9 h7 hok
    subst h0
    have heq : entryAccept 0 s = takeEntry 0 g e none s := by
      rw [entryAccept_eq hg hf hv hb hi hwait, hok]
      exact entryEffects_mgmt _ _ h9
    rw [takeEntry_alone h1 h2] at heq
    have hown : exec (.entryAccept 0) s = .next (entryAccept 0 s) := next_whenOk hw
    rw [hown, heq]
    exact ⟨_, _, rfl, ringOf_updRing_same hg _, rfl, rfl, rfl, rfl, rfl, rfl, fun k hk => ringOf_updRing_ne s _ hk⟩
  · refine ⟨_, next_whenOk hw, ?_⟩
    rw [entryAccept_eq hg hf hv hb hi hwait, hbad]
    have htaken : ringOf (takeEntry r g e (some reason) s) r = some _ := ringOf_updRing_same hg _
    have hhalts := haltFor_ready (slot := g.nextFetch % ringSize g) (reason := reason) hr htaken hi
    exact hhalts
  · have hmay : mayRelease s r g = true := by simp [mayRelease, hi]
    refine ⟨_, next_whenOk hw, ?_⟩
    simp only [hg, hh, hmay, Bool.not_true, Bool.false_and, Bool.false_eq_true, if_false]
    rw [releaseHead_host hg hh hq hgl hql hup]
    refine ⟨by simp [completionWrites, updRing, emit], ⟨_, ringOf_updRing_same (g := g) ?_ _, rfl, rfl⟩, rfl⟩
    rw [ringOf_updRing_ne _ _ (Ne.symm hne)]
    exact hg

end Sys2Proof.Machine
end

section
/-! PROOFS. The tiles of a transfer. -/

namespace Sys2Proof.Machine

/-- The length of the first tile of a transfer that is not empty. -/
def cutLen (src dst len : Nat) (dstVa : Bool) (fine : Option Nat) : Nat :=
  let n := min len (0x40000 - src % 0x40000)
  let n := if dstVa then min n (0x40000 - dst % 0x40000) else n
  match fine with
  | some a => min n (0x20000 - a % 0x20000)
  | none => n

theorem cutTransfer_zero (src dst len : Nat) (dstVa : Bool) (fine : Option Nat) :
    cutTransfer 0 src dst len dstVa fine = [] := rfl

theorem cutTransfer_empty (fuel src dst : Nat) (dstVa : Bool) (fine : Option Nat) :
    cutTransfer fuel src dst 0 dstVa fine = [] := by
  cases fuel <;> rfl

theorem cutTransfer_succ {len : Nat} (fuel src dst : Nat) (dstVa : Bool) (fine : Option Nat) (h : 0 < len) :
    cutTransfer (fuel + 1) src dst len dstVa fine =
      { src := src, dst := dst, len := cutLen src dst len dstVa fine } ::
        cutTransfer fuel (src + cutLen src dst len dstVa fine) (dst + cutLen src dst len dstVa fine)
          (len - cutLen src dst len dstVa fine) dstVa (fine.map (· + cutLen src dst len dstVa fine)) := by
  rw [cutTransfer, if_neg (by omega)]
  rfl

/-- What a first tile keeps to: it is not empty, stays within the transfer and crosses no boundary. -/
theorem cutLen_bounds {len : Nat} (src dst : Nat) (dstVa : Bool) (fine : Option Nat) (h : 0 < len) :
    0 < cutLen src dst len dstVa fine ∧ cutLen src dst len dstVa fine ≤ len ∧
      src % 0x40000 + cutLen src dst len dstVa fine ≤ 0x40000 ∧
      (dstVa = true → dst % 0x40000 + cutLen src dst len dstVa fine ≤ 0x40000) ∧
      (∀ a, fine = some a → a % 0x20000 + cutLen src dst len dstVa fine ≤ 0x20000) := by
  have hs := Nat.mod_lt src (y := 0x40000) (by decide)
  have hd := Nat.mod_lt dst (y := 0x40000) (by decide)
  cases fine with
  | none => cases dstVa <;> simp only [cutLen] <;> simp <;> omega
  | some a =>
    have ha := Nat.mod_lt a (y := 0x20000) (by decide)
    cases dstVa <;> simp only [cutLen] <;> simp <;> omega

/-- How many multiples of `p` lie strictly inside the `len` bytes at `x`. -/
def cuts (p x len : Nat) : Nat := (x + len - 1) / p - x / p

/-- How many boundaries lie strictly inside a transfer. -/
def allCuts (src dst len : Nat) (dstVa : Bool) (fine : Option Nat) : Nat :=
  cuts 0x40000 src len + (if dstVa then cuts 0x40000 dst len else 0) + fine.elim 0 (fun a => cuts 0x20000 a len)

theorem cuts_drop_big {x len n : Nat} (h : n < len) (hn : x % 0x40000 + n ≤ 0x40000) :
    cuts 0x40000 (x + n) (len - n) + (if x % 0x40000 + n = 0x40000 then 1 else 0) = cuts 0x40000 x len := by
  unfold cuts
  split <;> omega

theorem cuts_drop_fine {x len n : Nat} (h : n < len) (hn : x % 0x20000 + n ≤ 0x20000) :
    cuts 0x20000 (x + n) (len - n) + (if x % 0x20000 + n = 0x20000 then 1 else 0) = cuts 0x20000 x len := by
  unfold cuts
  split <;> omega

/-- A first tile that leaves something ends at a boundary. -/
theorem cutLen_reaches {src dst len : Nat} {dstVa : Bool} {fine : Option Nat} (h : cutLen src dst len dstVa fine < len) :
    src % 0x40000 + cutLen src dst len dstVa fine = 0x40000 ∨
      dstVa = true ∧ dst % 0x40000 + cutLen src dst len dstVa fine = 0x40000 ∨
      ∃ a, fine = some a ∧ a % 0x20000 + cutLen src dst len dstVa fine = 0x20000 := by
  have hs := Nat.mod_lt src (y := 0x40000) (by decide)
  have hd := Nat.mod_lt dst (y := 0x40000) (by decide)
  cases fine with
  | none => cases dstVa <;> simp only [cutLen] at h ⊢ <;> simp at h ⊢ <;> omega
  | some a =>
    have ha := Nat.mod_lt a (y := 0x20000) (by decide)
    cases dstVa <;> simp only [cutLen] at h ⊢ <;> simp at h ⊢ <;> omega

/-- So each tile uses up a boundary of those inside. -/
theorem allCuts_drop {src dst len : Nat} {dstVa : Bool} {fine : Option Nat} (hlen : 0 < len)
    (h : cutLen src dst len dstVa fine < len) :
    allCuts (src + cutLen src dst len dstVa fine) (dst + cutLen src dst len dstVa fine) (len - cutLen src dst len dstVa fine) dstVa
        (fine.map (· + cutLen src dst len dstVa fine)) + 1 ≤ allCuts src dst len dstVa fine := by
  obtain ⟨_, _, hs, hd, hf⟩ := cutLen_bounds src dst dstVa fine hlen
  have hr := cutLen_reaches h
  revert h hs hd hf hr
  generalize cutLen src dst len dstVa fine = n
  intro h hs hd hf hr
  have hsrc := cuts_drop_big h hs
  unfold allCuts
  cases dstVa with
  | false =>
    cases fine with
    | none => simp at hr; simp [hr] at hsrc ⊢; omega
    | some a =>
      have hfine := cuts_drop_fine h (hf a rfl)
      simp at hr ⊢
      split at hsrc <;> split at hfine <;> omega
  | true =>
    have hdst := cuts_drop_big h (hd rfl)
    cases fine with
    | none =>
      simp at hr ⊢
      split at hsrc <;> split at hdst <;> omega
    | some a =>
      have hfine := cuts_drop_fine h (hf a rfl)
      simp at hr ⊢
      split at hsrc <;> split at hdst <;> split at hfine <;> omega

/-- With fuel for every boundary the tiles cover the whole transfer. -/
theorem cutTransfer_sum (fuel : Nat) : ∀ (src dst len : Nat) (dstVa : Bool) (fine : Option Nat),
    allCuts src dst len dstVa fine < fuel → ((cutTransfer fuel src dst len dstVa fine).map (·.len)).sum = len := by
  induction fuel with
  | zero => intro _ _ _ _ _ h; omega
  | succ k ih =>
    intro src dst len dstVa fine hfuel
    rcases Nat.eq_zero_or_pos len with h0 | hlen
    · subst h0
      rw [cutTransfer_empty]
      rfl
    · have hle := (cutLen_bounds src dst dstVa fine hlen).2.1
      rw [cutTransfer_succ k src dst dstVa fine hlen, List.map_cons, List.sum_cons]
      rcases Nat.lt_or_ge (cutLen src dst len dstVa fine) len with hlt | hge
      · rw [ih]
        · show cutLen src dst len dstVa fine + _ = len
          omega
        · have hdrop := allCuts_drop hlen hlt
          omega
      · have hall : len - cutLen src dst len dstVa fine = 0 := by omega
        rw [hall, cutTransfer_empty]
        show cutLen src dst len dstVa fine + 0 = len
        omega

/-- The fuel that the model gives suffices. -/
theorem allCuts_lt_cutFuel (src dst len : Nat) (dstVa : Bool) (fine : Option Nat) :
    allCuts src dst len dstVa fine < cutFuel len := by
  have hbig : ∀ x, cuts 0x40000 x len ≤ len / 0x40000 + 1 := by
    intro x
    unfold cuts
    omega
  have hfine : ∀ a, cuts 0x20000 a len ≤ len / 0x20000 + 1 := by
    intro a
    unfold cuts
    omega
  have hs := hbig src
  have hd := hbig dst
  unfold allCuts cutFuel
  cases fine with
  | none => cases dstVa <;> simp <;> omega
  | some a =>
    have ha := hfine a
    cases dstVa <;> simp <;> omega

/-- Where each tile stands, and the boundaries it keeps. -/
theorem cutTransfer_tile (fuel : Nat) : ∀ (src dst len : Nat) (dstVa : Bool) (fine : Option Nat) (i : Nat) (t : Tile),
    (cutTransfer fuel src dst len dstVa fine)[i]? = some t →
      t.src = src + (((cutTransfer fuel src dst len dstVa fine).take i).map (·.len)).sum ∧
      t.dst = dst + (((cutTransfer fuel src dst len dstVa fine).take i).map (·.len)).sum ∧
      0 < t.len ∧ t.src % 0x40000 + t.len ≤ 0x40000 ∧ (dstVa = true → t.dst % 0x40000 + t.len ≤ 0x40000) ∧
      (∀ a, fine = some a → (a + (t.src - src)) % 0x20000 + t.len ≤ 0x20000) := by
  induction fuel with
  | zero =>
    intro src dst len dstVa fine i t h
    rw [cutTransfer_zero] at h
    exact absurd h (by simp)
  | succ k ih =>
    intro src dst len dstVa fine i t h
    rcases Nat.eq_zero_or_pos len with h0 | hlen
    · subst h0
      rw [cutTransfer_empty] at h
      exact absurd h (by simp)
    · obtain ⟨hpos, hle, hs, hd, hf⟩ := cutLen_bounds src dst dstVa fine hlen
      rw [cutTransfer_succ k src dst dstVa fine hlen] at h ⊢
      generalize cutLen src dst len dstVa fine = n at *
      cases i with
      | zero =>
        obtain rfl : ({ src := src, dst := dst, len := n } : Tile) = t := by simpa using h
        simpa using ⟨hpos, hs, hd, hf⟩
      | succ i =>
        rw [List.getElem?_cons_succ] at h
        obtain ⟨hsrc, hdst, htpos, htsrc, htdst, htfine⟩ := ih _ _ _ _ _ i t h
        rw [List.take_succ_cons, List.map_cons, List.sum_cons]
        generalize (List.map (·.len) (List.take i (cutTransfer k (src + n) (dst + n) (len - n) dstVa (fine.map (· + n))))).sum = m
          at hsrc hdst ⊢
        refine ⟨by show _ = src + (n + m); omega, by show _ = dst + (n + m); omega, htpos, htsrc, htdst, fun a ha => ?_⟩
        have hfine := htfine (a + n) (by rw [ha]; rfl)
        rw [hsrc] at hfine ⊢
        rwa [show a + (src + n + m - src) = a + n + (src + n + m - (src + n)) by omega]

/-- Settles O31: every tile but the last ends at a boundary, and the fuel counts the boundaries. -/
theorem tilesCoverTheTransfer : Obligations.TilesCoverTheTransfer := by
  unfold Obligations.TilesCoverTheTransfer
  exact fun src dst len dstVa fine => ⟨cutTransfer_sum _ _ _ _ _ _ (allCuts_lt_cutFuel src dst len dstVa fine),
    fun i t h => cutTransfer_tile _ _ _ _ _ _ i t h⟩

end Sys2Proof.Machine
end

section
/-! PROOFS. Check-value units: control, configuration, boundaries and snapshots. -/

namespace Sys2Proof.Machine

@[simp] theorem cvUnit_setCv_same (u : Nat) (c : CvUnit) (s : State) : cvUnit (setCv u c s) u = c := getD_mapPut_same _ _ _ _

theorem cvUnit_setCv_ne {u j : Nat} (c : CvUnit) (s : State) (h : j ≠ u) : cvUnit (setCv u c s) j = cvUnit s j := by
  unfold cvUnit setCv
  rw [mapGet_mapPut_ne {} s.cv c h]

theorem cvSel_lt (s : State) : cvSel s < 32 := wfld_lt _ 4 0

/-- What a write of GX_CV_CTRL finds on a unit that takes control writes (R400). -/
theorem cvControl_clear {s : State} (hf : cvFenced s (cvSel s) = false) (ht : (cvUnit s (cvSel s)).testing = false)
    (hs : (cvUnit s (cvSel s)).state = .stopped) :
    cvControl 4 s = setCv (cvSel s) (cvSnap (cvParams s (cvSel s))
      { cvUnit s (cvSel s) with running := BitVec.ofNat 64 (cvParams s (cvSel s)).init, bytes := 0 }) s := by
  simp [cvControl, hf, ht, hs]

theorem cvControl_start {s : State} (hf : cvFenced s (cvSel s) = false) (ht : (cvUnit s (cvSel s)).testing = false)
    (hs : (cvUnit s (cvSel s)).state = .stopped) (hb : cvStartBad s (cvSel s) = false) :
    cvControl 1 s = setCv (cvSel s) { cvUnit s (cvSel s) with state := .armed } s := by
  simp [cvControl, hf, ht, hs, hb]

theorem cvControl_stop_armed {s : State} (hf : cvFenced s (cvSel s) = false) (ht : (cvUnit s (cvSel s)).testing = false)
    (hs : (cvUnit s (cvSel s)).state = .armed) : cvControl 2 s = cvStopped (cvSel s) s := by
  simp [cvControl, hf, ht, hs]

theorem cvControl_stop_running {s : State} (hf : cvFenced s (cvSel s) = false) (ht : (cvUnit s (cvSel s)).testing = false)
    (hs : (cvUnit s (cvSel s)).state = .running) :
    cvControl 2 s = setCv (cvSel s) { cvUnit s (cvSel s) with state := .stopping } s := by
  simp [cvControl, hf, ht, hs]

theorem cvControl_rejected {s : State} (v : Nat) (h : cvFenced s (cvSel s) = true ∨ (cvUnit s (cvSel s)).testing = true) :
    cvControl v s = cvReject s := by
  have hrej : (cvFenced s (cvSel s) || (cvUnit s (cvSel s)).testing) = true := by simpa using h
  simp only [cvControl, hrej, if_true]

/-- A unit that stops holds a snapshot of what it had, and tells DONE. -/
theorem cvStopped_stops {u : Nat} (s : State) (h : u < 32) :
    cvUnit (cvStopped u s) u = { cvSnap (cvParams s u) (cvUnit s u) with state := .stopped } ∧
      (rg (cvStopped u s) Reg.GX_CV_DONE).getLsbD u = true ∧
      eventsOnly { s with cv := (cvStopped u s).cv } (cvStopped u s) [Reg.GX_CV_DONE] := by
  have hcv : (cvStopped u s).cv = (setCv u { cvSnap (cvParams s u) (cvUnit s u) with state := .stopped } s).cv := raise_cv _ _ _
  refine ⟨?_, raise_sets _ _ u h, ?_⟩
  · rw [cvUnit, hcv]
    exact cvUnit_setCv_same u _ s
  · rw [hcv]
    exact raise_eventsOnly (setCv u { cvSnap (cvParams s u) (cvUnit s u) with state := .stopped } s) _ u

/-- A boundary with one unit that watches it. -/
theorem cvActive_one {u : Nat} {c : CvUnit} {s : State} (h : s.cv = [(u, c)]) (hc : c.state ≠ .stopped) : cvActive s = [u] := by
  have hkeep : (c.state != .stopped) = true := by simpa using hc
  simp [cvActive, h, hkeep]

theorem cvUnit_one {u : Nat} {c : CvUnit} {s : State} (h : s.cv = [(u, c)]) : cvUnit s u = c := by
  unfold cvUnit
  rw [h]
  simp [mapGet]

/-- The low word of RUNNING is what a write leaves of a unit of 32 bits. -/
theorem runningLow_write (r : Nat) (v : Word) : BitVec.ofNat 64 ((r / 2 ^ 32 * 2 ^ 32 + v.toNat) % 2 ^ 32) = v.setWidth 64 := by
  have hv := v.isLt
  have hmod : (r / 2 ^ 32 * 2 ^ 32 + v.toNat) % 2 ^ 32 = v.toNat := by omega
  rw [hmod]
  apply BitVec.eq_of_toNat_eq
  simp

/-- Settles O50, a clause for each control, boundary, write and read. -/
theorem checkValueUnits : Obligations.CheckValueUnits := by
  unfold Obligations.CheckValueUnits
  refine ⟨fun u s hr hu hf ht hs => ?_, fun u s hr hu hf ht hs hb => ?_, fun u s hr hu hf ht hs => ?_,
    fun u s hr hu hf ht hs => ?_, fun c s hc hr h => ?_, fun source index u c s hr hu hcv hs hw => ?_,
    fun source index u c s hr hu hcv hs hw => ?_, fun off u v s hr hu hf hs hoff => ?_,
    fun off u v s hr hu hf hs hoff hwidth => ?_, fun u s hr hu => ?_⟩
  · subst hu
    refine ⟨_, next_whenOk hr, ?_⟩
    rw [cvControl_clear hf ht hs, cvUnit_setCv_same]
    exact ⟨rfl, rfl, rfl, hs, fun j hj => cvUnit_setCv_ne _ s hj, rfl⟩
  · subst hu
    refine ⟨_, next_whenOk hr, ?_⟩
    rw [cvControl_start hf ht hs hb]
    exact ⟨cvUnit_setCv_same .., fun j hj => cvUnit_setCv_ne _ s hj, rfl⟩
  · subst hu
    refine ⟨_, next_whenOk hr, ?_⟩
    rw [cvControl_stop_armed hf ht hs]
    exact cvStopped_stops s (cvSel_lt s)
  · subst hu
    refine ⟨_, next_whenOk hr, ?_⟩
    rw [cvControl_stop_running hf ht hs]
    exact ⟨cvUnit_setCv_same .., rfl⟩
  · have hcontrol : ∃ v, exec c s = .next (cvControl v s) := by
      simp only [List.mem_cons, List.not_mem_nil, or_false] at hc
      rcases hc with rfl | rfl | rfl
      · exact ⟨4, next_whenOk hr⟩
      · exact ⟨1, next_whenOk hr⟩
      · exact ⟨2, next_whenOk hr⟩
    obtain ⟨v, hv⟩ := hcontrol
    refine ⟨_, hv, ?_⟩
    rw [cvControl_rejected v h]
    exact ⟨raise_sets _ _ 0 (by decide), raise_eventsOnly s _ 0⟩
  · refine ⟨_, next_whenOk hr, ?_⟩
    simp only [cvActive_one hcv (by rw [hs]; decide), List.foldl_cons, List.foldl_nil, hw, if_true, cvBoundary,
      cvUnit_one hcv, hs]
    exact ⟨cvUnit_setCv_same .., rfl⟩
  · refine ⟨_, next_whenOk hr, ?_⟩
    simp only [cvActive_one hcv (by rw [hs]; decide), List.foldl_cons, List.foldl_nil, hw, if_true, cvBoundary,
      cvUnit_one hcv, hs]
    have hstops := cvStopped_stops s hu
    rwa [cvUnit_one hcv] at hstops
  · subst hu
    refine ⟨_, next_whenOk hr, ?_⟩
    have hconfig : cvConfigRegs.contains off = true := by simpa using hoff
    simp only [cvConfigWrite, hs, hf, hconfig, bne_self_eq_false, Bool.or_false, Bool.false_eq_true, if_false, if_true]
    exact ⟨regAt_putReg_same .., fun k hk => regAt_putReg_ne _ _ hk, rfl⟩
  · subst hu hoff
    refine ⟨_, next_whenOk hr, ?_⟩
    have hconfig : cvConfigRegs.contains Reg.GX_CV_RUNNING_LO = false := by decide
    simp only [cvConfigWrite, hs, hf, hconfig, bne_self_eq_false, Bool.or_false, Bool.false_eq_true, if_false, true_or, if_true,
      cvUnit_setCv_same, hwidth]
    exact ⟨runningLow_write _ v, rfl, rfl⟩
  · subst hu
    refine ⟨_, next_whenOk hr, ?_⟩
    have hsame := cvUnit_setCv_same (cvSel s) (cvSnap (cvParams s (cvSel s)) (cvUnit s (cvSel s))) s
    refine ⟨hsame, congrArg CvUnit.snapBytes hsame, ?_, rfl⟩
    simp only [hsame]
    rfl

end Sys2Proof.Machine
end

section
/-! PROOFS. Cipher keys: loads, rekeys and erasures. -/

namespace Sys2Proof.Machine

/-! ### Operations that go on -/

/-- An update of a chain that keeps the slots lets its entries be found again. -/
theorem opAt_updChain {ring head slot : Nat} {s : State} {o : Op} {f : Op → Op} (hf : ∀ x, (f x).slot = x.slot)
    (h : opAt s ring slot = some o) : opAt (updChain ring head f s) ring slot = some (if o.head = head then f o else o) := by
  obtain ⟨g, hg, hfind⟩ := Option.bind_eq_some_iff.1 h
  have hring : ringOf (updChain ring head f s) ring
      = some { g with ops := g.ops.map (fun o => if o.head = head then f o else o) } := by
    unfold updChain
    rw [ringOf_updRing, if_pos rfl, hg]
    rfl
  rw [opAt, hring, Option.bind_some, find_map_slot _ _ _ (fun x => by split <;> simp [hf]), hfind]
  rfl

theorem opAt_markStarted {ring slot : Nat} {s : State} {o : Op} (h : opAt s ring slot = some o) (hh : o.head = slot) :
    opAt (markStarted ring slot s) ring slot = some { o with started := true } := by
  have hmark := opAt_updChain (head := slot) (f := fun o => { o with started := true }) (fun _ => rfl) h
  rwa [if_pos hh] at hmark

/-! ### Changes of a key (R415) -/

/-- The key slot once its change has taken effect. -/
def changedKey (k : KeySlot) (c : KeyChange) : KeySlot :=
  if c.erase then {}
  else { k with state := 1, key := c.key, salt := c.salt, limit := c.limit, used := 0, invocation := 0, messages := 0
                change := none }

theorem keyChange_waits {n : Nat} {s : State} (h : chargeHeld s n = true) : keyChange n s = s := by
  unfold keyChange
  cases hc : (keySlot s n).change with
  | none => simp only [hc]
  | some c => simp only [hc, h, if_true]

theorem keyChange_applies {n : Nat} {c : KeyChange} {s : State} (hc : (keySlot s n).change = some c) (h : chargeHeld s n = false)
    (hr : s.tp.runs = []) : keyChange n s = mgmtDone c.slot stOk (setKeySlot n (changedKey (keySlot s n) c) s) := by
  have hruns : (mgmtDone c.slot stOk (setKeySlot n (changedKey (keySlot s n) c) s)).tp.runs = [] := hr
  unfold keyChange
  simp only [hc, h, Bool.false_eq_true, if_false, ← changedKey.eq_def, hruns, List.filter_nil, List.map_nil, List.foldl_nil]

/-- What a change that takes effect leaves. -/
theorem keyChange_ends {n : Nat} {c : KeyChange} {o : Op} {s : State} (hc : (keySlot s n).change = some c)
    (h : chargeHeld s n = false) (hr : s.tp.runs = []) (ho : opAt s 0 c.slot = some o) (hh : o.head = c.slot) (hd : o.done = none) :
    endsWith (keyChange n s) 0 c.slot stOk ∧ keySlot (keyChange n s) n = changedKey (keySlot s n) c ∧
      (∀ j, j ≠ n → keySlot (keyChange n s) j = keySlot s j) ∧
      keyChange n s = { s with ce := { s.ce with slots := (keyChange n s).ce.slots }, q := (keyChange n s).q } := by
  rw [keyChange_applies hc h hr]
  have hopen : opAt (setKeySlot n (changedKey (keySlot s n) c) s) 0 c.slot = some o := ho
  exact ⟨mgmtDone_endsWith hopen hh hd, keySlot_setKeySlot_same .., fun j hj => keySlot_setKeySlot_ne _ s hj, rfl⟩

/-- The state in which a change has been noted and its command has begun. -/
def changeNoted (slot n : Nat) (c : KeyChange) (s : State) : State :=
  markStarted 0 slot (setKeySlot n { keySlot s n with change := some c } s)

theorem keySlot_changeNoted_same (slot n : Nat) (c : KeyChange) (s : State) :
    keySlot (changeNoted slot n c s) n = { keySlot s n with change := some c } := keySlot_setKeySlot_same ..

theorem keySlot_changeNoted_ne {n j : Nat} (slot : Nat) (c : KeyChange) (s : State) (h : j ≠ n) :
    keySlot (changeNoted slot n c s) j = keySlot s j := keySlot_setKeySlot_ne _ s h

/-- A noted change holds no charge of its own. -/
theorem chargeHeld_changeNoted (slot n : Nat) (c : KeyChange) (s : State) :
    chargeHeld (changeNoted slot n c s) n = chargeHeld s n := by
  unfold chargeHeld
  rw [keySlot_changeNoted_same]
  rfl

theorem opAt_changeNoted {slot n : Nat} {c : KeyChange} {s : State} {o : Op} (h : opAt s 0 slot = some o) (hh : o.head = slot) :
    opAt (changeNoted slot n c s) 0 slot = some { o with started := true } :=
  opAt_markStarted (s := setKeySlot n { keySlot s n with change := some c } s) h hh

/-- A change noted for a slot that nothing charges takes effect at once. -/
theorem changeNoted_ends {slot n : Nat} {c : KeyChange} {o : Op} {s : State} (hslot : c.slot = slot) (h : chargeHeld s n = false)
    (hr : s.tp.runs = []) (ho : opAt s 0 slot = some o) (hh : o.head = slot) (hd : o.done = none) :
    endsWith (keyChange n (changeNoted slot n c s)) 0 slot stOk ∧
      keySlot (keyChange n (changeNoted slot n c s)) n = changedKey { keySlot s n with change := some c } c ∧
      (∀ j, j ≠ n → keySlot (keyChange n (changeNoted slot n c s)) j = keySlot s j) ∧
      keyChange n (changeNoted slot n c s) = { s with
        ce := { s.ce with slots := (keyChange n (changeNoted slot n c s)).ce.slots }
        q := (keyChange n (changeNoted slot n c s)).q } := by
  have hheld : chargeHeld (changeNoted slot n c s) n = false := (chargeHeld_changeNoted slot n c s).trans h
  have hc : (keySlot (changeNoted slot n c s) n).change = some c := congrArg KeySlot.change (keySlot_changeNoted_same slot n c s)
  subst hslot
  obtain ⟨hend, hkey, hothers, hframe⟩ := keyChange_ends hc hheld hr (opAt_changeNoted ho hh) hh hd
  exact ⟨hend, hkey.trans (by rw [keySlot_changeNoted_same]), fun j hj => (hothers j hj).trans (keySlot_changeNoted_ne _ c s hj),
    hframe⟩

/-! ### The commands (R411, R414) -/

theorem keyLoad_refused {action slot : Nat} {record : BitVec 512} {failed : Bool} {o : Op} {s : State}
    (hm : mgmtOp s slot 0x18 = some o) (hs : o.started = false) (ha : (keyBody o.entry).action = action)
    (hc : (keySlot s (keyBody o.entry).slot).change = none) (hr : keyRefused s (keyBody o.entry) = true) :
    keyLoad action slot record failed s = mgmtDone slot stAborted s := by
  simp [keyLoad, hm, hs, ha, hc, hr]

theorem keyLoad_load {slot key salt : Nat} {record : BitVec 512} {o : Op} {s : State} (hm : mgmtOp s slot 0x18 = some o)
    (hs : o.started = false) (ha : (keyBody o.entry).action = 0) (hr : keyRefused s (keyBody o.entry) = false)
    (hq : keyQuota s (keyBody o.entry).inst = false) (hup : s.pc.hstUp = true)
    (hres : recordReserved (keyBody o.entry) (entryBytes record) = false)
    (hkey : recordKey s (keyBody o.entry) (entryBytes record) = some (key, salt)) :
    keyLoad 0 slot record false s = mgmtDone slot stOk (setKeySlot (keyBody o.entry).slot
      { state := 1, inst := (keyBody o.entry).inst, binding := (keyBody o.entry).binding
        qpn := if (keyBody o.entry).binding ≤ 1 then (keyBody o.entry).qpn else 0, mode := (keyBody o.entry).mode
        aes256 := (keyBody o.entry).aes256, key := BitVec.ofNat 256 key, salt := BitVec.ofNat 32 salt
        limit := (keyBody o.entry).limit } s) := by
  simp [keyLoad, hm, hs, ha, hr, hq, hup, hres, hkey]

theorem keyLoad_rekey {slot key salt : Nat} {record : BitVec 512} {o : Op} {s : State} (hm : mgmtOp s slot 0x18 = some o)
    (hs : o.started = false) (ha : (keyBody o.entry).action = 1) (hc : (keySlot s (keyBody o.entry).slot).change = none)
    (hr : keyRefused s (keyBody o.entry) = false) (hup : s.pc.hstUp = true)
    (hres : recordReserved (keyBody o.entry) (entryBytes record) = false)
    (hkey : recordKey s (keyBody o.entry) (entryBytes record) = some (key, salt)) :
    keyLoad 1 slot record false s = keyChange (keyBody o.entry).slot (changeNoted slot (keyBody o.entry).slot
      { slot := slot, erase := false, key := BitVec.ofNat 256 key, salt := BitVec.ofNat 32 salt
        limit := (keyBody o.entry).limit } s) := by
  simp [keyLoad, hm, hs, ha, hc, hr, hup, hres, hkey, changeNoted]

theorem keyLoad_erase {slot : Nat} {o : Op} {s : State} (hm : mgmtOp s slot 0x18 = some o)
    (hs : o.started = false) (ha : (keyBody o.entry).action = 2) (hc : (keySlot s (keyBody o.entry).slot).change = none)
    (hr : keyRefused s (keyBody o.entry) = false) :
    keyLoad 2 slot 0 false s = keyChange (keyBody o.entry).slot (changeNoted slot (keyBody o.entry).slot
      { slot := slot, erase := true, limit := (keyBody o.entry).limit } s) := by
  simp [keyLoad, hm, hs, ha, hc, hr, changeNoted]

/-- Settles O51, command by command. -/
theorem keysAreLoadedChangedAndErased : Obligations.KeysAreLoadedChangedAndErased := by
  unfold Obligations.KeysAreLoadedChangedAndErased
  refine ⟨fun slot key salt o record s hw hwait hs ha hr hq hup hres hkey => ?_,
    fun c slot action o record failed s hc hw hwait hs ha hchange hr => ?_,
    fun slot key salt n o record s hw hwait hs ha hn hchange hr hup hres hkey hheld hruns => ?_,
    fun slot n o s hw hwait hs ha hn hchange hr hheld hruns => ?_,
    fun slot n o s hw hwait hs ha hn hchange hr hheld => ?_, fun n c o s hw hc hheld ho hh hd hruns => ?_⟩
  · refine ⟨_, next_whenOk hw, ?_⟩
    rw [keyLoad_load hwait.1 hs ha hr hq hup hres hkey]
    exact ⟨waitsAt_endsWith hwait rfl stOk, keySlot_setKeySlot_same .., fun j hj => keySlot_setKeySlot_ne _ s hj, rfl⟩
  · have hload : exec c s = .next (keyLoad action slot (if action = 2 then 0 else record) (if action = 2 then false else failed) s) := by
      simp only [List.mem_cons, List.not_mem_nil, or_false, Prod.mk.injEq] at hc
      rcases hc with ⟨rfl, rfl⟩ | ⟨rfl, rfl⟩ | ⟨rfl, rfl⟩ <;> exact next_whenOk hw
    refine ⟨_, hload, ?_⟩
    rw [keyLoad_refused hwait.1 hs ha hchange hr]
    exact ⟨waitsAt_endsWith hwait rfl stAborted, rfl⟩
  · subst hn
    obtain ⟨ho, hh, hd⟩ := waitsAt_opAt hwait
    refine ⟨_, next_whenOk hw, ?_⟩
    rw [keyLoad_rekey hwait.1 hs ha hchange hr hup hres hkey]
    exact changeNoted_ends rfl hheld hruns ho hh hd
  · subst hn
    obtain ⟨ho, hh, hd⟩ := waitsAt_opAt hwait
    refine ⟨_, next_whenOk hw, ?_⟩
    rw [keyLoad_erase hwait.1 hs ha hchange hr]
    exact changeNoted_ends rfl hheld hruns ho hh hd
  · subst hn
    obtain ⟨ho, hh, hd⟩ := waitsAt_opAt hwait
    refine ⟨_, { slot := slot, erase := true, limit := (keyBody o.entry).limit }, next_whenOk hw, ?_⟩
    rw [keyLoad_erase hwait.1 hs ha hchange hr, keyChange_waits ((chargeHeld_changeNoted ..).trans hheld),
      opAt_changeNoted ho hh]
    exact ⟨keySlot_changeNoted_same .., rfl, rfl, hd, rfl⟩
  · refine ⟨_, next_whenOk hw, ?_⟩
    exact keyChange_ends hc hheld hruns ho hh hd

end Sys2Proof.Machine
end

section
/-! PROOFS. Power: the exit from a low state, sleeping accesses, domains, parking, throttling and the trip. -/

namespace Sys2Proof.Machine

/-! ### The exit from PS3 and PS4 (R505) -/

@[simp] theorem accPort_updAcc_same (p : Nat) (f : AccPort → AccPort) (s : State) : accPort (updAcc p f s) p = f (accPort s p) :=
  getD_mapPut_same _ _ _ _

theorem accPort_updAcc_ne {p j : Nat} (f : AccPort → AccPort) (s : State) (h : j ≠ p) :
    accPort (updAcc p f s) j = accPort s j := by
  unfold accPort updAcc
  rw [mapGet_mapPut_ne {} s.pc.acc _ h]

/-- The power block, its events and the controls of the accelerator ports. -/
def exitView (s : State) : PwState × Word × (Nat → Word) := (s.pw, rg s Reg.GX_PW_EVENTS, accCtrl s)

theorem accCtrl_raise {off : Nat} (bit : Nat) (s : State) (h : off < 2 ^ 32) : accCtrl (raise off bit s) = accCtrl s := by
  funext p
  refine regAt_raise_ne s bit (fun hk => ?_)
  rw [← hk] at h
  simp only [regKey] at h
  omega

theorem exitView_leftUp (p : Nat) (s : State) : exitView (leftUp p s) = exitView s := by
  unfold leftUp
  split
  · unfold exitView
    rw [raise_pw, accCtrl_raise 1 s (by decide), rg, regAt_raise_ne s 1 (by decide)]
  · rfl

theorem exitView_openPorts (s : State) : exitView (openPorts s) = exitView s := by
  refine foldl_keeps exitView _ (fun t p => ?_) _ s
  unfold openPort
  split
  · exact exitView_leftUp p t
  · rfl

theorem exitView_applyLanes (s : State) : exitView (applyLanes s) = exitView s := by
  refine foldl_keeps exitView _ (fun t l => ?_) _ s
  split
  · rfl
  · simp only []
    split
    · rfl
    · split <;> rfl

/-- The state in which an exit has reached its target and its ports open. -/
def exitReached (target : PowerState) (s : State) : State :=
  let s := if s.pw.ps = .ps4 then tier1Clean s else s
  raise Reg.GX_PW_EVENTS 3 { s with pw := { s.pw with ps := target, exit := none, result := 0 } }

theorem exitReached_pw (target : PowerState) (s : State) :
    (exitReached target s).pw = { s.pw with ps := target, exit := none, result := 0 } := by
  unfold exitReached
  simp only []
  rw [raise_pw]
  split <;> rfl

theorem accCtrl_exitReached (target : PowerState) (s : State) : accCtrl (exitReached target s) = accCtrl s := by
  unfold exitReached
  simp only []
  rw [accCtrl_raise 3 _ (by decide)]
  split <;> rfl

/-- The ports that the exit trains. -/
def trainAcc (s : State) : State :=
  (List.range 4).foldl (fun s p => if (accCtrl s p).getLsbD 0 then s else accState p .training s) s

theorem exitView_accState (p : Nat) (st : AccState) (s : State) : exitView (accState p st s) = exitView s := rfl

theorem exitView_trainAcc (s : State) : exitView (trainAcc s) = exitView s := by
  refine foldl_keeps exitView _ (fun t p => ?_) _ s
  split
  · rfl
  · exact exitView_accState p _ t

theorem trainAcc_trains {p : Nat} {s : State} (hp : p < 4) (h : (accCtrl s p).getLsbD 0 = false) :
    (accPort (trainAcc s) p).state = .training := by
  refine foldl_reaches (fun t => accCtrl t = accCtrl s) (fun t => (accPort t p).state = .training) _ (fun t q ht => ?_)
    (fun t q _ ht => ?_) (List.mem_range.2 hp) (fun t ht => ?_) rfl
  · split
    · exact ht
    · exact ht
  · split
    · exact ht
    · unfold accState
      by_cases hq : p = q
      · subst hq
        rw [accPort_updAcc_same]
      · rw [accPort_updAcc_ne _ _ hq]
        exact ht
  · rw [ht, h, if_neg (by decide)]
    exact congrArg AccPort.state (accPort_updAcc_same p _ t)

theorem psExit_eq {target : PowerState} {s : State} (h : s.pw.exit = some target) :
    psExit s = trainAcc (applyLanes (openPorts (exitReached target s))) := by
  unfold psExit
  rw [h]
  rfl

/-! ### Parking (R507) -/

/-- The state in which a park or unpark has been noted. -/
def parkNoted (f : Nat) (park : Bool) (s : State) : State :=
  { s with dom := { s.dom with
      parked := if park then insertNew s.dom.parked f else s.dom.parked.filter (· != f), parkRun := none } }

theorem endUnits_none (a : Nat) (kind : UnitActionKind) {s : State} (h : s.lz.unitActions = []) : endUnits a kind s = s := by
  have hnone : s.lz.unitActions.filter (fun u => !(u.kind == kind && beneath s.lz.run a u.flock)) = s.lz.unitActions := by
    rw [h]
    rfl
  unfold endUnits
  rw [hnone]

theorem parkProgress_alone {f : Nat} {park : Bool} {s : State} (hr : s.dom.parkRun = some { flock := f, park := park, under := false })
    (hu : s.lz.unitActions = []) :
    parkProgress s = if park then parkEdge (parkNoted f true s)
      else (engineDomains s f).foldl (fun s d => setCond d .on s) (parkNoted f false s) := by
  have hdone : unitsDone s f (parkKind park) = true := by simp [unitsDone, unitActionsOf, hu]
  unfold parkProgress
  rw [hr]
  simp only [hdone, endUnits_none f _ hu]
  cases park <;> rfl

theorem parkWrite_alone {v : Word} {park : Bool} {s : State} (hf : (flockOf s.lz.run (wfld v 27 16)).isSome = true)
    (hp : s.dom.parkRun = none) (hr : resetAbove s (wfld v 27 16) = false) (hb : bondedBeneath s (wfld v 27 16) = [])
    (hu : s.lz.unitActions = []) :
    parkWrite park v s =
      if park then parkEdge (parkNoted (wfld v 27 16) true (putReg Reg.GX_PW_FLOCK (v &&& 0x0FFF0000) s))
      else (engineDomains s (wfld v 27 16)).foldl (fun s d => setCond d .on s)
        (parkNoted (wfld v 27 16) false (putReg Reg.GX_PW_FLOCK (v &&& 0x0FFF0000) s)) := by
  have hstart : startUnits (wfld v 27 16) (parkKind park) (putReg Reg.GX_PW_FLOCK (v &&& 0x0FFF0000) s)
      = putReg Reg.GX_PW_FLOCK (v &&& 0x0FFF0000) s := by
    have hnone : bondedBeneath (putReg Reg.GX_PW_FLOCK (v &&& 0x0FFF0000) s) (wfld v 27 16) = [] := hb
    unfold startUnits
    rw [hnone]
    rfl
  have hgo : ((putReg Reg.GX_PW_FLOCK (v &&& 0x0FFF0000) s).dom.parkRun.isSome ||
      (flockOf (putReg Reg.GX_PW_FLOCK (v &&& 0x0FFF0000) s).lz.run (wfld v 27 16)).isNone) = false := by
    rw [putReg_dom, putReg_lz, hp, Option.isNone_eq_false_iff.2 hf]
    rfl
  have hunder : resetAbove (putReg Reg.GX_PW_FLOCK (v &&& 0x0FFF0000) s) (wfld v 27 16) = false := hr
  unfold parkWrite
  simp only [hgo, hunder, Bool.false_eq_true, if_false, hstart]
  refine (parkProgress_alone (f := wfld v 27 16) (park := park) (s := { putReg Reg.GX_PW_FLOCK (v &&& 0x0FFF0000) s with
    dom := { s.dom with parkRun := some { flock := wfld v 27 16, park := park, under := false } } }) rfl hu).trans ?_
  cases park <;> rfl

/-- Each engine of a parked Flock is OFF at the edge of the park. -/
theorem parkEdge_off {f d : Nat} {s : State} (hf : f ∈ s.dom.parked) (hd : d ∈ engineDomains s f) :
    mapGet (parkEdge s).dom.conds d = some .off := by
  have hset : ∀ (t : State) (e : Nat), (setCond e .off t).dom.conds = mapSet t.dom.conds e .off := by
    intro t e
    unfold setCond mapPut
    rw [if_neg (by decide)]
  refine foldl_reaches (fun _ => True) (fun t : State => mapGet t.dom.conds d = some .off) _ (fun _ _ _ => trivial) (fun t e _ ht => ?_)
    (List.mem_flatMap.2 ⟨f, hf, hd⟩) (fun t _ => ?_) trivial
  · rw [hset, mapGet_mapSet]
    split
    · rfl
    · exact ht
  · rw [hset, mapGet_mapSet_same]

/-- Each engine of an unparked Flock is ON. -/
theorem setOn_none {l : List Nat} {d : Nat} (s : State) (hd : d ∈ l) :
    mapGet (l.foldl (fun s d => setCond d .on s) s).dom.conds d = none := by
  have hset : ∀ (t : State) (e : Nat), (setCond e .on t).dom.conds = mapErase t.dom.conds e := by
    intro t e
    unfold setCond mapPut
    rw [if_pos rfl]
  refine foldl_reaches (fun _ => True) (fun t : State => mapGet t.dom.conds d = none) _ (fun _ _ _ => trivial) (fun t e _ ht => ?_) hd
    (fun t _ => ?_) trivial
  · rw [hset]
    by_cases he : d = e
    · subst he
      exact mapGet_mapErase_same ..
    · rw [mapGet_mapErase_ne _ he]
      exact ht
  · rw [hset, mapGet_mapErase_same]

/-! ### Domains (R499) -/

theorem domainCond_setCond_same {d : Nat} {s : State} (c : Cond) (ha : alwaysOff s d = false) (hs : asleep s = false) :
    domainCond (setCond d c s) d = c := by
  have hoff : alwaysOff (setCond d c s) d = false := ha
  have hsleep : asleep (setCond d c s) = false := hs
  unfold domainCond
  simp only [hoff, hsleep, Bool.false_eq_true, if_false]
  exact getD_mapPut_same _ _ _ _

theorem domainCond_setCond_ne {d j : Nat} (c : Cond) (s : State) (h : j ≠ d) : domainCond (setCond d c s) j = domainCond s j := by
  have hconds : mapGet (setCond d c s).dom.conds j = mapGet s.dom.conds j := mapGet_mapPut_ne _ _ c h
  unfold domainCond
  rw [hconds]
  rfl

theorem running_awake {s : State} (h : running s = true) : asleep s = false := by
  simp only [running, Bool.and_eq_true, Bool.not_eq_true'] at h
  exact h.1.2

/-! ### Throttling and emergencies (R509 to R512) -/

/-- The LEVEL that the demands and the emergency call for. -/
def levelDue (s : State) : Nat :=
  max (max s.pw.thermal s.pw.power) (max (wfld (rg s Reg.GX_PW_THROTTLE) 19 16) (if s.pw.emergency then 12 else 0))

theorem setLevel_eq (s : State) : setLevel s =
    if s.pw.level = 0 && levelDue s != 0 then raise Reg.GX_PW_EVENTS 0 { s with pw := { s.pw with level := levelDue s } }
    else { s with pw := { s.pw with level := levelDue s } } := rfl

theorem setLevel_pw (s : State) : (setLevel s).pw = { s.pw with level := levelDue s } := by
  rw [setLevel_eq]
  split
  · exact raise_pw _ _ _
  · rfl

theorem setLevel_emergency {s : State} (h : s.pw.emergency = true) : 12 ≤ (setLevel s).pw.level := by
  rw [setLevel_pw]
  show 12 ≤ levelDue s
  rw [levelDue, if_pos h]
  exact Nat.le_trans (Nat.le_max_right _ _) (Nat.le_max_right _ _)

/-- Setting LEVEL may set an event. -/
theorem setLevel_events (s : State) :
    eventsOnly { s with pw := (setLevel s).pw } (setLevel s) [Reg.GX_PW_EVENTS] ∧
      ∀ i, (rg s Reg.GX_PW_EVENTS).getLsbD i = true → (rg (setLevel s) Reg.GX_PW_EVENTS).getLsbD i = true := by
  rw [setLevel_pw, setLevel_eq]
  split
  · exact ⟨raise_eventsOnly _ _ 0, fun i hi => raise_keeps _ _ 0 i hi⟩
  · exact ⟨eventsOnly_refl _ _, fun _ hi => hi⟩

theorem emergencyBegin_begins {s : State} (he : s.pw.emergency = false) (hc : emergencyCause s ≠ 0) :
    emergencyBegin s = setLevel (raise Reg.GX_PW_EVENTS 1
      { s with pw := { s.pw with emergency := true, cause := emergencyCause s, clearTicks := 0 } }) := by
  simp [emergencyBegin, he, hc]

theorem emergencyEnd_ends {s : State} (he : s.pw.emergency = true) (hc : 256 ≤ s.pw.clearTicks) (hd : s.pw.degC < 105) :
    emergencyEnd s = raise Reg.GX_PW_EVENTS 2
      { s with pw := { s.pw with emergency := false, cause := 0, clearTicks := 0 } } := by
  simp [emergencyEnd, he, hc, hd]

/-- The sample as the power block holds it. -/
def sampled (sensor degC mv : Nat) (voltBad : Bool) (sampleW avgW : Nat) (s : State) : State :=
  { s with pw := { s.pw with sensor := sensor, degC := degC, mv := mv, voltBad := voltBad, sampleW := sampleW, avgW := avgW } }

theorem inputSample_clamps {sensor degC mv sampleW avgW : Nat} {voltBad : Bool} {s : State} (hw : 820 < sampleW)
    (hc : s.pw.clamped = false) :
    inputSample sensor degC mv voltBad sampleW avgW s = bump Reg.GX_PW_CLAMP_CNT
      { sampled sensor degC mv voltBad sampleW avgW s with
        pw := { (sampled sensor degC mv voltBad sampleW avgW s).pw with clamped := true } } := by
  simp [inputSample, sampled, hw, hc]

theorem inputSample_calm {sensor degC mv sampleW avgW : Nat} {voltBad : Bool} {s : State}
    (h : ¬(820 < sampleW ∧ s.pw.clamped = false)) :
    inputSample sensor degC mv voltBad sampleW avgW s = { sampled sensor degC mv voltBad sampleW avgW s with
      pw := { (sampled sensor degC mv voltBad sampleW avgW s).pw with
        clamped := if 820 < sampleW then true else if sampleW < 760 then false else s.pw.clamped } } := by
  have hno : (decide (820 < sampleW) && !s.pw.clamped) = false := by
    by_cases hw : 820 < sampleW
    · have hc : s.pw.clamped = true := by simpa [hw] using h
      simp [hc]
    · simp [hw]
  unfold inputSample
  simp only [hno, Bool.false_eq_true, if_false]
  by_cases hw : 820 < sampleW
  · have hc : s.pw.clamped = true := by simpa [hw] using h
    have hn : ¬sampleW < 760 := by omega
    simp [hw, hn, sampled, ← hc]
  · by_cases hn : sampleW < 760
    · simp [hw, hn, sampled]
    · simp [hw, hn, sampled]

/-- Settles O57, input by input. -/
theorem powerFollowsItsInputs : Obligations.PowerFollowsItsInputs := by
  unfold Obligations.PowerFollowsItsInputs
  refine ⟨fun target s hp hs he => ?_, fun write off s hp hs ha => ?_, fun d s hr hd ha hon hh => ?_, fun d s hr hd ha hon => ?_,
    fun v f s hr hv hf hk hp ha hb hu => ?_, fun v f s hr hv hf hk hp ha hb hu => ?_,
    fun sensor degC mv sampleW avgW voltBad s hg => ?_, fun s hp ht hw => ?_, fun s hp he hc => ?_, fun s hp he hc hd => ?_,
    fun sensor degC s hp hd => ?_⟩
  · have hview : exitView (psExit s) = exitView (exitReached target s) := by
      rw [psExit_eq he, exitView_trainAcc, exitView_applyLanes, exitView_openPorts]
    have hctrl : accCtrl (applyLanes (openPorts (exitReached target s))) = accCtrl s := by
      have hopen := (exitView_applyLanes (openPorts (exitReached target s))).trans (exitView_openPorts _)
      exact (congrArg (fun v => v.2.2) hopen).trans (accCtrl_exitReached target s)
    refine ⟨_, next_whenOk (by rw [hp, hs]; rfl), ?_, fun p hlt hdown => ?_, ?_⟩
    · exact (congrArg Prod.fst hview).trans (exitReached_pw target s)
    · rw [psExit_eq he]
      exact trainAcc_trains hlt (by rw [hctrl, hdown])
    · have hevents : rg (psExit s) Reg.GX_PW_EVENTS = rg (exitReached target s) Reg.GX_PW_EVENTS :=
        congrArg (fun v => v.2.1) hview
      rw [hevents]
      exact raise_sets _ _ 3 (by decide)
  · refine ⟨_, next_whenOk (by rw [hp, hs, ha]; rfl), ?_⟩
    have hcount : counted s (raise Reg.GX_PW_EVENTS 6 (bump Reg.GX_PW_ASLEEP_CNT s)) Reg.GX_PW_ASLEEP_CNT 1 :=
      counted_raise _ _ (counted_bump _ s) (by decide)
    have hbit := raise_sets (s := bump Reg.GX_PW_ASLEEP_CNT s) Reg.GX_PW_EVENTS 6 (by decide)
    have hev : eventsOnly s (raise Reg.GX_PW_EVENTS 6 (bump Reg.GX_PW_ASLEEP_CNT s)) [Reg.GX_PW_EVENTS, Reg.GX_PW_ASLEEP_CNT] :=
      eventsOnly_mono (eventsOnly_trans (bump_eventsOnly s _) (raise_eventsOnly _ _ 6)) (by simp)
    obtain ⟨l, hl⟩ := raise_out Reg.GX_PW_EVENTS 6 (bump Reg.GX_PW_ASLEEP_CNT s)
    cases write with
    | true => exact ⟨hcount, hbit, fun h => absurd h (by decide), hev⟩
    | false =>
      refine ⟨hcount, hbit, fun _ => ⟨l, ?_⟩, ?_, hev.2⟩
      · exact congrArg (· ++ [Output.readData 0]) hl
      · exact congrArg (emit (.readData 0)) hev.1
  · refine ⟨_, next_whenOk (by simp [hr, hd, ha, hon, hh]), ?_⟩
    exact ⟨domainCond_setCond_same _ ha (running_awake hr), fun j hj => domainCond_setCond_ne _ s hj, rfl⟩
  · refine ⟨_, next_whenOk (by simp [hr, hd, ha, hon]), ?_⟩
    have hbump : ∀ j, domainCond (bump Reg.GX_PW_WAKE_CNT (setCond d .on s)) j = domainCond (setCond d .on s) j :=
      fun _ => rfl
    refine ⟨(hbump d).trans (domainCond_setCond_same _ ha (running_awake hr)), ?_, fun j hj => (hbump j).trans
      (domainCond_setCond_ne _ s hj), rfl⟩
    exact counted_from (counted_bump _ (setCond d .on s)) rfl
  · subst hf
    refine ⟨_, next_whenOk (by simp [hr, hv]), ?_⟩
    rw [parkWrite_alone hk hp ha hb hu, if_pos rfl]
    have hin : wfld v 27 16 ∈ (parkNoted (wfld v 27 16) true (putReg Reg.GX_PW_FLOCK (v &&& 0x0FFF0000) s)).dom.parked :=
      mem_insertNew.2 (.inr rfl)
    refine ⟨?_, ?_, ?_, fun d hd => parkEdge_off hin hd, ?_, ?_⟩ <;> rw [parkEdge_frame]
    · exact hin
    · rfl
    · exact regAt_putReg_same ..
    · rfl
    · rfl
  · subst hf
    refine ⟨_, next_whenOk (by simp [hr, hv]), ?_⟩
    rw [parkWrite_alone hk hp ha hb hu, if_neg (by decide)]
    refine ⟨?_, ?_, fun d hd => setOn_none _ hd, ?_, ?_⟩ <;> rw [foldl_setCond_frame]
    · show wfld v 27 16 ∉ s.dom.parked.filter (· != wfld v 27 16)
      simp
    · rfl
    · rfl
    · rfl
  · refine ⟨_, next_whenOk hg, ?_⟩
    by_cases h : 820 < sampleW ∧ s.pw.clamped = false
    · rw [inputSample_clamps h.1 h.2]
      refine ⟨?_, fun _ _ => counted_from (counted_bump _ _) rfl, rfl⟩
      rw [if_pos h.1]
      rfl
    · rw [inputSample_calm h]
      exact ⟨rfl, fun hw hc => absurd ⟨hw, hc⟩ h, rfl⟩
  · refine ⟨_, next_whenOk hp, ?_⟩
    have hlt : ¬downTk s ≤ s.pw.powerBelow := by omega
    simp [demandFall, ht, hlt]
  · refine ⟨_, next_whenOk hp, ?_⟩
    rw [emergencyBegin_begins he hc]
    generalize hu : raise Reg.GX_PW_EVENTS 1
      { s with pw := { s.pw with emergency := true, cause := emergencyCause s, clearTicks := 0 } } = u
    have hpw : u.pw = { s.pw with emergency := true, cause := emergencyCause s, clearTicks := 0 } := by rw [← hu, raise_pw]
    have hev : eventsOnly { s with pw := u.pw } u [Reg.GX_PW_EVENTS] := by
      rw [hpw, ← hu]
      exact raise_eventsOnly _ _ 1
    obtain ⟨hlevel, hkeep⟩ := setLevel_events u
    refine ⟨by rw [setLevel_pw, hpw], by rw [setLevel_pw, hpw], setLevel_emergency (by rw [hpw]),
      hkeep 1 (hu ▸ raise_sets _ _ 1 (by decide)), ?_⟩
    · refine ⟨?_, fun k hk => (hlevel.2 k hk).trans (hev.2 k hk)⟩
      rw [hlevel.1, hev.1]
  · refine ⟨_, next_whenOk hp, ?_⟩
    rw [emergencyEnd_ends he hc hd]
    refine ⟨raise_pw _ _ _, raise_sets _ _ 2 (by decide), ?_⟩
    rw [raise_pw]
    exact raise_eventsOnly _ _ 2
  · refine ⟨_, next_whenOk (by simp [hp, hd]), rfl, rfl, rfl, rfl, rfl, rfl, rfl, ?_⟩
    simp [powered, thermalTrip, coldBegin]

end Sys2Proof.Machine
end

section
/-! PROOFS. SPDM requests and MCTP control messages. -/

namespace Sys2Proof.Machine

theorem spdmRequest_busy {hst : Bool} {s : State} (f : State → State) (hs : spdmServed s hst = true) (hb : bantamBusy s 0 = true) :
    spdmRequest hst f s = .next (spdmOut hst (.error spdmBusy) s) := by
  simp [spdmRequest, whenOk, hs, hb]

theorem spdmRequest_served {hst : Bool} {s : State} (f : State → State) (hs : spdmServed s hst = true)
    (hb : bantamBusy s 0 = false) : spdmRequest hst f s = .next (f s) := by
  simp [spdmRequest, whenOk, hs, hb]

theorem spdmAfter_negotiated {hst : Bool} {s : State} (f : State → State) (h : s.spdm.negotiated = true) :
    spdmAfter hst f s = f s := by
  simp [spdmAfter, h]

theorem spdmAfter_early {hst : Bool} {s : State} (f : State → State) (h : s.spdm.negotiated = false) :
    spdmAfter hst f s = spdmOut hst (.error spdmUnexpected) s := by
  simp [spdmAfter, h]

theorem spdmWithin_open {hst : Bool} {n : Nat} {s : State} (f : State → State) (h : mapGet s.spdm.sessions n = some true) :
    spdmWithin hst n f s = f s := by
  simp [spdmWithin, h]

/-- Every request goes through the one gate of R475. -/
theorem spdm_gate {c : Instr} {hst g : Bool} {a b l n : Nat} (s : State) (h : c ∈ [.getVersion hst, .getCapabilities hst a,
    .negotiateAlgorithms hst g, .getDigests hst, .getCertificate hst a b l, .challenge hst a, .getMeasurements hst a,
    .keyExchange hst a n, .finish hst n g, .heartbeat hst n, .keyUpdate hst n, .endSession hst n, .spdmUnsupportedRequest hst]) :
    ∃ f, exec c s = spdmRequest hst f s := by
  simp only [List.mem_cons, List.not_mem_nil, or_false] at h
  rcases h with rfl | rfl | rfl | rfl | rfl | rfl | rfl | rfl | rfl | rfl | rfl | rfl | rfl <;> exact ⟨_, rfl⟩

/-- The requests that need negotiated algorithms. -/
theorem spdm_after {c : Instr} {hst : Bool} {a b l n : Nat} (s : State) (h : c ∈ [.getDigests hst, .getCertificate hst a b l,
    .challenge hst a, .getMeasurements hst a, .keyExchange hst a n]) :
    ∃ f, exec c s = spdmRequest hst (spdmAfter hst f) s := by
  simp only [List.mem_cons, List.not_mem_nil, or_false] at h
  rcases h with rfl | rfl | rfl | rfl | rfl <;> exact ⟨_, rfl⟩

/-- What a measurement of one block answers (R489). -/
theorem measurements_one {hst : Bool} {s : State} (i : Nat) (hs : spdmServed s hst = true) (hb : bantamBusy s 0 = false)
    (hn : s.spdm.negotiated = true) (h0 : i ≠ 0) (h7 : i ≤ 7) :
    exec (.getMeasurements hst i) s = .next (spdmOut hst (.measurements [(i, measureBlock s i)]) s) := by
  refine (spdmRequest_served _ hs hb).trans ?_
  rw [spdmAfter_negotiated _ hn]
  simp only [h0, if_false, show i ≠ 0xFF by omega, h7, if_true]

/-- The answers that a negotiated connection gives. -/
theorem spdm_answer {c : Instr} {r : SpdmReply} {hst : Bool} {a b i : Nat} {s : State}
    (h : (c, r) ∈ [(.getDigests hst, .digests 1), (.getCertificate hst 0 a b, .certificate 0 a b),
      (.challenge hst 0, .challengeAuth 0), (.getMeasurements hst 0, .measurements [(0, [7])]),
      (.getMeasurements hst 0xFF, .measurements ([1, 2, 3, 4, 5, 6, 7].map (fun k => (k, measureBlock s k)))),
      (.getMeasurements hst (i % 7 + 1), .measurements [(i % 7 + 1, measureBlock s (i % 7 + 1))])])
    (hs : spdmServed s hst = true) (hb : bantamBusy s 0 = false) (hn : s.spdm.negotiated = true) :
    exec c s = .next (spdmOut hst r s) := by
  simp only [List.mem_cons, List.not_mem_nil, or_false, Prod.mk.injEq] at h
  rcases h with ⟨rfl, rfl⟩ | ⟨rfl, rfl⟩ | ⟨rfl, rfl⟩ | ⟨rfl, rfl⟩ | ⟨rfl, rfl⟩ | ⟨rfl, rfl⟩
  · exact (spdmRequest_served _ hs hb).trans (congrArg _ (spdmAfter_negotiated _ hn))
  · exact (spdmRequest_served _ hs hb).trans (congrArg _ (spdmAfter_negotiated _ hn))
  · exact (spdmRequest_served _ hs hb).trans (congrArg _ (spdmAfter_negotiated _ hn))
  · exact (spdmRequest_served _ hs hb).trans (congrArg _ (spdmAfter_negotiated _ hn))
  · exact (spdmRequest_served _ hs hb).trans (congrArg _ (spdmAfter_negotiated _ hn))
  · exact measurements_one _ hs hb hn (by omega) (by omega)

/-- Settles O56: every request passes the gate, and then its own check. -/
theorem spdmRequestsAreAnswered : Obligations.SpdmRequestsAreAnswered := by
  unfold Obligations.SpdmRequestsAreAnswered
  refine ⟨fun c hst g a b l n s hc hs hb => ?_, fun hst s hs hb => ⟨_, spdmRequest_served _ hs hb, rfl⟩,
    fun hst v s hs hb hv hver => ?_, fun hst s hs hb hg => ?_, fun c r hst a b i s hc hs hb hn => ⟨_, spdm_answer hc hs hb hn, rfl⟩,
    fun c hst a b l n s hc hs hb hn => ?_, fun hst n s hs hb hn => ?_, fun hst n s hs hb hn => ?_, fun hst n s hs hb hn => ?_,
    fun hst n s hs hb hn => ?_, fun hst n s hs hb hn => ?_, fun hst s hs hb => ⟨_, spdmRequest_served _ hs hb, rfl⟩,
    fun eid s hr hb => ⟨_, next_whenOk (by simp [hr, hb]), rfl⟩⟩
  · obtain ⟨f, hf⟩ := spdm_gate s hc
    exact ⟨_, hf.trans (spdmRequest_busy f hs hb), rfl⟩
  · refine ⟨_, spdmRequest_served _ hs hb, ?_⟩
    rw [if_neg hv, if_neg (by omega)]
    rfl
  · refine ⟨_, spdmRequest_served _ hs hb, ?_⟩
    simp only [hg, Bool.not_true, Bool.false_eq_true, if_false]
    rfl
  · obtain ⟨f, hf⟩ := spdm_after s hc
    exact ⟨_, (hf.trans (spdmRequest_served _ hs hb)).trans (congrArg _ (spdmAfter_early f hn)), rfl⟩
  · refine ⟨_, spdmRequest_served _ hs hb, ?_⟩
    rw [spdmAfter_negotiated _ hn]
    exact ⟨mapGet_mapSet_same _ _ _, rfl⟩
  · refine ⟨_, spdmRequest_served _ hs hb, ?_⟩
    simp only [hn, ne_eq, not_true_eq_false, if_false, Bool.not_true, Bool.false_eq_true]
    exact ⟨mapGet_mapSet_same _ _ _, rfl, fun j hj => mapGet_mapSet_ne _ _ hj⟩
  · refine ⟨_, spdmRequest_served _ hs hb, ?_⟩
    rw [spdmWithin_open _ hn]
    rfl
  · refine ⟨_, spdmRequest_served _ hs hb, ?_⟩
    rw [spdmWithin_open _ hn]
    refine ⟨rfl, ?_, rfl⟩
    show (mapGet (mapSet s.spdm.keyUpdates n _) n).getD 0 = _
    rw [mapGet_mapSet_same]
    rfl
  · refine ⟨_, spdmRequest_served _ hs hb, ?_⟩
    rw [spdmWithin_open _ hn]
    exact ⟨mapGet_mapErase_same _ _, rfl, fun j hj => mapGet_mapErase_ne _ hj⟩

end Sys2Proof.Machine
end

section
/-! PROOFS. Exact sums do not depend on the order of their contributions. -/

namespace Sys2Proof.Machine

/-! ### The order of R324 -/

/-- The order of R324 as numbers: the infinities outside, and between them the value, -0 before +0. -/
def accRank (a : Acc) : Int × Int :=
  if a.ninf then (-1, 0) else if a.pinf then (1, 0) else (0, 2 * a.value + if a.negZero then 0 else 1)

/-- Ranks compare by their first number, and by the second where the first are the same. -/
def rankBelow (x y : Int × Int) : Prop := x.1 < y.1 ∨ x.1 = y.1 ∧ x.2 < y.2

theorem accBelow_iff (a b : Acc) : accBelow a b = true ↔ rankBelow (accRank a) (accRank b) := by
  unfold accBelow accRank rankBelow
  cases a.ninf <;> cases b.ninf <;> cases a.pinf <;> cases b.pinf <;> simp
  cases a.negZero <;> cases b.negZero <;> simp <;> omega

theorem accBelow_trans {a b c : Acc} (h : accBelow a b = true) (g : accBelow b c = true) : accBelow a c = true := by
  rw [accBelow_iff, rankBelow] at *
  omega

theorem accBelow_false_trans {a b c : Acc} (h : accBelow a b = false) (g : accBelow b c = false) : accBelow a c = false := by
  rw [← Bool.not_eq_true, accBelow_iff, rankBelow] at *
  omega

/-! ### Combining accumulators (R324) -/

/-- The accumulator that a comparison picks, the first where it holds neither way. -/
def accPick (r : Acc → Acc → Bool) (a b : Acc) : Acc := { (if r a b then b else a) with nan := a.nan || b.nan }

def accSum (a b : Acc) : Acc :=
  { value := a.value + b.value, nan := a.nan || b.nan, pinf := a.pinf || b.pinf, ninf := a.ninf || b.ninf
    negZero := a.negZero && b.negZero, has := true }

/-- What an operation makes of two accumulators that hold something. -/
def accBoth (op : Nat) : Acc → Acc → Acc :=
  if op = 2 then accPick accBelow else if op = 3 then accPick (fun a b => accBelow b a) else accSum

theorem accCombine_eq (op : Nat) (a b : Acc) :
    accCombine op a b = if !a.has then b else if !b.has then a else accBoth op a b := by
  unfold accCombine accBoth
  by_cases h2 : op = 2
  · simp [h2, accPick]
  · by_cases h3 : op = 3
    · simp [h3, accPick]
    · simp [h2, h3, accSum]

/-- Picking by an order that looks past NAN is associative. -/
theorem accPick_assoc {r : Acc → Acc → Bool} (hl : ∀ (x y : Acc) (n : Bool), r { x with nan := n } y = r x y)
    (hr : ∀ (x y : Acc) (n : Bool), r x { y with nan := n } = r x y) (ht : ∀ x y z, r x y = true → r y z = true → r x z = true)
    (hn : ∀ x y z, r x y = false → r y z = false → r x z = false) (a b c : Acc) :
    accPick r (accPick r a b) c = accPick r a (accPick r b c) := by
  cases hab : r a b <;> cases hbc : r b c
  · simp only [accPick, hl, hr, hab, hbc, hn a b c hab hbc, Bool.or_assoc, Bool.false_eq_true, if_false]
  · cases hac : r a c <;> simp only [accPick, hl, hr, hab, hbc, hac, Bool.or_assoc, Bool.false_eq_true, if_false, if_true]
  · simp only [accPick, hl, hr, hab, hbc, Bool.or_assoc, Bool.false_eq_true, if_false, if_true]
  · simp only [accPick, hl, hr, hab, hbc, ht a b c hab hbc, Bool.or_assoc, if_true]

theorem accSum_assoc (a b c : Acc) : accSum (accSum a b) c = accSum a (accSum b c) := by
  simp only [accSum, Int.add_assoc, Bool.or_assoc, Bool.and_assoc]

theorem accBoth_assoc (op : Nat) (a b c : Acc) : accBoth op (accBoth op a b) c = accBoth op a (accBoth op b c) := by
  unfold accBoth
  split
  · exact accPick_assoc (r := accBelow) (fun _ _ _ => rfl) (fun _ _ _ => rfl) (fun _ _ _ => accBelow_trans) (fun _ _ _ => accBelow_false_trans) a b c
  · split
    · exact accPick_assoc (r := fun a b => accBelow b a) (fun _ _ _ => rfl) (fun _ _ _ => rfl) (fun _ _ _ h g => accBelow_trans g h)
        (fun _ _ _ h g => accBelow_false_trans g h) a b c
    · exact accSum_assoc a b c

theorem accBoth_has (op : Nat) {a b : Acc} (ha : a.has = true) (hb : b.has = true) : (accBoth op a b).has = true := by
  unfold accBoth
  split
  · simp only [accPick]
    split <;> assumption
  · split
    · simp only [accPick]
      split <;> assumption
    · rfl

theorem accCombine_assoc (op : Nat) (a b c : Acc) :
    accCombine op (accCombine op a b) c = accCombine op a (accCombine op b c) := by
  simp only [accCombine_eq]
  cases ha : a.has <;> cases hb : b.has <;> cases hc : c.has <;>
    simp [ha, hb, hc, accBoth_has, accBoth_assoc]

/-! ### Contributions -/

theorem accOf_has (v : FVal) : (accOf v).has = true := by
  cases v <;> rfl

/-- The accumulator of a rank: a contribution is its rank and whether it is NaN. -/
def accOfRank (r : Int × Int) (nan : Bool) : Acc :=
  { value := r.2 / 2, nan := nan, pinf := r.1 == 1, ninf := r.1 == -1, negZero := r.1 == 0 && r.2 % 2 == 0, has := true }

theorem accOfRank_accOf (v : FVal) (n : Bool) : accOfRank (accRank (accOf v)) n = { accOf v with nan := n } := by
  cases v with
  | nan => rfl
  | inf neg => cases neg <;> rfl
  | fin neg u =>
    cases neg with
    | false =>
      simp only [accOfRank, accRank, accOf, Bool.false_and, Bool.false_eq_true, if_false, Acc.mk.injEq]
      refine ⟨by omega, trivial, rfl, rfl, ?_, trivial⟩
      rw [show ((2 * (u : Int) + 1) % 2 == 0) = false from beq_false_of_ne (by omega), Bool.and_false]
    | true =>
      by_cases h0 : u = 0
      · subst h0
        rfl
      · have hz : (u == 0) = false := by simpa using h0
        simp only [accOfRank, accRank, accOf, hz, Bool.and_false, Bool.false_eq_true, if_false, if_true, Acc.mk.injEq]
        refine ⟨by omega, trivial, rfl, rfl, ?_, trivial⟩
        rw [show ((2 * -(u : Int) + 1) % 2 == 0) = false from beq_false_of_ne (by omega), Bool.and_false]

/-- Contributions that neither lies below the other differ in NAN alone. -/
theorem accOf_tie {v w : FVal} (h : accRank (accOf v) = accRank (accOf w)) (n : Bool) :
    ({ accOf v with nan := n } : Acc) = { accOf w with nan := n } := by
  rw [← accOfRank_accOf, ← accOfRank_accOf, h]

/-- Picking either way gives the same of two contributions. -/
theorem accPick_comm {r : Acc → Acc → Bool} (v w : FVal)
    (h : accRank (accOf v) = accRank (accOf w) ∨ r (accOf v) (accOf w) = !r (accOf w) (accOf v)) :
    accPick r (accOf v) (accOf w) = accPick r (accOf w) (accOf v) := by
  unfold accPick
  rw [Bool.or_comm (accOf w).nan]
  rcases h with h | h
  · cases r (accOf v) (accOf w) <;> cases r (accOf w) (accOf v) <;> simp only [accOf_tie h, Bool.false_eq_true, if_false, if_true]
  · rw [h]
    cases r (accOf w) (accOf v) <;> rfl

/-- One of two contributions lies below the other, or they tie. -/
theorem accBelow_trichotomy (v w : FVal) :
    accRank (accOf v) = accRank (accOf w) ∨ accBelow (accOf v) (accOf w) = !accBelow (accOf w) (accOf v) := by
  by_cases heq : accRank (accOf v) = accRank (accOf w)
  · exact .inl heq
  · have hne : ¬ ((accRank (accOf v)).1 = (accRank (accOf w)).1 ∧ (accRank (accOf v)).2 = (accRank (accOf w)).2) :=
      fun h => heq (Prod.ext h.1 h.2)
    refine .inr ?_
    cases hwv : accBelow (accOf w) (accOf v) with
    | true =>
      rw [Bool.not_true, ← Bool.not_eq_true]
      rw [accBelow_iff, rankBelow] at *
      omega
    | false =>
      rw [← Bool.not_eq_true] at hwv
      rw [accBelow_iff, rankBelow] at hwv
      rw [Bool.not_false, accBelow_iff, rankBelow]
      omega

theorem accBoth_comm (op : Nat) (v w : FVal) : accBoth op (accOf v) (accOf w) = accBoth op (accOf w) (accOf v) := by
  unfold accBoth
  split
  · exact accPick_comm v w (accBelow_trichotomy v w)
  · split
    · exact accPick_comm v w ((accBelow_trichotomy w v).imp_left Eq.symm)
    · simp only [accSum, Int.add_comm, Bool.or_comm, Bool.and_comm]

theorem accCombine_comm (op : Nat) (v w : FVal) : accCombine op (accOf v) (accOf w) = accCombine op (accOf w) (accOf v) := by
  simp only [accCombine_eq, accOf_has, Bool.not_true, Bool.false_eq_true, if_false, accBoth_comm op v w]

/-- Contributions may enter in either order. -/
theorem accCombine_right_comm (op : Nat) (a : Acc) (v w : FVal) :
    accCombine op (accCombine op a (accOf v)) (accOf w) = accCombine op (accCombine op a (accOf w)) (accOf v) := by
  rw [accCombine_assoc, accCombine_comm, ← accCombine_assoc]

/-- An accumulator that contributions made gains nothing from an empty one. -/
theorem accCombine_empty (op : Nat) {a : Acc} (h : a = {} ∨ a.has = true) : accCombine op a {} = a := by
  rcases h with rfl | h
  · rfl
  · rw [accCombine_eq, h]
    rfl

theorem accFold_has (op : Nat) (vs : List FVal) :
    vs.foldl (fun a v => accCombine op a (accOf v)) {} = {} ∨ (vs.foldl (fun a v => accCombine op a (accOf v)) {}).has = true := by
  refine foldl_maintains (fun a : Acc => a = {} ∨ a.has = true) _ (fun a v _ => .inr ?_) vs {} (.inl rfl)
  rw [accCombine_eq]
  cases ha : a.has
  · exact accOf_has v
  · simp only [accOf_has, Bool.not_true, Bool.false_eq_true, if_false]
    exact accBoth_has op ha (accOf_has v)

theorem accCombine_fold (op : Nat) (a : Acc) (ws : List FVal) : ∀ b : Acc,
    accCombine op a (ws.foldl (fun a v => accCombine op a (accOf v)) b)
      = ws.foldl (fun a v => accCombine op a (accOf v)) (accCombine op a b) := by
  induction ws with
  | nil => exact fun _ => rfl
  | cons w ws ih => exact fun b => by rw [List.foldl_cons, List.foldl_cons, ih, accCombine_assoc]

/-! ### Blocks -/

theorem accEnter_right_comm (op : Nat) : ∀ (accs : List Acc) (vs ws : List FVal),
    accEnter op (accEnter op accs vs) ws = accEnter op (accEnter op accs ws) vs
  | [], vs, ws => by simp [accEnter]
  | a :: accs, [], ws => by cases ws <;> simp [accEnter]
  | a :: accs, v :: vs, [] => by simp [accEnter]
  | a :: accs, v :: vs, w :: ws => by
    have ih := accEnter_right_comm op accs vs ws
    simp only [accEnter, List.zipWith_cons_cons, List.cons.injEq] at ih ⊢
    exact ⟨accCombine_right_comm op a v w, ih⟩

theorem chunks_length (n fuel : Nat) : ∀ (bs cs : List Byte), bs.length = cs.length →
    (chunks fuel n bs).length = (chunks fuel n cs).length := by
  induction fuel with
  | zero => exact fun _ _ _ => rfl
  | succ k ih =>
    intro bs cs h
    cases bs with
    | nil =>
      obtain rfl : cs = [] := List.eq_nil_of_length_eq_zero h.symm
      rfl
    | cons b bs =>
      cases cs with
      | nil => exact absurd h (by simp)
      | cons c cs =>
        have hdrop : ((b :: bs).drop n).length = ((c :: cs).drop n).length := by rw [List.length_drop, List.length_drop, h]
        simp only [chunks, List.isEmpty_cons, Bool.false_eq_true, if_false, List.length_cons, ih _ _ hdrop]

/-- Contributions of one length have one number of units. -/
theorem unitsOf_length (code : Nat) {bs cs : List Byte} (h : bs.length = cs.length) :
    (unitsOf code bs).length = (unitsOf code cs).length := by
  unfold unitsOf
  rw [h]
  exact chunks_length _ _ _ _ h

theorem unitCount_perm (code : Nat) {n : Nat} {xs ys : List (List Byte)} (h : xs.Perm ys) (hx : ∀ x ∈ xs, x.length = n) :
    ((xs.map (unitsOf code)).head?.map List.length).getD 0 = ((ys.map (unitsOf code)).head?.map List.length).getD 0 := by
  cases xs with
  | nil =>
    obtain rfl := h.nil_eq
    rfl
  | cons x xs =>
    cases ys with
    | nil => exact absurd h.length_eq (by simp)
    | cons y ys =>
      have hy : y.length = n := hx y (h.mem_iff.2 List.mem_cons_self)
      exact unitsOf_length code ((hx x List.mem_cons_self).trans hy.symm)

/-- Unit i of a contribution enters the accumulators of its unit. -/
def enterUnit (c : Coll) (i : Nat) (accs : List Acc) (x : List (List Byte)) : List Acc :=
  accEnter (collOp c) accs (decodeUnit c.format ((x[i]?).getD []))

/-- Settles O58: accumulators combine associatively, and contributions commute. -/
theorem exactSumsIgnoreTheOrder : Obligations.ExactSumsIgnoreTheOrder := by
  unfold Obligations.ExactSumsIgnoreTheOrder
  refine ⟨fun c n xs ys h hx => ?_, fun op vs ws => ?_⟩
  · have hfold : ∀ (i : Nat) (accs : List Acc), (xs.map (unitsOf c.format)).foldl (enterUnit c i) accs
        = (ys.map (unitsOf c.format)).foldl (enterUnit c i) accs :=
      fun i accs => (h.map _).foldl_eq' (f := enterUnit c i) (fun x _ y _ z => accEnter_right_comm (collOp c) z _ _) accs
    unfold exactResult
    simp only [unitCount_perm c.format h hx, ← enterUnit.eq_def, hfold]
  · rw [List.foldl_append, accCombine_fold, accCombine_empty op (accFold_has op vs)]

end Sys2Proof.Machine
end

section
/-! PROOFS. The PCIe ports: a lost link sweeps every use that no flush waits for. -/

namespace Sys2Proof.Machine

/-- A READY adapter with ACC port 0 READY and a use that an ended operation's write has left behind. -/
def leftUseState : State := { readyState with pc := { acc := [(0, { state := .ready })], uses := [(.run 0, 0)] } }

/-- Refutes O49: clause 4 lets a lost link change nothing of the PCIe block but the ports.  The failing of the port's flushes sweeps the
uses behind flushes, so a use whose operation has ended goes with it. -/
theorem not_pciePortsAndAccesses : ¬ Obligations.PciePortsAndAccesses := by
  unfold Obligations.PciePortsAndAccesses
  rintro ⟨_, _, _, hdown, _⟩
  obtain ⟨t, ht, _, _, _, _, hframe⟩ := hdown 0 leftUseState (by decide +kernel) (.inl (by decide +kernel)) (by decide +kernel)
    (by decide +kernel)
  have hexec : exec (.accLinkDown 0) leftUseState = .next (accContain 0 (raise Reg.GX_PC_EVENTS 1 leftUseState)) :=
    next_whenOk (by decide +kernel)
  have hswept : (accContain 0 (raise Reg.GX_PC_EVENTS 1 leftUseState)).pc.uses = [] := by decide +kernel
  obtain rfl : accContain 0 (raise Reg.GX_PC_EVENTS 1 leftUseState) = t := Host.Outcome.next.inj (hexec.symm.trans ht)
  have hkept := congrArg (fun u => u.pc.uses) hframe.1
  exact absurd (hswept.symm.trans hkept) (by decide)

end Sys2Proof.Machine
end

section
/-! PROOFS. The bring-up of cell links: a port that comes back from a retrain sends what it had queued. -/

namespace Sys2Proof.Machine

/-- What can be seen of the state that a command leaves. -/
def seen {α : Type} (f : State → α) : Res → Option α
  | .next t => some (f t)
  | _ => none

theorem seen_of_next {α : Type} (f : State → α) {r : Res} {t : State} (h : r = .next t) : seen f r = some (f t) := by
  rw [h]
  rfl

/-- A slot of one cell that waits on a link. -/
def queuedItem : WireItem := { node := 0, unit := 0, hdr := 0, pay := 0 }

/-- The payload of an IDENT cell that says DONE and gives one unit of credit. -/
def doneIdent : BitVec 512 := BitVec.ofNat 512 (8 * 2 ^ 24 + 2 ^ 64)

/-- A joined adapter whose cell port 0 retrains, has sent DONE and has one slot queued. -/
def retrainState : State :=
  { readyState with
    fw := { readyState.fw with joined := true }
    lz := { readyState.lz with run := { readyState.lz.run with ports := [{ enable := true, eth := false, udpCells := false, mtu := 0 }] } }
    cf := { ports := [(0, { state := .identify, sentDone := true, retrain := true, queue := [queuedItem] })] } }

/-- Refutes O40: clause 8 gives a port that reaches UP the whole credit of the peer's IDENT.  A slot that a retrain left in the port's queue
goes out at once and takes its credit. -/
theorem not_cellLinksComeUp : ¬ Obligations.CellLinksComeUp := by
  unfold Obligations.CellLinksComeUp
  rintro ⟨_, _, _, _, _, _, _, hdone, _⟩
  obtain ⟨t, ht, _, _, hcredit, _⟩ := hdone 0 doneIdent 0 retrainState (by decide) (by decide +kernel) (by decide +kernel)
    (by decide +kernel) (by decide +kernel) (by decide +kernel) (by decide +kernel)
  have hseven : seen (fun u => (cport u 0).credit) (exec (.identReceive 0 doneIdent 0) retrainState) = some 7 := by decide +kernel
  have height := (seen_of_next (fun u => (cport u 0).credit) ht).trans (congrArg some hcredit)
  exact absurd (hseven.symm.trans height) (by decide +kernel)

end Sys2Proof.Machine
end

section
/-! PROOFS. Cell ports: their controls, the link layer's slots and the spare lane. -/

namespace Sys2Proof.Machine

@[simp] theorem cport_setCport_same (p : Nat) (c : CellPort) (s : State) : cport (setCport p c s) p = c := getD_mapPut_same _ _ _ _

theorem cport_setCport_ne {p j : Nat} (c : CellPort) (s : State) (h : j ≠ p) : cport (setCport p c s) j = cport s j := by
  unfold cport setCport
  rw [mapGet_mapPut_ne {} s.cf.ports c h]

@[simp] theorem cport_updCport_same (p : Nat) (f : CellPort → CellPort) (s : State) :
    cport (updCport p f s) p = f (cport s p) := cport_setCport_same p _ s

theorem cport_updCport_ne {p j : Nat} (f : CellPort → CellPort) (s : State) (h : j ≠ p) :
    cport (updCport p f s) j = cport s j := cport_setCport_ne _ s h

theorem cport_of_cf {s t : State} (h : t.cf = s.cf) (p : Nat) : cport t p = cport s p := by
  unfold cport
  rw [h]

theorem leftUp_cf (p : Nat) (s : State) : (leftUp p s).cf = s.cf := by
  unfold leftUp
  split
  · exact raise_cf _ _ _
  · rfl

theorem leftUp_other {p : Nat} {s : State} (h : (cport s p).state ≠ .up) : leftUp p s = s := if_neg h

theorem rgi_leftUp {off : Nat} (p i : Nat) (s : State) (h : regKey off i ≠ Reg.GX_CF_EVENTS) :
    rgi (leftUp p s) off i = rgi s off i := by
  unfold leftUp
  split
  · exact regAt_raise_ne s 1 h
  · rfl

/-- Where a port goes when it trains (R208). -/
theorem toTraining_same (p : Nat) (s : State) : cport (toTraining p s) p =
    { clearIdent (dropLink (cport s p)) with state := .training, attempts := 0, retrain := false } := by
  unfold toTraining
  rw [cport_updCport_same, cport_of_cf (leftUp_cf p s)]

theorem toTraining_ne {p j : Nat} (s : State) (h : j ≠ p) : cport (toTraining p s) j = cport s j :=
  (cport_updCport_ne _ _ h).trans (cport_of_cf (leftUp_cf p s) j)

theorem toDisabled_state (p : Nat) (s : State) : (cport (toDisabled p s) p).state = .disabled := by
  unfold toDisabled
  rw [cport_updCport_same]

theorem toDisabled_ne {p j : Nat} (s : State) (h : j ≠ p) : cport (toDisabled p s) j = cport s j :=
  (cport_updCport_ne _ _ h).trans (cport_of_cf (leftUp_cf p s) j)

theorem portCtrl_ne_events (p : Nat) : regKey Reg.GX_CF_PORT_CTRL p ≠ Reg.GX_CF_EVENTS := by
  simp only [regKey, Reg.GX_CF_PORT_CTRL, Reg.GX_CF_EVENTS]
  omega

theorem isCellPort_putReg (k : Nat) (v : Word) (s : State) (p : Nat) : isCellPort (putReg k v s) p = isCellPort s p := by
  unfold isCellPort portCfg
  rw [putReg_lz]

/-- A write of ADMIN_DOWN of the indexed cell port (R208). -/
theorem exec_portAdminDown {p : Nat} {down : Bool} {s : State} (hr : running s = true)
    (hp : p = wfld (rg s Reg.GX_CF_PORT_INDEX) 4 0) (hc : isCellPort s p = true) :
    exec (.portAdminDown down) s = .next
      (if down then
        (if (cport (putReg (regKey Reg.GX_CF_PORT_CTRL p) (if down then 1 else 0) s) p).state = .fenced then
          putReg (regKey Reg.GX_CF_PORT_CTRL p) (if down then 1 else 0) s
        else toDisabled p (putReg (regKey Reg.GX_CF_PORT_CTRL p) (if down then 1 else 0) s))
      else openPort p (putReg (regKey Reg.GX_CF_PORT_CTRL p) (if down then 1 else 0) s)) := by
  subst hp
  refine (next_whenOk hr).trans ?_
  simp only [isCellPort_putReg, hc, if_true]

/-! ### Codewords (R203, R204) -/

/-- What the link control word makes of a port that has nothing to acknowledge and nothing queued. -/
theorem takeLcw_quiet {p : Nat} {lcw : BitVec 20} {s : State} (hr : (cport s p).retry = []) (hq : (cport s p).queue = [])
    (hw : (cport s p).waitResync = false) (hn : fld lcw.toNat 6 6 = 0) :
    takeLcw p lcw s = setCport p { cport s p with
      ackedLsn := (cport s p).txLsn, credit := (cport s p).credit + 8 * fld lcw.toNat 5 0 } s := by
  have hnone : fld lcw.toNat 6 6 ≠ 1 := by omega
  unfold takeLcw
  simp only [hr, dropAcked, hw, Bool.false_and, hnone, if_false, cport_setCport_same, hq, List.length_nil, drainQueue]

/-- A counted good slot that no NAK waits for (R204). -/
theorem takeSlots_good {p n : Nat} {lane : Option Nat} {s : State} (hs : (cport s p).suspect = none) :
    takeSlots p lane [.good true n] s = setCport p { cport s p with rxLsn := ((cport s p).rxLsn + 1) % 2048 }
      { s with cf := { s.cf with rxBytes := mapSet s.cf.rxBytes p ((mapGet s.cf.rxBytes p).getD 0 + n) } } := by
  have hport : ∀ rx, cport { s with cf := { s.cf with rxBytes := rx } } p = cport s p := fun _ => rfl
  simp only [takeSlots, if_true, hport, hs]
  rw [if_neg (by simp)]

/-- The first bad slot of a codeword, where none was bad before (R204). -/
theorem takeSlots_bad {p : Nat} {lane : Option Nat} {rest : List LinkSlot} {s : State} (hs : (cport s p).suspect = none) :
    takeSlots p lane (.bad :: rest) s = emit (.nak p (((cport s p).rxLsn + 2047) % 2048))
      (setCport p { cport s p with waitResync := true, suspect := some (cport s p).rxLsn } (bump Reg.GX_CF_CRC_ERR_CNT s)) := by
  have hport : cport (bump Reg.GX_CF_CRC_ERR_CNT s) p = cport s p := rfl
  simp only [takeSlots, hport, hs]
  rw [if_neg (by simp)]

/-- A codeword that a port in UP takes whole. -/
theorem codeword_up {p : Nat} {lcw : BitVec 20} {slots : List LinkSlot} {lane : Option Nat} {s : State} (hp : powered s = true)
    (hu : (cport s p).state = .up) (hw : (cport (takeLcw p lcw s) p).waitResync = false) :
    exec (.codewordReceive p lcw slots false lane) s = .next (takeSlots p lane slots (takeLcw p lcw s)) := by
  refine (next_whenOk (by simp [hp, hu])).trans ?_
  simp only [Bool.false_eq_true, if_false, hw]

/-- Settles O41, clause by clause. -/
theorem cellPortsAreControlled : Obligations.CellPortsAreControlled := by
  unfold Obligations.CellPortsAreControlled
  refine ⟨fun p s hr hp hc hf => ?_, fun p s hr hp hc hd => ?_, fun p s hr hp hc hf => ?_,
    fun p n lcw lane s hp hu hw hs hr hq hn => ?_, fun p lcw rest lane s hp hu hw hs hr hq hn => ?_, fun p l s hp hu hs => ?_⟩
  · refine ⟨_, exec_portAdminDown hr hp hc, ?_⟩
    rw [if_pos rfl, if_neg (by rw [cport_of_cf (putReg_cf ..)]; exact hf)]
    refine ⟨toDisabled_state _ _, ?_, fun j hj => (toDisabled_ne _ hj).trans (cport_of_cf (putReg_cf ..) j)⟩
    have hleft := rgi_leftUp p p (putReg (regKey Reg.GX_CF_PORT_CTRL p) 1 s) (portCtrl_ne_events p)
    exact congrArg (BitVec.getLsbD · 0) (hleft.trans (regAt_putReg_same _ _ _))
  · have hctrl : rgi (putReg (regKey Reg.GX_CF_PORT_CTRL p) 0 s) Reg.GX_CF_PORT_CTRL p = 0 := regAt_putReg_same _ _ _
    have hopen : openPort p (putReg (regKey Reg.GX_CF_PORT_CTRL p) 0 s) = toTraining p (putReg (regKey Reg.GX_CF_PORT_CTRL p) 0 s) := by
      unfold openPort adminDown
      rw [hctrl, isCellPort_putReg, hc, cport_of_cf (putReg_cf ..), hd]
      rfl
    refine ⟨_, exec_portAdminDown hr hp hc, ?_⟩
    rw [if_neg (by decide), if_neg (by decide), hopen]
    have hleft := rgi_leftUp p p (putReg (regKey Reg.GX_CF_PORT_CTRL p) 0 s) (portCtrl_ne_events p)
    exact ⟨congrArg CellPort.state (toTraining_same _ _), congrArg (BitVec.getLsbD · 0) (hleft.trans hctrl)⟩
  · subst hp
    have hleft : leftUp (wfld (rg s Reg.GX_CF_PORT_INDEX) 4 0) s = s := leftUp_other (by rw [hf]; decide)
    refine ⟨_, next_whenOk (by simp [hr, hc, hf]), ?_⟩
    simp only [cport_updCport_same]
    refine ⟨congrArg CellPort.state (toTraining_same _ s), trivial, ?_⟩
    simp only [toTraining, hleft]
    rfl
  · have hlcw := takeLcw_quiet hr hq hw hn
    have hwait : (cport (takeLcw p lcw s) p).waitResync = false := by rw [hlcw, cport_setCport_same]; exact hw
    have hsus : (cport (takeLcw p lcw s) p).suspect = none := by rw [hlcw, cport_setCport_same]; exact hs
    refine ⟨_, codeword_up hp hu hwait, ?_⟩
    rw [takeSlots_good hsus, hlcw]
    simp only [cport_setCport_same]
    exact ⟨trivial, trivial, hu, rfl⟩
  · have hlcw := takeLcw_quiet hr hq hw hn
    have hwait : (cport (takeLcw p lcw s) p).waitResync = false := by rw [hlcw, cport_setCport_same]; exact hw
    have hsus : (cport (takeLcw p lcw s) p).suspect = none := by rw [hlcw, cport_setCport_same]; exact hs
    refine ⟨_, codeword_up hp hu hwait, ?_⟩
    rw [takeSlots_bad hsus, hlcw]
    have hread : ∀ (o : Output) (t : State), cport (emit o t) p = cport t p := fun _ _ => rfl
    simp only [cport_setCport_same, hread]
    exact ⟨counted_from (counted_bump _ _) rfl, rfl, trivial, trivial, hu⟩
  · refine ⟨_, next_whenOk (by simp [hp, hu, hs]), ?_⟩
    have hcf := raise_cf (setCport p { cport s p with spareWait := none, spareUsed := true } s) Reg.GX_CF_EVENTS 2
    refine ⟨(cport_of_cf hcf p).trans (cport_setCport_same ..), raise_sets _ _ 2 (by decide), ?_⟩
    rw [hcf]
    exact raise_eventsOnly (setCport p { cport s p with spareWait := none, spareUsed := true } s) _ 2

end Sys2Proof.Machine
end

section
/-! PROOFS. Links are chosen, items wait for routes, maps are loaded and fence entries stored. -/

namespace Sys2Proof.Machine

/-! ### The choice of a link (R215) -/

theorem routeCands_lt {s : State} {node p : Nat} {retx : Bool} {avoid : Option Nat} (h : p ∈ routeCands s node retx avoid) :
    p < 32 := by
  have hup : ∀ q, q ∈ (upPorts s).filter (fun p => reaches s node p && mapLevel s (cport s p).plane node != 3) → q < 32 := by
    intro q hq
    exact List.mem_range.1 (List.mem_filter.1 (List.mem_filter.1 hq).1).1
  apply hup
  unfold routeCands at h
  split at h
  · simp only [] at h
    split at h
    · split at h
      · exact h
      · exact (List.mem_filter.1 h).1
    · exact (List.mem_filter.1 h).1
  · exact h

/-- The links in the order in which ties are decided. -/
def linkOrder (s : State) (cands : List Nat) : List Nat :=
  ((List.range 32).map (fun d => (s.cf.rotor + d) % 32)).filter (fun p => cands.contains p)

theorem mem_linkOrder {s : State} {cands : List Nat} {p : Nat} (hp : p ∈ cands) (h : p < 32) : p ∈ linkOrder s cands := by
  refine List.mem_filter.2 ⟨List.mem_map.2 ⟨(p + 32 - s.cf.rotor % 32) % 32, List.mem_range.2 (by omega), by omega⟩, ?_⟩
  simpa using hp

theorem mem_of_linkOrder {s : State} {cands : List Nat} {p : Nat} (h : p ∈ linkOrder s cands) : p ∈ cands := by
  simpa using (List.mem_filter.1 h).2

/-- The better of the best so far and a link. -/
def betterLink (score : Nat → Nat) (best : Option Nat) (p : Nat) : Option Nat :=
  match best with
  | none => some p
  | some b => if score p < score b then some p else some b

/-- The best of a list has its least score. -/
theorem foldl_betterLink (score : Nat → Nat) (l : List Nat) : ∀ (best : Option Nat) (p : Nat),
    l.foldl (betterLink score) best = some p →
      (p ∈ l ∨ best = some p) ∧ (∀ j ∈ l, score p ≤ score j) ∧ ∀ b, best = some b → score p ≤ score b := by
  induction l with
  | nil =>
    rintro best p h
    obtain rfl : best = some p := h
    exact ⟨.inr rfl, fun _ h => absurd h List.not_mem_nil, fun b hb => Nat.le_of_eq (congrArg score (Option.some.inj hb))⟩
  | cons q l ih =>
    intro best p h
    obtain ⟨hin, hall, hbest⟩ := ih _ p h
    have hstep : ∃ b, betterLink score best q = some b ∧ score b ≤ score q ∧ (∀ c, best = some c → score b ≤ score c) ∧
        (b = q ∨ best = some b) := by
      cases best with
      | none => exact ⟨q, rfl, Nat.le_refl _, fun _ h => absurd h (by simp), .inl rfl⟩
      | some c =>
        by_cases hlt : score q < score c
        · exact ⟨q, if_pos hlt, Nat.le_refl _, fun d hd => Option.some.inj hd ▸ Nat.le_of_lt hlt, .inl rfl⟩
        · exact ⟨c, if_neg hlt, Nat.not_lt.1 hlt, fun d hd => Nat.le_of_eq (congrArg score (Option.some.inj hd)), .inr rfl⟩
    obtain ⟨b, hb, hq, hprev, hwhich⟩ := hstep
    have hpb := hbest b hb
    refine ⟨?_, fun j hj => ?_, fun c hc => Nat.le_trans hpb (hprev c hc)⟩
    · rcases hin with hin | hin
      · exact .inl (List.mem_cons_of_mem _ hin)
      · obtain rfl : b = p := Option.some.inj (hb.symm.trans hin)
        exact hwhich.imp (fun h : b = q => h ▸ List.mem_cons_self) id
    · rcases List.mem_cons.1 hj with rfl | hj
      · exact Nat.le_trans hpb hq
      · exact hall j hj

theorem chooseLink_eq (s : State) (node : Nat) (retx : Bool) (avoid : Option Nat) :
    chooseLink s node retx avoid
      = (linkOrder s (routeCands s node retx avoid)).foldl (betterLink (linkScore s node)) none := rfl

theorem chooseLink_least {s : State} {node p : Nat} {retx : Bool} {avoid : Option Nat} (h : chooseLink s node retx avoid = some p) :
    p ∈ routeCands s node retx avoid ∧ ∀ j ∈ routeCands s node retx avoid, linkScore s node p ≤ linkScore s node j := by
  rw [chooseLink_eq] at h
  obtain ⟨hin, hall, _⟩ := foldl_betterLink _ _ _ p h
  refine ⟨mem_of_linkOrder (hin.resolve_right (by simp)), fun j hj => hall j (mem_linkOrder hj (routeCands_lt hj))⟩

/-! ### A slot that goes out at once (R204, R205) -/

/-- What passing bytes by the check-value units sends comes after what was sent. -/
theorem stream_out (src idx : Nat) (retx begins : Bool) (bs : List Byte) (s : State) :
    ∃ l, (stream src idx retx begins bs s).out = s.out ++ l := by
  refine foldl_maintains (fun t : State => ∃ l, t.out = s.out ++ l) _ (fun t u ht => ?_) _ s ⟨[], (List.append_nil _).symm⟩
  have hbound : ∃ l, (cvBoundary u t).out = s.out ++ l := by
    unfold cvBoundary
    split
    · exact ht
    · obtain ⟨l, hl⟩ := ht
      obtain ⟨m, hm⟩ := raise_out Reg.GX_CV_DONE u (setCv u { cvSnap (cvParams t u) (cvUnit t u) with state := .stopped } t)
      exact ⟨l ++ m, by rw [cvStopped, hm, ← List.append_assoc, ← hl]; rfl⟩
    · exact ht
  split
  · extract_lets t1 c q
    have h1 : ∃ l, t1.out = s.out ++ l := by
      simp only [t1]
      split
      · exact hbound
      · exact ht
    split
    · exact h1
    · exact h1
  · exact ht

theorem streams_out (idx : Nat) (bss : List (List Byte)) (s : State) :
    ∃ l, (bss.foldl (fun s bs => stream 2 idx false true bs s) s).out = s.out ++ l := by
  refine foldl_maintains (fun t : State => ∃ l, t.out = s.out ++ l) _ (fun t bs ht => ?_) _ s ⟨[], (List.append_nil _).symm⟩
  obtain ⟨l, hl⟩ := ht
  obtain ⟨m, hm⟩ := stream_out 2 idx false true bs t
  exact ⟨l ++ m, by rw [hm, hl, List.append_assoc]⟩

theorem streams_cf (idx : Nat) (bss : List (List Byte)) (s : State) :
    (bss.foldl (fun s bs => stream 2 idx false true bs s) s).cf = s.cf := by
  have h : beyondStream (bss.foldl (fun s bs => stream 2 idx false true bs s) s) = beyondStream s :=
    foldl_keeps beyondStream _ (fun t bs => beyondStream_stream 2 idx false true bs t) _ s
  exact (congrArg State.cf h :)

/-- What a slot on the wire leaves of its port and of what was sent. -/
theorem wireOut_sends (p : Nat) (i : WireItem) (s : State) :
    (∃ l, (wireOut p i s).out = s.out ++ .slot p (cport s p).txLsn { i with hdr := freshEpoch s i.hdr } :: l) ∧
      cport (wireOut p i s) p = { cport s p with
        txLsn := ((cport s p).txLsn + itemSlots i) % 2048, credit := (cport s p).credit - itemSlots i
        retry := (cport s p).retry ++ [((cport s p).txLsn, { i with hdr := freshEpoch s i.hdr })] } := by
  unfold wireOut
  extract_lets j c s1 _ s2 h _ s3
  have hout : ∃ l, s3.out = s.out ++ .slot p (cport s p).txLsn { i with hdr := freshEpoch s i.hdr } :: l := by
    obtain ⟨l, hl⟩ := streams_out p (itemBytesList j) (emit (.slot p c.txLsn j) s)
    have h3 : s3.out = s1.out := by
      simp only [s3]
      split <;> rfl
    refine ⟨l, h3.trans (hl.trans ?_)⟩
    show (s.out ++ [.slot p c.txLsn j]) ++ l = _
    rw [List.append_assoc]
    rfl
  exact ⟨hout, cport_setCport_same ..⟩

/-- One item alone on a link that may take it goes out at once. -/
theorem enqueueFirst_alone {p : Nat} {i : WireItem} {s : State} (hq : (cport s p).queue = []) (hu : linkUp s p = true)
    (hj : s.fw.joined = true) (hm : mayStart s (cport s p) i = true) :
    enqueueFirst p i s = wireOut p i (setCport p { cport s p with queue := [] }
      (setCport p { cport s p with queue := [i] } s)) := by
  have hup : linkUp (setCport p { cport s p with queue := [i] } s) p = true := by
    unfold linkUp at *
    rw [cport_setCport_same]
    exact hu
  have hmay : mayStart (setCport p { cport s p with queue := [i] } s) { cport s p with queue := [i] } i = true := hm
  have hjoin : (setCport p { cport s p with queue := [i] } s).fw.joined = true := hj
  unfold enqueueFirst updCport
  simp only [hq, List.takeWhile_nil, List.dropWhile_nil, List.nil_append, cport_setCport_same, List.length_cons, List.length_nil,
    drainQueue, hup, hjoin, hmay, Bool.and_self, if_true]

/-! ### The oldest control cell (R264) -/

/-- A control cell as it goes on a link. -/
def controlItem (c : CtlCell) : WireItem := { node := c.node, unit := c.unit, hdr := c.hdr, pay := c.pay }

theorem sendControl_link {x : RecvReads} {c : CtlCell} {rest : List CtlCell} {p : Nat} {s : State} (hc : s.tp.control = c :: rest)
    (hn : nodeSlot s c.node = none) (ht : ∀ n q, c.qpn = some n → qpOf s n = some q → q.typ ≠ 1) (hj : s.fw.joined = true)
    (hf : fenceOf s c.node c.unit = none) (hl : chooseLink s c.node false none = some p) :
    sendControl x s = some (enqueueFirst p (controlItem c)
      { s with tp := { s.tp with control := rest }, cf := { s.cf with rotor := (p + 1) % 32 } }) := by
  have hudp : (c.qpn.bind (qpOf { s with tp := { s.tp with control := rest } })).any (fun q => q.typ == 1) = false := by
    cases hq : c.qpn.bind (qpOf { s with tp := { s.tp with control := rest } }) with
    | none => rfl
    | some q =>
      obtain ⟨n, hcn, hqn⟩ := Option.bind_eq_some_iff.1 hq
      simpa using ht n q hcn hqn
  have hslot : (nodeSlot { s with tp := { s.tp with control := rest } } c.node).isSome = false := by
    show (nodeSlot s c.node).isSome = false
    rw [hn]
    rfl
  have hleave : mayLeave { s with tp := { s.tp with control := rest } } (controlItem c) = true := by
    show (s.fw.joined && !((fenceOf s c.node c.unit).any (fun e => e.state == 2))) = true
    rw [hj, hf]
    rfl
  have hlink : chooseLink { s with tp := { s.tp with control := rest } } c.node false none = some p := hl
  unfold sendControl
  rw [hc]
  simp only [hudp, hslot, Bool.false_eq_true, if_false, Bool.not_false, if_true]
  unfold routeControl
  simp only [← controlItem.eq_def, hleave, if_true]
  rw [hlink]

/-! ### Items that wait (R215, R216) -/

/-- An adapter that has not joined holds what comes. -/
theorem holdItem_unjoined {s : State} (i : WireItem) (hj : s.fw.joined = false) :
    holdItem i s = { s with cf := { s.cf with held := s.cf.held ++ [i] } } := by
  have hleave : mayLeave s i = false := by
    unfold mayLeave
    rw [hj]
    rfl
  unfold holdItem
  simp only [hleave, Bool.or_false, Bool.false_and, Bool.false_eq_true, if_false]

theorem routeItem_unjoined {s : State} (i : WireItem) (hj : s.fw.joined = false) :
    routeItem i s = { s with cf := { s.cf with held := s.cf.held ++ [i] } } := by
  have hleave : mayLeave s i = false := by
    unfold mayLeave
    rw [hj]
    rfl
  unfold routeItem
  simp only [hleave, Bool.false_eq_true, if_false]
  exact holdItem_unjoined i hj

theorem packUdp_unjoined {s : State} (i : WireItem) (hj : s.fw.joined = false) (hi : i.udp = true) :
    packUdp i s = { s with cf := { s.cf with held := s.cf.held ++ [i] } } := by
  have hleave : mayLeave s i = false := by
    unfold mayLeave
    rw [hj]
    rfl
  have hsame : { i with udp := true } = i := by rw [← hi]
  unfold packUdp
  simp only [hleave, Bool.false_eq_true, if_false, hsame]
  exact holdItem_unjoined i hj

/-- The state with other items held. -/
def withHeld (h : List WireItem) (s : State) : State := { s with cf := { s.cf with held := h } }

/-- Steps that each hold their item hold them all in turn. -/
theorem foldl_holds (f : State → WireItem → State) (l : List WireItem) (s : State)
    (hf : ∀ (h : List WireItem), ∀ i ∈ l, f (withHeld h s) i = withHeld (h ++ [i]) s) :
    ∀ h, l.foldl f (withHeld h s) = withHeld (h ++ l) s := by
  induction l with
  | nil => exact fun h => by rw [List.append_nil]; rfl
  | cons i l ih =>
    intro h
    rw [List.foldl_cons, hf h i List.mem_cons_self, ih (fun h j hj => hf h j (List.mem_cons_of_mem _ hj)), List.append_assoc]
    rfl

theorem drainQueue_unjoined (fuel p : Nat) {s : State} (hj : s.fw.joined = false) : drainQueue fuel p s = s := by
  cases fuel with
  | zero => rfl
  | succ k =>
    unfold drainQueue
    simp only [hj, Bool.and_false, Bool.false_and, Bool.false_eq_true, if_false]
    split <;> rfl

/-- Nothing leaves before the adapter has joined (R211). -/
theorem retryAll_unjoined {s : State} (hj : s.fw.joined = false) :
    retryAll s = withHeld (s.cf.held.filter (fun i => !i.udp) ++ s.cf.held.filter (·.udp)) s := by
  have hjoin : ∀ h, (withHeld h s).fw.joined = false := fun _ => hj
  have hroute : retryHeld (withHeld (s.cf.held.filter (fun i => !i.udp)) s) = withHeld (s.cf.held.filter (fun i => !i.udp)) s := by
    refine (foldl_holds _ (s.cf.held.filter (fun i => !i.udp)) s (fun h i hi => ?_) []).trans (by rw [List.nil_append])
    have hudp : i.udp = false := by simpa using (List.mem_filter.1 hi).2
    simp only [hudp, Bool.false_eq_true, if_false]
    exact routeItem_unjoined i (hjoin h)
  have hpack : (s.cf.held.filter (·.udp)).foldl (fun s i => packUdp i s) (withHeld (s.cf.held.filter (fun i => !i.udp)) s)
      = withHeld (s.cf.held.filter (fun i => !i.udp) ++ s.cf.held.filter (·.udp)) s :=
    foldl_holds _ _ s (fun h i hi => packUdp_unjoined i (hjoin h) (List.mem_filter.1 hi).2) _
  have hdrain : ∀ (ports : List Nat) (h : List WireItem),
      ports.foldl (fun s p => drainQueue (cport s p).queue.length p s) (withHeld h s) = withHeld h s := by
    intro ports h
    induction ports with
    | nil => rfl
    | cons p ports ih => rw [List.foldl_cons, drainQueue_unjoined _ p (hjoin h), ih]
  unfold retryAll
  simp only [← withHeld.eq_def]
  rw [hroute, hpack, hdrain]

/-- The items that wait and the link after the last pick. -/
def waitView (s : State) : List WireItem × Nat := (s.cf.held, s.cf.rotor)

theorem waitView_wireOut (p : Nat) (i : WireItem) (s : State) : waitView (wireOut p i s) = waitView s := by
  unfold wireOut
  extract_lets j c s1 _ s2 h _ s3
  have h1 : s1.cf = s.cf := streams_cf p (itemBytesList j) (emit (.slot p c.txLsn j) s)
  have h3 : waitView s3 = waitView s1 := by
    simp only [s3]
    split <;> rfl
  have hset : ∀ c, waitView (setCport p c s3) = waitView s3 := fun _ => rfl
  rw [hset, h3, waitView, h1]
  rfl

theorem waitView_drainQueue (fuel p : Nat) (s : State) : waitView (drainQueue fuel p s) = waitView s := by
  induction fuel generalizing s with
  | zero => rfl
  | succ k ih =>
    unfold drainQueue
    simp only []
    split
    · rfl
    · split
      · rw [ih, waitView_wireOut]
        rfl
      · rfl

theorem waitView_chargeItem (p : Nat) (i : WireItem) (s : State) : waitView (chargeItem p i s) = waitView s := by
  have hshaper : ∀ (k : Nat) (n : Int) (t : State), waitView (chargeShaper k n t) = waitView t := by
    intro k n t
    unfold chargeShaper
    split <;> rfl
  unfold chargeItem
  split
  · rfl
  · rw [hshaper]
    unfold chargeAllow
    simp only []
    split
    · rw [waitView, raise_cf]
      rfl
    · rfl

/-- One held item that finds its link goes there (R215). -/
theorem retryAll_one {p : Nat} {i : WireItem} {s : State} (hh : s.cf.held = [i]) (hi : i.udp = false) (hj : s.fw.joined = true)
    (hf : fenceOf s i.node i.unit = none) (hl : chooseLink s i.node i.retx i.avoid = some p) :
    waitView (retryAll s) = ([], (p + 1) % 32) := by
  have hleave : mayLeave (withHeld [] s) i = true := by
    show (s.fw.joined && !((fenceOf s i.node i.unit).any (fun e => e.state == 2))) = true
    rw [hj, hf]
    rfl
  have hlink : chooseLink (withHeld [] s) i.node i.retx i.avoid = some p := hl
  have hroute : waitView (routeItem i (withHeld [] s)) = ([], (p + 1) % 32) := by
    unfold routeItem
    simp only [hleave, if_true, hlink]
    unfold enqueueOn
    simp only []
    rw [waitView_drainQueue]
    exact waitView_chargeItem p i _
  have hretry : retryHeld (withHeld [i] s) = routeItem i (withHeld [] s) := by
    show (if i.udp then _ else routeItem i (withHeld [] s)) = _
    rw [if_neg (by rw [hi]; decide)]
  unfold retryAll
  simp only [hh, List.filter_cons, hi, Bool.not_false, if_true, Bool.false_eq_true, if_false, List.filter_nil, List.foldl_nil,
    ← withHeld.eq_def]
  rw [hretry]
  exact (foldl_keeps waitView _ (fun t p => waitView_drainQueue _ p t) _ _).trans hroute

theorem retryHeld_none {s : State} (h : s.cf.held = []) : retryHeld s = s := by
  have hsame : withHeld [] s = s := by
    unfold withHeld
    rw [← h]
  show (s.cf.held.foldl _ (withHeld [] s)) = s
  rw [h, hsame]
  rfl

/-! ### The fence table (R222) -/

/-- A write of the fence table that another entry's coordinate bars. -/
theorem fenceClash {e : Nat × FenceEntry} {fences : NMap FenceEntry} {idx node unit : Nat} (he : e ∈ fences) (hi : e.1 ≠ idx)
    (hn : e.2.node = node) (hu : e.2.unit = unit) (hs : e.2.state ≠ 0) :
    fences.any (fun x => x.1 != idx && x.2.node == node && x.2.unit == unit && x.2.state != 0) = true :=
  List.any_eq_true.2 ⟨e, he, by simp [hi, hn, hu, hs]⟩

theorem fenceFree {fences : NMap FenceEntry} {idx node unit : Nat}
    (h : ∀ e ∈ fences, e.1 ≠ idx → e.2.state ≠ 0 → e.2.node ≠ node ∨ e.2.unit ≠ unit) :
    fences.any (fun x => x.1 != idx && x.2.node == node && x.2.unit == unit && x.2.state != 0) = false := by
  rw [List.any_eq_false]
  intro e he hall
  simp only [Bool.and_eq_true, bne_iff_ne, ne_eq, beq_iff_eq] at hall
  obtain ⟨⟨⟨hi, hn⟩, hu⟩, hs⟩ := hall
  rcases h e he hi hs with hne | hne
  · exact hne hn
  · exact hne hu

/-- The state in which the oldest control cell may go out by a port. -/
def controlReady (p : Nat) (c : CtlCell) (rest : List CtlCell) (s : State) : State :=
  setCport p { cport s p with queue := [] } (setCport p { cport s p with queue := [controlItem c] }
    { s with tp := { s.tp with control := rest }, cf := { s.cf with rotor := (p + 1) % 32 } })

theorem cmapLoad_takes {h l : List Byte} {s : State}
    (hread : ∀ off n given, cmapBytes s off n given false = (given, false)) (heven : leAt h 0 4 % 2 = 0)
    (hne : leAt h 0 4 ≠ s.cf.mapGen) :
    cmapLoad h l h false s = raise Reg.GX_CF_EVENTS 6
      { s with cf := { s.cf with mapNext := some (leAt h 0 4, leAt h 4 1, readLevels (l.take 8192)) } } := by
  have hodd : ¬(leAt h 0 4 % 2 = 1 ∨ leAt h 0 4 = s.cf.mapGen) := by
    rintro (h1 | h1)
    · omega
    · exact hne h1
  unfold cmapLoad
  simp only [hread, Bool.false_eq_true, if_false, Bool.or_self, if_true]
  rw [if_neg hodd]

/-- Settles O42, command by command. -/
theorem routesMapsAndFences : Obligations.RoutesMapsAndFences := by
  unfold Obligations.RoutesMapsAndFences
  refine ⟨fun s node p retx avoid h => chooseLink_least h, fun clk p x c rest s hw hc hn ht hj hf hl hq hu hcr hroom => ?_,
    fun s hw hj => ?_, fun p i s hw hh hi hj hf hl => ?_, fun h l s hw hv hloc hup heven hne => ?_,
    fun v idx node unit s hr hidx hnode hunit hst hh hfree => ?_, fun v e s hr he hi hn hu hs hv => ?_⟩
  · have hsend := sendControl_link (x := x) hc hn ht hj hf hl
    have hmay : mayStart s (cport s p) (controlItem c) = true := by
      have hone : itemSlots (controlItem c) = 1 := rfl
      unfold mayStart
      rw [hone]
      simp [hcr, hroom]
    have htransmit : transmit clk x s = wireOut p (controlItem c) (controlReady p c rest s) := by
      unfold transmit
      rw [hsend]
      exact enqueueFirst_alone (s := { s with tp := { s.tp with control := rest }, cf := { s.cf with rotor := (p + 1) % 32 } })
        hq hu hj hmay
    obtain ⟨⟨l, hout⟩, hport⟩ := wireOut_sends p (controlItem c) (controlReady p c rest s)
    have hready : cport (controlReady p c rest s) p = { cport s p with queue := [] } := cport_setCport_same ..
    have htp : (wireOut p (controlItem c) (controlReady p c rest s)).tp = (controlReady p c rest s).tp :=
      (congrArg State.tp (beyondSend_wireOut p (controlItem c) (controlReady p c rest s)) :)
    rw [hready] at hout hport
    refine ⟨_, { controlItem c with hdr := freshEpoch (controlReady p c rest s) c.hdr }, l, next_whenOk hw, ?_⟩
    rw [htransmit, hport, htp, hout]
    exact ⟨rfl, rfl, rfl, rfl, rfl, rfl, rfl, rfl, rfl⟩
  · refine ⟨_, next_whenOk hw, ?_⟩
    rw [retryAll_unjoined hj]
    refine ⟨fun i => ?_, rfl⟩
    show i ∈ s.cf.held.filter (fun i => !i.udp) ++ s.cf.held.filter (·.udp) ↔ _
    cases hi : i.udp <;> simp [hi]
  · refine ⟨_, next_whenOk hw, ?_⟩
    have hview := retryAll_one hh hi hj hf hl
    exact ⟨congrArg Prod.fst hview, congrArg Prod.snd hview⟩
  · have hread : ∀ off n given, cmapBytes s off n given false = (given, false) := by
      intro off n given
      unfold cmapBytes
      rw [if_neg hloc, hup]
      rfl
    refine ⟨_, next_whenOk (by rw [hw, hv]; rfl), ?_⟩
    rw [cmapLoad_takes hread heven hne]
    refine ⟨?_, raise_sets _ _ 6 (by decide), ?_⟩
    · rw [raise_cf]
    · rw [raise_cf]
      exact raise_eventsOnly _ _ 6
  · subst hidx hnode hunit
    refine ⟨_, next_whenOk hr, ?_⟩
    have hgo : ¬(wfld v 7 6 = 3 ∨ wfld v 7 6 ≠ 0 ∧ s.cf.fences.any (fun x => x.1 != wfld (rg s Reg.GX_CF_FENCE_INDEX) 13 0 &&
        x.2.node == wfld (rg s Reg.GX_CF_FENCE_COORD) 28 6 && x.2.unit == wfld (rg s Reg.GX_CF_FENCE_COORD) 5 0 &&
        x.2.state != 0) = true) := by
      rw [fenceFree hfree]
      simp [hst]
    rw [if_neg hgo]
    rw [retryHeld_none (by exact hh), hst]
    refine ⟨?_, fun j hj => mapGet_mapPut_ne _ _ _ hj, rfl⟩
    show mapGet (mapPut _ s.cf.fences _ _) _ = _
    rw [mapPut, if_neg (by simp), mapGet_mapSet_same]
  · refine ⟨_, next_whenOk hr, ?_⟩
    rw [if_pos (.inr ⟨hv, fenceClash he hi hn hu hs⟩)]
    exact ⟨raise_sets _ _ 8 (by decide), raise_eventsOnly s _ 8⟩

end Sys2Proof.Machine
end

section
/-! PROOFS. Ethernet reception: counting a frame at a port that the list of ports holds out of order. -/

namespace Sys2Proof.Machine

/-- A frame of 64 bytes to an address that no port answers to. -/
def strayFrame : List Byte := withFcs (beBytes 6 0x020000000001 ++ beBytes 6 0x020000000002 ++ beBytes 2 0x88B5 ++ List.replicate 46 0)

/-- What the packet buffers hold for port 1: more than half of the one MiB that the structure gives them. -/
def heldFrame : RxFrame := ⟨.ptp, 0, 3000, []⟩

/-- A READY adapter with Ethernet ports 1 and 5, whose records stand in falling order. -/
def fallingPorts : State :=
  putReg (regKey Reg.GX_ETH_RX_LIMIT 1) 2048
    { readyState with
      lz := { readyState.lz with run := { readyState.lz.run with
        ports := List.replicate 6 { enable := true, eth := true, udpCells := false, mtu := 1518 }, sram := (32, 64, 1, 56) } }
      eth := { readyState.eth with ports := [(5, {}), (1, { link := true, rx := [heldFrame] })] } }

/-- Refutes O43: clause 4 judges the room for a frame before its codewords are counted.  Where the records of the ports stand out of order
the count writes a second record of the port, which doubles what it holds, so that the frame finds no room. -/
theorem not_ethernetReceivesAndPauses : ¬ Obligations.EthernetReceivesAndPauses := by
  unfold Obligations.EthernetReceivesAndPauses
  rintro ⟨_, _, _, hfilter, _⟩
  have hgood : fcsGood strayFrame = true := by decide +kernel
  obtain ⟨t, ht, hcount, _⟩ := hfilter 1 0 strayFrame {} fallingPorts (by decide +kernel) (by decide +kernel) (by decide +kernel)
    hgood (by decide +kernel) (by decide +kernel)
  have hnone : seen (fun u => (mapGet (ethPort u 1).counters 13).getD 0) (exec (.ethFrameReceive 1 strayFrame 0 0 {}) fallingPorts)
      = some 0 := by decide +kernel
  have hone := (seen_of_next (fun u => (mapGet (ethPort u 1).counters 13).getD 0) ht).trans (congrArg some hcount)
  exact absurd (hnone.symm.trans hone) (by decide +kernel)

end Sys2Proof.Machine
end

section
/-! PROOFS. The Gander, the counters and the UDP node entries. -/

namespace Sys2Proof.Machine

/-! ### Ports of Ethernet -/

@[simp] theorem ethPort_modEth_same (p : Nat) (f : EthPort → EthPort) (s : State) : ethPort (modEth p f s) p = f (ethPort s p) := by
  unfold ethPort modEth
  rw [mapGet_mapSet_same]
  rfl

theorem ethPort_modEth_ne {p j : Nat} (f : EthPort → EthPort) (s : State) (h : j ≠ p) : ethPort (modEth p f s) j = ethPort s j := by
  unfold ethPort modEth
  rw [mapGet_mapSet_ne _ _ h]

theorem ethPort_of_eth {s t : State} (h : t.eth = s.eth) (p : Nat) : ethPort t p = ethPort s p := by
  unfold ethPort
  rw [h]

theorem ethPort_raise (off bit p : Nat) (s : State) : ethPort (raise off bit s) p = ethPort s p :=
  ethPort_of_eth (raise_eth _ _ _) p

/-- Counting changes a port's counters and its half-range bits. -/
theorem ethPort_ethCount (p i n : Nat) (s : State) : ∃ c h, ethPort (ethCount p i n s) p = { ethPort s p with counters := c, half := h } := by
  unfold ethCount
  simp only []
  split
  · exact ⟨_, _, ethPort_modEth_same ..⟩
  · exact ⟨_, _, (ethPort_raise ..).trans ((ethPort_modEth_same ..).trans (by rw [ethPort_modEth_same]))⟩

/-! ### Operations that end leave the ports (R187, R243) -/

/-- The Ethernet block, and the modes of its flow control. -/
def flowView (s : State) : EthState × (Nat → Word) := (s.eth, rgi s Reg.GX_ETH_FC_CTRL)

theorem flowCtrl_raise {off : Nat} (bit : Nat) (s : State) (h : off < 2 ^ 32) (hne : off ≠ Reg.GX_ETH_FC_CTRL) :
    rgi (raise off bit s) Reg.GX_ETH_FC_CTRL = rgi s Reg.GX_ETH_FC_CTRL := by
  funext p
  refine regAt_raise_ne s bit (fun hk => ?_)
  simp only [regKey] at hk
  omega

theorem flowCtrl_bump {off : Nat} (s : State) (h : off < 2 ^ 32) (hne : off ≠ Reg.GX_ETH_FC_CTRL) :
    rgi (bump off s) Reg.GX_ETH_FC_CTRL = rgi s Reg.GX_ETH_FC_CTRL := by
  funext p
  refine regAt_putReg_ne s _ (fun hk => ?_)
  simp only [regKey] at hk
  omega

theorem flowPri_of_flowView {s t : State} (h : flowView t = flowView s) (p pri : Nat) : flowPri t p pri = flowPri s p pri := by
  have hctrl : rgi t Reg.GX_ETH_FC_CTRL = rgi s Reg.GX_ETH_FC_CTRL := congrArg Prod.snd h
  unfold flowPri fcMode
  rw [hctrl]

theorem flowView_releaseUses (us : List Nat) (s : State) : flowView (releaseUses us s) = flowView s :=
  foldl_keeps flowView (fun s u => l2Release u s) (fun _ _ => rfl) us s

theorem flowView_tryFlush (p : Nat) (s : State) : flowView (tryFlush p s) = flowView s := by
  unfold tryFlush
  simp only []
  split
  · exact Prod.ext rfl (flowCtrl_bump (off := Reg.GX_PC_FLUSH_CNT) (updAcc p _ s) (by decide) (by decide))
  · rfl

theorem flowView_awaitFlush (w : Waiter) (s : State) : flowView (awaitFlush w s).1 = flowView s := by
  unfold awaitFlush
  refine foldl_keeps flowView _ (fun t p => ?_) _ s
  rw [flowView_tryFlush]
  rfl

theorem flowView_removeRun (key : Nat) (s : State) : flowView (removeRun key s) = flowView s := by
  unfold removeRun
  split
  · rfl
  · exact flowView_releaseUses _ s

theorem flowView_finishRun (key : Nat) (c : Completion) (s : State) : flowView (finishRun key c s) = flowView s := by
  unfold finishRun
  split
  · rfl
  · rename_i r _
    have hawait := flowView_awaitFlush (.run key) s
    simp only []
    split
    · rw [flowView_removeRun]
      exact hawait
    · exact hawait

theorem flowView_checkRun (key : Nat) (s : State) : flowView (checkRun key s) = flowView s := by
  unfold checkRun
  split
  · rfl
  · split
    · exact flowView_finishRun ..
    · rfl

theorem flowView_msgDone (qpn msn status : Nat) (s : State) : flowView (msgDone qpn msn status s) = flowView s := by
  unfold msgDone
  split
  · rfl
  · extract_lets _ s1 _ uses s2 _
    have h2 : flowView s2 = flowView s := by
      simp only [s2]
      split
      · rfl
      · exact flowView_releaseUses _ s1
    rw [flowView_checkRun]
    exact h2

theorem flowView_roceDone (qpn msn status : Nat) (s : State) : flowView (roceDone qpn msn status s) = flowView s := by
  unfold roceDone
  split
  · split
    · simp only []
      rw [flowView_msgDone]
      exact flowView_releaseUses _ s
    · exact flowView_msgDone ..
  · exact flowView_msgDone ..

theorem flowView_udSent (f : TxFrame) (s : State) : flowView (udSent f s) = flowView s := by
  refine foldl_keeps flowView _ (fun t m => ?_) _ s
  split
  · exact flowView_roceDone ..
  · rfl

/-! ### The discard of a class (R243) -/

/-- One priority's part of the discard. -/
def dropPri (p k : Nat) (s : State) (pri : Nat) : State :=
  if flowPri s p pri = some k then
    ((mapGet (ethPort s p).tx pri).getD []).foldl (fun s f => udSent f s)
      (ethCount p 28 ((mapGet (ethPort s p).tx pri).getD []).length (modEth p (fun e => { e with tx := mapErase e.tx pri }) s))
  else s

theorem ganderDrop_eq (p k : Nat) (s : State) : ganderDrop p k s = (List.range 8).foldl (dropPri p k) s := rfl

theorem flowCtrl_ethCount (p i n : Nat) (s : State) :
    rgi (ethCount p i n s) Reg.GX_ETH_FC_CTRL = rgi s Reg.GX_ETH_FC_CTRL := by
  unfold ethCount
  simp only []
  split
  · rfl
  · exact (flowCtrl_raise 0 _ (by decide) (by decide)).trans rfl

theorem flowCtrl_dropPri (p k : Nat) (s : State) (pri : Nat) :
    rgi (dropPri p k s pri) Reg.GX_ETH_FC_CTRL = rgi s Reg.GX_ETH_FC_CTRL := by
  unfold dropPri
  split
  · refine (congrArg Prod.snd (foldl_keeps flowView _ (fun t f => flowView_udSent f t) _ _)).trans ?_
    exact (flowCtrl_ethCount ..).trans rfl
  · rfl

/-- A discarded priority holds no frame; the others hold what they held. -/
theorem tx_dropPri (p k : Nat) (s : State) (pri q : Nat) :
    mapGet (ethPort (dropPri p k s pri) p).tx q
      = if flowPri s p pri = some k ∧ q = pri then none else mapGet (ethPort s p).tx q := by
  unfold dropPri
  by_cases h : flowPri s p pri = some k
  · rw [if_pos h]
    obtain ⟨c, hf, hport⟩ := ethPort_ethCount p 28 ((mapGet (ethPort s p).tx pri).getD []).length
      (modEth p (fun e => { e with tx := mapErase e.tx pri }) s)
    have heth : (((mapGet (ethPort s p).tx pri).getD []).foldl (fun s f => udSent f s)
        (ethCount p 28 ((mapGet (ethPort s p).tx pri).getD []).length
          (modEth p (fun e => { e with tx := mapErase e.tx pri }) s))).eth = _ :=
      congrArg Prod.fst (foldl_keeps flowView _ (fun t f => flowView_udSent f t) _ _)
    rw [ethPort_of_eth heth, hport, ethPort_modEth_same]
    by_cases hq : q = pri
    · subst hq
      rw [if_pos ⟨h, rfl⟩]
      exact mapGet_mapErase_same _ _
    · rw [if_neg (fun hc => hq hc.2)]
      exact mapGet_mapErase_ne _ hq
  · rw [if_neg h, if_neg (fun hc => h hc.1)]

/-- After the discard no priority of the class holds a frame. -/
theorem ganderDrop_empties {p k pri : Nat} {s : State} (hp : pri < 8) (hk : flowPri s p pri = some k) :
    mapGet (ethPort (ganderDrop p k s) p).tx pri = none := by
  have hpri : ∀ t, rgi t Reg.GX_ETH_FC_CTRL = rgi s Reg.GX_ETH_FC_CTRL → flowPri t p pri = some k := by
    intro t ht
    rw [← hk]
    unfold flowPri fcMode
    rw [ht]
  rw [ganderDrop_eq]
  refine foldl_reaches (fun t => rgi t Reg.GX_ETH_FC_CTRL = rgi s Reg.GX_ETH_FC_CTRL)
    (fun t => mapGet (ethPort t p).tx pri = none) _ (fun t q ht => (flowCtrl_dropPri p k t q).trans ht) (fun t q _ hn => ?_)
    (List.mem_range.2 hp) (fun t ht => ?_) rfl
  · rw [tx_dropPri]
    split
    · rfl
    · exact hn
  · rw [tx_dropPri, if_pos ⟨hpri t ht, rfl⟩]

theorem ganderTxTrip_trips {p k : Nat} {s : State} (ho : ganderOn s p = true) (hk : k ∉ (ethPort s p).txStorm)
    (hd : detectTk s p < (mapGet (ethPort s p).stuckTk k).getD 0) :
    ganderTxTrip p k s = raise Reg.GX_ETH_EVENTS 1
      (modEth p (fun e => { e with txStorm := insertNew e.txStorm k, stuckTk := mapErase e.stuckTk k
                                   quietTk := mapErase e.quietTk k }) (ganderDrop p k s)) := by
  simp [ganderTxTrip, ho, hk, hd]

theorem ganderTxClear_clears {p k : Nat} {s : State} (hk : k ∈ (ethPort s p).txStorm)
    (hd : restoreTk s p ≤ (mapGet (ethPort s p).quietTk k).getD 0) :
    ganderTxClear p k s = raise Reg.GX_ETH_EVENTS 3
      (modEth p (fun e => { e with txStorm := e.txStorm.filter (· != k), quietTk := mapErase e.quietTk k }) s) := by
  simp [ganderTxClear, hk, hd]

theorem ganderRxTrip_trips {p k : Nat} {s : State} (ho : ganderOn s p = true) (hk : k ∉ (ethPort s p).rxStorm)
    (hd : detectTk s p < (mapGet (ethPort s p).heldTk k).getD 0) :
    ganderRxTrip p k s = raise Reg.GX_ETH_EVENTS 2
      (modEth p (fun e => { e with rxStorm := insertNew e.rxStorm k, pausedTx := e.pausedTx.filter (· != k)
                                   heldTk := mapErase e.heldTk k, lowTk := mapErase e.lowTk k }) (sendPause p k 0 s)) := by
  simp [ganderRxTrip, ho, hk, hd]

theorem ganderRxClear_clears {p k : Nat} {s : State} (hk : k ∈ (ethPort s p).rxStorm)
    (hd : restoreTk s p ≤ (mapGet (ethPort s p).lowTk k).getD 0) :
    ganderRxClear p k s = raise Reg.GX_ETH_EVENTS 3
      (modEth p (fun e => { e with rxStorm := e.rxStorm.filter (· != k), lowTk := mapErase e.lowTk k }) s) := by
  simp [ganderRxClear, hk, hd]

/-- What was sent before a count is sent after it. -/
theorem mem_out_ethCount {o : Output} {s : State} (p i n : Nat) (h : o ∈ s.out) : o ∈ (ethCount p i n s).out := by
  unfold ethCount
  simp only []
  split
  · exact h
  · obtain ⟨l, hl⟩ := raise_out Reg.GX_ETH_EVENTS 0 (modEth p (fun e => { e with half := e.half ||| (1#64 <<< i) })
      (modEth p (fun e => { e with counters := mapPut 0 e.counters i (((mapGet (ethPort s p).counters i).getD 0 + n) % 2 ^ 48) }) s))
    rw [hl]
    exact List.mem_append_left _ h

/-- The PAUSE or PFC frame of a class (R241). -/
def pauseBytes (p k quanta : Nat) (s : State) : List Byte :=
  ethHead 0x0180C2000001 (portMac s p) none 0x8808 ++
    if fcMode s p == 2 then beBytes 2 0x0101 ++ beBytes 2 (2 ^ k)
      ++ ((List.range 8).map (fun i => beBytes 2 (if i = k then quanta else 0))).flatten
    else beBytes 2 0x0001 ++ beBytes 2 quanta

theorem sendPause_sends (p k quanta : Nat) (s : State) :
    .frame p (withFcs (padFrame (pauseBytes p k quanta s))) ∈ (sendPause p k quanta s).out := by
  have hout : .frame p (withFcs (padFrame (pauseBytes p k quanta s))) ∈ (ethOut p (pauseBytes p k quanta s) s).out :=
    List.mem_append_right _ List.mem_cons_self
  have hcount := mem_out_ethCount p (if fcMode s p == 2 then 26 else 25) 1 hout
  unfold sendPause
  simp only [← pauseBytes.eq_def]
  split
  · exact hcount
  · exact mem_out_ethCount _ _ _ hcount

/-- The UDP node entry that a write of its ROUTE stores (R262). -/
def storedUnode (v : Word) (remote : BitVec 256) (failed : Bool) (s : State) : Unode :=
  let node := rgi s Reg.GX_ETH_UNODE_NODE (wfld (rg s Reg.GX_ETH_UNODE_INDEX) 7 0)
  { valid := node.getLsbD 31, node := wfld node 22 0, remote := wfld v 31 20, port := wfld v 19 15, delay := wfld v 14 0
    entry := (remoteEntry s (wfld v 31 20) remote failed).getD 0 }

/-- The state with a UDP node entry stored under a register key. -/
def unodeStored (key i : Nat) (u : Unode) (v : Word) (s : State) : State :=
  { putReg key v s with
    eth := { s.eth with unodes := mapSet s.eth.unodes i u }, cs := { s.cs with rates := mapErase s.cs.rates (65536 + i) } }

theorem unodeStored_of_empty {v : Word} {key i : Nat} {u old : Unode} {s : State} (hf : old.fill = []) :
    (let s := putReg key v s
     let s := if old.fill.isEmpty then s else flushUnode i s
     { s with eth := { s.eth with unodes := mapSet s.eth.unodes i u }
              cs := { s.cs with rates := mapErase s.cs.rates (65536 + i) } }) = unodeStored key i u v s := by
  simp only [hf, List.isEmpty_nil, if_true]
  rfl

theorem exec_unodeRouteWrite {v : Word} {remote : BitVec 256} {failed : Bool} {s : State} (hr : running s = true)
    (hf : ((mapGet s.eth.unodes (wfld (rg s Reg.GX_ETH_UNODE_INDEX) 7 0)).getD {}).fill = []) :
    exec (.unodeRouteWrite v remote failed) s = .next (unodeStored
      (regKey Reg.GX_ETH_UNODE_ROUTE (wfld (rg s Reg.GX_ETH_UNODE_INDEX) 7 0)) (wfld (rg s Reg.GX_ETH_UNODE_INDEX) 7 0)
      (storedUnode v remote failed s) v s) :=
  (next_whenOk hr).trans (congrArg _ (unodeStored_of_empty hf))

theorem regAt_unodeStored (key i : Nat) (u : Unode) (v : Word) (s : State) : regAt (unodeStored key i u v s) key = v :=
  regAt_putReg_same s key v

theorem unodeStored_frame (key i : Nat) (u : Unode) (v : Word) (s : State) : unodeStored key i u v s =
    { s with regs := (unodeStored key i u v s).regs, eth := { s.eth with unodes := (unodeStored key i u v s).eth.unodes }
             cs := { s.cs with rates := (unodeStored key i u v s).cs.rates } } := rfl

/-- Settles O44, clause by clause. -/
theorem ganderCountersAndNodes : Obligations.GanderCountersAndNodes := by
  unfold Obligations.GanderCountersAndNodes
  refine ⟨fun p k s hr he ho hk hd => ?_, fun p k s hr he hk hd => ?_, fun p k s hr he ho hk hd => ?_, fun p k s hr he hk hd => ?_,
    fun p i s hr hi => ?_, fun v remote failed i s hr hi hf => ?_⟩
  · refine ⟨_, next_whenOk (by rw [hr, he]; rfl), ?_⟩
    rw [ganderTxTrip_trips ho hk hd, ethPort_raise, ethPort_modEth_same]
    exact ⟨mem_insertNew.2 (.inr rfl), raise_sets _ _ 1 (by decide), fun pri hp hpri => ganderDrop_empties hp hpri⟩
  · refine ⟨_, next_whenOk (by rw [hr, he]; rfl), ?_⟩
    rw [ganderTxClear_clears hk hd, ethPort_raise, ethPort_modEth_same, raise_eth]
    exact ⟨by simp, raise_sets _ _ 3 (by decide), raise_eventsOnly _ _ 3⟩
  · refine ⟨_, withFcs (padFrame (pauseBytes p k 0 s)), next_whenOk (by rw [hr, he]; rfl), ?_⟩
    rw [ganderRxTrip_trips ho hk hd, ethPort_raise, ethPort_modEth_same]
    refine ⟨mem_insertNew.2 (.inr rfl), by simp, ?_, raise_sets _ _ 2 (by decide)⟩
    obtain ⟨l, hl⟩ := raise_out Reg.GX_ETH_EVENTS 2 (modEth p (fun e => { e with
      rxStorm := insertNew e.rxStorm k, pausedTx := e.pausedTx.filter (· != k), heldTk := mapErase e.heldTk k
      lowTk := mapErase e.lowTk k }) (sendPause p k 0 s))
    rw [hl]
    exact List.mem_append_left _ (sendPause_sends p k 0 s)
  · refine ⟨_, next_whenOk (by rw [hr, he]; rfl), ?_⟩
    rw [ganderRxClear_clears hk hd, ethPort_raise, ethPort_modEth_same, raise_eth]
    exact ⟨by simp, raise_sets _ _ 3 (by decide), raise_eventsOnly _ _ 3⟩
  · have hport := ethPort_modEth_same p (fun e => { e with
      latches := mapPut 0 e.latches i ((mapGet (ethPort s p).counters i).getD 0 / 2 ^ 32) }) s
    refine ⟨_, next_whenOk (by simp [hr, hi]), rfl, ?_, (congrArg EthPort.counters hport :), rfl⟩
    exact (congrArg (fun e => (mapGet e.latches i).getD 0) hport :).trans (getD_mapPut_same _ _ _ _)
  · subst hi
    exact ⟨_, storedUnode v remote failed s, exec_unodeRouteWrite hr hf, mapGet_mapSet_same _ _ _, rfl, rfl, rfl, rfl, rfl,
      regAt_unodeStored .., mapGet_mapErase_same _ _, fun j hj => mapGet_mapSet_ne _ _ hj, unodeStored_frame ..⟩

end Sys2Proof.Machine
end

section
/-! PROOFS. Scheduling cells and gate lists (R266 to R283): a cell's bytes pass the check-value units first, which change
nothing the scheduling block looks at; what a REQUEST, a GRANT and a CNP leave; the entry of a gate list. -/

namespace Sys2Proof.Machine

/-! ### The watching check-value units leave every other register -/

theorem rg_cvBoundary (u : Nat) (s : State) {k : Nat} (h : k ≠ Reg.GX_CV_DONE) : regAt (cvBoundary u s) k = regAt s k := by
  unfold cvBoundary
  split
  · rfl
  · exact regAt_raise_ne _ u h
  · rfl

theorem rg_stream (src idx : Nat) (retx begins : Bool) (bs : List Byte) (s : State) {k : Nat} (h : k ≠ Reg.GX_CV_DONE) :
    regAt (stream src idx retx begins bs s) k = regAt s k := by
  refine foldl_keeps (fun t : State => regAt t k) _ (fun t u => ?_) _ s
  split
  · extract_lets t1 c p
    have hbegin : regAt t1 k = regAt t k := by
      simp only [t1]
      split
      · exact rg_cvBoundary u t h
      · rfl
    split
    · exact hbegin
    · exact hbegin
  · rfl

/-- A search finds the same where its test is the same on every item. -/
theorem find?_same {α : Type} {p q : α → Bool} {l : List α} (h : ∀ x ∈ l, p x = q x) : l.find? p = l.find? q := by
  induction l with
  | nil => rfl
  | cons a t ih => rw [List.find?_cons, List.find?_cons, h a List.mem_cons_self, ih fun x hx => h x (List.mem_cons_of_mem _ hx)]

theorem nodeSlot_stream (src idx : Nat) (retx begins : Bool) (bs : List Byte) (s : State) (n : Nat) :
    nodeSlot (stream src idx retx begins bs s) n = nodeSlot s n := by
  have hlz : (stream src idx retx begins bs s).lz = s.lz := (congrArg State.lz (beyondStream_stream src idx retx begins bs s) :)
  refine find?_same fun k hk => ?_
  have hk8 : k < 8 := List.mem_range.mp hk
  have hne : Reg.GX_XL_NODE_ID + 4 * k ≠ Reg.GX_CV_DONE := by
    show 0x30010 + 4 * k ≠ 0xe0004
    omega
  rw [slotNode, slotNode, rg, rg_stream src idx retx begins bs s hne, hlz]

theorem slotCheck_stream (src idx : Nat) (retx begins : Bool) (bs : List Byte) (s : State) (h : Hdr) :
    slotCheck (stream src idx retx begins bs s) h = slotCheck s h := by
  have hcf : (stream src idx retx begins bs s).cf = s.cf := (congrArg State.cf (beyondStream_stream src idx retx begins bs s) :)
  rw [slotCheck, slotCheck, nodeSlot_stream, fenceOf, fenceOf, hcf]

/-! ### What a scheduling cell does -/

/-- What a sound cell of a scheduling type does. -/
def schedTaken (ty : Nat) (h : Hdr) (b : List Byte) (s : State) : State :=
  match ty with
  | 0 => poolRequest h (h.dqpn * 65536 + h.msn) b s
  | 1 => takeGrant (h.dqpn * 65536 + h.msn) b s
  | _ => takeCellCnp h.srcNode s

theorem takeSched_sound {hdr : BitVec 96} {pay : BitVec 512} {s : State} (hc : slotCheck s (readHdr hdr) = 0)
    (hb : schedBad (readHdr hdr).kind pay = false) :
    takeSched hdr pay s = schedTaken (readHdr hdr).kind (readHdr hdr) (payBytes pay) s := by
  unfold takeSched
  extract_lets h why tick
  rw [if_neg (not_not_intro hc), if_neg (by rw [hb]; exact Bool.false_ne_true)]
  rfl

/-- The state in which a sound cell acts: its bytes have passed the watching check-value units. -/
theorem receiveSched_sound {port ty : Nat} {hdr : BitVec 96} {pay : BitVec 512} {s : State} (hf : (readHdr hdr).form = 3)
    (hk : (readHdr hdr).kind = ty) (hc : slotCheck s (readHdr hdr) = 0) (hb : schedBad ty pay = false) :
    ∃ u, receiveSched ty port hdr pay s = schedTaken ty (readHdr hdr) (payBytes pay) u ∧ beyondStream u = beyondStream s ∧
      ∀ k, k ≠ Reg.GX_CV_DONE → regAt u k = regAt s k := by
  refine ⟨stream cvPortRx port false true (slotBytes hdr pay) s, ?_, beyondStream_stream _ _ _ _ _ s,
    fun k hne => rg_stream _ _ _ _ _ s hne⟩
  have hcheck := (slotCheck_stream cvPortRx port false true (slotBytes hdr pay) s (readHdr hdr)).trans hc
  unfold receiveSched
  extract_lets h
  rw [if_neg (show ¬ (h.form ≠ 3 ∨ h.kind < 3 ∧ h.kind ≠ ty) from fun hor => hor.elim (fun h3 => h3 hf) (fun h2 => h2.2 hk))]
  exact (takeSched_sound hcheck (by rw [hk]; exact hb)).trans (by rw [hk])

/-- The request that a REQUEST cell makes. -/
def requestOf (h : Hdr) (tick : Nat) (b : List Byte) : Request := ⟨h.srcNode, h.srcUnit, h.dstNode, tick, leAt b 0 8, leAt b 16 1⟩

/-- The state with a request's demand in the sum. -/
def demanded (h : Hdr) (tick : Nat) (b : List Byte) (s : State) : State :=
  { s with cs := { s.cs with demandSum := s.cs.demandSum + (requestOf h tick b).demand } }

/-- Whether a pooled request is of the cell's pair of units. -/
def samePair (h : Hdr) (x : Request) : Bool := x.node == h.srcNode && x.unit == h.srcUnit && x.dst == h.dstNode

theorem samePair_find?_none {h : Hdr} {pool : List Request}
    (hnew : ∀ x ∈ pool, x.node = h.srcNode → x.unit = h.srcUnit → x.dst ≠ h.dstNode) : pool.find? (samePair h) = none := by
  refine List.find?_eq_none.mpr fun x hx hsame => ?_
  simp only [samePair, Bool.and_eq_true, beq_iff_eq] at hsame
  exact hnew x hx hsame.1.1 hsame.1.2 hsame.2

theorem poolRequest_new {h : Hdr} {tick : Nat} {b : List Byte} {s : State} (hfind : s.cs.pool.find? (samePair h) = none) :
    poolRequest h tick b s =
      if s.cs.pool.length < 4096 then
        { demanded h tick b s with cs := { (demanded h tick b s).cs with pool := s.cs.pool ++ [requestOf h tick b] } }
      else raise Reg.GX_CS_EVENTS 0 (bump Reg.GX_CS_REQ_DROP_CNT (demanded h tick b s)) := by
  unfold poolRequest
  extract_lets r _ s1 same
  rw [show s1.cs.pool.find? same = none from hfind]
  rfl

theorem demandSum_poolRequest_new {h : Hdr} {tick : Nat} {b : List Byte} {s : State} (hfind : s.cs.pool.find? (samePair h) = none)
    (hlen : s.cs.pool.length < 4096) : (poolRequest h tick b s).cs.demandSum = s.cs.demandSum + leAt b 0 8 := by
  rw [poolRequest_new hfind, if_pos hlen]
  rfl

theorem poolRequest_full {h : Hdr} {tick : Nat} {b : List Byte} {s : State} (hfind : s.cs.pool.find? (samePair h) = none)
    (hlen : ¬ s.cs.pool.length < 4096) :
    (poolRequest h tick b s).cs.pool = s.cs.pool ∧ counted s (poolRequest h tick b s) Reg.GX_CS_REQ_DROP_CNT 1 ∧
      (rg (poolRequest h tick b s) Reg.GX_CS_EVENTS).getLsbD 0 = true := by
  rw [poolRequest_new hfind, if_neg hlen]
  refine ⟨?_, ?_, raise_sets _ _ _ (by decide)⟩
  · rw [raise_cs]
    rfl
  · exact counted_raise _ _ (counted_from (counted_bump _ (demanded h tick b s)) rfl) (by decide)

theorem poolRequest_again {h : Hdr} {tick : Nat} {b : List Byte} {x : Request} {s : State}
    (hpool : s.cs.pool = [x]) (hsame : samePair h x = true) :
    (poolRequest h tick b s).cs.pool = [if x.tick < tick then requestOf h tick b else x] := by
  have hfind : s.cs.pool.find? (samePair h) = some x := by rw [hpool, List.find?_cons_of_pos hsame]
  unfold poolRequest
  extract_lets r _ s1 same
  rw [show s1.cs.pool.find? same = some x from hfind]
  have hmap : s1.cs.pool.map (fun y => if same y then r else y) = [r] := by
    rw [show s1.cs.pool = [x] from hpool, List.map_singleton, if_pos (show same x = true from hsame)]
  simp only []
  split
  · exact hmap
  · exact hpool

theorem takeGrant_newer {tick : Nat} {b : List Byte} {s : State}
    (hg : ∀ g, mapGet s.cs.grants (leAt b 12 4) = some g → g.1 ≤ tick) :
    takeGrant tick b s = { s with cs := { s.cs with grants := mapSet s.cs.grants (leAt b 12 4) (tick, leAt b 0 8) } } := by
  unfold takeGrant
  refine if_neg fun hany => ?_
  rcases hold : mapGet s.cs.grants (leAt b 12 4) with _ | g
  · rw [hold] at hany
    exact Bool.false_ne_true hany
  · rw [hold] at hany
    exact absurd (of_decide_eq_true hany) (Nat.not_lt.mpr (hg g hold))

/-- The state with everything of it but its rate controllers. -/
def beyondRates (s : State) : State := { s with cs := { s.cs with rates := [] } }

/-- The rate controller of a UDP node entry is marked. -/
def cnpMarked (key : Nat) (s : State) : Prop := (mapGet s.cs.rates key).map (·.cnp) = some true

theorem cnpMarked_markCnp_same (key port : Nat) (s : State) : cnpMarked key (markCnp key port s) := by
  unfold cnpMarked markCnp
  rw [mapGet_mapSet_same]
  rfl

theorem cnpMarked_markCnp {key j port : Nat} {s : State} (h : cnpMarked key s) : cnpMarked key (markCnp j port s) := by
  by_cases hj : key = j
  · rw [hj]
    exact cnpMarked_markCnp_same j port s
  · unfold cnpMarked markCnp
    rw [mapGet_mapSet_ne _ _ hj]
    exact h

theorem takeCellCnp_beyondRates (node : Nat) (s : State) :
    beyondRates (takeCellCnp node s) = beyondRates (bump Reg.GX_CS_CELL_CNP_RX_CNT s) :=
  foldl_keeps beyondRates (fun (s : State) (e : Nat × Unode) => markCnp (65536 + e.1) e.2.port s) (fun _ _ => rfl) _ _

theorem takeCellCnp_marks {node : Nat} {e : Nat × Unode} {s : State} (he : e ∈ unodesOf s node) :
    cnpMarked (65536 + e.1) (takeCellCnp node s) :=
  foldl_reaches (fun _ => True) (cnpMarked (65536 + e.1)) (fun (s : State) (e : Nat × Unode) => markCnp (65536 + e.1) e.2.port s) (fun _ _ _ => trivial)
    (fun _ _ _ h => cnpMarked_markCnp h) he (fun t _ => cnpMarked_markCnp_same (65536 + e.1) e.2.port t) trivial

/-! ### Gate lists -/

theorem gclOf_updGcl_same (p : Nat) (f : GclState → GclState) (s : State) : gclOf (updGcl p f s) p = f (gclOf s p) := by
  rw [gclOf, updGcl, mapGet_mapSet_same]
  rfl

theorem gclOf_updGcl_ne {p j : Nat} (f : GclState → GclState) (s : State) (h : j ≠ p) : gclOf (updGcl p f s) j = gclOf s j := by
  rw [gclOf, updGcl, mapGet_mapSet_ne _ _ h]
  rfl

theorem gclOf_raise (off bit p : Nat) (s : State) : gclOf (raise off bit s) p = gclOf s p := by
  rw [gclOf, gclOf, show (raise off bit s).cs = s.cs from raise_cs _ off bit]

theorem gclAdvance_next {port : Nat} {a b : List (Nat × Nat × Nat)} {e e' : Nat × Nat × Nat} {s : State}
    (hspans : gateSpans s (gclOf s port).run = a ++ e :: e' :: b) (ha : ∀ x ∈ a, x.1 ≠ e.1) (he : (gclOf s port).entry = e.1) :
    gclAdvance port s = updGcl port (fun g => { g with entry := e'.1 }) s := by
  have hdrop : (a ++ e :: e' :: b).dropWhile (fun x => x.1 != e.1) = e :: e' :: b := by
    rw [List.dropWhile_append_of_pos (fun x hx => bne_iff_ne.mpr (ha x hx)),
      List.dropWhile_cons_of_neg (by simp only [bne_self_eq_false, Bool.false_eq_true, not_false_eq_true])]
  unfold gclAdvance
  extract_lets g spans
  have hhead : ((spans.dropWhile (fun x => x.1 != g.entry)).drop 1).head? = some e' := by
    rw [show spans = a ++ e :: e' :: b from hspans, show g.entry = e.1 from he, hdrop]
    rfl
  rw [hhead]

theorem gclSwitch_waiting {port : Nat} {n : GateList} {s : State} (hn : (gclOf s port).next = some n) :
    gclSwitch port s = raise Reg.GX_CS_EVENTS 2 (updGcl port
      (fun _ => { run := n, entry := entryAt (gateSpans s n) (listPos s n 0), next := none }) s) := by
  unfold gclSwitch
  rw [hn]

/-- Settles O45: a scheduling cell's bytes pass the watching check-value units, which leave the scheduling block, the
node identities and the fence table; a gate list's spans name its next entry. -/
theorem schedulingCellsAndGateLists : Obligations.SchedulingCellsAndGateLists := by
  unfold Obligations.SchedulingCellsAndGateLists
  refine ⟨?_, ?_, ?_, ?_, ?_, ?_, ?_⟩
  · intro port hdr pay s hin hf hk hc hb hlen hnew
    obtain ⟨u, hu, hkeep, -⟩ := receiveSched_sound (port := port) hf hk hc hb
    have hcs : u.cs = s.cs := (congrArg State.cs hkeep :)
    refine ⟨_, next_whenOk hin, ?_⟩
    have hfind : u.cs.pool.find? (samePair (readHdr hdr)) = none := by rw [hcs]; exact samePair_find?_none hnew
    have hroom : u.cs.pool.length < 4096 := by rw [hcs]; exact hlen
    rw [hu, schedTaken, demandSum_poolRequest_new hfind hroom, hcs, poolRequest_new hfind, if_pos hroom]
    exact ⟨congrArg (fun c => c.pool ++ _) hcs, rfl, (congrArg State.mem hkeep :), (congrArg State.tp hkeep :), (congrArg State.q hkeep :)⟩
  · intro port hdr pay x s hin hf hk hc hb hpool hnode hunit hdst
    obtain ⟨u, hu, hkeep, -⟩ := receiveSched_sound (port := port) hf hk hc hb
    have hcs : u.cs = s.cs := (congrArg State.cs hkeep :)
    refine ⟨_, next_whenOk hin, ?_⟩
    rw [hu, schedTaken, poolRequest_again (by rw [hcs]; exact hpool) (by simp [samePair, hnode, hunit, hdst]), requestOf, hnode,
      hunit, hdst]
  · intro port hdr pay s hin hf hk hc hb hlen hnew
    obtain ⟨u, hu, hkeep, hreg⟩ := receiveSched_sound (port := port) hf hk hc hb
    have hcs : u.cs = s.cs := (congrArg State.cs hkeep :)
    refine ⟨_, next_whenOk hin, ?_⟩
    obtain ⟨hpool, hcount, hevent⟩ := poolRequest_full (tick := (readHdr hdr).dqpn * 65536 + (readHdr hdr).msn) (b := payBytes pay)
      (s := u) (by rw [hcs]; exact samePair_find?_none hnew) (by rw [hcs]; exact Nat.not_lt.mpr hlen)
    rw [hu, schedTaken]
    exact ⟨by rw [hpool, hcs], counted_from hcount (hreg _ (by decide)), hevent⟩
  · intro port hdr pay s hin hf hk hc hb hg
    obtain ⟨u, hu, hkeep, -⟩ := receiveSched_sound (port := port) hf hk hc hb
    have hcs : u.cs = s.cs := (congrArg State.cs hkeep :)
    refine ⟨_, next_whenOk hin, ?_⟩
    rw [hu, schedTaken, takeGrant_newer (by rw [hcs]; exact hg)]
    refine ⟨mapGet_mapSet_same _ _ _, fun n hn => ?_, ?_,
      (congrArg State.mem hkeep :), (congrArg State.tp hkeep :), (congrArg State.q hkeep :)⟩
    · simp only [mapGet_mapSet_ne _ _ hn, hcs]
    · simp only [hcs]
  · intro port hdr pay s hin hf hk hc hb
    obtain ⟨u, hu, hkeep, hreg⟩ := receiveSched_sound (port := port) hf hk hc hb
    have hmark := takeCellCnp_beyondRates (readHdr hdr).srcNode u
    refine ⟨_, next_whenOk hin, ?_⟩
    rw [hu, schedTaken]
    · refine ⟨?_, fun e he => takeCellCnp_marks ?_, ?_, ?_, ?_, ?_⟩
      · exact counted_of_rg (counted_from (counted_bump _ u) (hreg _ (by decide)))
          (congrArg (fun t => rg t Reg.GX_CS_CELL_CNP_RX_CNT) hmark :)
      · rw [unodesOf, show u.eth = s.eth from (congrArg State.eth hkeep :)]
        exact he
      · have h := congrArg (fun t => { t.cs with rates := (takeCellCnp (readHdr hdr).srcNode u).cs.rates }) hmark
        exact (h :).trans (congrArg (fun c => { c with rates := (takeCellCnp (readHdr hdr).srcNode u).cs.rates })
          (congrArg State.cs hkeep :))
      · exact (congrArg State.mem hmark :).trans (congrArg State.mem hkeep :)
      · exact (congrArg State.tp hmark :).trans (congrArg State.tp hkeep :)
      · exact (congrArg State.q hmark :).trans (congrArg State.q hkeep :)
    · decide
    · decide
  · intro port a b e e' s hr hp hen hspans ha he
    refine ⟨_, next_whenOk (by rw [hr, hp, hen]; rfl), ?_⟩
    rw [gclAdvance_next hspans ha he]
    exact ⟨gclOf_updGcl_same _ _ _, fun j hj => gclOf_updGcl_ne _ s hj, rfl⟩
  · intro port n s hr hp hn hcompat hstart
    have hgo : (gclOf s port).next.any (fun n => n.compat || gclStart s n) = true := by
      rw [hn, Option.any_some, gclStart, hcompat]
      simp [hstart]
    refine ⟨_, next_whenOk (by rw [hr, hp, hgo]; rfl), ?_⟩
    rw [gclSwitch_waiting hn]
    refine ⟨?_, ?_, raise_sets _ _ _ (by decide), fun j hj => ?_, ?_⟩
    · rw [gclOf_raise, gclOf_updGcl_same]
    · rw [gclOf_raise, gclOf_updGcl_same]
    · rw [gclOf_raise, gclOf_updGcl_ne _ _ hj]
    · rw [raise_cs]
      exact raise_eventsOnly _ _ _

end Sys2Proof.Machine
end

section
/-! PROOFS. The tick counter at an edge (R27, R29): what follows the alignment keeps the count. -/

namespace Sys2Proof.Machine

theorem takeEstimate_free (k : TickState) : (takeEstimate k).align = k.align ∧ (takeEstimate k).count = k.count := by
  unfold takeEstimate
  extract_lets est _ _ _
  cases est with
  | none => exact ⟨rfl, rfl⟩
  | some o => exact ⟨rfl, rfl⟩

theorem alignEdge_free_count {s : State} (h : s.tick.align = .free) : (alignEdge s).tick.count = s.tick.count + 1 := by
  obtain ⟨halign, hcount⟩ := takeEstimate_free s.tick
  unfold alignEdge
  extract_lets hadInput s1 o next s2
  rw [show s1.tick.align = .free from halign.trans h]
  exact congrArg (· + 1) hcount

theorem wipeEdge_beyond (s : State) : { wipeEdge s with mem := s.mem } = s ∧ (wipeEdge s).mem.bytes = s.mem.bytes ∧
    (wipeEdge s).mem.stores = s.mem.stores := by
  unfold wipeEdge
  split
  · exact ⟨rfl, rfl, rfl⟩
  · exact ⟨rfl, rfl, rfl⟩

/-- The edge of an adapter that has not booted: the wipe goes on and the counter counts. -/
theorem tickEdge_unbooted {reads : NMap (BitVec 128)} {overruns : List (Nat × Nat)} {s : State} (h : s.fw.boot ≠ .ready) :
    tickEdge reads overruns s =
      emit (.tickOut (s.tick.count + 1)) (beginTick (s.tick.count + 1) 0 (wipeEdge s)) := by
  obtain ⟨hkeep, -, -⟩ := wipeEdge_beyond s
  have hfw : (wipeEdge s).fw = s.fw := (congrArg State.fw hkeep :)
  have htick : (wipeEdge s).tick = s.tick := (congrArg State.tick hkeep :)
  unfold tickEdge
  extract_lets s1 s2 map s3 s4 s5
  rw [if_pos (by rw [show s1.fw = s.fw from hfw]; exact bne_iff_ne.mpr h)]
  show emit (.tickOut (s1.tick.count + 1)) (beginTick (s1.tick.count + 1) 0 s1) = _
  rw [show s1.tick = s.tick from htick]

/-- On a running adapter everything behind the alignment keeps the count. -/
theorem tickEdge_ready_count {reads : NMap (BitVec 128)} {overruns : List (Nat × Nat)} {s : State} (h : s.fw.boot = .ready) :
    (tickEdge reads overruns s).tick.count = (alignEdge (latchTelemetry (wipeEdge s))).tick.count := by
  have hfw : (wipeEdge s).fw = s.fw := (congrArg State.fw (wipeEdge_beyond s).1 :)
  unfold tickEdge
  extract_lets s1 s2 map s3 s4 s5
  rw [if_neg (by rw [show s1.fw = s.fw from hfw, h]; decide)]
  have h4 : Keeps s3 s4 := keeps_liveEdge (keeps_emit (Keeps.refl s3))
  have h5 : Keeps s3 s5 := keeps_fwResume (keeps_joinEdge (keeps_mapEdge h4))
  exact (Keeps.ite h4 (Keeps.whenOk h5 (fun _ h6 => keeps_workEdge h6))).count

/-- Settles O10: before READY the edge is the wipe and the counter; on a running adapter the alignment in FREE counts by one and what follows keeps it. -/
theorem tickEdgeCounts : Obligations.TickEdgeCounts := by
  unfold Obligations.TickEdgeCounts
  refine ⟨?_, ?_⟩
  · intro reads overruns s hp hc hb
    obtain ⟨hkeep, hbytes, hstores⟩ := wipeEdge_beyond s
    refine ⟨_, next_whenOk (by rw [hp, hc]; rfl), ?_⟩
    rw [tickEdge_unbooted hb]
    refine ⟨rfl, ?_, ?_, hbytes, hstores⟩
    · exact congrArg (· ++ _) (congrArg State.out hkeep :)
    · exact (congrArg (fun t : State => { t with
        tick := (beginTick (s.tick.count + 1) 0 (wipeEdge s)).tick, mem := (wipeEdge s).mem
        out := (wipeEdge s).out ++ [Output.tickOut (s.tick.count + 1)] }) hkeep :)
  · intro reads overruns s hp hc hb hfree
    have htick : (wipeEdge s).tick = s.tick := (congrArg State.tick (wipeEdge_beyond s).1 :)
    refine ⟨_, next_whenOk (by rw [hp, hc]; rfl), ?_⟩
    rw [tickEdge_ready_count hb, alignEdge_free_count (s := latchTelemetry (wipeEdge s)) ((congrArg TickState.align htick :).trans hfree)]
    exact congrArg (fun k : TickState => k.count + 1) htick

end Sys2Proof.Machine
end

section
/-! PROOFS. Queue pairs are made, changed and freed (R162 to R165). -/

namespace Sys2Proof.Machine

/-! ### What goes with a queue pair's records -/

theorem releaseUses_beyond (us : List Nat) (s : State) : { releaseUses us s with xl := s.xl } = s :=
  foldl_keeps (fun t : State => { t with xl := s.xl }) (fun t u => l2Release u t) (fun _ _ => rfl) us s

/-- All but the address translation and the three lists of records. -/
def beyondRecords (s : State) : State := { s with xl := {}, tp := { s.tp with msgs := [], recs := [], resps := [] } }

theorem beyondRecords_dropRecords (qpn : Nat) (s : State) : beyondRecords (dropRecords qpn s) = beyondRecords s :=
  foldl_keeps beyondRecords (fun (t : State) (e : Nat × RxRec) => releaseUses e.2.uses t)
    (fun t e => (congrArg beyondRecords (releaseUses_beyond e.2.uses t) :)) _ s

theorem dropRecords_none (qpn : Nat) (s : State) :
    (∀ e ∈ (dropRecords qpn s).tp.recs, e.2.qpn ≠ qpn) ∧ (∀ e ∈ (dropRecords qpn s).tp.msgs, e.2.qpn ≠ qpn) := by
  unfold dropRecords
  exact ⟨fun e he => bne_iff_ne.mp (List.mem_filter.mp he).2, fun e he => bne_iff_ne.mp (List.mem_filter.mp he).2⟩

theorem qpOf_dropRecords (qpn n : Nat) (s : State) : qpOf (dropRecords qpn s) n = qpOf s n :=
  (congrArg (fun t : State => mapGet t.tp.qps n) (beyondRecords_dropRecords qpn s) :)

theorem q_dropRecords (qpn : Nat) (s : State) : (dropRecords qpn s).q = s.q := (congrArg State.q (beyondRecords_dropRecords qpn s) :)

/-! ### Creation, the changes, and the end -/

theorem qpCreate_refused {slot : Nat} {o : Op} {given : BitVec 256} {failed : Bool} {s : State} (hm : mgmtOp s slot 0x13 = some o)
    (hr : qpRefused s (entryQpn o.entry) (qpBody o.entry) = true) : qpCreate slot given failed s = mgmtDone slot stAborted s := by
  unfold qpCreate
  rw [hm]
  simp only []
  rw [if_pos (by rw [hr]; rfl)]

theorem qpCreate_made {slot : Nat} {o : Op} {given : BitVec 256} {failed : Bool} {s : State} (hm : mgmtOp s slot 0x13 = some o)
    (hr : qpRefused s (entryQpn o.entry) (qpBody o.entry) = false) (hroce : isRoce (qpBody o.entry) = false)
    (hquota : qpCount s (qpBody o.entry).inst < wfld (rgi s Reg.GX_VI_QUOTA_QPS (qpBody o.entry).inst) 16 0) :
    qpCreate slot given failed s =
      mgmtDone slot stOk { s with tp := { s.tp with qps := mapSet s.tp.qps (entryQpn o.entry) (qpBody o.entry) } } := by
  unfold qpCreate
  rw [hm]
  simp only []
  rw [if_neg (by rw [hr, roceRefused, hroce]; exact Bool.false_ne_true), if_neg (Nat.not_le.mpr hquota), withRemote,
    if_neg (by rw [hroce]; exact Bool.false_ne_true), if_neg (by rw [hroce]; exact Bool.false_ne_true), hroce]
  rfl

theorem qpModify_of {action slot : Nat} {f : Nat → Qp → Qp → State → State} {o : Op} {q : Qp} {s : State}
    (hm : mgmtOp s slot 0x14 = some o) (ha : ef o.entry 16 1 = action) (hq : qpOf s (entryQpn o.entry) = some q)
    (hh : q.herd = none) : qpModify action slot f s = f (entryQpn o.entry) q (qpBody o.entry) s := by
  unfold qpModify
  rw [hm]
  simp only []
  rw [if_neg (not_not_intro ha), hq]
  simp only []
  rw [if_neg (by rw [hh]; exact Bool.false_ne_true)]

theorem qpDestroy_idle {slot : Nat} {o : Op} {q : Qp} {s : State} (hm : mgmtOp s slot 0x15 = some o)
    (hq : qpOf s (entryQpn o.entry) = some q) (hh : q.herd = none) (hb : qpBusy s (entryQpn o.entry) q = false) :
    qpDestroy slot s = mgmtDone slot stOk (freeQp (entryQpn o.entry) s) := by
  unfold qpDestroy
  rw [hm]
  simp only []
  rw [hq]
  simp only []
  rw [if_neg (by rw [hh, hb]; exact Bool.false_ne_true)]

theorem freeQp_frees {qpn : Nat} {q : Qp} {s : State} (hq : qpOf s qpn = some q) :
    qpOf (freeQp qpn s) qpn = none ∧ (∀ n, n ≠ qpn → qpOf (freeQp qpn s) n = qpOf s n) ∧ (freeQp qpn s).q = s.q := by
  have hqp := fun n => qpOf_dropRecords qpn n s
  have hqq := q_dropRecords qpn s
  unfold freeQp
  rw [hq]
  simp only []
  refine ⟨mapGet_mapErase_same _ _, fun n hn => (mapGet_mapErase_ne _ hn).trans ?_, ?_⟩
  · split
    · exact hqp n
    · exact hqp n
  · split
    · exact hqq
    · exact hqq

/-! ### The ERROR of a queue pair leaves ring 0 -/

theorem mapErase_subset {α : Type} (m : NMap α) (k : Nat) : ∀ e ∈ mapErase m k, e ∈ m := fun _ he => (List.mem_filter.mp he).1

theorem mapGet_mem {α : Type} {m : NMap α} {k : Nat} {v : α} (h : mapGet m k = some v) : (k, v) ∈ m := by
  induction m with
  | nil => exact absurd h (by simp [mapGet])
  | cons e t ih =>
    unfold mapGet at h
    split at h
    · rename_i hk
      rw [← Option.some.inj h, ← hk]
      exact List.mem_cons_self
    · exact List.mem_cons_of_mem e (ih h)

/-- Ring 0 is as in s, no run stands on it, and the contexts are as in u. -/
def ringZeroKept (s u t : State) : Prop :=
  ringOf t 0 = ringOf s 0 ∧ (∀ e ∈ t.tp.runs, e.2.ring ≠ 0) ∧ t.tp.qps = u.tp.qps

theorem ringZeroKept_finishOp {s u t : State} {r slot : Nat} {c : Completion} (h : ringZeroKept s u t) (hr : r ≠ 0) :
    ringZeroKept s u (finishOp r slot c t) := by
  obtain ⟨hring, hruns, hqps⟩ := h
  exact ⟨(ringOf_updRing_ne t _ hr.symm).trans hring, hruns, hqps⟩

theorem ringZeroKept_removeRun {s u t : State} {key : Nat} (h : ringZeroKept s u t) : ringZeroKept s u (removeRun key t) := by
  obtain ⟨hring, hruns, hqps⟩ := h
  unfold removeRun
  split
  · exact ⟨hring, hruns, hqps⟩
  · extract_lets t1 t2
    rename_i r hr
    have hrel : { t1 with xl := t.xl } = t := releaseUses_beyond _ t
    have hq : t1.q = t.q := (congrArg State.q hrel :)
    have htp : t1.tp = t.tp := (congrArg State.tp hrel :)
    refine ⟨?_, fun e he => ?_, ?_⟩
    · exact (congrArg (fun x : QueueState => mapGet x.rings 0) hq).trans hring
    · have he' : e ∈ mapErase t1.tp.runs key := he
      rw [htp] at he'
      exact hruns e (mapErase_subset _ _ e he')
    · exact (congrArg TpState.qps htp).trans hqps

theorem ringZeroKept_completeQpOps {qpn status : Nat} {keep : Nat → Bool} {s : State} {q : Qp} (hq : qpOf s qpn = some q)
    (hsq : q.sq ≠ 0) (hruns : ∀ e ∈ s.tp.runs, e.2.ring ≠ 0) : ringZeroKept s s (completeQpOps qpn status keep s) := by
  have hsq0 : ((qpOf s qpn).map (·.sq)).getD 0 ≠ 0 := by rw [hq]; exact hsq
  unfold completeQpOps
  extract_lets sq s1
  have h1 : ringZeroKept s s s1 := by
    refine foldl_maintains (fun t : State => ringZeroKept s s t) _ (fun t k ht => ?_) _ s ⟨rfl, hruns, rfl⟩
    split
    · exact ht
    · rename_i r hr
      split
      · exact ht
      · exact ringZeroKept_removeRun (ringZeroKept_finishOp ht (ht.2.1 _ (mapGet_mem hr)))
  refine foldl_maintains (fun t : State => ringZeroKept s s t) _ (fun t slot ht => ?_) _ s1 h1
  split
  · exact ht
  · exact ringZeroKept_finishOp ht hsq0

/-- What the ERROR of a queue pair ends and frees. -/
def errorEnds (qpn : Nat) (s : State) : State :=
  dropRecords qpn (dropRecvs qpn stRetryExceeded (completeQpOps qpn stRetryExceeded (fun _ => false)
    (updQp qpn (fun q => { q with state := .error }) s)))

theorem qpError_of_ready {qpn : Nat} {q : Qp} {s : State} (hq : qpOf s qpn = some q) (hst : q.state ≠ .error) :
    qpError qpn s = breakHerd qpn (raise Reg.GX_TP_EVENTS 0 (errorEnds qpn s)) := by
  unfold qpError
  rw [hq]
  simp only []
  rw [if_neg hst]
  rfl

theorem breakHerd_outside {qpn : Nat} {q : Qp} {s : State} (hq : qpOf s qpn = some q) (hh : q.herd = none) : breakHerd qpn s = s := by
  unfold breakHerd
  rw [hq, Option.bind_some, hh]

theorem errorEnds_ready {qpn : Nat} {q : Qp} {s : State} (hq : qpOf s qpn = some q) (hsq : q.sq ≠ 0) (hrecv : q.recvs = [])
    (hruns : ∀ e ∈ s.tp.runs, e.2.ring ≠ 0) :
    ringOf (errorEnds qpn s) 0 = ringOf s 0 ∧ qpOf (errorEnds qpn s) qpn = some { q with state := .error } := by
  have hq1 : qpOf (updQp qpn (fun q => { q with state := .error }) s) qpn = some { q with state := .error } := by
    rw [qpOf_updQp, if_pos rfl, hq]
    rfl
  obtain ⟨hring2, -, hqps2⟩ := ringZeroKept_completeQpOps (status := stRetryExceeded) (keep := fun _ => false) hq1 hsq hruns
  have hq2 := (congrArg (mapGet · qpn) hqps2).trans hq1
  unfold errorEnds
  rw [qpOf_dropRecords, ringOf, q_dropRecords, dropRecvs, show qpOf (completeQpOps _ _ _ _) qpn = _ from hq2]
  simp only [hrecv, List.foldl_nil]
  refine ⟨hring2, ?_⟩
  rw [qpOf_updQp, if_pos rfl, show qpOf (completeQpOps _ _ _ _) qpn = _ from hq2, Option.map_some, ← hrecv]

theorem qpError_ready {qpn : Nat} {q : Qp} {s : State} (hq : qpOf s qpn = some q) (hst : q.state = .ready) (hsq : q.sq ≠ 0)
    (hrecv : q.recvs = []) (hherd : q.herd = none) (hruns : ∀ e ∈ s.tp.runs, e.2.ring ≠ 0) :
    ringOf (qpError qpn s) 0 = ringOf s 0 ∧ qpOf (qpError qpn s) qpn = some { q with state := .error } ∧
      (rg (qpError qpn s) Reg.GX_TP_EVENTS).getLsbD 0 = true := by
  obtain ⟨hring, hqp⟩ := errorEnds_ready hq hsq hrecv hruns
  have hqp' : qpOf (raise Reg.GX_TP_EVENTS 0 (errorEnds qpn s)) qpn = some { q with state := .error } := by
    rw [qpOf, raise_tp]
    exact hqp
  rw [qpError_of_ready hq (by rw [hst]; decide), breakHerd_outside hqp' hherd]
  refine ⟨?_, hqp', raise_sets _ _ _ (by decide)⟩
  rw [ringOf, raise_q]
  exact hring

/-- Settles O29: each command on a queue pair is one change of the contexts and the end of its entry. -/
theorem queuePairsAreMadeChangedAndFreed : Obligations.QueuePairsAreMadeChangedAndFreed := by
  unfold Obligations.QueuePairsAreMadeChangedAndFreed
  refine ⟨?_, ?_, ?_, ?_, ?_, ?_⟩
  · intro slot o remote failed s hw hwait href hroce hquota
    refine ⟨_, next_whenOk hw, ?_⟩
    rw [qpCreate_made hwait.1 href hroce hquota]
    exact ⟨waitsAt_endsWith hwait rfl _, mapGet_mapSet_same _ _ _, rfl, fun n hn => mapGet_mapSet_ne _ _ hn, rfl⟩
  · intro slot o remote failed s hw hwait href
    refine ⟨_, next_whenOk hw, ?_⟩
    rw [qpCreate_refused hwait.1 href]
    exact ⟨waitsAt_endsWith hwait rfl _, rfl⟩
  · intro slot o q remote failed s hw hwait ha hq hh hst hroce
    refine ⟨_, { reconnected q (qpBody o.entry) with roce := { remote := 0 } }, next_whenOk hw, ?_⟩
    rw [qpReconnect, qpModify_of hwait.1 ha hq hh, if_neg hst, withRemote, if_neg (by rw [hroce]; exact Bool.false_ne_true)]
    obtain ⟨hrecs, hmsgs⟩ := dropRecords_none (entryQpn o.entry) s
    have hqp : qpOf (spendSlots (entryQpn o.entry) (dropRecords (entryQpn o.entry) s)) (entryQpn o.entry) = some q :=
      (qpOf_dropRecords _ _ s).trans hq
    refine ⟨waitsAt_endsWith hwait (q_dropRecords _ s) _, ?_, rfl, rfl, rfl, rfl, rfl, rfl, rfl, rfl, rfl, rfl, rfl, hrecs, hmsgs⟩
    show qpOf (updQp _ _ _) _ = _
    rw [qpOf_updQp, if_pos rfl, hqp]
    rfl
  · intro slot o q s hw hwait ha hq hh
    refine ⟨_, next_whenOk hw, ?_⟩
    rw [qpTimers, qpModify_of hwait.1 ha hq hh]
    refine ⟨waitsAt_endsWith hwait rfl _, ?_, fun n hn => ?_, rfl⟩
    · show qpOf (updQp _ _ _) _ = _
      rw [qpOf_updQp, if_pos rfl, hq]
      rfl
    · show qpOf (updQp _ _ _) _ = _
      rw [qpOf_updQp, if_neg hn]
  · intro slot o q s hw hwait ha hq hh hst hsq hrecv hruns
    obtain ⟨ho, hhead, hdone⟩ := waitsAt_opAt hwait
    obtain ⟨hring, hqp, hevent⟩ := qpError_ready hq hst hsq hrecv hh hruns
    refine ⟨_, { q with state := .error }, next_whenOk hw, ?_⟩
    rw [qpToError, qpModify_of hwait.1 ha hq hh, if_pos hst]
    refine ⟨mgmtDone_endsWith (o := o) ?_ hhead hdone, hqp, rfl, hevent⟩
    rw [opAt, hring]
    exact ho
  · intro slot o q s hw hwait hq hh hb
    obtain ⟨hgone, hothers, hqq⟩ := freeQp_frees hq
    refine ⟨_, next_whenOk hw, ?_⟩
    rw [qpDestroy_idle hwait.1 hq hh hb]
    exact ⟨waitsAt_endsWith hwait hqq _, hgone, hothers⟩

end Sys2Proof.Machine
end

section
/-! PROOFS. Operations start (R166, R169, R185, R186). -/

namespace Sys2Proof.Machine

theorem mayStartOp_idle {s : State} {ring slot : Nat} {o : Op} (h : mayStartOp s ring slot = some o) :
    o.slot = slot ∧ o.head = slot ∧ o.done = none := by
  unfold mayStartOp at h
  split at h
  · exact absurd h (by simp)
  · split at h
    · exact absurd h (by simp)
    · rename_i o' hfind
      extract_lets before pending sameQp st at h
      split at h
      · rename_i hall
        obtain rfl := Option.some.inj h
        have hslot := List.find?_some hfind
        simp only [Bool.and_eq_true, beq_iff_eq, Option.isNone_iff_eq_none] at hslot hall
        exact ⟨hslot.1, hslot.2, hall.1.1.1.1.1.2⟩
      · exact absurd h (by simp)

/-- A started entry that ends at once has its status, and nothing but the rings changed. -/
theorem markStarted_finishOp_endsWith {ring slot : Nat} {o : Op} {s : State} (c : Completion) (ho : opAt s ring slot = some o)
    (hh : o.head = slot) (hd : o.done = none) : endsWith (finishOp ring slot c (markStarted ring slot s)) ring slot c.status :=
  finishOp_endsWith c (opAt_markStarted ho hh) hh hd

/-- The run that an operation becomes. -/
def startedRun (s : State) (ring : Nat) (g : Ring) (o : Op) (q : Qp) (kind : RunKind) : OpRun :=
  if kind = .send then { makeRun s ring g o q kind with ssn := q.sendSsn } else makeRun s ring g o q kind

/-- The state of a started entry, whose SEND has taken the next SSN. -/
def ssnTaken (ring slot : Nat) (o : Op) (kind : RunKind) (s : State) : State :=
  if kind = .send then updQp (entryQpn o.entry) (fun q => { q with sendSsn := q.sendSsn + 1 }) (markStarted ring slot s)
  else markStarted ring slot s

/-- The state with an operation's run, before it goes on. -/
def withRun (ring slot : Nat) (g : Ring) (o : Op) (q : Qp) (kind : RunKind) (s : State) : State :=
  { ssnTaken ring slot o kind s with
    tp := { (ssnTaken ring slot o kind s).tp with
      runs := mapSet (ssnTaken ring slot o kind s).tp.runs (opKey ring slot) (startedRun s ring g o q kind) } }

theorem ssnTaken_frame (ring slot : Nat) (o : Op) (kind : RunKind) (s : State) :
    ssnTaken ring slot o kind s = { s with q := (ssnTaken ring slot o kind s).q, tp := (ssnTaken ring slot o kind s).tp } := by
  unfold ssnTaken
  split
  · rfl
  · rfl

theorem qpOf_ssnTaken {ring slot : Nat} {o : Op} {q : Qp} {kind : RunKind} {s : State} (hq : qpOf s (entryQpn o.entry) = some q) :
    qpOf (ssnTaken ring slot o kind s) (entryQpn o.entry) =
      some (if kind = .send then { q with sendSsn := q.sendSsn + 1 } else q) := by
  unfold ssnTaken
  split
  · rw [qpOf_updQp, if_pos rfl, show qpOf (markStarted ring slot s) (entryQpn o.entry) = some q from hq]
    rfl
  · exact hq

/-- What a run is of. -/
theorem startedRun_of (s : State) (ring : Nat) (g : Ring) (o : Op) (q : Qp) (kind : RunKind) :
    let r := startedRun s ring g o q kind
    r.kind = kind ∧ r.ring = ring ∧ r.slot = o.slot ∧ r.qpn = entryQpn o.entry ∧ r.inst = q.inst ∧ r.space = g.space ∧
      r.tiles = (makeRun s ring g o q kind).tiles ∧ (kind = .send → r.ssn = q.sendSsn) := by
  cases kind with
  | send => exact ⟨rfl, rfl, rfl, rfl, rfl, rfl, rfl, fun _ => rfl⟩
  | _ => exact ⟨rfl, rfl, rfl, rfl, rfl, rfl, rfl, fun h => nomatch h⟩

section
variable {opcode ring slot : Nat} {o : Op} {g : Ring} {q : Qp} {kind : RunKind} {s : State}

/-- What an operation of a sound entry on a READY queue pair comes to: its end at once, or its run. -/
theorem startOp_ready (hm : mayStartOp s ring slot = some o) (hg : ringOf s ring = some g) (hop : entryOpcode o.entry = opcode)
    (hq : qpOf s (entryQpn o.entry) = some q) (hk : kindOfOpcode opcode = some kind) (hst : q.state = .ready)
    (hsa : saSpent s (entrySa o.entry) = false) (ht : opcode = 1 → tierSlot s (entrySa o.entry) = none) :
    startOp opcode ring slot s =
      if entryLength o.entry = 0 ∧ opcode ∈ [1, 2, 5] then finishOp ring slot { status := stOk } (markStarted ring slot s)
      else progressRun (opKey ring slot) (withRun ring slot g o q kind s) := by
  have htier : (if opcode = 1 then tierSlot s (entrySa o.entry) else none) = none := by
    split
    · rename_i h1
      exact ht h1
    · rfl
  have hspent : saSpent (markStarted ring slot s) (entrySa o.entry) = false := hsa
  unfold startOp
  rw [hm, hg]
  simp only []
  rw [if_neg (not_not_intro hop), hq, hk]
  simp only []
  rw [show tierSlot (markStarted ring slot s) (entrySa o.entry) = tierSlot s (entrySa o.entry) from rfl, htier,
    if_neg (by rw [hst]; decide), if_neg (by rw [hst]; decide), hspent, if_neg Bool.false_ne_true]
  by_cases hempty : entryLength o.entry = 0 ∧ opcode ∈ [1, 2, 5]
  · rw [if_pos hempty, if_pos (by simpa [or_assoc] using hempty)]
  · rw [if_neg hempty, if_neg (by simpa [or_assoc] using hempty)]
    rfl

theorem startOp_error (hm : mayStartOp s ring slot = some o) (hg : ringOf s ring = some g) (hop : entryOpcode o.entry = opcode)
    (hq : qpOf s (entryQpn o.entry) = some q) (hk : kindOfOpcode opcode = some kind) (hst : q.state = .error) (hne : opcode ≠ 1) :
    startOp opcode ring slot s = finishOp ring slot { status := stRetryExceeded } (markStarted ring slot s) := by
  unfold startOp
  rw [hm, hg]
  simp only []
  rw [if_neg (not_not_intro hop), hq, hk]
  simp only []
  rw [if_pos (by rw [hst, if_neg hne]; rfl)]

end

/-! ### FENCE (R169) -/

theorem fenceOp_first {ring slot : Nat} {g : Ring} {o : Op} {q : Qp} {rest : List Op} {s : State} (hg : ringOf s ring = some g)
    (hops : g.ops = o :: rest) (hslot : o.slot = slot) (hhead : o.head = slot) (hcode : entryOpcode o.entry = 7)
    (hdone : o.done = none) (hmal : o.malformed = none) (hshut : g.shutting = none) (hfin : instFinishes s g.inst = true)
    (hq : qpOf s (entryQpn o.entry) = some q) (hst : q.state = .ready) :
    fenceOp ring slot s = finishOp ring slot { status := stOk } (markStarted ring slot s) := by
  have hfind : g.ops.find? (fun o => o.slot == slot && o.head == slot) = some o := by
    rw [hops, List.find?_cons_of_pos (by simp [hslot, hhead])]
  have hbefore : g.ops.takeWhile (fun x => x.slot != slot) = [] := by
    rw [hops, List.takeWhile_cons_of_neg (by simp [hslot])]
  unfold fenceOp
  rw [hg]
  simp only []
  rw [hfind]
  simp only []
  rw [if_neg (by simp [hcode, hdone, hmal, hshut, hfin]), hq, Option.map_some, hst, if_neg (by decide), if_neg (by decide), hbefore,
    if_neg (by simp)]

theorem fenceOp_behind {ring slot : Nat} {g : Ring} {o x : Op} {q : Qp} {rest : List Op} {s : State} (hg : ringOf s ring = some g)
    (hops : g.ops = x :: o :: rest) (hx : x.slot ≠ slot) (hslot : o.slot = slot) (hhead : o.head = slot) (hopen : x.done = none)
    (hcode : entryOpcode x.entry ≤ 7) (hqpn : entryQpn x.entry = entryQpn o.entry) (hq : qpOf s (entryQpn o.entry) = some q)
    (hst : q.state = .ready) : fenceOp ring slot s = s := by
  have hfind : g.ops.find? (fun o => o.slot == slot && o.head == slot) = some o := by
    rw [hops, List.find?_cons_of_neg (by simp [hx]), List.find?_cons_of_pos (by simp [hslot, hhead])]
  have hbefore : g.ops.takeWhile (fun x => x.slot != slot) = [x] := by
    rw [hops, List.takeWhile_cons_of_pos (by simp [hx]), List.takeWhile_cons_of_neg (by simp [hslot])]
  unfold fenceOp
  rw [hg]
  simp only []
  rw [hfind]
  simp only []
  split
  · rfl
  · rw [hq, Option.map_some, hst, if_neg (by decide), if_neg (by decide), hbefore, if_pos (by simp [hopen, hcode, hqpn])]

/-- Settles O30: an operation that may start ends at once by its queue pair or its length, or leaves its run and goes on from there; a FENCE looks at what stands before it. -/
theorem operationsStart : Obligations.OperationsStart := by
  unfold Obligations.OperationsStart
  refine ⟨?_, ?_, ?_, ?_, ?_⟩
  · intro c code kind ring slot o g q s hc hw hm hg hop hq hst hsa ht hlen
    have hstart : ∀ k, kindOfOpcode code = some k →
        startOp code ring slot s = progressRun (opKey ring slot) (withRun ring slot g o q k s) := by
      intro k hk
      rw [startOp_ready hm hg hop hq hk hst hsa ht, if_neg (fun h => hlen h.2 h.1)]
    have hexec : exec c s = .next (startOp code ring slot s) ∧ kindOfOpcode code = some kind ∧ (code = 3 ↔ kind = .send) := by
      simp only [List.mem_cons, List.not_mem_nil, or_false, Prod.mk.injEq] at hc
      obtain ⟨rfl, rfl, rfl⟩ | ⟨rfl, rfl, rfl⟩ | ⟨rfl, rfl, rfl⟩ | ⟨rfl, rfl, rfl⟩ | ⟨rfl, rfl, rfl⟩ | ⟨rfl, rfl, rfl⟩ := hc <;>
        exact ⟨next_whenOk hw, rfl, by decide⟩
    obtain ⟨he, hk, h3⟩ := hexec
    obtain ⟨hkind, hring, hslot, hqpn, hinst, hspace, htiles, hssn⟩ := startedRun_of s ring g o q kind
    have hqp := qpOf_ssnTaken (ring := ring) (slot := slot) (kind := kind) hq
    refine ⟨withRun ring slot g o q kind s, startedRun s ring g o q kind, by rw [he, hstart kind hk], mapGet_mapSet_same _ _ _,
      hkind, hring, hslot, hqpn, hinst, hspace, htiles, fun h => ⟨hssn (h3.mp h), ?_⟩, fun h => ?_, ?_⟩
    · rw [if_pos (h3.mp h)] at hqp
      exact hqp
    · rw [if_neg (fun hks => h (h3.mpr hks))] at hqp
      exact hqp
    · unfold withRun
      rw [ssnTaken_frame]
  · intro c code ring slot o q s hc hw hm ho hop hq hst hsa ht hlen
    obtain ⟨-, hh, hd⟩ := mayStartOp_idle hm
    obtain ⟨g, hg, -⟩ := Option.bind_eq_some_iff.mp ho
    have hexec : exec c s = .next (startOp code ring slot s) ∧ (∃ k, kindOfOpcode code = some k) ∧ code ∈ [1, 2, 5] := by
      simp only [List.mem_cons, List.not_mem_nil, or_false, Prod.mk.injEq] at hc
      obtain ⟨rfl, rfl⟩ | ⟨rfl, rfl⟩ | ⟨rfl, rfl⟩ := hc <;> exact ⟨next_whenOk hw, ⟨_, rfl⟩, by decide⟩
    obtain ⟨he, ⟨k, hk⟩, hcode⟩ := hexec
    refine ⟨_, he, ?_⟩
    rw [startOp_ready hm hg hop hq hk hst hsa ht, if_pos ⟨hlen, hcode⟩]
    exact ⟨markStarted_finishOp_endsWith _ ho hh hd, rfl⟩
  · intro c code ring slot o q s hc hw hm ho hop hq hst
    obtain ⟨-, hh, hd⟩ := mayStartOp_idle hm
    obtain ⟨g, hg, -⟩ := Option.bind_eq_some_iff.mp ho
    have hexec : exec c s = .next (startOp code ring slot s) ∧ (∃ k, kindOfOpcode code = some k) ∧ code ≠ 1 := by
      simp only [List.mem_cons, List.not_mem_nil, or_false, Prod.mk.injEq] at hc
      obtain ⟨rfl, rfl⟩ | ⟨rfl, rfl⟩ | ⟨rfl, rfl⟩ | ⟨rfl, rfl⟩ | ⟨rfl, rfl⟩ := hc <;> exact ⟨next_whenOk hw, ⟨_, rfl⟩, by decide⟩
    obtain ⟨he, ⟨k, hk⟩, hcode⟩ := hexec
    refine ⟨_, he, ?_⟩
    rw [startOp_error hm hg hop hq hk hst hcode]
    exact ⟨markStarted_finishOp_endsWith _ ho hh hd, rfl⟩
  · intro ring slot g o q rest s hw hg hops hslot hhead hcode hdone hmal hshut hfin hq hst
    have ho : opAt s ring slot = some o := by
      rw [opAt, hg, Option.bind_some, hops, List.find?_cons_of_pos (by simp [hslot])]
    refine ⟨_, next_whenOk hw, ?_⟩
    rw [fenceOp_first hg hops hslot hhead hcode hdone hmal hshut hfin hq hst]
    exact ⟨markStarted_finishOp_endsWith _ ho hhead hdone, rfl⟩
  · intro ring slot g o x q rest s hw hg hops hx hslot hhead hcode hopen hx7 hqpn hq hst
    refine (next_whenOk hw).trans ?_
    rw [fenceOp_behind hg hops hx hslot hhead hopen hx7 hqpn hq hst]

end Sys2Proof.Machine
end

section
/-! PROOFS. Transport cells as the responder takes them (R176 to R178, R335): what comes before a cell leaves, the record of a new
message, the bytes it writes. -/

namespace Sys2Proof.Machine

/-! ### Before a cell is taken, its bytes pass the check-value units -/

/-- The state in which the check-value units have watched a slot's bytes. -/
def slotSeen (port : Nat) (slot : SlotIn) (s : State) : State :=
  match slot with
  | .cell hdr pay => stream cvPortRx port false true (slotBytes hdr pay) s
  | .train k pay => ((cport s port).train).elim s (fun t => stream cvPortRx port false true (trainSlotBytes t.1 k pay) s)

theorem slotSeen_maintains {P : State → Prop} {s : State} (port : Nat) (slot : SlotIn) (h0 : P s)
    (h : ∀ bs, P (stream cvPortRx port false true bs s)) : P (slotSeen port slot s) := by
  cases slot with
  | cell hdr pay => exact h _
  | train k pay =>
    unfold slotSeen
    cases (cport s port).train with
    | none => exact h0
    | some t => exact h _

theorem beyondStream_slotSeen (port : Nat) (slot : SlotIn) (s : State) : beyondStream (slotSeen port slot s) = beyondStream s :=
  slotSeen_maintains (P := fun t => beyondStream t = beyondStream s) port slot rfl (fun _ => beyondStream_stream _ _ _ _ _ s)

/-- The cell that a slot gives is taken once the check-value units have seen the slot. -/
theorem receiveCell_slotSeen {s : State} {port kind : Nat} {slot : SlotIn} {c : CellIn} (h : slotGives s port kind slot c)
    (act : CellIn → State → State) : receiveCell kind port slot act s = act c (slotSeen port slot s) ∧ c.kind = kind := by
  cases slot with
  | cell hdr pay =>
    obtain ⟨hform, hkind, hlt, hbad, hcheck, rfl⟩ := h
    refine ⟨?_, hkind⟩
    unfold receiveCell
    simp only []
    rw [if_neg (not_not_intro hform), if_neg (fun hk => hk.2 hkind), if_neg (by rw [hkind]; exact Nat.not_le.mpr hlt), takeStandalone,
      slotCheck_stream, if_neg (not_not_intro hcheck), if_neg (by rw [hkind, hbad]; exact Bool.false_ne_true)]
    rfl
  | train k pay =>
    obtain ⟨hdr, head, htrain, hkind, hcount, hok, rfl⟩ := h
    have hcf : (stream cvPortRx port false true (trainSlotBytes hdr k pay) s).cf = s.cf :=
      (congrArg State.cf (beyondStream_stream cvPortRx port false true (trainSlotBytes hdr k pay) s) :)
    refine ⟨?_, hkind⟩
    unfold receiveCell slotSeen
    simp only []
    rw [htrain]
    simp only [Option.elim_some]
    rw [if_neg (by rw [hkind]; exact fun hor => hor.elim (fun hne => hne rfl) (Nat.not_lt.mpr hcount)),
      if_pos (by rw [cport_of_cf hcf]; exact hok)]

/-- The cell that a slot gives is taken in a state that differs from s by the watching check-value units alone. -/
theorem receiveCell_given {s : State} {port kind : Nat} {slot : SlotIn} {c : CellIn} (h : slotGives s port kind slot c)
    (act : CellIn → State → State) :
    ∃ u, receiveCell kind port slot act s = act c u ∧ c.kind = kind ∧ beyondStream u = beyondStream s ∧
      (∀ k, k ≠ Reg.GX_CV_DONE → regAt u k = regAt s k) ∧ ∀ n, nodeSlot u n = nodeSlot s n := by
  obtain ⟨hu, hkind⟩ := receiveCell_slotSeen h act
  exact ⟨slotSeen port slot s, hu, hkind, beyondStream_slotSeen port slot s,
    fun k hk => slotSeen_maintains (P := fun t => regAt t k = regAt s k) port slot rfl (fun _ => rg_stream _ _ _ _ _ s hk),
    fun n => slotSeen_maintains (P := fun t => nodeSlot t n = nodeSlot s n) port slot rfl (fun _ => nodeSlot_stream _ _ _ _ _ s n)⟩

theorem NewCell.of_beyondStream {s u : State} {c : CellIn} {q : Qp} (n : NewCell s c q) (h : beyondStream u = beyondStream s) :
    NewCell u c q := by
  have hb : NewCell (beyondStream s) c q :=
    ⟨n.context, n.peer, n.typ, n.ready, n.unit, n.window, n.fresh, n.room, n.allowed, n.plain⟩
  rw [← h] at hb
  exact ⟨hb.context, hb.peer, hb.typ, hb.ready, hb.unit, hb.window, hb.fresh, hb.room, hb.allowed, hb.plain⟩

/-! ### The tier memory that an access may reach -/

/-- What decides whether an access may reach tier memory. -/
def tierView (s : State) : (Nat → Option Nat) × LzState × MemState × ReState × NMap AccPort × InstBlock :=
  (nodeSlot s, s.lz, s.mem, s.re, s.pc.acc, s.vi)

theorem accessStatus_of_tierView {s u : State} (h : tierView u = tierView s) (node off : Nat) :
    accessStatus u node off = accessStatus s node off := by
  obtain ⟨hslot, hlz, hmem, -, hacc, hvi⟩ : nodeSlot u = nodeSlot s ∧ u.lz = s.lz ∧ u.mem = s.mem ∧ u.re = s.re ∧
      u.pc.acc = s.pc.acc ∧ u.vi = s.vi := by
    simpa only [tierView, Prod.mk.injEq] using h
  simp only [accessStatus, hslot, accessRejected, windowOf, accPort, offsetFlock, unitFrozen, unitHalted, inst, hlz, hmem, hacc, hvi] <;> rfl

theorem tierOpen.of_tierView {s u : State} {node off n : Nat} (ho : tierOpen s node off n) (h : tierView u = tierView s) :
    tierOpen u node off n := by
  obtain ⟨hst, hap, hstall, hbytes⟩ := ho
  have hmem : u.mem = s.mem := congrArg (fun v => v.2.2.1) h
  have hre : u.re = s.re := congrArg (fun v => v.2.2.2.1) h
  refine ⟨(accessStatus_of_tierView h node off).trans hst, hap, ?_, fun i hi => ?_⟩
  · rw [memStalls] at hstall ⊢
    simp only [granuleClean, swapHolds, hmem, hre] at hstall ⊢
    exact hstall
  · rw [badAt, withdrawnAt, hmem, hre]
    exact hbytes i hi

theorem tierView_of_received {s u : State} (h : beyondStream u = beyondStream s) (hn : ∀ n, nodeSlot u n = nodeSlot s n) :
    tierView u = tierView s := by
  have hlz : u.lz = s.lz := (congrArg State.lz h :)
  have hmem : u.mem = s.mem := (congrArg State.mem h :)
  have hre : u.re = s.re := (congrArg State.re h :)
  have hpc : u.pc = s.pc := (congrArg State.pc h :)
  have hvi : u.vi = s.vi := (congrArg State.vi h :)
  rw [tierView, tierView, funext hn, hlz, hmem, hre, hpc, hvi]

theorem tierView_stream (src idx : Nat) (retx begins : Bool) (bs : List Byte) (s : State) :
    tierView (stream src idx retx begins bs s) = tierView s :=
  tierView_of_received (beyondStream_stream src idx retx begins bs s) (nodeSlot_stream src idx retx begins bs s)

theorem tierView_muleMove (ingress retx begins : Bool) (bs : List Byte) (s : State) :
    tierView (muleMove ingress retx begins bs s) = tierView s := by
  unfold muleMove
  extract_lets base m _ s1
  exact (tierView_stream _ m retx begins bs s1).trans rfl

/-- All but the mules and the check-value units' watch. -/
def beyondMules (s : State) : State := { beyondStream s with pc := { s.pc with mules := [] } }

theorem beyondMules_of_beyondStream {s u : State} (h : beyondStream u = beyondStream s) : beyondMules u = beyondMules s :=
  (congrArg (fun t : State => { t with pc := { t.pc with mules := [] } }) h :)

theorem beyondMules_muleMove (ingress retx begins : Bool) (bs : List Byte) (s : State) :
    beyondMules (muleMove ingress retx begins bs s) = beyondMules s := by
  unfold muleMove
  extract_lets base m _ s1
  exact (beyondMules_of_beyondStream (beyondStream_stream _ m retx begins bs s1)).trans rfl

theorem beyondStream_tierStream (off : Nat) (bs : List Byte) (s : State) : beyondStream (tierStream off bs s) = beyondStream s := by
  unfold tierStream
  split
  · exact beyondStream_stream _ _ _ _ _ _
  · rfl

theorem bytesSet_congr (m : List Host.Cell) (a : Nat) (bs : List Byte) {ok ok' : Nat → Bool}
    (h : ∀ i, i < bs.length → ok (a + i) = ok' (a + i)) : bytesSet m a bs ok = bytesSet m a bs ok' := by
  induction bs generalizing m a with
  | nil => rfl
  | cons b t ih =>
    have h0 : ok a = ok' a := h 0 (Nat.succ_pos _)
    unfold bytesSet
    rw [h0]
    refine ih _ (a + 1) fun i hi => ?_
    have := h (i + 1) (Nat.succ_lt_succ hi)
    rwa [show a + (i + 1) = a + 1 + i by omega] at this

/-- A write to open tier memory puts its bytes there and nothing else. -/
theorem dataWrite_open {s : State} {node off : Nat} {bs : List Byte} (w : Waiter) (h : tierOpen s node off bs.length) :
    ∃ t, dataWrite w node off bs s = (t, stOk, none) ∧ t.mem.bytes = bytesSet s.mem.bytes off bs (fun _ => true) ∧
      beyondStream t = beyondStream { s with mem := t.mem } ∧ t.mem.stores = s.mem.stores := by
  obtain ⟨hst, hap, -, hbytes⟩ := h
  have hok : ∀ i, i < bs.length → (!(withdrawnAt s (off + i)) && (!(badAt s (off + i)) || coversCodeword off bs.length (off + i))) = true := by
    intro i hi
    obtain ⟨hbad, hwith⟩ := hbytes i hi
    rw [hbad, hwith]
    rfl
  have hbad : (tierWrite off bs s).2 = false := by
    refine List.any_eq_false.mpr fun i hi hne => ?_
    exact Bool.false_ne_true ((congrArg not (hok i (List.mem_range.mp hi))).symm.trans hne)
  have hstream := beyondStream_tierStream off bs (tierWrite off bs s).1
  have hmem : (tierStream off bs (tierWrite off bs s).1).mem = (tierWrite off bs s).1.mem := (congrArg State.mem hstream :)
  refine ⟨tierStream off bs (tierWrite off bs s).1, ?_, ?_, ?_, ?_⟩
  · unfold dataWrite
    simp only []
    rw [if_neg (not_not_intro hst), hap]
    simp only [tierPut, hbad, Bool.false_eq_true, if_false]
  · rw [hmem]
    exact bytesSet_congr _ _ _ hok
  · rw [hmem]
    exact hstream
  · rw [hmem]
    rfl

end Sys2Proof.Machine
end

section
/-! PROOFS. The first cell of a new message (R176 to R178): its record, and what the cell does by its kind. -/

namespace Sys2Proof.Machine

/-! ### Records -/

theorem recOf_updRec_same {s : State} {qpn msn : Nat} {r : RxRec} (h : recOf s qpn msn = some r) (f : RxRec → RxRec) :
    recOf (updRec qpn msn f s) qpn msn = some (f r) := by
  rw [recOf, updRec, mapGet_mapModify, if_pos rfl]
  exact congrArg (Option.map f) h

theorem rxStatus_ok (qpn msn : Nat) (s : State) : rxStatus qpn msn stOk s = s := if_pos rfl

theorem rxFinish_partial {s : State} {qpn msn : Nat} {r : RxRec} (h : recOf s qpn msn = some r) (hw : recWhole r = false) :
    rxFinish qpn msn s = s := by
  unfold rxFinish
  rw [h]
  simp only [hw, Bool.not_false, if_true]

section
variable {s : State} {qpn : Nat} (h : qpSlot s qpn 1 = none)
include h

theorem rxSlot_plain (kind : Nat) : rxSlot s qpn kind = none := by
  unfold rxSlot
  split
  · exact h
  · rfl

theorem rxGcm_plain : rxGcm s qpn = false := by
  rw [rxGcm, qpMode, h]
  exact Bool.and_false _

theorem rxCharge_plain (msn : Nat) (c : CellIn) : rxCharge qpn msn c s = s := by
  rw [rxCharge, rxSlot_plain h]

theorem rxPlain_plain (msn : Nat) (c : CellIn) (bs : List Byte) : rxPlain qpn msn c bs s = (s, bs) := by
  rw [rxPlain, rxSlot_plain h]

end

/-! ### The record of a new message -/

/-- The state in which a new message's record is r, with its first cell marked. -/
def recorded (c : CellIn) (q : Qp) (r : RxRec) (s : State) : State :=
  putRec { r with got := [c.idx], lastTick := (freeResults c.dqpn (rxMsn q c) s).tick.count.toNat } (freeResults c.dqpn (rxMsn q c) s)

theorem recOf_recorded {c : CellIn} {q : Qp} {r : RxRec} (s : State) (hq : r.qpn = c.dqpn) (hm : r.msn = rxMsn q c) :
    recOf (recorded c q r s) c.dqpn (rxMsn q c) = some { r with got := [c.idx], lastTick := s.tick.count.toNat } := by
  rw [recOf, recorded, putRec, hq, hm]
  exact mapGet_mapSet_same _ _ _

/-- The record that the first cell of a new message makes, before its address is looked at. -/
def freshRec (c : CellIn) (q : Qp) : RxRec := { qpn := c.dqpn, msn := rxMsn q c, kind := c.kind, cnt := c.cnt }

/-- A new message's first cell makes its record, and is applied. -/
theorem respCell_new {s : State} {c : CellIn} {q : Qp} {x : RecvReads} {r : RxRec} (n : NewCell s c q) (hreq : requestBad c = false)
    (hred : c.kind = 1 → reduceBad c = false) (htail : c.kind = 2 → c.tail = true → tailReserved false (payBytes c.pay) = false)
    (hstall : c.kind ≤ 1 → writeStalls s (c.addr % 2 ^ 41) = false)
    (hmade : (if c.kind = 2 then placeSend q c (rxMsn q c) (freshRec c q) x (freeResults c.dqpn (rxMsn q c) s)
      else (freeResults c.dqpn (rxMsn q c) s, some (freshRec c q))) = (freeResults c.dqpn (rxMsn q c) s, some r))
    (hcnt : r.cnt = c.cnt) (hkind : r.kind = c.kind) (hgot : r.got = []) (href : r.refused = false) (hq : r.qpn = c.dqpn)
    (hm : r.msn = rxMsn q c) :
    respCell c x s = rxFinish c.dqpn (rxMsn q c) (applyCell c.dqpn (rxMsn q c) c (recorded c q r s)) := by
  obtain ⟨hnode, hunit⟩ := n.peer
  obtain ⟨hlow, hhigh, hwin⟩ := n.window
  obtain ⟨hstat, hroom⟩ := n.room
  have hplain : qpSlot (freeResults c.dqpn (rxMsn q c) s) c.dqpn 1 = none := n.plain
  have hplain' : qpSlot (recorded c q r s) c.dqpn 1 = none := n.plain
  have hgcm := rxGcm_plain hplain
  unfold respCell
  rw [n.context]
  simp only []
  rw [if_neg (by simp [hnode, hunit]; have := n.typ; omega), if_neg (by rw [n.ready]; decide), n.unit, if_neg (by decide),
    if_neg (by rw [hwin]; simp; exact hlow), if_neg (Nat.not_le.mpr hhigh)]
  have hpass : ¬ (requestBad c || (c.kind == 1 && !(rxGcm (freeResults c.dqpn (rxMsn q c) s) c.dqpn && c.idx == c.cnt) && reduceBad c)
      || (c.kind == 2 && c.tail && tailReserved (rxGcm (freeResults c.dqpn (rxMsn q c) s) c.dqpn) (payBytes c.pay))) = true := by
    rw [hreq, hgcm]
    intro hbad
    simp only [Bool.false_or, Bool.false_and, Bool.not_false, Bool.and_true, Bool.or_eq_true, Bool.and_eq_true, beq_iff_eq] at hbad
    obtain ⟨h1, h2⟩ | ⟨⟨h1, h2⟩, h3⟩ := hbad
    · rw [hred h1] at h2
      exact Bool.false_ne_true h2
    · rw [htail h1 h2] at h3
      exact Bool.false_ne_true h3
  have hold : recOf (freeResults c.dqpn (rxMsn q c) s) c.dqpn (rxMsn q c) = none := n.fresh
  have hwait : rxWaits (freeResults c.dqpn (rxMsn q c) s) c true = false := by
    rw [rxWaits, rxSlot_plain hplain]
    by_cases h1 : c.kind ≤ 1
    · rw [show writeStalls (freeResults c.dqpn (rxMsn q c) s) (c.addr % 2 ^ 41) = false from hstall h1, Bool.and_false]
      rfl
    · rw [decide_eq_false h1, Bool.false_and, Bool.false_and]
      rfl
  rw [if_neg hpass, hold]
  simp only [Option.isNone_none]
  rw [if_neg (by rw [hwait]; exact Bool.false_ne_true)]
  have hinst : (inst (freeResults c.dqpn (rxMsn q c) s) q.inst).state = .ready := n.unit
  have hsend : (if (decide (c.kind = 2) && !(rxDenied (freeResults c.dqpn (rxMsn q c) s) q 2)) = true
      then placeSend q c (rxMsn q c) (freshRec c q) x (freeResults c.dqpn (rxMsn q c) s)
      else (freeResults c.dqpn (rxMsn q c) s, some (freshRec c q))) = (freeResults c.dqpn (rxMsn q c) s, some r) := by
    by_cases h2 : c.kind = 2
    · have hallowed : rxDenied (freeResults c.dqpn (rxMsn q c) s) q 2 = false := h2 ▸ n.allowed
      rw [if_pos h2] at hmade
      rw [decide_eq_true h2, hallowed, if_pos (by rfl), hmade]
    · rw [if_neg h2] at hmade
      rw [decide_eq_false h2, if_neg (by simp), hmade]
  rw [hinst, if_neg (by decide), if_neg (Nat.not_le.mpr hstat), if_neg (show ¬ recordsFree (freeResults c.dqpn (rxMsn q c) s) = 0 from hroom)]
  unfold freshRec at hsend
  rw [hsend]
  simp only []
  rw [if_neg (by rw [hcnt, hkind]; simp), hgot, if_neg (by simp), List.nil_append,
    show putRec _ _ = recorded c q r s from rfl,
    if_neg (show ¬ rxDenied (recorded c q r s) q c.kind = true by
      rw [show rxDenied (recorded c q r s) q c.kind = false from n.allowed]; exact Bool.false_ne_true),
    href, if_pos (show (true && !false) = true from rfl), rxCharge_plain hplain', recOf_recorded s hq hm, Option.map_some, Option.getD_some, href,
    if_neg Bool.false_ne_true]

end Sys2Proof.Machine
end

section
/-! PROOFS. The bytes of DATA, REDUCE and SEND cells reach the memory they name (R166, R172, R335). -/

namespace Sys2Proof.Machine

theorem length_leBytes (n x : Nat) : (leBytes n x).length = n := by
  induction n generalizing x with
  | zero => rfl
  | succ k ih => exact congrArg Nat.succ (ih (x / 256))

theorem payBytes_take_length (p : BitVec 512) {n : Nat} (h : n ≤ 64) : ((payBytes p).take n).length = n := by
  rw [List.length_take, payBytes, length_leBytes]
  exact Nat.min_eq_left h

theorem tierView_recorded (c : CellIn) (q : Qp) (r : RxRec) (s : State) : tierView (recorded c q r s) = tierView s := rfl

theorem recOf_of_tp {s t : State} (h : t.tp = s.tp) (qpn msn : Nat) : recOf t qpn msn = recOf s qpn msn := by
  rw [recOf, recOf, h]

theorem muleMove_keeps (ingress retx begins : Bool) (bs : List Byte) (s : State) :
    (muleMove ingress retx begins bs s).tp = s.tp ∧ (muleMove ingress retx begins bs s).mem = s.mem :=
  have h := beyondMules_muleMove ingress retx begins bs s
  ⟨(congrArg State.tp h :), (congrArg State.mem h :)⟩

/-- A DATA cell to open tier memory on a queue pair that does not decrypt. -/
theorem applyData_open {s : State} {qpn msn : Nat} {c : CellIn} {r : RxRec} (hplain : qpSlot s qpn 1 = none)
    (ho : tierOpen s (c.addr / 2 ^ 41) (c.addr % 2 ^ 41) c.fill) (hf : c.fill ≤ 64) (hr : recOf s qpn msn = some r) :
    recOf (applyData qpn msn c s) qpn msn = some { r with bytes := r.bytes + c.fill } ∧
      (applyData qpn msn c s).tp.qps = s.tp.qps ∧
      (applyData qpn msn c s).mem.bytes = bytesSet s.mem.bytes (c.addr % 2 ^ 41) ((payBytes c.pay).take c.fill) (fun _ => true) ∧
      (applyData qpn msn c s).mem.stores = s.mem.stores := by
  have hlen := payBytes_take_length c.pay hf
  obtain ⟨hmtp, hmmem⟩ := muleMove_keeps true false c.begins ((payBytes c.pay).take c.fill) s
  obtain ⟨t, hwrite, hbytes, hkeep, hstores⟩ := dataWrite_open (bs := (payBytes c.pay).take c.fill) (.rx qpn msn)
    ((hlen.symm ▸ ho).of_tierView (tierView_muleMove true false c.begins ((payBytes c.pay).take c.fill) s))
  have htp : t.tp = s.tp := (congrArg State.tp hkeep :).trans hmtp
  unfold applyData
  extract_lets pay node off st
  rw [rxGcm_plain hplain, Bool.false_and, if_neg Bool.false_ne_true, if_neg (not_not_intro (show st = 0 from ho.1))]
  simp only [rxPlain_plain hplain]
  rw [show dataWrite (.rx qpn msn) node off (pay.take c.fill) (muleMove true false c.begins (pay.take c.fill) s) = (t, stOk, none)
    from hwrite]
  simp only [rxStatus_ok]
  refine ⟨?_, ?_, ?_, ?_⟩
  · rw [recOf_updRec_same ((recOf_of_tp htp qpn msn).trans hr), show (pay.take c.fill).length = c.fill from hlen]
  · exact (congrArg (fun x : TpState => x.qps) htp :)
  · exact hbytes.trans (by rw [hmmem])
  · exact hstores.trans (by rw [hmmem])

theorem length_bytesAt (m : List Host.Cell) (a n : Nat) : (bytesAt m a n).length = n := by
  rw [bytesAt, List.length_map, List.length_range]

theorem tierRead_open {s : State} {node off n : Nat} (h : tierOpen s node off n) :
    tierRead s off n = (bytesAt s.mem.bytes off n, false) := by
  obtain ⟨-, -, -, hbytes⟩ := h
  unfold tierRead bytesAt
  refine Prod.ext (List.map_congr_left fun i hi => ?_) (List.any_eq_false.mpr fun i hi => ?_)
  · obtain ⟨hbad, hwith⟩ := hbytes i (List.mem_range.mp hi)
    simp only [hbad, hwith, Bool.or_self, Bool.false_eq_true, if_false]
  · obtain ⟨hbad, hwith⟩ := hbytes i (List.mem_range.mp hi)
    rw [hbad, hwith]
    exact Bool.false_ne_true

/-- All but what an event or a counter changes: the transport block and both memories are as they were. -/
theorem countResults_keeps (fs : List ResFlag) (s : State) : beyondEvents (countResults fs s) = beyondEvents s := by
  unfold countResults
  extract_lets nans ovfs sats s1 s2
  have h1 : beyondEvents s1 = beyondEvents s := by
    simp only [s1]
    split
    · rfl
    · rw [beyondEvents_raise, beyondEvents_bumpBy]
  have h2 : beyondEvents s2 = beyondEvents s := by
    simp only [s2]
    split
    · exact h1
    · rw [beyondEvents_raise, beyondEvents_bumpBy, h1]
  split
  · exact h2
  · rw [beyondEvents_raise, beyondEvents_bumpBy, h2]

theorem nodeSlot_of_regs {s t : State} (hlz : t.lz = s.lz)
    (hreg : ∀ k, k < 8 → rg t (Reg.GX_XL_NODE_ID + 4 * k) = rg s (Reg.GX_XL_NODE_ID + 4 * k)) (n : Nat) :
    nodeSlot t n = nodeSlot s n := by
  refine find?_same fun k hk => ?_
  rw [slotNode, slotNode, hreg k (List.mem_range.mp hk), hlz]

/-- The registers below the reduction block's. -/
theorem regAt_countResults (fs : List ResFlag) (s : State) {k : Nat} (h : k < 0xb0000) : regAt (countResults fs s) k = regAt s k := by
  have hstep : ∀ (bit n off : Nat) (t : State), 0xb0000 ≤ off → regAt (raise Reg.GX_RA_EVENTS bit (bumpBy off n t)) k = regAt t k :=
    fun bit n off t ho => (regAt_raise_ne _ bit (Nat.ne_of_lt h)).trans (regAt_putReg_ne _ _ (by omega))
  unfold countResults
  extract_lets nans ovfs sats s1 s2
  have h1 : regAt s1 k = regAt s k := by
    simp only [s1]
    split
    · rfl
    · exact hstep _ _ _ _ (by decide)
  have h2 : regAt s2 k = regAt s k := by
    simp only [s2]
    split
    · exact h1
    · exact (hstep _ _ _ _ (by decide)).trans h1
  split
  · exact h2
  · exact (hstep _ _ _ _ (by decide)).trans h2

theorem tierView_countResults (fs : List ResFlag) (s : State) : tierView (countResults fs s) = tierView s := by
  have hkeep := countResults_keeps fs s
  refine tierView_of_received (congrArg (fun t : State => { t with cv := [] }) hkeep :) fun n => ?_
  have hlz : (countResults fs s).lz = s.lz := (congrArg State.lz hkeep :)
  refine nodeSlot_of_regs hlz (fun k hk => regAt_countResults fs s ?_) n
  show 0x30010 + 4 * k < 0xb0000
  omega

/-- What a REDUCE cell writes: the reduction of its bytes with those that stood there. -/
def reducedBytes (c : CellIn) (s : State) : List Byte :=
  (reduceBytes (fld c.addr 56 49) (fld (fld c.addr 48 41) 3 0) (fld (fld c.addr 48 41) 6 6 == 1)
    (bytesAt s.mem.bytes (c.addr % 2 ^ 41) c.fill) ((payBytes c.pay).take c.fill)).1

/-- A REDUCE cell to open tier memory on a queue pair that does not decrypt. -/
theorem applyReduce_open {s : State} {qpn msn : Nat} {c : CellIn} {r : RxRec} (hplain : qpSlot s qpn 1 = none)
    (ho : tierOpen s c.dstNode (c.addr % 2 ^ 41) c.fill) (hf : c.fill ≤ 64) (hall : ∀ a, badAt s a = false ∧ withdrawnAt s a = false)
    (hr : recOf s qpn msn = some r) :
    recOf (applyReduce qpn msn c s) qpn msn = some { r with bytes := r.bytes + c.fill } ∧
      (applyReduce qpn msn c s).tp.qps = s.tp.qps ∧
      (applyReduce qpn msn c s).mem.bytes = bytesSet s.mem.bytes (c.addr % 2 ^ 41) (reducedBytes c s) (fun _ => true) := by
  have hlen := payBytes_take_length c.pay hf
  have hmview := tierView_muleMove true false c.begins ((payBytes c.pay).take c.fill) s
  obtain ⟨hmtp, hmmem⟩ := muleMove_keeps true false c.begins ((payBytes c.pay).take c.fill) s
  have hread := tierRead_open (ho.of_tierView hmview)
  unfold applyReduce
  extract_lets pay node off
  rw [rxGcm_plain hplain, Bool.false_and, if_neg Bool.false_ne_true,
    if_neg (by rw [show accessStatus s node off = 0 from ho.1, show apertureOf off = none from ho.2.1]; decide)]
  simp only [rxPlain_plain hplain]
  rw [show (pay.take c.fill).length = c.fill from hlen,
    show tierRead (muleMove true false c.begins (pay.take c.fill) s) off c.fill = _ from hread, hmmem]
  simp only [Bool.false_eq_true, if_false]
  generalize hred : reduceBytes (fld c.addr 56 49) (fld (fld c.addr 48 41) 3 0) (fld (fld c.addr 48 41) 6 6 == 1)
    (bytesAt s.mem.bytes off c.fill) (pay.take c.fill) = red
  have hview := (tierView_countResults red.2 (muleMove true false c.begins (pay.take c.fill) s)).trans hmview
  have hcount := countResults_keeps red.2 (muleMove true false c.begins (pay.take c.fill) s)
  have hopen : tierOpen s node off red.1.length := ⟨ho.1, ho.2.1, ho.2.2.1, fun i _ => hall (off + i)⟩
  obtain ⟨t, hwrite, hbytes, hkeep, -⟩ := dataWrite_open (.rx qpn msn) (hopen.of_tierView hview)
  have htp : t.tp = s.tp := (congrArg State.tp hkeep :).trans ((congrArg State.tp hcount :).trans hmtp)
  rw [hwrite]
  simp only [rxStatus_ok]
  refine ⟨recOf_updRec_same ((recOf_of_tp htp qpn msn).trans hr) _, (congrArg (fun x : TpState => x.qps) htp :), ?_⟩
  rw [show reducedBytes c s = red.1 from congrArg Prod.fst hred]
  exact hbytes.trans (congrArg (fun m : MemState => bytesSet m.bytes off red.1 (fun _ => true))
    ((congrArg State.mem hcount :).trans hmmem))

/-! ### SEND (R172) -/

/-- What a SEND's tail does to the entry of its SSN. -/
def tailTaken (msn total imm : Nat) (e : RecvEntry) : RecvEntry :=
  { e with total := some total, imm := imm, lastMsn := msn
           status := if e.status = 0 && e.len < total then stRemoteAccess else e.status }

theorem applySend_tail {s : State} {qpn msn : Nat} {c : CellIn} {q : Qp} {r : RxRec} {e : RecvEntry} (hq : qpOf s qpn = some q)
    (hr : recOf s qpn msn = some r) (ht : c.tail = true) (hrecvs : q.recvs = [e]) (hssn : e.ssn = r.ssn)
    (hlen : ¬ e.len < leAt (payBytes c.pay) 0 4) :
    applySend qpn msn c s = updRec qpn msn (fun r => { r with imm := leAt (payBytes c.pay) 4 4, tag := some (slice (payBytes c.pay) 16 16) })
      (updRecv qpn r.ssn (tailTaken msn (leAt (payBytes c.pay) 0 4) (leAt (payBytes c.pay) 4 4)) s) := by
  unfold applySend
  rw [hq, hr]
  simp only []
  rw [if_pos ht, hrecvs, List.find?_cons_of_pos (by rw [hssn]; exact beq_self_eq_true _)]
  simp only []
  rw [if_neg (by rw [decide_eq_false hlen, Bool.and_false]; exact Bool.false_ne_true)]
  rfl

theorem xlateRange_empty {fuel space instn va fin : Nat} {need : Need} {place : Place} {reads : NMap (BitVec 128)} {s : State}
    (h : fin ≤ va) : xlateRange fuel space instn va fin need place reads s = (s, .ok ([], [])) := by
  cases fuel with
  | zero => rfl
  | succ k =>
    unfold xlateRange
    exact if_pos h

/-- The entry of a SEND's SSN is there, and the buffer part that the message covers is empty. -/
theorem placeSend_here {s : State} {q : Qp} {c : CellIn} {msn : Nat} {r : RxRec} {x : RecvReads} {e : RecvEntry}
    (hq : qpOf s c.dqpn = some q) (hherd : q.herd = none) (hrq : q.rq ≠ 0) (hrecvs : q.recvs = [e]) (hssn : e.ssn = q.recvSsn)
    (hext : extend 16 q.recvSsn (c.addr % 2 ^ 16) = q.recvSsn) (hfault : e.fault = none) (hlen : e.len = 0) (hcnt : c.cnt ≠ 0) :
    placeSend q c msn r x s = (s, some { r with ssn := q.recvSsn, pages := [], uses := [] }) := by
  have hfetch : fetchRecvs 66 c.dqpn q.recvSsn x s = (s, true) := by
    unfold fetchRecvs
    rw [hq]
    simp only [hrecvs]
    exact if_pos (Nat.lt_succ_self _)
  unfold placeSend
  rw [hext]
  simp only []
  rw [if_neg (by simp), if_neg (by rw [hherd]; exact Bool.false_ne_true), if_neg hrq, hfetch]
  simp only []
  rw [if_neg (by decide), hq, Option.bind_some, hrecvs, List.find?_cons_of_pos (by rw [hssn]; exact beq_self_eq_true _)]
  simp only []
  rw [if_neg (by rw [hfault]; exact Bool.false_ne_true), if_neg (by simp [hcnt]), hlen,
    xlateRange_empty (by omega)]

/-! ### The obligation -/

theorem writeStalls_open {s : State} {node off n : Nat} (h : tierOpen s node off n) : writeStalls s off = false := by
  rw [writeStalls, h.2.2.1, Bool.and_false]

theorem recWhole_first {r : RxRec} {i : Nat} (hg : r.got = [i]) (hc : r.cnt ≠ 0) : recWhole r = false := by
  rw [recWhole, hg]
  have : ([i].length == r.cnt + 1) = false := beq_eq_false_iff_ne.mpr (by simp only [List.length_singleton]; omega)
  rw [this, Bool.false_and]

theorem requestBad_data {c : CellIn} (h : c.kind ≤ 2) : requestBad c = false := by
  unfold requestBad
  match hk : c.kind, h with
  | 0, _ => rfl
  | 1, _ => rfl
  | 2, _ => rfl

/-- Settles O34: the cell comes in through the check-value units, makes its record, and writes where it may. -/
theorem dataCellsReachMemory : Obligations.DataCellsReachMemory := by
  unfold Obligations.DataCellsReachMemory
  refine ⟨?_, ?_, ?_⟩
  · intro port slot c q s hin hslot hnew hcnt hopen hf
    obtain ⟨u, hu, hkind, hkeep, -, hnode⟩ := receiveCell_given hslot (fun c s => respCell c {} s)
    have hview := tierView_of_received hkeep hnode
    have hmem : u.mem = s.mem := (congrArg State.mem hkeep :)
    have hopen' := hopen.of_tierView hview
    have hnew' := hnew.of_beyondStream hkeep
    have hrec := recOf_recorded (r := freshRec c q) u rfl rfl
    obtain ⟨hr, hqps, hbytes, hstores⟩ := applyData_open (s := recorded c q (freshRec c q) u) hnew'.plain hopen' hf hrec
    have hresp : respCell c {} u = applyData c.dqpn (rxMsn q c) c (recorded c q (freshRec c q) u) := by
      rw [respCell_new hnew' (requestBad_data (by omega)) (by omega) (by omega) (fun _ => writeStalls_open hopen')
        (if_neg (by omega)) rfl rfl rfl rfl rfl rfl]
      unfold applyCell
      rw [hkind]
      exact rxFinish_partial hr (recWhole_first rfl (Nat.ne_of_gt hcnt))
    have hexec := (next_whenOk hin).trans (congrArg Host.Outcome.next (hu.trans hresp))
    refine ⟨_, _, hexec, hr, rfl, rfl, rfl, Nat.zero_add _, (congrArg (mapGet · c.dqpn) hqps).trans hnew'.context, fun i hi => ?_, fun a ha => ?_, ?_⟩
    · have hi' : i < ((payBytes c.pay).take c.fill).length := by rw [payBytes_take_length _ hf]; exact hi
      rw [hbytes, byteAt_bytesSet_inside _ _ _ _ i hi' rfl, List.getElem_take, List.getD_eq_getElem?_getD, List.getElem?_eq_getElem,
        Option.getD_some]
    · rw [hbytes, byteAt_bytesSet_outside _ _ _ _ (by rw [payBytes_take_length _ hf]; exact ha)]
      exact congrArg (byteAt ·.bytes a) hmem
    · exact hstores.trans (congrArg MemState.stores hmem)
  · intro port slot c q s hin hslot hnew hcnt hopen hf hred hall
    obtain ⟨u, hu, hkind, hkeep, -, hnode⟩ := receiveCell_given hslot (fun c s => respCell c {} s)
    have hview := tierView_of_received hkeep hnode
    have hmem : u.mem = s.mem := (congrArg State.mem hkeep :)
    have hopen' := hopen.of_tierView hview
    have hnew' := hnew.of_beyondStream hkeep
    have hrec := recOf_recorded (r := freshRec c q) u rfl rfl
    have hall' : ∀ a, badAt u a = false ∧ withdrawnAt u a = false := by
      intro a
      rw [badAt, withdrawnAt, hmem, show u.re = s.re from (congrArg State.re hkeep :)]
      exact hall a
    obtain ⟨hr, hqps, hbytes⟩ := applyReduce_open (s := recorded c q (freshRec c q) u) hnew'.plain hopen' hf hall' hrec
    have hresp : respCell c {} u = applyReduce c.dqpn (rxMsn q c) c (recorded c q (freshRec c q) u) := by
      rw [respCell_new hnew' (requestBad_data (by omega)) (fun _ => hred) (by omega) (fun _ => writeStalls_open hopen')
        (if_neg (by omega)) rfl rfl rfl rfl rfl rfl]
      unfold applyCell
      rw [hkind]
      exact rxFinish_partial hr (recWhole_first rfl (Nat.ne_of_gt hcnt))
    have hexec := (next_whenOk hin).trans (congrArg Host.Outcome.next (hu.trans hresp))
    refine ⟨_, _, hexec, hr, rfl, rfl, (congrArg (mapGet · c.dqpn) hqps).trans hnew'.context, hbytes.trans ?_⟩
    rw [show (recorded c q (freshRec c q) u).mem = s.mem from hmem, reducedBytes,
      show (recorded c q (freshRec c q) u).mem = s.mem from hmem]
  · intro port slot x c q e s hin hslot hnew hcnt htail hherd hrq hrecvs hssn hext hfault hlen hres htot
    obtain ⟨u, hu, hkind, hkeep, -, -⟩ := receiveCell_given hslot (fun c s => respCell c x s)
    have hmem : u.mem = s.mem := (congrArg State.mem hkeep :)
    have hnew' := hnew.of_beyondStream hkeep
    have hplace := placeSend_here (msn := rxMsn q c) (r := freshRec c q) (x := x) (s := freeResults c.dqpn (rxMsn q c) u)
      hnew'.context hherd hrq hrecvs hssn hext hfault hlen (by omega)
    generalize hr0 : ({ freshRec c q with ssn := q.recvSsn, pages := [], uses := [] } : RxRec) = r0 at hplace
    obtain ⟨hcnt0, hkind0, hgot0, href0, hqpn0, hmsn0, hssn0⟩ : r0.cnt = c.cnt ∧ r0.kind = c.kind ∧ r0.got = [] ∧
        r0.refused = false ∧ r0.qpn = c.dqpn ∧ r0.msn = rxMsn q c ∧ r0.ssn = q.recvSsn := by
      rw [← hr0]
      exact ⟨rfl, rfl, rfl, rfl, rfl, rfl, rfl⟩
    have hrec := recOf_recorded u hqpn0 hmsn0
    have htail' := applySend_tail (s := recorded c q r0 u) hnew'.context hrec htail hrecvs (hssn.trans hssn0.symm)
      (by rw [htot]; exact Nat.not_lt_zero _)
    have hresp : respCell c x u = applySend c.dqpn (rxMsn q c) c (recorded c q r0 u) := by
      rw [respCell_new hnew' (requestBad_data (by omega)) (by omega) (fun _ _ => hres) (by omega)
        (by rw [if_pos hkind]; exact hplace) hcnt0 hkind0 hgot0 href0 hqpn0 hmsn0]
      unfold applyCell
      rw [hkind]
      simp only []
      rw [htail']
      exact rxFinish_partial (recOf_updRec_same hrec _) (recWhole_first rfl (by rw [hcnt0]; omega))
    have hexec := (next_whenOk hin).trans (congrArg Host.Outcome.next (hu.trans (hresp.trans htail')))
    have hqp : ∀ f, qpOf (updRecv c.dqpn q.recvSsn f (recorded c q r0 u)) c.dqpn = some { q with recvs := [f e] } := by
      intro f
      rw [updRecv, qpOf_updQp, if_pos rfl, show qpOf (recorded c q r0 u) c.dqpn = some q from hnew'.context, Option.map_some, hrecvs,
        List.map_singleton, if_pos hssn]
    refine ⟨_, _, { q with recvs := [tailTaken (rxMsn q c) (leAt (payBytes c.pay) 0 4) (leAt (payBytes c.pay) 4 4) e] }, hexec,
      recOf_updRec_same hrec _, rfl, hssn0, rfl, ?_, ?_, congrArg MemState.bytes hmem⟩
    · show qpOf (updRecv c.dqpn r0.ssn _ (recorded c q r0 u)) c.dqpn = _
      rw [hssn0]
      exact hqp _
    · rw [htot, ← hssn]
      rfl

end Sys2Proof.Machine
end

section
/-! PROOFS. Requests are recorded and executed; what has not come is asked for (R168, R171, R176). -/

namespace Sys2Proof.Machine

/-! ### What the end of a message leaves -/

/-- The memories, the records and the responses. -/
def respView (s : State) : MemState × NMap RxRec × NMap RespRec := (s.mem, s.tp.recs, s.tp.resps)

theorem respView_raise (off bit : Nat) (s : State) : respView (raise off bit s) = respView s := by
  rw [respView, raise_mem, raise_tp]
  rfl

theorem respView_releaseUses (us : List Nat) (s : State) : respView (releaseUses us s) = respView s :=
  (congrArg respView (releaseUses_beyond us s) :)

theorem respView_sendCtl (qpn : Nat) (q : Qp) (kind msn : Nat) (pay : List Byte) (s : State) :
    respView (sendCtl qpn q kind msn pay s) = respView s := by
  unfold sendCtl
  split
  · rfl
  · rfl

theorem respView_sendAck (qpn t : Nat) (s : State) : respView (sendAck qpn t s) = respView s := by
  unfold sendAck
  split
  · rfl
  · rename_i q hq
    exact foldl_keeps respView (fun s p => sendCtl qpn q 9 t p s) (fun s p => respView_sendCtl qpn q 9 t p s) _ s

theorem respView_msnDone (qpn msn st : Nat) (s : State) : respView (msnDone qpn msn st s) = respView s := by
  unfold msnDone
  exact (respView_sendAck qpn msn _).trans rfl

theorem respView_herdTake (fuel qpn : Nat) (s : State) : respView (herdTake fuel qpn s) = respView s := by
  induction fuel generalizing s with
  | zero => rfl
  | succ k ih =>
    unfold herdTake
    split
    · rfl
    · split
      · rfl
      · split
        · rfl
        · split
          · rfl
          · exact (ih _).trans rfl

theorem awaitFlush_quiet {s : State} (w : Waiter) (h : s.pc.acc = []) : awaitFlush w s = (s, []) := by
  unfold awaitFlush unflushed
  rw [h]
  rfl

/-- The state in which a whole message with no flush to wait for has given up its record and what it held. -/
def recordGone (qpn msn : Nat) (r : RxRec) (s : State) : State :=
  let s := releaseUses r.uses
    (if rxTagOk s r then s else raise Reg.GX_CE_EVENTS 0 (bump Reg.GX_CE_AUTH_FAIL_CNT s))
  dropGot (rxOwner qpn msn) { s with tp := { s.tp with recs := mapErase s.tp.recs (msgKey qpn msn) } }

theorem respView_recordGone (qpn msn : Nat) (r : RxRec) (s : State) :
    respView (recordGone qpn msn r s) = (s.mem, mapErase s.tp.recs (msgKey qpn msn), s.tp.resps) := by
  have h1 : respView (if rxTagOk s r then s else raise Reg.GX_CE_EVENTS 0 (bump Reg.GX_CE_AUTH_FAIL_CNT s)) = respView s := by
    split
    · rfl
    · rw [respView_raise]
      rfl
  have h2 := (respView_releaseUses r.uses _).trans h1
  exact (congrArg (fun v : MemState × NMap RxRec × NMap RespRec => (v.1, mapErase v.2.1 (msgKey qpn msn), v.2.2)) h2 :)

/-- The status with which a message completes. -/
def endStatus (r : RxRec) (s : State) : Nat := if r.status != 0 then r.status else if rxTagOk s r then 0 else stAuthFail

/-- A whole READ or ATOMIC gives up its record and completes its MSN; a Herd's words are looked at again. -/
theorem rxFinish_executed {s : State} {qpn msn : Nat} {r : RxRec} (hr : recOf s qpn msn = some r) (hw : recWhole r = true)
    (hacc : s.pc.acc = []) (h2 : r.kind ≠ 2) (h7 : r.kind ≠ 7) :
    ∃ fuel, rxFinish qpn msn s = msnDone qpn msn (endStatus r s) (recordGone qpn msn r s) ∨
      rxFinish qpn msn s = herdTake fuel qpn (msnDone qpn msn (endStatus r s) (recordGone qpn msn r s)) := by
  have hkind : (if r.kind = 2 then updRecv qpn r.ssn (fun e => if e.status = 0 then { e with status := endStatus r s } else e)
        (recordGone qpn msn r s)
      else if r.kind = 7 && endStatus r s == 0 then
        putResp { qpn := qpn, msn := msn, kind := 8, cells := 0, ready := false, lineOff := 0, data := (attnParams r).2.2.2
                  runs := [((attnParams r).1, (attnParams r).2.1, (attnParams r).2.2.1)]
                  lastTick := (recordGone qpn msn r s).tick.count.toNat } (recordGone qpn msn r s)
      else recordGone qpn msn r s) = recordGone qpn msn r s := by
    rw [if_neg h2, if_neg (by rw [decide_eq_false h7, Bool.false_and]; exact Bool.false_ne_true)]
  refine ⟨((qpOf (msnDone qpn msn (endStatus r s) (recordGone qpn msn r s)) qpn).map (fun q => q.recvs.length)).getD 0, ?_⟩
  have hform : rxFinish qpn msn s =
      if ((qpOf (msnDone qpn msn (endStatus r s) (recordGone qpn msn r s)) qpn).bind (·.herd)).isSome then
        herdTake (((qpOf (msnDone qpn msn (endStatus r s) (recordGone qpn msn r s)) qpn).map (fun q => q.recvs.length)).getD 0) qpn
          (msnDone qpn msn (endStatus r s) (recordGone qpn msn r s))
      else msnDone qpn msn (endStatus r s) (recordGone qpn msn r s) := by
    rw [← hkind]
    unfold rxFinish
    rw [hr]
    refine (if_neg (by rw [hw]; decide)).trans ?_
    rw [awaitFlush_quiet _ hacc]
    rfl
  rw [hform]
  split
  · exact .inr rfl
  · exact .inl rfl

theorem respView_rxFinish {s : State} {qpn msn : Nat} {r : RxRec} (hr : recOf s qpn msn = some r) (hw : recWhole r = true)
    (hacc : s.pc.acc = []) (h2 : r.kind ≠ 2) (h7 : r.kind ≠ 7) :
    respView (rxFinish qpn msn s) = (s.mem, mapErase s.tp.recs (msgKey qpn msn), s.tp.resps) := by
  have hdone := (respView_msnDone qpn msn (endStatus r s) (recordGone qpn msn r s)).trans (respView_recordGone qpn msn r s)
  obtain ⟨fuel, h | h⟩ := rxFinish_executed hr hw hacc h2 h7
  · rw [h, hdone]
  · rw [h, respView_herdTake, hdone]

/-! ### Execution (R168, R171) -/

theorem mayExecute_some {s : State} {qpn msn kind : Nat} {r : RxRec} (h : mayExecute s qpn msn kind = some r) :
    recOf s qpn msn = some r ∧ r.kind = kind ∧ r.got.length = r.cnt + 1 ∧ ∃ q, qpOf s qpn = some q := by
  unfold mayExecute at h
  split at h
  · rename_i q r' hq hr
    split at h
    · rename_i hall
      obtain rfl := Option.some.inj h
      simp only [Bool.and_eq_true, beq_iff_eq] at hall
      exact ⟨hr, hall.1.1.1.2, hall.2, q, hq⟩
    · exact absurd h (by simp)
  · exact absurd h (by simp)

theorem respOf_putResp (p : RespRec) (s : State) : respOf (putResp p s) p.qpn p.msn = some p := mapGet_mapSet_same _ _ _

theorem recWhole_executed {r : RxRec} {f : RxRec → RxRec} (hg : (f r).got.length = (f r).cnt + 1) (he : (f r).executed = true) :
    recWhole (f r) = true := by
  rw [recWhole, hg, he]
  simp

theorem readExecute_runs {s : State} {qpn msn : Nat} {r : RxRec} {p : BitVec 512} {bs : List Byte}
    (hm : mayExecute s qpn msn 3 = some r) (hp : r.pays = [(0, p)]) (hruns : readRuns s (rxOwner qpn msn) [readRun p] = some (bs, 0))
    (htx : qpSlot s qpn 0 = none) :
    ∃ x, readExecute qpn msn s = rxFinish qpn msn (putResp x
        (updRec qpn msn (fun r => { r with executed := true, status := stOk }) (muleMove false false true bs s))) ∧
      x.qpn = qpn ∧ x.msn = msn ∧ x.kind = 4 ∧ x.data = bs ∧ x.status = 0 ∧ x.next = 0 := by
  have htx' : qpSlot (muleMove false false true bs s) qpn 0 = none :=
    (congrArg (fun t : State => qpSlot t qpn 0) (beyondMules_muleMove false false true bs s) :).trans htx
  unfold readExecute
  rw [hm]
  simp only [hp, List.map_cons, List.map_nil, List.foldl_cons, List.foldl_nil, List.takeWhile_nil, List.dropWhile_nil, List.nil_append,
    List.append_nil, hruns, htx', Option.any_none, Bool.false_eq_true, if_false, if_true]
  exact ⟨_, rfl, rfl, rfl, rfl, rfl, rfl, rfl⟩

theorem atomicPerform_runs {s : State} {qpn msn : Nat} {r : RxRec} {b : List Byte} (hm : mayExecute s qpn msn 5 = some r)
    (hb : b = payBytes ((mapGet r.pays 0).getD 0)) (ho : tierOpen s (leAt b 0 8 / 2 ^ 41) (leAt b 0 8 % 2 ^ 41) (leAt b 8 1)) :
    ∃ t x, atomicPerform qpn msn s = rxFinish qpn msn (sendAtomicResp qpn msn
        (bytesAt s.mem.bytes (leAt b 0 8 % 2 ^ 41) (leAt b 8 1)) (putResp x
          (updRec qpn msn (fun r => { r with executed := true, status := stOk }) t))) ∧
      x.qpn = qpn ∧ x.msn = msn ∧ x.kind = 6 ∧ x.data = bytesAt s.mem.bytes (leAt b 0 8 % 2 ^ 41) (leAt b 8 1) ∧
      beyondStream t = beyondStream { s with mem := t.mem } ∧
      t.mem.bytes = bytesSet s.mem.bytes (leAt b 0 8 % 2 ^ 41)
        (leBytes (leAt b 8 1) (atomicNew (leAt b 9 1) (leAt b 8 1)
          (leNat (bytesAt s.mem.bytes (leAt b 0 8 % 2 ^ 41) (leAt b 8 1))) (leAt b 16 16) (leAt b 32 16))) (fun _ => true) := by
  have hread : dataRead s (rxOwner qpn msn) (leAt b 0 8 / 2 ^ 41) (leAt b 0 8 % 2 ^ 41) (leAt b 8 1)
      = .got (bytesAt s.mem.bytes (leAt b 0 8 % 2 ^ 41) (leAt b 8 1)) false := by
    unfold dataRead
    simp only []
    rw [ho.2.1]
    simp only []
    rw [if_neg (not_not_intro ho.1), if_neg (by rw [ho.2.2.1]; exact Bool.false_ne_true), tierRead_open ho]
  generalize hnew : atomicNew (leAt b 9 1) (leAt b 8 1) (leNat (bytesAt s.mem.bytes (leAt b 0 8 % 2 ^ 41) (leAt b 8 1)))
    (leAt b 16 16) (leAt b 32 16) = new
  obtain ⟨t, hwrite, hbytes, hkeep, -⟩ := dataWrite_open (s := s) (bs := leBytes (leAt b 8 1) new) (.rx qpn msn)
    (by rw [length_leBytes]; exact ho)
  refine ⟨t, { qpn := qpn, msn := msn, kind := 6, data := bytesAt s.mem.bytes (leAt b 0 8 % 2 ^ 41) (leAt b 8 1), cells := 1, next := 1
               lastTick := t.tick.count.toNat }, ?_, rfl, rfl, rfl, rfl, hkeep, hbytes⟩
  unfold atomicPerform
  rw [hm]
  simp only [← hb, hread, Bool.false_eq_true, if_false, hnew, hwrite]
  rw [if_neg (show ¬ stOk ≠ 0 from fun h => h rfl)]
  rfl

/-! ### What has not come, and what came and stays incomplete (R176) -/

theorem readHdr_mkHdr_kind (h : Hdr) (hk : h.kind < 16) (hq : h.dqpn < 65536) : (readHdr (mkHdr h)).kind = h.kind := by
  show fld (BitVec.toNat (BitVec.ofNat 96 _)) 35 32 = h.kind
  rw [BitVec.toNat_ofNat, fld]
  omega

theorem missingChunks_one {cnt : Nat} {got : List Nat} (hc : cnt < 256) (hm : ∃ i, i ≤ cnt ∧ i ∉ got) : missingChunks cnt got = [0] := by
  obtain ⟨i, hi, hgot⟩ := hm
  unfold missingChunks
  rw [Nat.div_eq_of_lt hc]
  refine List.filter_eq_self.mpr fun ch hch => ?_
  have h0 : ch = 0 := Nat.lt_one_iff.mp (List.mem_range.mp hch)
  refine List.any_eq_true.mpr ⟨i, List.mem_range.mpr (by omega), ?_⟩
  simp [h0, hi, hgot]

theorem leBytes_leNat (n : Nat) (l : List Byte) (h : l.length ≤ n) : leBytes n (leNat l) = l ++ List.replicate (n - l.length) 0 := by
  induction l generalizing n with
  | nil =>
    clear h
    induction n with
    | zero => rfl
    | succ k ih => exact congrArg (List.cons 0) ih
  | cons b t ih =>
    obtain ⟨k, rfl⟩ : ∃ k, n = k + 1 := ⟨n - 1, by simp only [List.length_cons] at h; omega⟩
    have hb := b.isLt
    have hbyte : BitVec.ofNat 8 (b.toNat + 256 * leNat t) = b := by
      apply BitVec.eq_of_toNat_eq
      rw [BitVec.toNat_ofNat]
      omega
    have hrest : (b.toNat + 256 * leNat t) / 256 = leNat t := by omega
    rw [leNat, leBytes, hbyte, hrest, ih k (Nat.le_of_succ_le_succ h), List.length_cons, Nat.succ_sub_succ]
    rfl

theorem leNat_lt (l : List Byte) : leNat l < 256 ^ l.length := by
  induction l with
  | nil => exact Nat.one_pos
  | cons b t ih =>
    have hb := b.isLt
    rw [leNat, List.length_cons, Nat.pow_succ]
    omega

/-- The bytes of a payload made of at most 64 bytes. -/
theorem payBytes_mkPay {l : List Byte} (h : l.length ≤ 64) : payBytes (mkPay l) = l ++ List.replicate (64 - l.length) 0 := by
  have hlt : leNat l < 2 ^ 512 := by
    calc leNat l < 256 ^ l.length := leNat_lt l
      _ ≤ 256 ^ 64 := Nat.pow_le_pow_right (by decide) h
      _ = 2 ^ 512 := (Nat.pow_mul 2 8 64).symm
  rw [payBytes, mkPay, List.take_of_length_le h, BitVec.toNat_ofNat, Nat.mod_eq_of_lt hlt, leBytes_leNat 64 l h]

/-- The byte behind the four of the MSN. -/
theorem leAt_mkPay_fifth {m : Nat} {b : Byte} {rest : List Byte} (h : rest.length ≤ 59) :
    leAt (payBytes (mkPay (leBytes 4 m ++ (b :: rest)))) 4 1 = b.toNat := by
  rw [payBytes_mkPay (by rw [List.length_append, length_leBytes, List.length_cons]; omega), List.append_assoc, leAt, slice,
    List.drop_left' (length_leBytes 4 m)]
  rfl

/-- The payload of a NACK. -/
def nackBytes (msn kind chunk : Nat) (received : List Nat) : List Byte :=
  leBytes 4 (msn % 2 ^ 32) ++ leBytes 1 kind ++ leBytes 1 chunk ++ leBytes 1 0 ++ [0] ++
    leBytes 32 (received.foldl (fun acc j => acc + 2 ^ j) 0)

theorem nackBytes_kind (msn chunk : Nat) (received : List Nat) : leAt (payBytes (mkPay (nackBytes msn 0 chunk received))) 4 1 = 0 := by
  have h : nackBytes msn 0 chunk received = leBytes 4 (msn % 2 ^ 32) ++
      ((0 : Byte) :: (leBytes 1 chunk ++ leBytes 1 0 ++ [0] ++ leBytes 32 (received.foldl (fun acc j => acc + 2 ^ j) 0))) := by
    simp only [nackBytes, List.append_assoc]
    rfl
  rw [h, leAt_mkPay_fifth (by simp only [List.length_append, length_leBytes, List.length_singleton]; decide)]
  rfl

/-- A control cell to a queue pair's peer. -/
def ctlTo (q : Qp) (u : Nat × Nat × Nat) (qpn kind msn : Nat) (pay : List Byte) (s : State) : CtlCell :=
  ⟨q.peerNode, q.peerUnit, mkHdr ⟨0, q.peerNode, u.1, u.2.2, ownEpoch s u.2.1 u.2.2, kind, q.peerQpn, msn % 65536⟩, mkPay pay, some qpn⟩

theorem sendCtl_queues {s : State} {q : Qp} {u : Nat × Nat × Nat} (hu : instUnit s q.inst = some u) (qpn kind msn : Nat)
    (pay : List Byte) : sendCtl qpn q kind msn pay s =
      { s with tp := { s.tp with control := s.tp.control ++ [ctlTo q u qpn kind msn pay s] } } := by
  rw [sendCtl, hu]
  rfl

/-- A NACK of missing cells is one more control cell, and is counted. -/
theorem sendNack_missing {s : State} {qpn msn chunk : Nat} {received : List Nat} {q : Qp} {u : Nat × Nat × Nat} (hq : qpOf s qpn = some q)
    (hu : instUnit s q.inst = some u) :
    sendNack qpn msn 0 chunk false received s = bump Reg.GX_TP_NACK_CNT { s with tp := { s.tp with
      control := s.tp.control ++ [ctlTo q u qpn 10 msn (nackBytes msn 0 chunk received) s] } } := by
  rw [← sendCtl_queues hu]
  unfold sendNack
  rw [hq]
  rfl

/-! ### A request of one cell -/

theorem runRejected_of_tierView {s u : State} (h : tierView u = tierView s) (fa n : Nat) : runRejected u fa n = runRejected s fa n := by
  simp only [runRejected, accessStatus_of_tierView h]

/-- A request cell that R178 does not refuse is kept, and nothing else of its record changes. -/
theorem applyRequest_kept {s : State} {qpn msn kind : Nat} {c : CellIn} (hk : c.kind = kind)
    (h3 : kind = 3 → runRejected s (leAt (payBytes c.pay) 0 8) (leAt (payBytes c.pay) 8 4) = false)
    (h5 : kind = 5 → accessStatus s (leAt (payBytes c.pay) 0 8 / 2 ^ 41) (leAt (payBytes c.pay) 0 8 % 2 ^ 41) = 0) :
    applyRequest qpn msn c s = updRec qpn msn (fun r => { r with pays := mapSet r.pays c.idx c.pay }) s := by
  unfold applyRequest
  generalize payBytes c.pay = b at h3 h5
  extract_lets s1 _ rejected
  have hview : tierView s1 = tierView s := rfl
  refine if_neg ?_
  simp only [rejected]
  split
  · rename_i hk3
    rw [runRejected_of_tierView hview, h3 (hk.symm.trans hk3)]
    exact Bool.false_ne_true
  · rename_i hk5
    rw [accessStatus_of_tierView hview, h5 (hk.symm.trans hk5)]
    decide
  · exact Bool.false_ne_true

theorem applyCell_request {qpn msn : Nat} {c : CellIn} {s : State} (h : c.kind = 3 ∨ c.kind = 5) :
    applyCell qpn msn c s = applyRequest qpn msn c s := by
  unfold applyCell
  obtain h | h := h <;> rw [h] <;> rfl

/-- A READ or ATOMIC that waits for its execution is not whole. -/
theorem recWhole_waiting {r : RxRec} {k : Nat} (h : k = 3 ∨ k = 5) (hk : r.kind = k) (hr : (r.executed || r.status != 0) = false) :
    recWhole r = false := by
  rw [recWhole, Bool.or_assoc, hr, hk]
  obtain rfl | rfl := h <;> simp

theorem sendCtl_frame (qpn : Nat) (q : Qp) (kind msn : Nat) (pay : List Byte) (s : State) :
    ∃ l, sendCtl qpn q kind msn pay s = { s with tp := { s.tp with control := l } } := by
  unfold sendCtl
  split
  · exact ⟨_, rfl⟩
  · exact ⟨_, rfl⟩

theorem sendAtomicResp_frame (qpn msn : Nat) (old : List Byte) (s : State) :
    ∃ l, sendAtomicResp qpn msn old s = { s with tp := { s.tp with control := l } } := by
  unfold sendAtomicResp
  split
  · exact ⟨_, rfl⟩
  · exact sendCtl_frame _ _ _ _ _ s

/-- The response of an executed request stands, and its record is gone. -/
theorem rxFinish_response {s : State} {qpn msn : Nat} {r : RxRec} {x : RespRec} (hr : recOf s qpn msn = some r)
    (hw : recWhole r = true) (hacc : s.pc.acc = []) (hk : r.kind = 3 ∨ r.kind = 5) (hx : respOf s qpn msn = some x) :
    respOf (rxFinish qpn msn s) qpn msn = some x ∧ recOf (rxFinish qpn msn s) qpn msn = none ∧ (rxFinish qpn msn s).mem = s.mem := by
  have hview := respView_rxFinish hr hw hacc (by omega) (by omega)
  refine ⟨?_, ?_, congrArg Prod.fst hview⟩
  · exact (congrArg (fun v : MemState × NMap RxRec × NMap RespRec => mapGet v.2.2 (msgKey qpn msn)) hview :).trans hx
  · exact (congrArg (fun v : MemState × NMap RxRec × NMap RespRec => mapGet v.2.1 (msgKey qpn msn)) hview :).trans
      (mapGet_mapErase_same _ _)

theorem recordTimeout_drops {s : State} {qpn msn : Nat} {r : RxRec} (hr : recOf s qpn msn = some r) (hlen : r.got.length ≤ r.cnt)
    (hexp : recExpired s r.lastTick = true) : recOf (recordTimeout qpn msn s) qpn msn = none ∧ (recordTimeout qpn msn s).mem = s.mem := by
  have hmem : (releaseUses r.uses s).mem = s.mem := (congrArg State.mem (releaseUses_beyond r.uses s) :)
  unfold recordTimeout
  rw [hr]
  simp only []
  rw [if_pos (by rw [decide_eq_true hlen, hexp]; rfl)]
  split
  · split
    · exact ⟨mapGet_mapErase_same _ _, hmem⟩
    · exact ⟨mapGet_mapErase_same _ _, hmem⟩
  · exact ⟨mapGet_mapErase_same _ _, hmem⟩

/-- Settles O36: a request waits in its record; its execution makes the response that it finds, and frees the record. -/
theorem requestsAreRecordedAndExecuted : Obligations.RequestsAreRecordedAndExecuted := by
  unfold Obligations.RequestsAreRecordedAndExecuted
  refine ⟨?_, ?_, ?_, ?_, ?_⟩
  · intro c' port kind slot c q s hc hin hslot hnew hcnt hidx hbad h3 h5
    obtain ⟨u, hu, hkind, hkeep, -, hnode⟩ := receiveCell_given hslot (fun c s => respCell c {} s)
    have hview := tierView_of_received hkeep hnode
    have hnew' := hnew.of_beyondStream hkeep
    have hrec := recOf_recorded (r := freshRec c q) u rfl rfl
    have hview' : tierView (recorded c q (freshRec c q) u) = tierView s := (tierView_recorded c q _ u).trans hview
    have happly := applyRequest_kept (s := recorded c q (freshRec c q) u) (qpn := c.dqpn) (msn := rxMsn q c) hkind
      (fun h => by rw [runRejected_of_tierView hview']; exact h3 h) (fun h => by rw [accessStatus_of_tierView hview']; exact h5 h)
    have hexec : exec (c' slot) s = .next (receiveCell kind port slot (fun c s => respCell c {} s) s) := by
      obtain ⟨rfl, rfl⟩ | ⟨rfl, rfl⟩ := hc
      · exact next_whenOk hin
      · exact next_whenOk hin
    have hkinds : c.kind = 3 ∨ c.kind = 5 := by rw [hkind]; exact hc.imp And.left And.left
    have hpays := recOf_updRec_same hrec (fun r => { r with pays := mapSet r.pays c.idx c.pay })
    have hresp : respCell c {} u = updRec c.dqpn (rxMsn q c) (fun r => { r with pays := mapSet r.pays c.idx c.pay })
        (recorded c q (freshRec c q) u) := by
      rw [respCell_new hnew' hbad (by omega) (by omega) (by omega) (if_neg (by omega)) rfl rfl rfl rfl rfl rfl,
        show applyCell c.dqpn (rxMsn q c) c (recorded c q (freshRec c q) u) = _ from (applyCell_request hkinds).trans happly]
      exact rxFinish_partial hpays (recWhole_waiting hkinds rfl rfl)
    refine ⟨_, _, hexec.trans (congrArg Host.Outcome.next (hu.trans hresp)), hpays, congrArg (fun i => [i]) hidx,
      congrArg (fun i => [(i, c.pay)]) hidx, rfl, rfl, hnew'.context, (congrArg State.mem hkeep :)⟩
  · intro qpn msn r p bs s hw hm hp hruns htx hacc hq hmsn
    obtain ⟨hr, hkind, hgot, -⟩ := mayExecute_some hm
    obtain ⟨x, hx, hxq, hxm, hxk, hxd, hxs, hxn⟩ := readExecute_runs hm hp hruns htx
    obtain ⟨htp, hmem⟩ := muleMove_keeps false false true bs s
    have hacc' : (muleMove false false true bs s).pc.acc = [] :=
      (congrArg (fun t : State => t.pc.acc) (beyondMules_muleMove false false true bs s) :).trans hacc
    have hr' := recOf_updRec_same ((recOf_of_tp htp qpn msn).trans hr) (fun r => { r with executed := true, status := stOk })
    have hresp := respOf_putResp x (updRec qpn msn (fun r => { r with executed := true, status := stOk }) (muleMove false false true bs s))
    rw [hxq, hxm] at hresp
    obtain ⟨h1, h2, h3⟩ := rxFinish_response (s := putResp x (updRec qpn msn (fun r => { r with executed := true, status := stOk })
      (muleMove false false true bs s))) hr' (recWhole_executed (f := fun r => { r with executed := true, status := stOk }) hgot rfl) hacc'
      (.inl hkind) hresp
    exact ⟨_, x, (next_whenOk hw).trans (congrArg Host.Outcome.next hx), h1, hxk, hxd, hxs, hxn, h2, h3.trans hmem⟩
  · intro qpn msn r b s hw hm hb hsize hacc hopen
    obtain ⟨hr, hkind, hgot, q, hq⟩ := mayExecute_some hm
    obtain ⟨t, x, hx, hxq, hxm, hxk, hxd, hkeep, hbytes⟩ := atomicPerform_runs hm hb hopen
    have htp : t.tp = s.tp := (congrArg State.tp hkeep :)
    have hacc' : t.pc.acc = [] := (congrArg (fun t : State => t.pc.acc) hkeep :).trans hacc
    have hr' := recOf_updRec_same ((recOf_of_tp htp qpn msn).trans hr) (fun r => { r with executed := true, status := stOk })
    have hresp := respOf_putResp x (updRec qpn msn (fun r => { r with executed := true, status := stOk }) t)
    rw [hxq, hxm] at hresp
    obtain ⟨l, hl⟩ := sendAtomicResp_frame qpn msn (bytesAt s.mem.bytes (leAt b 0 8 % 2 ^ 41) (leAt b 8 1))
      (putResp x (updRec qpn msn (fun r => { r with executed := true, status := stOk }) t))
    rw [hl] at hx
    obtain ⟨h1, h2, h3⟩ := rxFinish_response (s := { putResp x (updRec qpn msn (fun r => { r with executed := true, status := stOk }) t)
      with tp := { (putResp x (updRec qpn msn (fun r => { r with executed := true, status := stOk }) t)).tp with control := l } }) hr'
      (recWhole_executed (f := fun r => { r with executed := true, status := stOk }) hgot rfl) hacc' (.inr hkind) hresp
    exact ⟨_, x, (next_whenOk hw).trans (congrArg Host.Outcome.next hx), h1, hxk, hxd, h2, (congrArg MemState.bytes h3).trans hbytes⟩
  · intro qpn msn r q u s hw hr hcnt hlen hmiss hdue hq hu hp
    have hnack : missingNack qpn msn s = sendNack qpn msn 0 0 false (chunkBits r.got 0) s := by
      rw [missingNack, hr]
      simp only []
      rw [if_pos (by rw [decide_eq_true hlen, hdue]; rfl), missingChunks_one hcnt hmiss]
      rfl
    have hexec := (next_whenOk (f := fun s => missingNack qpn msn s) hw).trans
      (congrArg Host.Outcome.next (hnack.trans (sendNack_missing hq hu)))
    exact ⟨_, _, _, hexec, counted_from (counted_bump _ _) rfl, rfl, readHdr_mkHdr_kind _ (by show 10 < 16; decide) hp,
      nackBytes_kind msn 0 _, hr⟩
  · intro qpn msn r s hw hr hlen hexp
    obtain ⟨hgone, hmem⟩ := recordTimeout_drops hr hlen hexp
    exact ⟨_, next_whenOk hw, hgone, hmem⟩

end Sys2Proof.Machine
end

section
/-! PROOFS. RECV entries are fetched and completed (R138, R168, R172). -/

namespace Sys2Proof.Machine

/-- The receive entry that a slot's bytes make. -/
def recvOf (ssn slot : Nat) (e : BitVec 512) (g : Ring) : RecvEntry :=
  { ssn := ssn, slot := slot, buf := ef e 16 8, len := entryLength e, space := g.space }

/-- The ring with a fetched receive entry. -/
def recvFetched (slot : Nat) (e : BitVec 512) (g : Ring) : Ring :=
  { g with ops := g.ops ++ [{ slot := slot, entry := e, head := slot, started := true, malformed := none }]
           nextFetch := g.nextFetch + 1, reserved := false }

theorem fetchRecvs_next {fuel qpn ssn : Nat} {x : RecvReads} {s : State} {q : Qp} {g c : Ring} (hq : qpOf s qpn = some q)
    (hssn : ssn = q.recvSsn + q.recvs.length) (hg : ringOf s q.rq = some g) (hc : ringOf s g.cq = some c) (hshut : g.shutting = none)
    (hinst : instWorks s g.inst = true) (hres : g.reserved = true)
    (hread : slotReadFails s g (g.nextFetch % ringSize g) 64 x.failed = false)
    (hown : (slotRead s g (g.nextFetch % ringSize g) (x.slots.headD 0)).getLsbD 0 = true)
    (hgood : recvMalformed (slotRead s g (g.nextFetch % ringSize g) (x.slots.headD 0)) = none) :
    fetchRecvs (fuel + 1) qpn ssn x s =
      fetchRecvs fuel qpn ssn { x with slots := x.slots.drop 1 }
        (updQp qpn (fun q => { q with recvs := q.recvs ++ [recvOf ssn (g.nextFetch % ringSize g)
            (slotRead s g (g.nextFetch % ringSize g) (x.slots.headD 0)) g] })
          (updRing q.rq (recvFetched (g.nextFetch % ringSize g) (slotRead s g (g.nextFetch % ringSize g) (x.slots.headD 0))) s)) := by
  generalize hslot : g.nextFetch % ringSize g = slot at *
  generalize he : slotRead s g slot (x.slots.headD 0) = e at *
  rw [fetchRecvs, hq]
  simp only []
  rw [if_neg (by omega), hg]
  simp only []
  rw [hc]
  simp only []
  rw [if_neg (by rw [hshut, hinst]; decide), hres]
  simp only [Bool.not_true, Bool.false_and, Bool.false_eq_true, if_false, if_true, hslot, hread, he, hown, hgood]
  rw [← hssn]
  rfl

theorem fetchRecvs_there {fuel qpn ssn : Nat} {x : RecvReads} {s : State} {q : Qp} (hq : qpOf s qpn = some q)
    (h : ssn < q.recvSsn + q.recvs.length) : fetchRecvs (fuel + 1) qpn ssn x s = (s, true) := by
  rw [fetchRecvs, hq]
  exact if_pos h

/-- The completion of a SEND that stands whole in its entry. -/
def recvCompletion (q : Qp) (e : RecvEntry) (total : Nat) : Completion :=
  { status := stOk, recv := true, imm := e.imm, aux := e.aux.getD (q.peerNode * 64 + q.peerUnit + q.peerQpn * 2 ^ 32), bytes := total }

theorem recvComplete_whole {qpn total : Nat} {q : Qp} {e : RecvEntry} {rest : List RecvEntry} {s : State} (hq : qpOf s qpn = some q)
    (hrecvs : q.recvs = e :: rest) (htotal : e.total = some total) (hst : q.state = .ready) (hherd : q.herd = none)
    (hlast : e.lastMsn < q.expected) (hacc : s.pc.acc = []) (hfault : e.fault = none) (hstat : e.status = 0) (hlen : total ≤ e.len) :
    recvComplete qpn s = updQp qpn (fun q => { q with recvs := rest, recvSsn := q.recvSsn + 1 })
      (finishOp q.rq e.slot (recvCompletion q e total) s) := by
  have hflush : (unflushed s (.rx qpn 0)).isEmpty = true := by
    rw [unflushed, hacc]
    rfl
  unfold recvComplete
  rw [hq]
  simp only [hrecvs, htotal, hfault, hstat]
  rw [if_neg (by rw [hst, hherd, hflush]; simp [hlast]), if_neg (Nat.not_lt.mpr hlen), if_pos trivial]
  rfl

/-- The one entry of a chain gets its completion as it is, with the entry's tag. -/
theorem opAt_finishOp_single {ring slot : Nat} {g : Ring} {o : Op} {c : Completion} {s : State} (hg : ringOf s ring = some g)
    (ho : opAt s ring slot = some o) (hh : o.head = slot) (hd : o.done = none)
    (hchain : g.ops.filter (fun x => x.head == slot) = [o]) :
    ∃ tag, opAt (finishOp ring slot c s) ring slot = some { o with done := some { c with tag := tag } } := by
  have hfind : g.ops.find? (fun x => x.slot == slot) = some o := by
    rw [opAt, hg] at ho
    exact ho
  have hslot : o.slot = slot := by simpa using List.find?_some hfind
  refine ⟨ef o.entry 8 8, ?_⟩
  unfold finishOp opAt
  rw [ringOf_updRing, if_pos rfl, hg]
  simp only [Option.map_some, Option.bind_some, hchain, List.head?_cons, Option.getD_some, List.getLast?_singleton]
  rw [find_map_slot _ _ _ (fun x => by split <;> rfl), hfind, Option.map_some, if_pos ⟨hh, hd⟩, if_pos rfl]

/-- Settles O37: the entry in the ring is fetched under the next SSN; the oldest SEND's entry ends. -/
theorem receiveEntriesAreFetchedAndCompleted : Obligations.ReceiveEntriesAreFetchedAndCompleted := by
  unfold Obligations.ReceiveEntriesAreFetchedAndCompleted
  refine ⟨?_, ?_⟩
  · intro qpn x q g c s hw hq hrq hst hlen hg hc hne hshut hinst hres hread hown hgood
    have hstep := fetchRecvs_next (fuel := 1) (x := x) hq rfl hg hc hshut hinst hres hread hown hgood
    generalize hslot : g.nextFetch % ringSize g = slot at *
    generalize he : slotRead s g slot (x.slots.headD 0) = e at *
    have hq' : qpOf (updRing q.rq (recvFetched slot e) s) qpn = some q := hq
    have hqp : ∀ f, qpOf (updQp qpn f (updRing q.rq (recvFetched slot e) s)) qpn = some (f q) := by
      intro f
      rw [qpOf_updQp, if_pos rfl, hq', Option.map_some]
    rw [fetchRecvs_there (hqp _) (by simp only [List.length_append, List.length_singleton]; omega)] at hstep
    have hexec : exec (.recv qpn x) s = .next (updQp qpn (fun p => { p with recvs := p.recvs ++
        [recvOf (q.recvSsn + q.recvs.length) slot e g] }) (updRing q.rq (recvFetched slot e) s)) := by
      refine (next_whenOk hw).trans (congrArg Host.Outcome.next ?_)
      rw [hq]
      simp only []
      rw [if_neg (by simp [hrq, hst]; omega), hstep]
    exact ⟨_, _, _, _, hexec, hqp _, rfl, rfl, rfl, rfl, rfl, rfl, ringOf_updRing_same hg _, rfl, rfl, rfl⟩
  · intro qpn total q e rest o s hw hq hrecvs htotal hst hherd hlast hacc hfault hstat hlen ho hh hd hchain
    obtain ⟨g, hg, -⟩ := Option.bind_eq_some_iff.mp ho
    obtain ⟨tag, hop⟩ := opAt_finishOp_single (c := recvCompletion q e total) hg ho hh hd (hchain g hg)
    have hexec := (next_whenOk (f := recvComplete qpn) hw).trans
      (congrArg Host.Outcome.next (recvComplete_whole hq hrecvs htotal hst hherd hlast hacc hfault hstat hlen))
    refine ⟨_, { q with recvs := rest, recvSsn := q.recvSsn + 1 }, _, _, hexec, ?_, rfl, rfl, hop, rfl, rfl, rfl, rfl, rfl, rfl⟩
    rw [qpOf_updQp, if_pos rfl, show qpOf (finishOp q.rq e.slot (recvCompletion q e total) s) qpn = some q from hq]
    rfl

end Sys2Proof.Machine
end

section
/-! PROOFS. What a queue pair's requester takes: acknowledgements, NACKs, and the end of a message (R164, R180 to R186). -/

namespace Sys2Proof.Machine

/-! ### Messages -/

theorem msgOf_updMsg {s : State} {qpn msn : Nat} {m : Msg} (h : msgOf s qpn msn = some m) (f : Msg → Msg) :
    msgOf (updMsg qpn msn f s) qpn msn = some (f m) := by
  rw [msgOf, updMsg, mapGet_mapModify, if_pos rfl]
  exact congrArg (Option.map f) h

theorem mapGet_filter_mapErase {α : Type} (p : Nat × α → Bool) (m : NMap α) (k : Nat) :
    mapGet ((mapErase m k).filter p) k = none := by
  rw [mapErase, List.filter_filter, show (fun e : Nat × α => p e && e.1 != k) = fun e => e.1 != k && p e from funext fun _ => Bool.and_comm _ _,
    ← List.filter_filter]
  exact mapGet_mapErase_same _ _

theorem reqQp_some {c : CellIn} {s : State} {q : Qp} (h : reqQp c s = some q) : qpOf s c.dqpn = some q := by
  obtain ⟨x, hx, hif⟩ := Option.bind_eq_some_iff.mp h
  split at hif
  · rw [hx, Option.some.inj hif]
  · exact absurd hif (by simp)

theorem fromPeer.of_beyondStream {s u : State} {c : CellIn} {q : Qp} (h : fromPeer s c q) (hk : beyondStream u = beyondStream s) :
    fromPeer u c q :=
  ⟨(congrArg (fun t : State => reqQp c t) hk :).trans h.1, h.2⟩

/-! ### The end of the one message of an operation (R184) -/

/-- A run removed: its messages go, the rings and the memories stay. -/
theorem removeRun_removes {s : State} {key : Nat} {r : OpRun} (hr : runOf s key = some r) :
    runOf (removeRun key s) key = none ∧ (removeRun key s).q = s.q ∧ (removeRun key s).mem = s.mem ∧
      (removeRun key s).tp = { s.tp with runs := mapErase s.tp.runs key, msgs := s.tp.msgs.filter (fun e => e.2.run != key) } := by
  have hrel := releaseUses_beyond (r.tiles.map Tile.uses).flatten s
  have htp : (releaseUses (r.tiles.map Tile.uses).flatten s).tp = s.tp := (congrArg State.tp hrel :)
  unfold removeRun
  rw [hr]
  refine ⟨mapGet_mapErase_same _ _, (congrArg State.q hrel :), (congrArg State.mem hrel :), ?_⟩
  show { (releaseUses (r.tiles.map Tile.uses).flatten s).tp with
    runs := mapErase (releaseUses (r.tiles.map Tile.uses).flatten s).tp.runs key
    msgs := (releaseUses (r.tiles.map Tile.uses).flatten s).tp.msgs.filter (fun e => e.2.run != key) } = _
  rw [htp]

/-- A run with no flush to wait for ends at once. -/
theorem finishRun_quiet {s : State} {key : Nat} {r : OpRun} (c : Completion) (hr : runOf s key = some r) (hacc : s.pc.acc = []) :
    finishRun key c s = removeRun key (finishOp r.ring r.slot c s) := by
  unfold finishRun
  rw [hr]
  simp only [awaitFlush_quiet _ hacc, List.isEmpty_nil, if_true]

/-- A run whose one tile is done with a status. -/
def oneTileDone (r : OpRun) (tl : Tile) (status : Nat) : OpRun :=
  { r with tiles := [{ tl with state := .done, status := status, uses := [] }] }

theorem runOver_oneTileDone (r : OpRun) (tl : Tile) (status : Nat) : runOver (oneTileDone r tl status) = true := rfl

theorem runCompletion_oneTileDone {r : OpRun} {tl : Tile} (hown : tl.own = 0) (hstop : r.stopped = none) (hcut : r.cut = none)
    (hforce : r.force = 0) : (runCompletion (oneTileDone r tl stOk)).status = stOk := by
  have hst : runStatus (oneTileDone r tl stOk) = stOk := by
    unfold runStatus oneTileDone
    simp [hown]
  unfold runCompletion
  rw [if_neg (show ¬ (oneTileDone r tl stOk).force ≠ 0 from not_not_intro hforce), show (oneTileDone r tl stOk).stopped = none from hstop,
    show (oneTileDone r tl stOk).cut = none from hcut]
  exact hst

/-- The state in which a message has gone and its tile is done, before its run is looked at. -/
def messageGone (qpn msn status : Nat) (m : Msg) (us : List Nat) (s : State) : State :=
  updTile m.run m.tile (fun t => { t with state := .done, status := status, uses := [] })
    (releaseUses us { s with tp := { s.tp with msgs := mapErase s.tp.msgs (msgKey qpn msn) } })

theorem msgDone_quiet {s : State} {qpn msn : Nat} {m : Msg} (status : Nat) (hm : msgOf s qpn msn = some m) (hacc : s.pc.acc = []) :
    ∃ us, msgDone qpn msn status s = checkRun m.run (messageGone qpn msn status m us s) := by
  have hflush : unflushed { s with tp := { s.tp with msgs := mapErase s.tp.msgs (msgKey qpn msn) } } (.run m.run) = [] := by
    rw [unflushed, hacc]
    rfl
  unfold msgDone
  rw [hm]
  simp only [hflush, List.isEmpty_nil, Bool.not_true, Bool.false_eq_true, if_false]
  exact ⟨_, rfl⟩

theorem messageGone_keeps (qpn msn status : Nat) (m : Msg) (us : List Nat) (s : State) :
    (messageGone qpn msn status m us s).q = s.q ∧ (messageGone qpn msn status m us s).mem = s.mem ∧
      (messageGone qpn msn status m us s).pc = s.pc ∧
      (messageGone qpn msn status m us s).tp = { s.tp with
        msgs := mapErase s.tp.msgs (msgKey qpn msn)
        runs := mapModify s.tp.runs m.run (fun r => { r with tiles := r.tiles.modify m.tile (fun t =>
          { t with state := .done, status := status, uses := [] }) }) } := by
  have hrel := releaseUses_beyond us { s with tp := { s.tp with msgs := mapErase s.tp.msgs (msgKey qpn msn) } }
  have htp : (releaseUses us { s with tp := { s.tp with msgs := mapErase s.tp.msgs (msgKey qpn msn) } }).tp =
      { s.tp with msgs := mapErase s.tp.msgs (msgKey qpn msn) } := (congrArg State.tp hrel :)
  refine ⟨(congrArg State.q hrel :), (congrArg State.mem hrel :), (congrArg State.pc hrel :), ?_⟩
  unfold messageGone updTile updRun
  rw [htp]

/-- The message of an operation's one tile is complete: the message and the run go, and the operation ends OK. -/
theorem msgDone_last {s : State} {qpn msn : Nat} {m : Msg} {r : OpRun} {tl : Tile} {o : Op} (hm : msgOf s qpn msn = some m)
    (hr : runOf s m.run = some r) (htiles : r.tiles = [tl]) (htile : m.tile = 0) (hown : tl.own = 0) (hstop : r.stopped = none)
    (hcut : r.cut = none) (hforce : r.force = 0) (hacc : s.pc.acc = []) (ho : opAt s r.ring r.slot = some o) (hh : o.head = r.slot)
    (hd : o.done = none) :
    msgOf (msgDone qpn msn stOk s) qpn msn = none ∧ runOf (msgDone qpn msn stOk s) m.run = none ∧
      endsWith (msgDone qpn msn stOk s) r.ring r.slot stOk ∧ (msgDone qpn msn stOk s).mem = s.mem := by
  obtain ⟨us, hdone⟩ := msgDone_quiet stOk hm hacc
  obtain ⟨hq, hmem, hpc, htp⟩ := messageGone_keeps qpn msn stOk m us s
  generalize messageGone qpn msn stOk m us s = u at hdone hq hmem hpc htp
  have hrun : runOf u m.run = some (oneTileDone r tl stOk) := by
    rw [runOf, htp, mapGet_mapModify, if_pos rfl, show mapGet s.tp.runs m.run = some r from hr, Option.map_some, htiles, htile]
    rfl
  have hstatus := runCompletion_oneTileDone hown hstop hcut hforce
  have hend := finishOp_endsWith (runCompletion (oneTileDone r tl stOk)) ((opAt_of_q hq r.ring r.slot).trans ho) hh hd
  rw [hstatus] at hend
  have hrun' : runOf (finishOp r.ring r.slot (runCompletion (oneTileDone r tl stOk)) u) m.run = some (oneTileDone r tl stOk) := hrun
  obtain ⟨hgone, hrq, hrmem, hrtp⟩ := removeRun_removes hrun'
  have hform : finishRun m.run (runCompletion (oneTileDone r tl stOk)) u =
      removeRun m.run (finishOp r.ring r.slot (runCompletion (oneTileDone r tl stOk)) u) :=
    finishRun_quiet (r := oneTileDone r tl stOk) _ hrun (by rw [hpc]; exact hacc)
  rw [hdone, checkRun, hrun]
  simp only [runOver_oneTileDone, if_true]
  rw [hform]
  refine ⟨?_, hgone, ?_, hrmem.trans hmem⟩
  · rw [msgOf, hrtp]
    show mapGet (u.tp.msgs.filter _) _ = none
    rw [htp]
    exact mapGet_filter_mapErase _ _ _
  · rw [endsWith, opAt_of_q hrq r.ring r.slot]
    exact hend

/-! ### Acknowledgements (R180) -/

/-- An ACK that covers one message without a status list. -/
theorem takeAck_one {c : CellIn} {q : Qp} {m : Msg} {s : State} (hp : fromPeer s c q) (hres : ackReserved (payBytes c.pay) = false)
    (hmsgs : s.tp.msgs = [(msgKey c.dqpn m.msn, m)]) (hqpn : m.qpn = c.dqpn) (hnext : m.next ≠ 0)
    (hcum : m.msn ≤ extend 32 q.nextMsn (leAt (payBytes c.pay) 0 4)) (hclean : extend 32 q.nextMsn (leAt (payBytes c.pay) 4 4) ≤ m.msn)
    (hsts : ∀ i, i < 3 → leAt (payBytes c.pay) (44 + 8 * i) 1 < 128) :
    takeAck c s = if m.kind = .read ∨ m.kind = .atomic ∨ m.kind = .attn
      then updMsg c.dqpn m.msn (fun m => { m with acked := true }) s else msgDone c.dqpn m.msn stOk s := by
  have hlist : (s.tp.msgs.filter (fun e => e.2.qpn == c.dqpn)).map Prod.snd = [m] := by
    rw [hmsgs, List.filter_cons_of_pos (by simp [hqpn])]
    rfl
  have hnone : (List.range 3).filterMap (fun i =>
      if fld (leAt (payBytes c.pay) (44 + 8 * i) 1) 7 7 = 1
      then some (extend 32 q.nextMsn (leAt (payBytes c.pay) (40 + 8 * i) 4), leAt (payBytes c.pay) (44 + 8 * i) 1 % 64)
      else none) = [] := by
    refine List.filterMap_eq_nil_iff.mpr fun i hi => if_neg ?_
    have hlt := hsts i (List.mem_range.mp hi)
    unfold fld
    omega
  unfold takeAck
  rw [hp.1]
  simp only []
  rw [if_neg (by rw [hres]; exact Bool.false_ne_true), if_neg (by rw [hp.2]; decide), hlist, hnone]
  generalize extend 32 q.nextMsn (leAt (payBytes c.pay) 0 4) = cum at *
  generalize extend 32 q.nextMsn (leAt (payBytes c.pay) 4 4) = clean at *
  rw [List.foldl_cons, List.foldl_nil, ackOne]
  simp only [List.find?_nil, Option.map_none, Option.getD_none]
  refine (if_neg (by simp [hnext, hcum, hclean])).trans ?_
  simp only [Bool.and_eq_true, Bool.or_eq_true, beq_iff_eq, or_assoc, and_true]

/-! ### NACKs (R182, R183) -/

theorem mem_insertNew_iff (l : List Nat) (n i : Nat) : i ∈ insertNew l n ↔ i ∈ l ∨ i = n := by
  unfold insertNew
  split
  · rename_i h
    exact ⟨.inl, fun hi => hi.elim id (fun e => e ▸ h)⟩
  · rw [List.mem_append, List.mem_singleton]

theorem mem_addResend (old new : List Nat) (i : Nat) : i ∈ addResend old new ↔ i ∈ old ∨ i ∈ new := by
  unfold addResend
  induction new generalizing old with
  | nil => simp
  | cons n t ih =>
    rw [List.foldl_cons, ih, mem_insertNew_iff, List.mem_cons, or_assoc]

/-- What a NACK of a kind does to its queue pair or message. -/
def nackActs (kind qpn : Nat) (q : Qp) (b : List Byte) (s : State) : State :=
  match kind with
  | 0 => nackMissing qpn q b s
  | 1 => nackRnr qpn q (extend 32 q.nextMsn (leAt b 0 4)) s
  | 2 => qpMoved qpn (extend 32 q.nextMsn (leAt b 0 4)) s
  | _ => qpError qpn s

theorem takeNack_sound {kind : Nat} {c : CellIn} {q : Qp} {s : State} (hp : fromPeer s c q) (hbad : nackBad (payBytes c.pay) = false)
    (hk : leAt (payBytes c.pay) 4 1 = kind) :
    takeNack kind c s = nackActs kind c.dqpn q (payBytes c.pay) s := by
  unfold takeNack
  generalize payBytes c.pay = b at *
  rw [hp.1]
  simp only []
  rw [if_neg (by rw [hbad]; exact Bool.false_ne_true), if_neg (by rw [hp.2]; simp [hk])]
  rfl

/-- An RNR NACK holds its message, where the limit allows one more. -/
theorem nackRnr_holds {s : State} {qpn msn : Nat} {q : Qp} {m : Msg} (hm : msgOf s qpn msn = some m) (hrnr : m.rnrAt = none)
    (hnext : m.next ≠ 0) (hlimit : qpRnrLimit s q = 255 ∨ m.rnr < qpRnrLimit s q) :
    nackRnr qpn q msn s = updMsg qpn msn (fun x => { x with
      marks := [], resend := [], rnr := x.rnr + 1, deadline := s.tick.count.toNat + qpRnrDelay s q + qpRto s q
      rnrAt := some (s.tick.count.toNat + qpRnrDelay s q) }) s := by
  unfold nackRnr
  rw [hm]
  simp only []
  rw [if_neg (by simp [hrnr, hnext]), if_neg (by
    simp only [Bool.and_eq_true, bne_iff_ne, decide_eq_true_eq, not_and]
    omega)]

/-! ### Leaving READY (R164, R186) -/

/-- The memories and the contexts. -/
def qpView (s : State) : MemState × NMap Qp := (s.mem, s.tp.qps)

theorem qpView_removeRun (key : Nat) (s : State) : qpView (removeRun key s) = qpView s := by
  cases h : runOf s key with
  | none =>
    unfold removeRun
    rw [h]
  | some r =>
    obtain ⟨-, -, hmem, htp⟩ := removeRun_removes h
    rw [qpView, hmem, htp]
    rfl

theorem qpView_completeQpOps (qpn status : Nat) (keep : Nat → Bool) (s : State) :
    qpView (completeQpOps qpn status keep s) = qpView s := by
  unfold completeQpOps
  extract_lets sq s1
  have h1 : qpView s1 = qpView s := by
    refine foldl_keeps qpView _ (fun t k => ?_) _ s
    split
    · rfl
    · split
      · rfl
      · exact (qpView_removeRun k _).trans rfl
  refine (foldl_keeps qpView (fun s slot => if keep (opKey sq slot) then s else finishOp sq slot { status := status } s)
    (fun t slot => ?_) _ s1).trans h1
  split
  · rfl
  · rfl

theorem dropRecvs_drops {s : State} {qpn status : Nat} {q : Qp} (hq : qpOf s qpn = some q) :
    qpOf (dropRecvs qpn status s) qpn = some { q with recvs := [] } ∧ (dropRecvs qpn status s).mem = s.mem := by
  have hkeep : qpView (q.recvs.foldl (fun s e => finishOp q.rq e.slot { status := status, recv := true } s) s) = qpView s :=
    foldl_keeps qpView (fun s (e : RecvEntry) => finishOp q.rq e.slot { status := status, recv := true } s) (fun _ _ => rfl) _ s
  unfold dropRecvs
  rw [hq]
  refine ⟨?_, congrArg Prod.fst hkeep⟩
  show qpOf (updQp _ _ _) _ = _
  rw [qpOf_updQp, if_pos rfl, qpOf, show (List.foldl _ s q.recvs).tp.qps = s.tp.qps from congrArg Prod.snd hkeep]
  exact congrArg (Option.map _) hq

theorem mem_dropRecords (qpn : Nat) (s : State) : (dropRecords qpn s).mem = s.mem :=
  (congrArg State.mem (beyondRecords_dropRecords qpn s) :)

/-- What a queue pair that leaves READY ends and frees. -/
def leftEnds (st : QpState) (status qpn : Nat) (keep : Nat → Bool) (s : State) : State :=
  dropRecords qpn (dropRecvs qpn status (completeQpOps qpn status keep (updQp qpn (fun q => { q with state := st }) s)))

theorem leftEnds_leaves {st : QpState} {status qpn : Nat} {keep : Nat → Bool} {q : Qp} {s : State} (hq : qpOf s qpn = some q) :
    qpOf (leftEnds st status qpn keep s) qpn = some { q with state := st, recvs := [] } ∧
      (leftEnds st status qpn keep s).mem = s.mem ∧ ∀ e ∈ (leftEnds st status qpn keep s).tp.msgs, e.2.qpn ≠ qpn := by
  have hview := qpView_completeQpOps qpn status keep (updQp qpn (fun q => { q with state := st }) s)
  have hq1 : qpOf (updQp qpn (fun q => { q with state := st }) s) qpn = some { q with state := st } := by
    rw [qpOf_updQp, if_pos rfl, hq]
    rfl
  unfold leftEnds
  generalize completeQpOps qpn status keep (updQp qpn (fun q => { q with state := st }) s) = u at hview
  obtain ⟨hmem, hqps⟩ : u.mem = s.mem ∧ u.tp.qps = (updQp qpn (fun q => { q with state := st }) s).tp.qps := Prod.mk.inj hview
  have hq2 : qpOf u qpn = some { q with state := st } := by
    rw [qpOf, hqps]
    exact hq1
  obtain ⟨hq3, hmem3⟩ := dropRecvs_drops (status := status) hq2
  exact ⟨(qpOf_dropRecords _ _ _).trans hq3, (mem_dropRecords qpn _).trans (hmem3.trans hmem), (dropRecords_none _ _).2⟩

/-- The memories, the transport block and its events. -/
def tpView (s : State) : MemState × TpState × Word := (s.mem, s.tp, rg s Reg.GX_TP_EVENTS)

theorem tpView_collAbort (h seq code rank : Nat) (s : State) : tpView (collAbort h seq code rank s) = tpView s := by
  unfold collAbort
  split
  · rfl
  · split
    · rfl
    · split
      · rfl
      · rw [tpView, rg, regAt_putReg_ne _ _ (by decide), regAt_putReg_ne _ _ (by decide)]
        rfl

theorem tpView_breakHerd (qpn : Nat) (s : State) : tpView (breakHerd qpn s) = tpView s := by
  unfold breakHerd
  split
  · rfl
  · rename_i h hh
    split
    · rfl
    · rename_i d hd
      extract_lets j _ s1
      split
      · rfl
      · have hfold := foldl_keeps tpView (fun (s : State) (e : Nat × Coll) => collAbort h e.1 0 j s)
          (fun t e => tpView_collAbort h e.1 0 j t) (d.colls.filter (fun e => e.2.slotAt.isSome)) s1
        refine Eq.trans ?_ hfold
        rw [tpView, tpView, raise_mem, raise_tp, rg, regAt_raise_ne _ _ (by decide)]

/-- What the clause of the NACKs that end a queue pair asks. -/
theorem breakHerd_left {st : QpState} {status qpn bit : Nat} {keep : Nat → Bool} {q : Qp} {s : State} (hq : qpOf s qpn = some q)
    (hb : bit < 32) :
    let t := breakHerd qpn (raise Reg.GX_TP_EVENTS bit (leftEnds st status qpn keep s))
    qpOf t qpn = some { q with state := st, recvs := [] } ∧ (rg t Reg.GX_TP_EVENTS).getLsbD bit = true ∧
      (∀ e ∈ t.tp.msgs, e.2.qpn ≠ qpn) ∧ t.mem = s.mem := by
  obtain ⟨hqp, hmem, hmsgs⟩ := leftEnds_leaves (st := st) (status := status) (keep := keep) hq
  generalize leftEnds st status qpn keep s = u at *
  intro t
  have hview : tpView t = tpView (raise Reg.GX_TP_EVENTS bit u) := tpView_breakHerd qpn _
  obtain ⟨h1, h2, h3⟩ : t.mem = (raise Reg.GX_TP_EVENTS bit u).mem ∧ t.tp = (raise Reg.GX_TP_EVENTS bit u).tp ∧
      rg t Reg.GX_TP_EVENTS = rg (raise Reg.GX_TP_EVENTS bit u) Reg.GX_TP_EVENTS := by
    simpa only [tpView, Prod.mk.injEq] using hview
  refine ⟨?_, ?_, ?_, ?_⟩
  · rw [qpOf, h2, raise_tp]
    exact hqp
  · rw [h3]
    exact raise_sets _ _ _ hb
  · rw [h2, raise_tp]
    exact hmsgs
  · rw [h1, raise_mem, hmem]

theorem qpMoved_of_ready {qpn msn : Nat} {q : Qp} {s : State} (hq : qpOf s qpn = some q) (hst : q.state = .ready) :
    qpMoved qpn msn s = breakHerd qpn (raise Reg.GX_TP_EVENTS 1 (leftEnds .movedWait stMoved qpn
      (fun k => (runOf (updQp qpn (fun q => { q with state := .movedWait }) s) k).any (fun r => runBelow r msn)) s)) := by
  unfold qpMoved
  rw [hq]
  simp only []
  rw [if_neg (by rw [hst]; decide)]
  rfl

theorem respAck_frees {c : CellIn} {q : Qp} {p : RespRec} {s : State} (hq : qpOf s c.dqpn = some q) (hnode : q.peerNode = c.srcNode)
    (hunit : q.peerUnit = c.srcUnit) (hzero : allZero ((payBytes c.pay).drop 4) = true)
    (hp : respOf s c.dqpn (extend 32 q.expected (leAt (payBytes c.pay) 0 4)) = some p) (hk : p.kind ≠ 4) :
    respAck c s = dropResp c.dqpn (extend 32 q.expected (leAt (payBytes c.pay) 0 4)) s := by
  have hz : ((payBytes c.pay).drop 4).all (· == 0) = true := hzero
  unfold respAck
  rw [hq]
  simp only []
  rw [if_neg (by rw [hnode, hunit, hz]; simp), hp]
  simp only []
  rw [if_neg (by simp [hk])]

/-- Settles O38: each cell comes in through the check-value units and acts on the message or queue pair that it names. -/
theorem acknowledgementsActOnMessages : Obligations.AcknowledgementsActOnMessages := by
  unfold Obligations.AcknowledgementsActOnMessages
  refine ⟨?_, ?_, ?_, ?_, ?_, ?_⟩
  · intro port slot c q m r o tl s hin hslot hpeer hres hmsgs hqpn hnext hkind htile hcum hclean hsts hr htiles hown hstop hcut hforce
      hacc ho hh hd
    obtain ⟨u, hu, -, hkeep, -, -⟩ := receiveCell_given hslot takeAck
    have htp : u.tp = s.tp := (congrArg State.tp hkeep :)
    have hack := takeAck_one (hpeer.of_beyondStream hkeep) hres (by rw [htp]; exact hmsgs) hqpn hnext hcum hclean hsts
    rw [if_neg (by rw [hkind]; decide)] at hack
    have hm : msgOf u c.dqpn m.msn = some m := by
      rw [msgOf, htp, hmsgs, mapGet, if_pos rfl]
    obtain ⟨h1, h2, h3, h4⟩ := msgDone_last (o := o) hm ((congrArg (fun p : TpState => mapGet p.runs m.run) htp :).trans hr) htiles htile hown
      hstop hcut hforce ((congrArg (fun t : State => t.pc.acc) hkeep :).trans hacc)
      ((opAt_of_q (congrArg State.q hkeep :) r.ring r.slot).trans ho) hh hd
    exact ⟨_, (next_whenOk hin).trans (congrArg Host.Outcome.next (hu.trans hack)), h1, h2, h3, h4.trans (congrArg State.mem hkeep :)⟩
  · intro port slot c q m s hin hslot hpeer hres hmsgs hqpn hnext hkind hcum hclean hsts
    obtain ⟨u, hu, -, hkeep, -, -⟩ := receiveCell_given hslot takeAck
    have htp : u.tp = s.tp := (congrArg State.tp hkeep :)
    have hack := takeAck_one (hpeer.of_beyondStream hkeep) hres (by rw [htp]; exact hmsgs) hqpn hnext hcum hclean hsts
    rw [if_pos (.inl hkind)] at hack
    have hm : msgOf u c.dqpn m.msn = some m := by
      rw [msgOf, htp, hmsgs, mapGet, if_pos rfl]
    exact ⟨_, (next_whenOk hin).trans (congrArg Host.Outcome.next (hu.trans hack)), msgOf_updMsg hm _, (congrArg State.q hkeep :)⟩
  · intro port slot c q m s hin hslot hpeer hbad hk hreq hm
    obtain ⟨u, hu, -, hkeep, -, -⟩ := receiveCell_given hslot (takeNack 0)
    have hpeer' := hpeer.of_beyondStream hkeep
    have hm' : msgOf u c.dqpn (extend 32 q.nextMsn (leAt (payBytes c.pay) 0 4)) = some m := by
      rw [msgOf, show u.tp = s.tp from (congrArg State.tp hkeep :)]
      exact hm
    have hnack := (takeNack_sound hpeer' hbad hk).trans
      (show nackActs 0 c.dqpn q (payBytes c.pay) u = _ from if_neg (by rw [hreq]; decide))
    exact ⟨_, _, (next_whenOk hin).trans (congrArg Host.Outcome.next (hu.trans hnack)), msgOf_updMsg hm' _,
      fun i => mem_addResend _ _ i, fun i => mem_addResend _ _ i, rfl, (congrArg State.q hkeep :)⟩
  · intro port slot c q m s hin hslot hpeer hbad hk hm hrnr hnext hlimit
    obtain ⟨u, hu, -, hkeep, hreg, -⟩ := receiveCell_given hslot (takeNack 1)
    have hm' : msgOf u c.dqpn (extend 32 q.nextMsn (leAt (payBytes c.pay) 0 4)) = some m := by
      rw [msgOf, show u.tp = s.tp from (congrArg State.tp hkeep :)]
      exact hm
    have hdefaults : rg u Reg.GX_TP_DEFAULTS = rg s Reg.GX_TP_DEFAULTS := hreg _ (by decide)
    have htick : u.tick = s.tick := (congrArg State.tick hkeep :)
    have hnack := (takeNack_sound (hpeer.of_beyondStream hkeep) hbad hk).trans
      (nackRnr_holds hm' hrnr hnext (by rw [qpRnrLimit, hdefaults]; exact hlimit))
    refine ⟨_, _, (next_whenOk hin).trans (congrArg Host.Outcome.next (hu.trans hnack)), msgOf_updMsg hm' _, rfl, rfl, rfl, ?_,
      (congrArg State.q hkeep :)⟩
    rw [htick, qpRnrDelay, hdefaults]
    rfl
  · intro c' port kind st bit slot c q s hc hin hslot hpeer hbad hk
    obtain ⟨u, hu, -, hkeep, -, -⟩ := receiveCell_given hslot (takeNack kind)
    have hpeer' := hpeer.of_beyondStream hkeep
    have hq := reqQp_some hpeer'.1
    have hmem : u.mem = s.mem := (congrArg State.mem hkeep :)
    have hnack := takeNack_sound hpeer' hbad hk
    obtain ⟨rfl, rfl, rfl, rfl⟩ | ⟨rfl, rfl, rfl, rfl⟩ := hc
    · obtain ⟨h1, h2, h3, h4⟩ := breakHerd_left (st := .movedWait) (status := stMoved) (bit := 1) hq (by decide)
      have hmoved := hnack.trans (show nackActs 2 c.dqpn q (payBytes c.pay) u = _ from qpMoved_of_ready hq hpeer'.2)
      exact ⟨_, _, (next_whenOk hin).trans (congrArg Host.Outcome.next (hu.trans hmoved)), h1, rfl, rfl, h2, h3, h4.trans hmem⟩
    · obtain ⟨h1, h2, h3, h4⟩ := breakHerd_left (st := .error) (status := stRetryExceeded) (bit := 0) (keep := fun _ => false) hq (by decide)
      have herror := hnack.trans (show nackActs 3 c.dqpn q (payBytes c.pay) u = _ from
        qpError_of_ready hq (by rw [hpeer'.2]; decide))
      exact ⟨_, _, (next_whenOk hin).trans (congrArg Host.Outcome.next (hu.trans herror)), h1, rfl, rfl, h2, h3, h4.trans hmem⟩
  · intro port slot c q p s hin hslot hq hnode hunit hzero hp hk
    obtain ⟨u, hu, -, hkeep, -, -⟩ := receiveCell_given hslot respAck
    have htp : u.tp = s.tp := (congrArg State.tp hkeep :)
    have hack := respAck_frees (s := u) (by rw [qpOf, htp]; exact hq) hnode hunit hzero (by rw [respOf, htp]; exact hp) hk
    exact ⟨_, (next_whenOk hin).trans (congrArg Host.Outcome.next (hu.trans hack)), mapGet_mapErase_same _ _,
      (congrArg State.mem hkeep :), (congrArg State.q hkeep :)⟩

end Sys2Proof.Machine
end

section
/-! PROOFS. Responses and retries at the requester (R166, R171, R182, R183, R370). -/

namespace Sys2Proof.Machine

/-! ### What the end of a message leaves: the memories, the control cells, the contexts, and every unit's node -/

/-- The running structure is as it was, and no register has lost its top bit: what was VALID is VALID. -/
def unitsKept (s t : State) : Prop := t.lz = s.lz ∧ ∀ k, (regAt s k).getLsbD 31 = true → (regAt t k).getLsbD 31 = true

theorem unitsKept.refl (s : State) : unitsKept s s := ⟨rfl, fun _ h => h⟩

theorem unitsKept.trans {s t u : State} (h : unitsKept s t) (k : unitsKept t u) : unitsKept s u :=
  ⟨k.1.trans h.1, fun i hi => k.2 i (h.2 i hi)⟩

theorem instUnit_kept {s t : State} {n : Nat} {u : Nat × Nat × Nat} (h : unitsKept s t) (hu : instUnit s n = some u) :
    ∃ v, instUnit t n = some v := by
  obtain ⟨hlz, hreg⟩ := h
  unfold instUnit at hu ⊢
  rw [hlz]
  split at hu
  · exact absurd hu (by simp)
  · rename_i f hf
    obtain ⟨node, hnode, -⟩ := Option.map_eq_some_iff.mp hu
    unfold slotNode at hnode ⊢
    simp only [] at hnode ⊢
    split at hnode
    · rename_i hvalid
      rw [hlz, if_pos ⟨hvalid.1, hreg _ hvalid.2⟩]
      exact ⟨_, rfl⟩
    · exact absurd hnode (by simp)

theorem topBit_iff (v : Word) : v.getLsbD 31 = true ↔ 2 ^ 31 ≤ v.toNat := by
  rw [show v.getLsbD 31 = v.msb from (BitVec.msb_eq_getLsbD_last v).symm, BitVec.msb_eq_decide, decide_eq_true_iff]

theorem topBit_add_one {v : Word} (h : v.getLsbD 31 = true) (hv : v ≠ 0xFFFFFFFF) : (v + 1).getLsbD 31 = true := by
  have hlt := v.isLt
  have hne : v.toNat ≠ 0xFFFFFFFF := fun e => hv (BitVec.eq_of_toNat_eq e)
  rw [topBit_iff] at h ⊢
  rw [BitVec.toNat_add, show (1 : Word).toNat = 1 from rfl, Nat.mod_eq_of_lt (by omega)]
  omega

theorem unitsKept_bump (off : Nat) (s : State) : unitsKept s (bump off s) := by
  refine ⟨rfl, fun k hk => ?_⟩
  by_cases h : k = off
  · subst h
    rw [regAt_bump_same]
    split
    · exact hk
    · rename_i hfull
      exact topBit_add_one hk hfull
  · rw [show regAt (bump off s) k = regAt s k from regAt_putReg_ne _ _ h]
    exact hk

theorem unitsKept_raise (off bit : Nat) (s : State) : unitsKept s (raise off bit s) := by
  refine ⟨raise_lz _ _ _, fun k hk => ?_⟩
  by_cases h : k = off
  · subst h
    exact raise_keeps _ _ _ _ hk
  · rw [regAt_raise_ne _ _ h]
    exact hk

theorem unitsKept_of_same {s t : State} (hlz : t.lz = s.lz) (hregs : t.regs = s.regs) : unitsKept s t :=
  ⟨hlz, fun k h => by rw [regAt, hregs]; exact h⟩

theorem unitsKept_cvBoundary (u : Nat) (s : State) : unitsKept s (cvBoundary u s) := by
  unfold cvBoundary
  split
  · exact unitsKept_of_same rfl rfl
  · exact (unitsKept_of_same (s := s) rfl rfl).trans (unitsKept_raise _ _ _)
  · exact unitsKept.refl s

theorem unitsKept_stream (src idx : Nat) (retx begins : Bool) (bs : List Byte) (s : State) :
    unitsKept s (stream src idx retx begins bs s) := by
  refine foldl_maintains (fun t : State => unitsKept s t) _ (fun t u ht => ht.trans ?_) _ s (unitsKept.refl s)
  split
  · extract_lets t1 c p
    have hbegin : unitsKept t t1 := by
      simp only [t1]
      split
      · exact unitsKept_cvBoundary u t
      · exact unitsKept.refl t
    split
    · exact hbegin.trans (unitsKept_of_same rfl rfl)
    · exact hbegin
  · exact unitsKept.refl t

theorem unitsKept_muleMove (ingress retx begins : Bool) (bs : List Byte) (s : State) :
    unitsKept s (muleMove ingress retx begins bs s) := by
  unfold muleMove
  extract_lets base m _ s1
  exact (unitsKept_of_same (t := s1) rfl rfl).trans (unitsKept_stream _ m retx begins bs s1)

theorem unitsKept_tierPut (off : Nat) (bs : List Byte) (s : State) : unitsKept s (tierPut off bs s).1 := by
  have hwrite : unitsKept s (tierWrite off bs s).1 := unitsKept_of_same rfl rfl
  show unitsKept s (tierStream off bs (tierWrite off bs s).1)
  unfold tierStream
  split
  · exact hwrite.trans (unitsKept_stream _ _ _ _ _ _)
  · exact hwrite

/-- A write changes no register's top bit and nothing of the transport block. -/
theorem dataWrite_keeps (w : Waiter) (node off : Nat) (bs : List Byte) (s : State) :
    unitsKept s (dataWrite w node off bs s).1 ∧ (dataWrite w node off bs s).1.tp = s.tp := by
  unfold dataWrite
  extract_lets st
  split
  · exact ⟨unitsKept.refl s, rfl⟩
  · split
    · extract_lets at_ relaxed s1
      have h1 : unitsKept s s1 ∧ s1.tp = s.tp := by
        simp only [s1]
        split
        · exact ⟨unitsKept_of_same rfl rfl, rfl⟩
        · exact ⟨unitsKept_of_same rfl rfl, rfl⟩
      exact ⟨h1.1.trans (unitsKept_of_same rfl rfl), h1.2⟩
    · refine ⟨unitsKept_tierPut off bs s, ?_⟩
      exact ((congrArg State.tp (beyondStream_tierStream off bs (tierWrite off bs s).1) :) : (tierPut off bs s).1.tp = _)

theorem writeRange_keeps (w : Waiter) (pages : List PageMap) (va : Nat) (bs : List Byte) (s : State) :
    unitsKept s (writeRange w pages va bs s).1 ∧ (writeRange w pages va bs s).1.tp = s.tp := by
  refine foldl_maintains (fun p : State × Nat => unitsKept s p.1 ∧ p.1.tp = s.tp) _ (fun p x hp => ?_) _ (s, 0) ⟨unitsKept.refl s, rfl⟩
  obtain ⟨hunits, htp⟩ := dataWrite_keeps w x.2.2.1 x.2.2.2 (slice bs (x.1 - va) x.2.1) p.1
  exact ⟨hp.1.trans hunits, htp.trans hp.2⟩

theorem respWrite_keeps (m : Msg) (off : Nat) (begins : Bool) (bs : List Byte) (s : State) :
    unitsKept s (respWrite m off begins bs s).1 ∧ (respWrite m off begins bs s).1.tp = s.tp := by
  unfold respWrite
  split
  · exact ⟨unitsKept.refl s, rfl⟩
  · obtain ⟨hunits, htp⟩ := writeRange_keeps (.run m.run) _ _ bs (muleMove true false begins bs s)
    exact ⟨(unitsKept_muleMove _ _ _ _ _).trans hunits, htp.trans (muleMove_keeps _ _ _ _ _).1⟩

/-- What the end of a message keeps. -/
structure EndKeeps (s t : State) : Prop where
  mem : t.mem = s.mem
  control : t.tp.control = s.tp.control
  qps : t.tp.qps = s.tp.qps
  msgs : t.tp.msgs ⊆ s.tp.msgs
  units : unitsKept s t

theorem EndKeeps.refl (s : State) : EndKeeps s s := ⟨rfl, rfl, rfl, List.Subset.refl _, unitsKept.refl s⟩

theorem EndKeeps.trans {s t u : State} (h : EndKeeps s t) (k : EndKeeps t u) : EndKeeps s u :=
  ⟨k.mem.trans h.mem, k.control.trans h.control, k.qps.trans h.qps, List.Subset.trans k.msgs h.msgs, h.units.trans k.units⟩

theorem EndKeeps.of_same {s t : State} (hmem : t.mem = s.mem) (htp : t.tp = s.tp) (hunits : unitsKept s t) : EndKeeps s t :=
  ⟨hmem, by rw [htp], by rw [htp], by rw [htp]; exact List.Subset.refl _, hunits⟩

theorem endKeeps_tryFlush (p : Nat) (s : State) : EndKeeps s (tryFlush p s) := by
  unfold tryFlush
  extract_lets a
  split
  · exact .of_same rfl rfl ((unitsKept_of_same (s := s) rfl rfl).trans ((unitsKept_bump _ _).trans (unitsKept_of_same rfl rfl)))
  · exact EndKeeps.refl s

theorem endKeeps_awaitFlush (w : Waiter) (s : State) : EndKeeps s (awaitFlush w s).1 := by
  unfold awaitFlush
  refine foldl_maintains (fun t : State => EndKeeps s t) _ (fun t p ht => ht.trans ?_) _ s (EndKeeps.refl s)
  have hwait (f : AccPort → AccPort) : EndKeeps t (updAcc p f t) := .of_same rfl rfl (unitsKept_of_same rfl rfl)
  exact (hwait _).trans (endKeeps_tryFlush p _)

theorem endKeeps_releaseUses (us : List Nat) (s : State) : EndKeeps s (releaseUses us s) := by
  have h := releaseUses_beyond us s
  exact .of_same (congrArg State.mem h :) (congrArg State.tp h :) (unitsKept_of_same (congrArg State.lz h :) (congrArg State.regs h :))

theorem endKeeps_removeRun (key : Nat) (s : State) : EndKeeps s (removeRun key s) := by
  unfold removeRun
  split
  · exact EndKeeps.refl s
  · exact (endKeeps_releaseUses _ s).trans ⟨rfl, rfl, rfl, List.filter_sublist.subset, unitsKept_of_same rfl rfl⟩

theorem endKeeps_finishRun (key : Nat) (c : Completion) (s : State) : EndKeeps s (finishRun key c s) := by
  unfold finishRun
  split
  · exact EndKeeps.refl s
  · rename_i r hr
    have hflush := endKeeps_awaitFlush (.run key) s
    generalize awaitFlush (.run key) s = flushed at hflush ⊢
    obtain ⟨u, ports⟩ := flushed
    have hend : EndKeeps u (finishOp r.ring r.slot c u) := .of_same rfl rfl (unitsKept_of_same rfl rfl)
    simp only []
    split
    · exact (hflush.trans hend).trans (endKeeps_removeRun key _)
    · exact (hflush.trans hend).trans (.of_same rfl rfl (unitsKept_of_same rfl rfl))

theorem endKeeps_checkRun (key : Nat) (s : State) : EndKeeps s (checkRun key s) := by
  unfold checkRun
  split
  · exact EndKeeps.refl s
  · split
    · exact endKeeps_finishRun _ _ s
    · exact EndKeeps.refl s

/-- The message goes, and nothing else that its answer rests on. -/
theorem endKeeps_msgDone (qpn msn status : Nat) (s : State) :
    EndKeeps s (msgDone qpn msn status s) ∧ msgOf (msgDone qpn msn status s) qpn msn = none := by
  unfold msgDone
  split
  · rename_i hm
    exact ⟨EndKeeps.refl s, hm⟩
  · rename_i m hm
    extract_lets _ s1 held uses s2 s3
    have h2 : EndKeeps s1 s2 := by
      simp only [s2]
      split
      · exact EndKeeps.refl s1
      · exact endKeeps_releaseUses uses s1
    have h3 : EndKeeps s2 s3 := ⟨rfl, rfl, rfl, List.Subset.refl _, unitsKept_of_same rfl rfl⟩
    have hend := (h2.trans h3).trans (endKeeps_checkRun m.run s3)
    have h1 : EndKeeps s s1 := ⟨rfl, rfl, rfl, mapErase_subset _ _, unitsKept_of_same rfl rfl⟩
    refine ⟨h1.trans hend, Option.eq_none_iff_forall_ne_some.mpr fun m' hm' => ?_⟩
    have hmem := hend.msgs (mapGet_mem hm')
    exact absurd (List.mem_filter.mp hmem).2 (by simp)

/-! ### Response cells that do not end their message (R166, R171, R370) -/

/-- What a response cell needs before its bytes are written. -/
structure RespReady (s : State) (c : CellIn) (q : Qp) (m : Msg) : Prop where
  peer : fromPeer s c q
  message : msgOf s c.dqpn (extend 16 q.nextMsn c.msn) = some m
  room : c.addr + c.fill ≤ msgTileLen s m
  addr : c.addr < 2 ^ 32
  flows : ((runOf s m.run).bind (fun r => r.tiles[m.tile]?)).any (fun t => rangeStalls s t.dstPages (t.dst + c.addr) c.fill) = false
  count : m.respCnt = 0 ∨ m.respCnt = c.cnt + 1
  fresh : m.respGot.contains c.idx = false
  more : m.respGot.length < c.cnt

theorem RespReady.of_beyondStream {s u : State} {c : CellIn} {q : Qp} {m : Msg} (h : RespReady s c q m)
    (hk : beyondStream u = beyondStream s) : RespReady u c q m := by
  have hb : RespReady (beyondStream s) c q m := ⟨h.peer, h.message, h.room, h.addr, h.flows, h.count, h.fresh, h.more⟩
  rw [← hk] at hb
  exact ⟨hb.peer, hb.message, hb.room, hb.addr, hb.flows, hb.count, hb.fresh, hb.more⟩

/-- A message whose response cell of an index is noted. -/
def noteResp (c : CellIn) (now : Nat) (m : Msg) : Msg :=
  { m with respGot := m.respGot ++ [c.idx], respCnt := c.cnt + 1, respTick := now, acked := true }

theorem respArrive_fresh {s : State} {c : CellIn} {q : Qp} {m : Msg} (h : RespReady s c q m) (msn : Nat) :
    respArrive c msn m s = (updMsg c.dqpn msn (noteResp c s.tick.count.toNat) s, true) := by
  unfold respArrive
  rw [if_neg (by
    simp only [Bool.and_eq_true, bne_iff_ne, ne_eq, not_and, Decidable.not_not]
    exact fun h0 => h.count.resolve_left h0), if_neg (by rw [h.fresh]; exact Bool.false_ne_true)]
  rfl

theorem respWhole_noteResp {s : State} {c : CellIn} {q : Qp} {m m' : Msg} (h : RespReady s c q m)
    (hgot : m'.respGot = m.respGot ++ [c.idx]) (hcnt : m'.respCnt = c.cnt + 1) : respWhole m' = false := by
  have hmore := h.more
  have hlen : m'.respGot.length ≠ m'.respCnt := by
    rw [hgot, hcnt, List.length_append, List.length_singleton]
    omega
  unfold respWhole
  rw [beq_eq_false_iff_ne.mpr hlen, Bool.and_false]

/-- The state in which the bytes of a response cell stand at the tile. -/
def respWritten (c : CellIn) (msn : Nat) (m : Msg) (s : State) : State × Nat :=
  respWrite m c.addr c.begins ((payBytes c.pay).take c.fill) (updMsg c.dqpn msn (noteResp c s.tick.count.toNat) s)

theorem msgOf_respWritten {s : State} {c : CellIn} {msn : Nat} {m : Msg} (hm : msgOf s c.dqpn msn = some m) :
    msgOf (respWritten c msn m s).1 c.dqpn msn = some (noteResp c s.tick.count.toNat m) := by
  have htp := (respWrite_keeps m c.addr c.begins ((payBytes c.pay).take c.fill) (updMsg c.dqpn msn (noteResp c s.tick.count.toNat) s)).2
  rw [msgOf, show (respWritten c msn m s).1.tp = _ from htp]
  exact msgOf_updMsg hm _

/-- A message that notes the status of a write that failed first. -/
def noteStatus (st : Nat) : Msg → Msg := fun m => if m.respStatus = 0 then { m with respStatus := st } else m

theorem noteStatus_keeps (st : Nat) (m : Msg) :
    (noteStatus st m).respGot = m.respGot ∧ (noteStatus st m).respCnt = m.respCnt ∧ (noteStatus st m).acked = m.acked := by
  unfold noteStatus
  split
  · exact ⟨rfl, rfl, rfl⟩
  · exact ⟨rfl, rfl, rfl⟩

theorem takeReadResp_partial {s : State} {c : CellIn} {q : Qp} {m : Msg} (h : RespReady s c q m) (hk : m.kind = .read)
    (hslot : qpSlot s c.dqpn 1 = none) :
    let w := respWritten c (extend 16 q.nextMsn c.msn) m s
    takeReadResp c s = updMsg c.dqpn (extend 16 q.nextMsn c.msn) (noteStatus w.2) w.1 := by
  intro w
  have hmode : qpMode s c.dqpn 1 = none := by
    rw [qpMode, hslot]
    rfl
  have hroom := h.room
  have haddr := h.addr
  have hmsg : msgOf (updMsg c.dqpn (extend 16 q.nextMsn c.msn) (noteStatus w.2) w.1) c.dqpn (extend 16 q.nextMsn c.msn) =
      some (noteStatus w.2 (noteResp c s.tick.count.toNat m)) := msgOf_updMsg (msgOf_respWritten h.message) _
  obtain ⟨hgot, hcnt, -⟩ := noteStatus_keeps w.2 (noteResp c s.tick.count.toNat m)
  have hwhole := respWhole_noteResp h hgot hcnt
  unfold takeReadResp
  rw [h.peer.1]
  simp only []
  rw [if_neg (by rw [h.peer.2]; decide), h.message]
  simp only [hmode, hslot, hk, h.flows, respArrive_fresh h]
  refine (if_neg (by simp; omega)).trans ((if_neg (by simp)).trans ((if_neg (by simp)).trans ?_))
  refine (if_neg (by simp)).trans ?_
  simp only [show ((none : Option Nat) == some 4) = false from rfl, Bool.false_and, Bool.false_eq_true, if_false, Bool.not_true]
  split
  · rfl
  · rename_i m' hm'
    obtain rfl : m' = _ := Option.some.inj (hm'.symm.trans hmsg)
    exact if_pos (by rw [hwhole]; rfl)

/-- The state in which a tile bears the status of a write that failed. -/
def tileNoted (m : Msg) (st : Nat) (s : State) : State :=
  if st = 0 then s else updTile m.run m.tile (fun t => { t with own := st }) s

theorem tileNoted_keeps (m : Msg) (st : Nat) (s : State) :
    (tileNoted m st s).tp.msgs = s.tp.msgs ∧ (tileNoted m st s).mem = s.mem := by
  unfold tileNoted
  split
  · exact ⟨rfl, rfl⟩
  · exact ⟨rfl, rfl⟩

theorem msgOf_of_msgs {s t : State} (h : t.tp.msgs = s.tp.msgs) (qpn msn : Nat) : msgOf t qpn msn = msgOf s qpn msn := by
  rw [msgOf, h]
  rfl

theorem takeAttnResp_partial {s : State} {c : CellIn} {q : Qp} {m : Msg} (h : RespReady s c q m) (hk : m.kind = .attn)
    (htail : c.tail = false) :
    let w := respWritten c (extend 16 q.nextMsn c.msn) m s
    takeAttnResp c s = tileNoted m w.2 w.1 := by
  intro w
  have hroom := h.room
  have haddr := h.addr
  have hmsg : msgOf (tileNoted m w.2 w.1) c.dqpn (extend 16 q.nextMsn c.msn) = some (noteResp c s.tick.count.toNat m) :=
    (msgOf_of_msgs (tileNoted_keeps m w.2 w.1).1 _ _).trans (msgOf_respWritten h.message)
  have hwhole := respWhole_noteResp (m' := noteResp c s.tick.count.toNat m) h rfl rfl
  unfold takeAttnResp
  rw [h.peer.1]
  simp only []
  rw [if_neg (by rw [h.peer.2]; decide), h.message]
  simp only [hk, htail, h.flows, respArrive_fresh h]
  refine (if_neg (by simp; omega)).trans ((if_neg (by simp)).trans ((if_neg (by simp)).trans ?_))
  simp only [Bool.false_eq_true, if_false]
  split
  · rfl
  · rename_i m' hm'
    obtain rfl : m' = _ := Option.some.inj (hm'.symm.trans hmsg)
    exact if_neg (by rw [hwhole]; exact Bool.false_ne_true)

/-! ### The result of an ATOMIC (R171) -/

theorem takeAtomicResp_sound {s : State} {c : CellIn} {q : Qp} {m : Msg} (hp : fromPeer s c q)
    (hzero : allZero ((payBytes c.pay).drop 16) = true) (hm : msgOf s c.dqpn (extend 16 q.nextMsn c.msn) = some m) (hk : m.kind = .atomic)
    (hflow : ((runOf s m.run).bind (fun r => r.tiles[m.tile]?)).any (fun t => rangeStalls s t.dstPages t.dst t.len) = false) :
    let w := respWrite m 0 true ((payBytes c.pay).take (msgTileLen s m)) s
    takeAtomicResp c s = sendRespAck c.dqpn (extend 16 q.nextMsn c.msn) (msgDone c.dqpn (extend 16 q.nextMsn c.msn) w.2 w.1) := by
  intro w
  have hz : ((payBytes c.pay).drop 16).all (· == 0) = true := hzero
  unfold takeAtomicResp
  rw [hp.1]
  simp only []
  rw [if_neg (by rw [hp.2]; decide), if_neg (by rw [hz]; decide), hm]
  simp only []
  rw [if_neg (by rw [hk]; decide), if_neg (by rw [hflow]; exact Bool.false_ne_true)]

theorem sendRespAck_queues {s : State} {qpn : Nat} {q : Qp} {u : Nat × Nat × Nat} (hq : qpOf s qpn = some q)
    (hu : instUnit s q.inst = some u) (msn : Nat) : sendRespAck qpn msn s =
      { s with tp := { s.tp with control := s.tp.control ++ [ctlTo q u qpn 11 msn (leBytes 4 (msn % 2 ^ 32)) s] } } := by
  unfold sendRespAck
  rw [hq]
  exact sendCtl_queues hu _ _ _ _

/-! ### Timeouts and held messages (R182, R183) -/

/-- The cells that a message sends again at its deadline. -/
def againCells (m : Msg) : List Nat :=
  if (m.kind == .read || m.kind == .atomic || m.kind == .attn) && m.acked ||
    ((List.range m.next).filter (fun i => !(m.marks.contains i))).isEmpty then [m.next - 1]
  else (List.range m.next).filter (fun i => !(m.marks.contains i))

theorem againCells_ne_nil (m : Msg) : againCells m ≠ [] := by
  unfold againCells
  split
  · exact List.cons_ne_nil _ _
  · rename_i h
    intro hnil
    rw [hnil] at h
    exact h (by simp)

theorem addResend_ne_nil (old : List Nat) {new : List Nat} (h : new ≠ []) : addResend old new ≠ [] := by
  obtain ⟨i, t, rfl⟩ := List.exists_cons_of_ne_nil h
  exact List.ne_nil_of_mem ((mem_addResend old _ i).mpr (.inr List.mem_cons_self))

/-- The deadline of a message has come. -/
structure Overdue (s : State) (qpn msn : Nat) (q : Qp) (m : Msg) : Prop where
  context : qpOf s qpn = some q
  message : msgOf s qpn msn = some m
  typ : q.typ ≤ 1
  ready : q.state = .ready
  sent : m.next ≠ 0
  due : m.deadline ≤ s.tick.count.toNat

theorem retransmit_again {s : State} {qpn msn : Nat} {q : Qp} {m : Msg} (h : Overdue s qpn msn q m) (htries : m.tries < qpRetry s q) :
    retransmit qpn msn s = updMsg qpn msn (fun x => { x with
      tries := x.tries + 1, resend := addResend x.resend (againCells m)
      deadline := s.tick.count.toNat + qpRto s q * 2 ^ min (x.tries + 1) 3 }) s := by
  obtain ⟨hq, hm, htyp, hst, hnext, hdue⟩ := h
  unfold retransmit
  rw [hq, hm]
  simp only []
  rw [if_neg (by simp [hst, hnext]; omega), if_neg (by simp; omega), if_neg (by omega), if_neg (by omega)]
  rfl

theorem retransmit_gives_up {s : State} {qpn msn : Nat} {q : Qp} {m : Msg} (h : Overdue s qpn msn q m) (htries : m.tries = qpRetry s q) :
    retransmit qpn msn s = qpError qpn s := by
  obtain ⟨hq, hm, htyp, hst, hnext, hdue⟩ := h
  unfold retransmit
  rw [hq, hm]
  simp only []
  rw [if_neg (by simp [hst, hnext]; omega), if_neg (by simp; omega), if_pos htries]

theorem rnrResend_resends {s : State} {qpn msn at_ : Nat} {q : Qp} {m : Msg} (hq : qpOf s qpn = some q) (htyp : q.typ ≤ 1)
    (hm : msgOf s qpn msn = some m) (hrnr : m.rnrAt = some at_) (hat : at_ ≤ s.tick.count.toNat) :
    rnrResend qpn msn s = updMsg qpn msn (fun m => { m with rnrAt := none, next := m.cells, resend := List.range m.cells }) s := by
  unfold rnrResend
  rw [hm]
  simp only []
  rw [if_pos (by rw [hrnr]; simpa using hat), if_neg (by rw [hq]; simp; omega)]

/-- Settles O39: a response cell comes in through the check-value units, is noted and written; the end of an ATOMIC frees its message
and queues the RESP_ACK; a deadline resends or gives up. -/
theorem responsesAndRetries : Obligations.ResponsesAndRetries := by
  unfold Obligations.ResponsesAndRetries
  refine ⟨?_, ?_, ?_, ?_, ?_, ?_⟩
  · intro port slot c q m s hin hslot hpeer hm hk hqslot hroom haddr hflow hcnt hfresh hmore
    obtain ⟨u, hu, -, hkeep, -, -⟩ := receiveCell_given hslot takeReadResp
    have hready : RespReady s c q m := ⟨hpeer, hm, hroom, haddr, (Option.any_eq_false _ _).mpr hflow, hcnt, hfresh, hmore⟩
    have hready' := hready.of_beyondStream hkeep
    have hresp := takeReadResp_partial hready' hk ((congrArg (fun t : State => qpSlot t c.dqpn 1) hkeep :).trans hqslot)
    obtain ⟨hgot, hcount, hacked⟩ := noteStatus_keeps (respWritten c (extend 16 q.nextMsn c.msn) m u).2 (noteResp c u.tick.count.toNat m)
    exact ⟨_, _, updMsg c.dqpn (extend 16 q.nextMsn c.msn) (noteResp c u.tick.count.toNat) u,
      (next_whenOk hin).trans (congrArg Host.Outcome.next (hu.trans hresp)), msgOf_updMsg (msgOf_respWritten hready'.message) _, hgot,
      hcount, hacked, rfl, (congrArg State.mem hkeep :), (congrArg (fun t : State => t.tp.runs) hkeep :), (congrArg State.lz hkeep :),
      (congrArg State.vi hkeep :), (congrArg (fun t : State => t.pc.acc) hkeep :)⟩
  · intro port slot c q m unit s hin hslot hpeer hzero hm hk hflow hunit hqpn
    obtain ⟨hu, -⟩ := receiveCell_slotSeen hslot takeAtomicResp
    have hkeep := beyondStream_slotSeen port slot s
    have hseen : unitsKept s (slotSeen port slot s) :=
      slotSeen_maintains (P := unitsKept s) port slot (unitsKept.refl s) (fun _ => unitsKept_stream _ _ _ _ _ s)
    generalize slotSeen port slot s = u at hu hkeep hseen
    have htp : u.tp = s.tp := (congrArg State.tp hkeep :)
    have hresp := takeAtomicResp_sound (hpeer.of_beyondStream hkeep) hzero (by rw [msgOf, htp]; exact hm) hk
      ((congrArg (fun t : State => ((runOf t m.run).bind (fun r => r.tiles[m.tile]?)).any
        (fun tl => rangeStalls t tl.dstPages tl.dst tl.len)) hkeep :).trans ((Option.any_eq_false _ _).mpr hflow))
    rw [show msgTileLen u m = msgTileLen s m from (congrArg (fun p : TpState =>
      ((mapGet p.runs m.run).bind (fun r => r.tiles[m.tile]?)).elim 0 (·.len)) htp :)] at hresp
    dsimp only at hresp
    obtain ⟨hunits, hwtp⟩ := respWrite_keeps m 0 true ((payBytes c.pay).take (msgTileLen s m)) u
    generalize hw : respWrite m 0 true ((payBytes c.pay).take (msgTileLen s m)) u = w at *
    obtain ⟨hend, hgone⟩ := endKeeps_msgDone c.dqpn (extend 16 q.nextMsn c.msn) w.2 w.1
    obtain ⟨v, hv⟩ := instUnit_kept ((hseen.trans hunits).trans hend.units) hunit
    generalize msgDone c.dqpn (extend 16 q.nextMsn c.msn) w.2 w.1 = e at *
    have hqp : qpOf e c.dqpn = some q := by
      rw [qpOf, hend.qps, hwtp, htp]
      exact reqQp_some hpeer.1
    have hack := sendRespAck_queues hqp hv (extend 16 q.nextMsn c.msn)
    have hctl : e.tp.control = s.tp.control := hend.control.trans (by rw [hwtp, htp])
    refine ⟨_, mkHdr ⟨0, q.peerNode, v.1, v.2.2, ownEpoch e v.2.1 v.2.2, 11, q.peerQpn, extend 16 q.nextMsn c.msn % 65536⟩,
      mkPay (leBytes 4 (extend 16 q.nextMsn c.msn % 2 ^ 32)), u,
      (next_whenOk hin).trans (congrArg Host.Outcome.next (hu.trans (hresp.trans hack))), hgone, ?_,
      readHdr_mkHdr_kind _ (by show 11 < 16; decide) hqpn, ?_, (congrArg State.mem hkeep :), (congrArg TpState.runs htp :),
      (congrArg State.lz hkeep :), (congrArg State.vi hkeep :), (congrArg (fun t : State => t.pc.acc) hkeep :)⟩
    · exact congrArg (· ++ [ctlTo q v c.dqpn 11 (extend 16 q.nextMsn c.msn) (leBytes 4 (extend 16 q.nextMsn c.msn % 2 ^ 32)) e]) hctl
    · rw [hw]
      exact hend.mem
  · intro port slot c q m s hin hslot hpeer hm hk htail hroom haddr hflow hcnt hfresh hmore
    obtain ⟨u, hu, -, hkeep, -, -⟩ := receiveCell_given hslot takeAttnResp
    have hready : RespReady s c q m := ⟨hpeer, hm, hroom, haddr, (Option.any_eq_false _ _).mpr hflow, hcnt, hfresh, hmore⟩
    have hready' := hready.of_beyondStream hkeep
    have hresp := takeAttnResp_partial hready' hk htail
    obtain ⟨hmsgs, hmem⟩ := tileNoted_keeps m (respWritten c (extend 16 q.nextMsn c.msn) m u).2 (respWritten c (extend 16 q.nextMsn c.msn) m u).1
    exact ⟨_, _, updMsg c.dqpn (extend 16 q.nextMsn c.msn) (noteResp c u.tick.count.toNat) u,
      (next_whenOk hin).trans (congrArg Host.Outcome.next (hu.trans hresp)),
      (msgOf_of_msgs hmsgs _ _).trans (msgOf_respWritten hready'.message), rfl, rfl, hmem,
      (congrArg State.mem hkeep :), (congrArg (fun t : State => t.tp.runs) hkeep :), (congrArg State.lz hkeep :),
      (congrArg State.vi hkeep :), (congrArg (fun t : State => t.pc.acc) hkeep :)⟩
  · intro qpn msn q m s hw hq hm htyp hst hnext hdue htries
    have hagain := retransmit_again ⟨hq, hm, htyp, hst, hnext, hdue⟩ htries
    exact ⟨_, _, (next_whenOk hw).trans (congrArg Host.Outcome.next hagain), msgOf_updMsg hm _, rfl, rfl,
      addResend_ne_nil _ (againCells_ne_nil m), rfl, rfl⟩
  · intro qpn msn q m s hw hq hm htyp hst hnext hdue htries
    have hup := (retransmit_gives_up ⟨hq, hm, htyp, hst, hnext, hdue⟩ htries).trans (qpError_of_ready hq (by rw [hst]; decide))
    obtain ⟨hqp, hevent, -, -⟩ := breakHerd_left (st := .error) (status := stRetryExceeded) (bit := 0) (keep := fun _ => false) hq (by decide)
    exact ⟨_, _, (next_whenOk hw).trans (congrArg Host.Outcome.next hup), hqp, rfl, hevent⟩
  · intro qpn msn at_ q m s hw hq htyp hm hrnr hat
    exact ⟨_, (next_whenOk hw).trans (congrArg Host.Outcome.next (rnrResend_resends hq htyp hm hrnr hat)), msgOf_updMsg hm _, rfl⟩

end Sys2Proof.Machine
end

section
/-! PROOFS. Herds and collectives: definition and dissolution, start, abort and completion (R289 to R313). -/

namespace Sys2Proof.Machine

/-! ### Herds and collectives by number -/

theorem collOf_some {s : State} {h n : Nat} {d : Herd} {c : Coll} (hd : mapGet s.hd.herds h = some d) (hc : collOf s h n = some c) :
    mapGet d.colls n = some c := by
  rw [collOf, hd] at hc
  exact hc

theorem collOf_of_herd {s : State} {h : Nat} {d : Herd} (hd : mapGet s.hd.herds h = some d) (n : Nat) : collOf s h n = mapGet d.colls n := by
  rw [collOf, hd]
  rfl

theorem herd_updHerd {s : State} {h : Nat} {d : Herd} (hd : mapGet s.hd.herds h = some d) (f : Herd → Herd) :
    mapGet (updHerd h f s).hd.herds h = some (f d) := by
  rw [updHerd, mapGet_mapModify, if_pos rfl, hd]
  rfl

theorem collOf_updColl {s : State} {h n : Nat} {c : Coll} (hc : collOf s h n = some c) (f : Coll → Coll) :
    collOf (updColl h n f s) h n = some (f c) := by
  obtain ⟨d, hd, hc'⟩ := Option.bind_eq_some_iff.mp hc
  rw [updColl, collOf_of_herd (herd_updHerd hd _), mapGet_mapModify, if_pos rfl, hc']
  rfl

theorem collOf_updColl_ne {s : State} {h n j : Nat} (hj : j ≠ n) (f : Coll → Coll) : collOf (updColl h n f s) h j = collOf s h j := by
  rw [collOf, collOf, updColl, updHerd, mapGet_mapModify, if_pos rfl]
  cases mapGet s.hd.herds h with
  | none => rfl
  | some d =>
    show mapGet (mapModify d.colls n f) j = mapGet d.colls j
    rw [mapGet_mapModify, if_neg hj]

/-! ### Definition and dissolution (R289 to R294) -/

theorem herdDefine_refused {slot : Nat} {o : Op} {list : List (BitVec 64)} {failed : Bool} {ms : List (Nat × Nat × Nat)} {s : State}
    (hm : mgmtOp s slot 0x16 = some o) (hms : memberList s o.entry list failed = some ms)
    (hr : herdRefused s (ef o.entry 16 2) (herdBody o.entry ms) = true) : herdDefine slot list failed s = mgmtDone slot stAborted s := by
  unfold herdDefine
  rw [hm]
  simp only []
  rw [hms]
  exact if_pos hr

/-- The contexts with a Herd's queue pairs. -/
def herdQps (h : Nat) (d : Herd) (qps : NMap Qp) : NMap Qp :=
  ((List.zip (List.range d.members.length) d.members).filter (fun x => x.1 != d.rank)).foldl
    (fun m x => mapSet m (d.qpBase + x.1) (herdQp h d x.1 x.2)) qps

theorem herdDefine_made {slot : Nat} {o : Op} {list : List (BitVec 64)} {failed : Bool} {ms : List (Nat × Nat × Nat)} {s : State}
    (hm : mgmtOp s slot 0x16 = some o) (hms : memberList s o.entry list failed = some ms)
    (hr : herdRefused s (ef o.entry 16 2) (herdBody o.entry ms) = false) (hq : herdQuota s (ef o.entry 26 2 % 512) ms.length = true) :
    herdDefine slot list failed s = mgmtDone slot stOk { s with
      hd := { s.hd with herds := mapSet s.hd.herds (ef o.entry 16 2) { herdBody o.entry ms with
        active := activeRanks s (herdBody o.entry ms) (List.range ms.length) } }
      tp := { s.tp with qps := herdQps (ef o.entry 16 2) (herdBody o.entry ms) s.tp.qps } } := by
  unfold herdDefine
  rw [hm]
  simp only []
  rw [hms]
  simp only []
  rw [if_neg (by rw [hr]; exact Bool.false_ne_true), if_neg (by rw [show herdQuota s (herdBody o.entry ms).inst ms.length = true from hq]; decide)]
  rfl

theorem mapGet_foldl_mapSet {β α : Type} (key : β → Nat) (val : β → α) {l : List β} {x : β} {m : NMap α}
    (hsame : ∀ y ∈ l, key y = key x → val y = val x) (h : x ∈ l ∨ mapGet m (key x) = some (val x)) :
    mapGet (l.foldl (fun m y => mapSet m (key y) (val y)) m) (key x) = some (val x) := by
  induction l generalizing m with
  | nil => exact h.resolve_left (List.not_mem_nil)
  | cons y t ih =>
    refine ih (fun z hz => hsame z (List.mem_cons_of_mem _ hz)) ?_
    show x ∈ t ∨ mapGet (mapSet m (key y) (val y)) (key x) = _
    by_cases hk : key y = key x
    · right
      rw [hk, hsame y List.mem_cons_self hk]
      exact mapGet_mapSet_same _ _ _
    · rw [mapGet_mapSet_ne _ _ (Ne.symm hk)]
      refine h.imp_left fun hx => (List.mem_cons.mp hx).resolve_left ?_
      rintro rfl
      exact hk rfl

theorem mapGet_herdQps {h j : Nat} {d : Herd} {m : Nat × Nat × Nat} (qps : NMap Qp) (hm : d.members[j]? = some m) (hj : j ≠ d.rank) :
    mapGet (herdQps h d qps) (d.qpBase + j) = some (herdQp h d j m) := by
  have hzip : ∀ x ∈ (List.zip (List.range d.members.length) d.members).filter (fun x => x.1 != d.rank), d.members[x.1]? = some x.2 := by
    intro x hx
    obtain ⟨i, hi⟩ := List.mem_iff_getElem?.mp (List.mem_filter.mp hx).1
    obtain ⟨h1, h2⟩ := List.getElem?_zip_eq_some.mp hi
    obtain ⟨hlt, heq⟩ := List.getElem?_eq_some_iff.mp h1
    rw [← heq, List.getElem_range]
    exact h2
  refine mapGet_foldl_mapSet (x := (j, m)) (fun x => d.qpBase + x.1) (fun x => herdQp h d x.1 x.2) (fun y hy hk => ?_) (.inl ?_)
  · have hy1 : y.1 = j := Nat.add_left_cancel hk
    have hy2 : y.2 = m := Option.some.inj ((hzip y hy).symm.trans (hy1 ▸ hm))
    rw [hy1, hy2]
  · obtain ⟨hlt, -⟩ := List.getElem?_eq_some_iff.mp hm
    refine List.mem_filter.mpr ⟨List.mem_iff_getElem?.mpr ⟨j, List.getElem?_zip_eq_some.mpr ⟨?_, hm⟩⟩, by simpa using hj⟩
    rw [List.getElem?_range hlt]

theorem herdDissolve_of {slot : Nat} {o : Op} {d : Herd} {s : State} (hm : mgmtOp s slot 0x17 = some o)
    (hd : mapGet s.hd.herds (ef o.entry 16 2) = some d) :
    herdDissolve slot s = if herdBusy s (ef o.entry 16 2) d then mgmtDone slot stAborted s
      else mgmtDone slot stOk (dropHerd (ef o.entry 16 2) s) := by
  unfold herdDissolve
  rw [hm]
  simp only []
  rw [hd]

/-- Freeing a context keeps the rings and the Herds, and no context comes back. -/
theorem freeQp_keeps (qpn : Nat) (s : State) :
    (freeQp qpn s).q = s.q ∧ (freeQp qpn s).hd = s.hd ∧ qpOf (freeQp qpn s) qpn = none ∧
      ∀ n, qpOf s n = none → qpOf (freeQp qpn s) n = none := by
  cases hq : qpOf s qpn with
  | none =>
    have hform : freeQp qpn s = s := by
      unfold freeQp
      rw [hq]
    rw [hform]
    exact ⟨rfl, rfl, hq, fun n hn => hn⟩
  | some q =>
    obtain ⟨hgone, hothers, hqq⟩ := freeQp_frees hq
    have hhd : (freeQp qpn s).hd = s.hd := by
      have hdrop : (dropRecords qpn s).hd = s.hd := (congrArg State.hd (beyondRecords_dropRecords qpn s) :)
      unfold freeQp
      rw [hq]
      simp only []
      split
      · exact hdrop
      · exact hdrop
    refine ⟨hqq, hhd, hgone, fun n hn => ?_⟩
    by_cases h : n = qpn
    · rw [h]
      exact hgone
    · rw [hothers n h]
      exact hn

theorem freeQps_keeps (qpns : List Nat) (s : State) :
    let t := qpns.foldl (fun s q => freeQp q s) s
    t.q = s.q ∧ t.hd = s.hd ∧ ∀ n, n ∈ qpns ∨ qpOf s n = none → qpOf t n = none := by
  induction qpns generalizing s with
  | nil => exact ⟨rfl, rfl, fun n hn => hn.resolve_left List.not_mem_nil⟩
  | cons p t ih =>
    obtain ⟨hq, hhd, hgone, hnone⟩ := freeQp_keeps p s
    obtain ⟨htq, hthd, htn⟩ := ih (freeQp p s)
    refine ⟨htq.trans hq, hthd.trans hhd, fun n hn => htn n ?_⟩
    rcases hn with hmem | hn
    · rcases List.mem_cons.mp hmem with rfl | ht
      · exact .inr hgone
      · exact .inl ht
    · exact .inr (hnone n hn)

theorem dropHerd_drops (h : Nat) (s : State) :
    (dropHerd h s).q = s.q ∧ (dropHerd h s).hd.herds = mapErase s.hd.herds h ∧
      ∀ n q, qpOf s n = some q → q.herd = some h → qpOf (dropHerd h s) n = none := by
  unfold dropHerd
  extract_lets qpns t u
  obtain ⟨hq, hhd, hnone⟩ := freeQps_keeps qpns s
  refine ⟨hq, congrArg (fun x : HerdState => mapErase x.herds h) hhd, fun n q hqp hh => hnone n (.inl ?_)⟩
  exact List.mem_map.mpr ⟨(n, q), List.mem_filter.mpr ⟨mapGet_mem hqp, by simp [hh]⟩, rfl⟩

/-! ### Starts (R293, R295, R313) -/

theorem slotAcquire_takes {s : State} {h n : Nat} {d : Herd} {c : Coll} (hd : mapGet s.hd.herds h = some d)
    (hfind : d.colls.find? (fun e => e.2.slotAt.isNone) = some (n, c))
    (hused : (d.colls.filter (fun e => e.2.slotAt.isSome)).length < d.depth) :
    slotAcquire h s = updColl h n (fun c => { c with slotAt := some s.tick.count.toNat }) s := by
  unfold slotAcquire
  rw [hd]
  simp only []
  rw [hfind]
  exact if_pos hused

theorem earlier_none {l : List Op} {slot h : Nat} (hone : ∀ x ∈ l, entryOpcode x.entry = 9 → x.slot = slot) :
    (l.takeWhile (fun x => x.slot != slot)).any (fun x =>
      entryOpcode x.entry == 9 && ef x.entry 32 2 == h && !x.started && x.done.isNone) = false := by
  refine List.any_eq_false.mpr fun x hx hall => ?_
  simp only [Bool.and_eq_true, beq_iff_eq] at hall
  have hne := List.all_eq_true.mp (List.all_takeWhile (l := l) (p := fun x => x.slot != slot)) x hx
  rw [hone x (List.takeWhile_sublist _ |>.mem hx) hall.1.1.1] at hne
  simp at hne

/-- The state in which a collective stands in its Herd. -/
def collStarted (ring slot : Nat) (o : Op) (d : Herd) (s : State) : State :=
  updHerd (ef o.entry 32 2) (fun x => { x with colls := mapSet x.colls (collFromEntry ring o d).seq (collFromEntry ring o d) })
    (markStarted ring slot s)

theorem collective_starts {ring slot : Nat} {o : Op} {g : Ring} {d : Herd} {s : State} (hm : mayStartOp s ring slot = some o)
    (hg : ringOf s ring = some g) (hop : entryOpcode o.entry = 9) (hd : mapGet s.hd.herds (ef o.entry 32 2) = some d)
    (hone : ∀ x ∈ g.ops, entryOpcode x.entry = 9 → x.slot = slot) :
    collective ring slot s = if d.broken
      then collEnd (ef o.entry 32 2) (collFromEntry ring o d).seq stMemberTimeout 0 0 (collStarted ring slot o d s)
      else if d.colls.any (fun e => e.2.slotAt.isNone) then collStarted ring slot o d s
      else slotAcquire (ef o.entry 32 2) (collStarted ring slot o d s) := by
  unfold collective
  rw [hm, hg]
  simp only []
  rw [hd]
  simp only []
  rw [if_neg (by rw [earlier_none hone]; simp [hop])]
  rfl

theorem herd_collStarted {ring slot : Nat} {o : Op} {d : Herd} {s : State} (hd : mapGet s.hd.herds (ef o.entry 32 2) = some d) :
    mapGet (collStarted ring slot o d s).hd.herds (ef o.entry 32 2) =
      some { d with colls := mapSet d.colls (collFromEntry ring o d).seq (collFromEntry ring o d) } :=
  herd_updHerd (s := markStarted ring slot s) hd _

theorem find_mapSet_waiting {m : NMap Coll} {k : Nat} {v : Coll} (hv : v.slotAt = none) (hm : ∀ e ∈ m, e.2.slotAt.isSome = true) :
    (mapSet m k v).find? (fun e => e.2.slotAt.isNone) = some (k, v) := by
  have hpos : (fun e : Nat × Coll => e.2.slotAt.isNone) (k, v) = true := by simp [hv]
  induction m with
  | nil => exact List.find?_cons_of_pos hpos
  | cons e t ih =>
    unfold mapSet
    split
    · exact List.find?_cons_of_pos hpos
    · split
      · exact List.find?_cons_of_pos hpos
      · have hneg := hm e List.mem_cons_self
        rw [List.find?_cons_of_neg (by simpa [Option.isSome_iff_ne_none] using hneg)]
        exact ih fun x hx => hm x (List.mem_cons_of_mem _ hx)

theorem length_filter_mapSet_waiting (m : NMap Coll) (k : Nat) {v : Coll} (hv : v.slotAt = none) :
    ((mapSet m k v).filter (fun e => e.2.slotAt.isSome)).length ≤ m.length := by
  have hneg (t : NMap Coll) : ((k, v) :: t).filter (fun e => e.2.slotAt.isSome) = t.filter (fun e => e.2.slotAt.isSome) :=
    List.filter_cons_of_neg (by simp [hv])
  induction m with
  | nil =>
    unfold mapSet
    rw [hneg]
    exact Nat.le_refl 0
  | cons e t ih =>
    unfold mapSet
    split
    · rw [hneg]
      exact List.length_filter_le _ _
    · split
      · rw [hneg]
        exact Nat.le_succ_of_le (List.length_filter_le _ _)
      · rw [List.filter_cons]
        split
        · exact Nat.succ_le_succ ih
        · exact Nat.le_succ_of_le ih

/-! ### Aborts (R298, R300, R307, R309) -/

/-- A collective with its abort. -/
def aborted (code rank : Nat) (c : Coll) : Coll := { c with abort := some (code, rank) }

/-- The state in which a collective has aborted. -/
def collAborted (h seq code rank : Nat) (d : Herd) (c : Coll) (s : State) : State :=
  putReg Reg.GX_HD_LAST_ABORT (BitVec.ofNat 32 (h * 65536 + rank)) (putReg Reg.GX_HD_LAST_ABORT_SEQ (BitVec.ofNat 32 seq)
    { s with hd := { s.hd with herds := mapSet s.hd.herds h { d with colls := mapSet d.colls seq (aborted code rank c) } } })

theorem collAbort_of {s : State} {h seq : Nat} {d : Herd} {c : Coll} (code rank : Nat) (hd : mapGet s.hd.herds h = some d)
    (hc : mapGet d.colls seq = some c) (ha : c.abort = none) (hdec : c.decision ≠ some 2) :
    collAbort h seq code rank s = collAborted h seq code rank d c s := by
  unfold collAbort
  rw [hd]
  simp only []
  rw [hc]
  exact if_neg (by simp [ha, hdec])

theorem collAbort_settled {s : State} {h seq : Nat} {d : Herd} {c : Coll} (code rank : Nat) (hd : mapGet s.hd.herds h = some d)
    (hc : mapGet d.colls seq = some c) (h2 : c.abort ≠ none ∨ c.decision = some 2) : collAbort h seq code rank s = s := by
  unfold collAbort
  rw [hd]
  simp only []
  rw [hc]
  refine if_pos ?_
  rcases h2 with ha | hdec
  · simp [Option.isSome_iff_ne_none.mpr ha]
  · simp [hdec]

theorem collAbort_absent {s : State} {h seq : Nat} {d : Herd} (code rank : Nat) (hd : mapGet s.hd.herds h = some d)
    (hc : mapGet d.colls seq = none) : collAbort h seq code rank s = s := by
  unfold collAbort
  rw [hd]
  simp only []
  rw [hc]

theorem herd_collAborted (h seq code rank : Nat) (d : Herd) (c : Coll) (s : State) :
    mapGet (collAborted h seq code rank d c s).hd.herds h = some { d with colls := mapSet d.colls seq (aborted code rank c) } :=
  mapGet_mapSet_same _ _ _

theorem collOf_collAborted (h seq code rank : Nat) (d : Herd) (c : Coll) (s : State) :
    collOf (collAborted h seq code rank d c s) h seq = some (aborted code rank c) := by
  rw [collOf_of_herd (herd_collAborted h seq code rank d c s)]
  exact mapGet_mapSet_same _ _ _

theorem rg_collAborted (h seq code rank : Nat) (d : Herd) (c : Coll) (s : State) :
    rg (collAborted h seq code rank d c s) Reg.GX_HD_LAST_ABORT = BitVec.ofNat 32 (h * 65536 + rank) ∧
      rg (collAborted h seq code rank d c s) Reg.GX_HD_LAST_ABORT_SEQ = BitVec.ofNat 32 seq := by
  constructor
  · exact regAt_putReg_same _ _ _
  · rw [collAborted, rg, regAt_putReg_ne _ _ (by decide), regAt_putReg_same]

theorem deadlineMissed_open {now j : Nat} {d : Herd} {c : Coll} (h : deadlineMissed now d c = some j) :
    c.abort = none ∧ c.decision = none := by
  unfold deadlineMissed at h
  split at h
  · exact absurd h (by simp)
  · rename_i hopen
    simp only [Bool.or_eq_true, not_or, Bool.not_eq_true, Option.isSome_eq_false_iff, Option.isNone_iff_eq_none] at hopen
    exact ⟨hopen.1.2, hopen.2⟩

/-! ### Membership (R298) -/

/-- An abort of one collective of a Herd leaves the Herd's own fields, and what another block holds. -/
def Aborting (s : State) (h : Nat) (d : Herd) (s' : State) : Prop :=
  (∃ colls, mapGet s'.hd.herds h = some { d with colls := colls }) ∧ s'.mem = s.mem ∧ s'.tp = s.tp ∧ s'.q = s.q

theorem aborting_collAbort {s t : State} {h : Nat} {d : Herd} (n code rank : Nat) (ht : Aborting s h d t) :
    Aborting s h d (collAbort h n code rank t) := by
  obtain ⟨⟨colls, hherd⟩, hrest⟩ := ht
  cases hc : mapGet colls n with
  | none =>
    rw [collAbort_absent code rank hherd hc]
    exact ⟨⟨colls, hherd⟩, hrest⟩
  | some c =>
    by_cases hopen : c.abort = none ∧ c.decision ≠ some 2
    · rw [collAbort_of code rank hherd hc hopen.1 hopen.2]
      exact ⟨⟨_, herd_collAborted _ _ _ _ _ _ _⟩, hrest⟩
    · rw [collAbort_settled code rank hherd hc (by
        by_cases ha : c.abort = none
        · exact .inr (Decidable.not_not.mp fun hd => hopen ⟨ha, hd⟩)
        · exact .inl ha)]
      exact ⟨⟨colls, hherd⟩, hrest⟩

theorem collOf_collAbort {s : State} {h n : Nat} {c : Coll} (code rank : Nat) (hc : collOf s h n = some c)
    (hopen : c.abort = none) (hdec : c.decision ≠ some 2) : collOf (collAbort h n code rank s) h n = some (aborted code rank c) := by
  obtain ⟨d, hd, hcn⟩ := Option.bind_eq_some_iff.mp hc
  rw [collAbort_of code rank hd hcn hopen hdec]
  exact collOf_collAborted _ _ _ _ _ _ _

theorem collOf_collAbort_settled {s : State} {h n : Nat} {c : Coll} (code rank : Nat) (hc : collOf s h n = some c)
    (ha : c.abort ≠ none) : collOf (collAbort h n code rank s) h n = some c := by
  obtain ⟨d, hd, hcn⟩ := Option.bind_eq_some_iff.mp hc
  rw [collAbort_settled code rank hd hcn (.inl ha)]
  exact hc

theorem collOf_collAbort_ne {s : State} {h n j : Nat} (code rank : Nat) (hj : j ≠ n) :
    collOf (collAbort h j code rank s) h n = collOf s h n := by
  unfold collAbort
  split
  · rfl
  · rename_i d hd
    split
    · rfl
    · rename_i c hc
      split
      · rfl
      · exact (collOf_of_herd (herd_collAborted h j code rank d c s) n).trans
          ((mapGet_mapSet_ne _ _ (Ne.symm hj)).trans (collOf_of_herd hd n).symm)

/-- Aborts of several collectives abort each open one among them. -/
theorem collOf_collAborts {h n code rank : Nat} {c : Coll} {l : List (Nat × Coll)} {s : State} (hopen : c.abort = none)
    (hdec : c.decision ≠ some 2)
    (hc : (collOf s h n = some c ∧ ∃ e ∈ l, e.1 = n) ∨ collOf s h n = some (aborted code rank c)) :
    collOf (l.foldl (fun s e => collAbort h e.1 code rank s) s) h n = some (aborted code rank c) := by
  induction l generalizing s with
  | nil => exact hc.resolve_left (fun hl => by obtain ⟨-, e, he, -⟩ := hl; exact List.not_mem_nil he)
  | cons e t ih =>
    refine ih ?_
    simp only []
    by_cases he : e.1 = n
    · right
      rw [he]
      rcases hc with ⟨hc, -⟩ | hc
      · exact collOf_collAbort code rank hc hopen hdec
      · exact collOf_collAbort_settled code rank hc (by simp [aborted])
    · rw [collOf_collAbort_ne code rank he]
      refine hc.imp_left fun ⟨hcn, x, hx, hxn⟩ => ⟨hcn, x, (List.mem_cons.mp hx).resolve_left ?_, hxn⟩
      rintro rfl
      exact he hxn

/-- A Herd that the fence table has left without a rank. -/
def memberLeft (s : State) (d : Herd) : Herd := { d with active := activeRanks s d d.active, gen := d.gen + 1 }

/-- The state in which a rank has left a Herd and its collectives in flight have aborted. -/
def memberChanged (h gone : Nat) (d : Herd) (s : State) : State :=
  raise Reg.GX_HD_EVENTS 0 ((d.colls.filter (fun e => e.2.begun)).foldl (fun s e => collAbort h e.1 1 gone s)
    (updHerd h (fun d' => { d' with active := activeRanks s d d.active, gen := d'.gen + 1 }) s))

theorem memberChanged_keeps {h gone : Nat} {d : Herd} {s : State} (hd : mapGet s.hd.herds h = some d) :
    ∃ colls, mapGet (memberChanged h gone d s).hd.herds h = some { memberLeft s d with colls := colls } ∧
      (memberChanged h gone d s).mem = s.mem ∧ (memberChanged h gone d s).tp = s.tp ∧ (memberChanged h gone d s).q = s.q := by
  unfold memberChanged
  rw [raise_hd, raise_mem, raise_tp, raise_q]
  have hfold := foldl_maintains (Aborting s h (memberLeft s d)) (fun (s : State) (e : Nat × Coll) => collAbort h e.1 1 gone s)
    (fun t e ht => aborting_collAbort e.1 1 gone ht) (d.colls.filter (fun e => e.2.begun))
    (updHerd h (fun d' => { d' with active := activeRanks s d d.active, gen := d'.gen + 1 }) s) ⟨⟨d.colls, herd_updHerd hd _⟩, rfl, rfl, rfl⟩
  obtain ⟨⟨colls, hherd⟩, hmem, htp, hq⟩ := hfold
  exact ⟨colls, hherd, hmem, htp, hq⟩

theorem collOf_memberChanged {h gone n : Nat} {d : Herd} {c : Coll} {s : State} (hd : mapGet s.hd.herds h = some d)
    (hc : mapGet d.colls n = some c) (hbegun : c.begun = true) (ha : c.abort = none) (hdec : c.decision ≠ some 2) :
    collOf (memberChanged h gone d s) h n = some (aborted 1 gone c) := by
  unfold memberChanged
  rw [collOf, raise_hd]
  refine collOf_collAborts ha hdec (.inl ⟨?_, (n, c), List.mem_filter.mpr ⟨mapGet_mem hc, hbegun⟩, rfl⟩)
  exact (collOf_of_herd (herd_updHerd hd _) n).trans hc

/-! ### The end of a collective (R309) -/

/-- The counters and events of a collective's status. -/
def statusCounted (status : Nat) (s : State) : State :=
  if status = stOk then bump Reg.GX_HD_DONE_CNT s
  else if status = stMemberTimeout then raise Reg.GX_HD_EVENTS 1 (bump Reg.GX_HD_TIMEOUT_CNT s)
  else if status = stMemberFenced then raise Reg.GX_HD_EVENTS 2 (bump Reg.GX_HD_FENCED_CNT s)
  else s

/-- What a collective's end keeps: the rings, the memories, the transport, the PCIe ports and the Herds. -/
def collEndView (s : State) : QueueState × MemState × TpState × NMap AccPort × HerdState := (s.q, s.mem, s.tp, s.pc.acc, s.hd)

theorem collEndView_statusCounted (status : Nat) (s : State) : collEndView (statusCounted status s) = collEndView s := by
  unfold statusCounted
  split
  · rfl
  · split
    · rw [collEndView, raise_q, raise_mem, raise_tp, raise_pc, raise_hd]
      rfl
    · split
      · rw [collEndView, raise_q, raise_mem, raise_tp, raise_pc, raise_hd]
        rfl
      · rfl

theorem counted_done (s : State) : counted s (statusCounted stOk s) Reg.GX_HD_DONE_CNT 1 := by
  rw [statusCounted, if_pos rfl]
  exact counted_bump _ _

theorem counted_fenced (s : State) : counted s (statusCounted stMemberFenced s) Reg.GX_HD_FENCED_CNT 1 := by
  rw [statusCounted, if_neg (by decide), if_neg (by decide), if_pos rfl]
  exact counted_raise _ _ (counted_bump _ _) (by decide)

theorem counted_timeout (s : State) : counted s (statusCounted stMemberTimeout s) Reg.GX_HD_TIMEOUT_CNT 1 ∧
    (rg (statusCounted stMemberTimeout s) Reg.GX_HD_EVENTS).getLsbD 1 = true := by
  rw [statusCounted, if_neg (by decide), if_pos rfl]
  exact ⟨counted_raise _ _ (counted_bump _ _) (by decide), raise_sets _ _ _ (by decide)⟩

theorem collEnd_ends {s : State} {h n status detail aux : Nat} {d : Herd} {c : Coll} (hd : mapGet s.hd.herds h = some d)
    (hc : mapGet d.colls n = some c) (hf : unflushed s (.run (opKey c.ring c.slot)) = []) :
    ∃ e, collEnd h n status detail aux s = finishOp c.ring c.slot e (dropGot (opKey c.ring c.slot)
      (statusCounted status (updHerd h (fun d => { d with colls := mapErase d.colls n, doneSeq := n }) s))) ∧ e.status = status := by
  refine ⟨{ status := status, detail := detail, bytes := if status = stOk then collBytes d c else 0, aux := aux }, ?_, rfl⟩
  have hview := collEndView_statusCounted status (updHerd h (fun d => { d with colls := mapErase d.colls n, doneSeq := n }) s)
  have hacc : (statusCounted status (updHerd h (fun d => { d with colls := mapErase d.colls n, doneSeq := n }) s)).pc.acc = s.pc.acc :=
    congrArg (fun v => v.2.2.2.1) hview
  have hquiet : ∀ t : State, t.pc.acc = s.pc.acc → awaitFlush (.run (opKey c.ring c.slot)) (dropGot (opKey c.ring c.slot) t) =
      (dropGot (opKey c.ring c.slot) t, []) := by
    intro t ht
    have hnone : unflushed (dropGot (opKey c.ring c.slot) t) (.run (opKey c.ring c.slot)) = [] := by
      rw [unflushed, show (dropGot (opKey c.ring c.slot) t).pc.acc = s.pc.acc from ht]
      exact hf
    rw [awaitFlush, hnone]
    rfl
  unfold collEnd
  rw [collOf_of_herd hd, hd, hc]
  simp only []
  rw [show (if status = stOk then _ else _) = statusCounted status _ from rfl, hquiet _ hacc]
  rfl

theorem endsWith_collEnd {s : State} {h n status detail aux : Nat} {d : Herd} {c : Coll} {o : Op}
    (hd : mapGet s.hd.herds h = some d) (hc : mapGet d.colls n = some c) (hf : unflushed s (.run (opKey c.ring c.slot)) = [])
    (ho : opAt s c.ring c.slot = some o) (hh : o.head = c.slot) (hdone : o.done = none) :
    let t := collEnd h n status detail aux s
    endsWith t c.ring c.slot status ∧ collOf t h n = none ∧ (status = stOk → counted s t Reg.GX_HD_DONE_CNT 1) ∧
      (status = stMemberFenced → counted s t Reg.GX_HD_FENCED_CNT 1) ∧
      (status = stMemberTimeout → counted s t Reg.GX_HD_TIMEOUT_CNT 1 ∧ (rg t Reg.GX_HD_EVENTS).getLsbD 1 = true) ∧
      t.mem = s.mem ∧ t.tp = s.tp := by
  obtain ⟨e, hend, hstatus⟩ := collEnd_ends (status := status) (detail := detail) (aux := aux) hd hc hf
  have hherd := herd_updHerd hd (fun d => { d with colls := mapErase d.colls n, doneSeq := n })
  have hview0 : collEndView (updHerd h (fun d => { d with colls := mapErase d.colls n, doneSeq := n }) s) =
    (s.q, s.mem, s.tp, s.pc.acc, (updHerd h (fun d => { d with colls := mapErase d.colls n, doneSeq := n }) s).hd) := rfl
  have hcount : ∀ {t : State} {k : Nat}, counted (updHerd h (fun d => { d with colls := mapErase d.colls n, doneSeq := n }) s) t k 1 →
    counted s t k 1 := fun hk => counted_from hk rfl
  generalize updHerd h (fun d => { d with colls := mapErase d.colls n, doneSeq := n }) s = u at *
  have hview := (collEndView_statusCounted status u).trans hview0
  simp only [collEndView, Prod.mk.injEq] at hview
  obtain ⟨hq, hmem, htp, -, hhd⟩ := hview
  intro t
  have ht : t = finishOp c.ring c.slot e (dropGot (opKey c.ring c.slot) (statusCounted status u)) := hend
  have hends := finishOp_endsWith e (s := dropGot (opKey c.ring c.slot) (statusCounted status u)) ((opAt_of_q hq c.ring c.slot).trans ho) hh hdone
  rw [hstatus] at hends
  rw [ht]
  refine ⟨hends, ?_, fun h0 => ?_, fun h7 => ?_, fun h6 => ?_, hmem, htp⟩
  · have hherd' : mapGet (statusCounted status u).hd.herds h = _ := (congrArg (fun x : HerdState => mapGet x.herds h) hhd).trans hherd
    exact (collOf_of_herd (s := statusCounted status u) hherd' n).trans (mapGet_mapErase_same _ _)
  · subst h0
    exact hcount (counted_of_rg (counted_done u) rfl)
  · subst h7
    exact hcount (counted_of_rg (counted_fenced u) rfl)
  · subst h6
    exact ⟨hcount (counted_of_rg (counted_timeout u).1 rfl), (counted_timeout u).2⟩

/-- Settles O47: a command on a Herd changes that Herd, its queue pairs and the entry it serves; an abort or an end names one collective. -/
theorem herdsAndCollectives : Obligations.HerdsAndCollectives := by
  unfold Obligations.HerdsAndCollectives
  refine ⟨?_, ?_, ?_, ?_, ?_, ?_, ?_, ?_, ?_, ?_, ?_⟩
  · intro slot o list failed ms s hw hwait hms href hquota
    refine ⟨_, (next_whenOk hw).trans (congrArg Host.Outcome.next (herdDefine_made hwait.1 hms href hquota)),
      waitsAt_endsWith hwait rfl _, mapGet_mapSet_same _ _ _, fun h hh => mapGet_mapSet_ne _ _ hh, fun j m hm hj => ?_, rfl⟩
    exact mapGet_herdQps (d := herdBody o.entry ms) _ hm hj
  · intro slot o list failed ms s hw hwait hms href
    exact ⟨_, (next_whenOk hw).trans (congrArg Host.Outcome.next (herdDefine_refused hwait.1 hms href)), waitsAt_endsWith hwait rfl _, rfl⟩
  · intro slot o d s hw hwait hd hbusy
    obtain ⟨hq, hherds, hnone⟩ := dropHerd_drops (ef o.entry 16 2) s
    refine ⟨_, (next_whenOk hw).trans (congrArg Host.Outcome.next ((herdDissolve_of hwait.1 hd).trans (if_neg (by
      rw [hbusy]; exact Bool.false_ne_true)))), waitsAt_endsWith hwait hq _, ?_, fun h hh => ?_, hnone⟩
    · show mapGet (dropHerd _ s).hd.herds _ = none
      rw [hherds]
      exact mapGet_mapErase_same _ _
    · show mapGet (dropHerd _ s).hd.herds _ = _
      rw [hherds]
      exact mapGet_mapErase_ne _ hh
  · intro slot o d s hw hwait hd hbusy
    exact ⟨_, (next_whenOk hw).trans (congrArg Host.Outcome.next ((herdDissolve_of hwait.1 hd).trans (if_pos hbusy))),
      waitsAt_endsWith hwait rfl _, rfl⟩
  · intro ring slot o g d s hw hm hg hop hd hbroken hone hslots hfresh hroom
    have hherd := herd_collStarted (ring := ring) (slot := slot) hd
    have hidle : d.colls.any (fun e => e.2.slotAt.isNone) = false :=
      List.any_eq_false.mpr fun e he => by simpa [Option.isSome_iff_ne_none] using hslots e he
    have hstart := collective_starts hm hg hop hd hone
    rw [if_neg (by rw [hbroken]; exact Bool.false_ne_true), if_neg (by rw [hidle]; exact Bool.false_ne_true),
      slotAcquire_takes hherd (find_mapSet_waiting rfl hslots)
        (Nat.lt_of_le_of_lt (length_filter_mapSet_waiting _ _ rfl) hroom)] at hstart
    have hnew : collOf (collStarted ring slot o d s) (ef o.entry 32 2) (collFromEntry ring o d).seq = some (collFromEntry ring o d) :=
      (collOf_of_herd hherd _).trans (mapGet_mapSet_same _ _ _)
    refine ⟨_, (next_whenOk hw).trans (congrArg Host.Outcome.next hstart), collOf_updColl hnew _, fun n hn => ?_, rfl⟩
    rw [collOf_updColl_ne hn, collOf_of_herd hherd, collOf_of_herd hd]
    exact mapGet_mapSet_ne _ _ hn
  · intro ring slot o g d s hw hm hg hop hd hbroken ho hone hflush
    obtain ⟨rfl, hh, hdone⟩ := mayStartOp_idle hm
    have hstart := collective_starts hm hg hop hd hone
    rw [if_pos hbroken] at hstart
    have hends := endsWith_collEnd (status := stMemberTimeout) (detail := 0) (aux := 0) (c := collFromEntry ring o d)
      (herd_collStarted (ring := ring) (slot := o.slot) hd) (mapGet_mapSet_same _ _ _) hflush
      (o := { o with started := true }) (opAt_markStarted ho hh) hh hdone
    obtain ⟨h1, -, -, -, h5, -, -⟩ := hends
    obtain ⟨h5, h6⟩ := h5 rfl
    exact ⟨_, (next_whenOk hw).trans (congrArg Host.Outcome.next hstart), h1, counted_from h5 rfl, h6⟩
  · intro h n d c s hw hd hfind hc hused
    exact ⟨_, (next_whenOk hw).trans (congrArg Host.Outcome.next (slotAcquire_takes hd hfind hused)),
      collOf_updColl ((collOf_of_herd hd n).trans hc) _, fun j hj => collOf_updColl_ne hj _, rfl⟩
  · intro h n j d c s hw hd hc hmiss
    obtain ⟨ha, hdec⟩ := deadlineMissed_open hmiss
    have habort := collAbort_of 0 j hd (collOf_some hd hc) ha (by rw [hdec]; simp)
    have hform : stepMiss h n s = collAborted h n 0 j d c s := by
      rw [← habort]
      unfold stepMiss
      rw [hd, hc]
      simp only []
      rw [hmiss]
    obtain ⟨h1, h2⟩ := rg_collAborted h n 0 j d c s
    exact ⟨_, (next_whenOk hw).trans (congrArg Host.Outcome.next hform), collOf_collAborted _ _ _ _ _ _ _, h1, h2, rfl⟩
  · intro h n d c s hw hd hc hvoted hdec hcoord hdue
    have hform : holdOut h n s = updColl h n (fun c => { c with decision := some 0 }) (collAbort h n 0 d.rank s) := by
      unfold holdOut
      rw [hd, hc]
      exact if_pos (by simp [hvoted, hdec, hcoord, hdue])
    refine ⟨_, (next_whenOk hw).trans (congrArg Host.Outcome.next hform), ?_⟩
    cases ha : c.abort with
    | none =>
      rw [collAbort_of 0 d.rank hd (collOf_some hd hc) ha (by rw [hdec]; simp)]
      exact ⟨collOf_updColl (collOf_collAborted h n 0 d.rank d c s) _, rfl⟩
    | some a =>
      rw [collAbort_settled 0 d.rank hd (collOf_some hd hc) (.inl (by rw [ha]; simp))]
      refine ⟨(collOf_updColl hc _).trans ?_, rfl⟩
      rw [ha]
      rfl
  · intro h gone d s hw hfenced hd hgone
    have hform : memberChange h s = memberChanged h gone d s := by
      unfold memberChange
      rw [hd]
      simp only []
      rw [hgone]
      rfl
    obtain ⟨colls, hherd, hmem, htp, hq⟩ := memberChanged_keeps (gone := gone) hd
    refine ⟨_, _, (next_whenOk (by simp [hw, hfenced])).trans (congrArg Host.Outcome.next hform), hherd, rfl, rfl, rfl,
      raise_sets _ _ _ (by decide), fun n c hc hbegun ha hdec => ?_, hmem, htp, hq⟩
    exact collOf_memberChanged hd hc hbegun ha hdec
  · intro h n st detail aux d c o s hw hd hc hv ho hh hdone hflush
    have hform : collComplete h n s = collEnd h n st detail aux s := by
      unfold collComplete
      rw [hd, hc]
      simp only []
      rw [hv]
    obtain ⟨h1, h2, h3, h4, -, h6, h7⟩ := endsWith_collEnd (status := st) (detail := detail) (aux := aux) hd (collOf_some hd hc) hflush
      ho hh hdone
    exact ⟨_, (next_whenOk hw).trans (congrArg Host.Outcome.next hform), h1, h2, h3, h4, h6, h7⟩

end Sys2Proof.Machine
end

section
/-! PROOFS. The SENDs of a collective are taken at their positions (R301, R305 to R309). -/

namespace Sys2Proof.Machine

section
variable {s : State} {qpn h j : Nat} {m : HerdMsg} {d : Herd} {p : HerdPos} {c : Coll}

/-- The collective of a SEND that is not the one expected aborts by REMOTE_ACCESS. -/
def pieceMismatch (h seq j : Nat) (s : State) : State :=
  updColl h seq (fun c => { c with failure := c.failure.or (some (stRemoteAccess, 0, 0)) }) (collAbort h seq 0 j s)

theorem herdReceive_wrong {msgs : List Nat} {reads : NMap (BitVec 128)} (n : NextWord s qpn m h d p c j)
    (hm : msgs.contains (fld m.imm 31 28) = true) (hbad : tailCheck c p m ≠ 0) :
    herdReceive msgs qpn reads s = takeMsg qpn m (if tailCheck c p m = 1 then collAbort h p.seq 1 j s else pieceMismatch h p.seq j s) := by
  obtain ⟨hold, hpair, hplace, hherd, hcoll, rfl⟩ := n
  unfold herdReceive
  rw [hold, hpair]
  simp only []
  rw [if_neg (by rw [hm]; decide), hplace]
  simp only []
  rw [hherd, hcoll]
  simp only []
  split
  · rename_i h2
    rw [if_neg (by rw [h2]; decide)]
    rfl
  · rename_i h1
    rw [if_pos h1]
  · rename_i h2 h1
    have hcheck : tailCheck c p m = 2 ∨ tailCheck c p m = 1 ∨ tailCheck c p m = 0 := by
      unfold tailCheck
      extract_lets msg other
      split
      · exact .inl rfl
      · split
        · exact .inr (.inl rfl)
        · exact .inr (.inr rfl)
    exact (hcheck.elim h2 (fun hc => hc.elim h1 hbad)).elim

theorem herdReceive_word {msgs : List Nat} {reads : NMap (BitVec 128)} (n : NextWord s qpn m h d p c j)
    (hm : msgs.contains (fld m.imm 31 28) = true) (hgood : tailCheck c p m = 0) (hword : fld m.imm 31 28 ≠ 0) :
    herdReceive msgs qpn reads s = takeWord h p.seq j m (takeMsg qpn m s) := by
  obtain ⟨hold, hpair, hplace, hherd, hcoll, rfl⟩ := n
  unfold herdReceive
  rw [hold, hpair]
  simp only []
  rw [if_neg (by rw [hm]; decide), hplace]
  simp only []
  rw [hherd, hcoll]
  simp only []
  rw [hgood]
  simp only []
  rw [if_pos hword]

/-- The state in which a piece is staged and taken. -/
def pieceStaged (qpn h : Nat) (m : HerdMsg) (p : HerdPos) (j : Nat) (bs : List Byte) (s : State) : State :=
  updColl h p.seq (fun c => { c with got := c.got ++ [(p.step, j)] })
    (takeMsg qpn m (updColl h p.seq (fun c => { c with staged := c.staged ++ [(p.step, j, bs)] }) s))

theorem applyPiece_scatter {n : Nat} {bs : List Byte} {reads : NMap (BitVec 128)} {us : List (List Byte)} {seq : Nat}
    (hherd : mapGet s.hd.herds h = some d) (hcoll : collOf s h seq = some c) (hk : (stepAt d c n).kind = .s)
    (hus : unwire c.format false ((pieceUnits (herdRegion s d) d c j d.rank n).2 - (pieceUnits (herdRegion s d) d c j d.rank n).1) bs =
      some us) :
    applyPiece h seq n j bs reads s =
      some (.ok (updColl h seq (fun c => { c with staged := c.staged ++ [(n, j, us.flatten)] }) s) ()) := by
  unfold applyPiece
  rw [hherd, hcoll]
  simp only []
  rw [hk, hus]
  rfl

theorem herdReceive_piece {msgs : List Nat} {reads : NMap (BitVec 128)} {us : List (List Byte)} (n : NextWord s qpn m h d p c j)
    (hm : msgs.contains (fld m.imm 31 28) = true) (hgood : tailCheck c p m = 0) (hpiece : fld m.imm 31 28 = 0) (ha : c.abort = none)
    (hk : (stepAt d c p.step).kind = .s)
    (hus : unwire c.format false ((pieceUnits (herdRegion s d) d c j d.rank p.step).2 -
      (pieceUnits (herdRegion s d) d c j d.rank p.step).1) m.bytes = some us) :
    herdReceive msgs qpn reads s = endStep h p.seq p.step reads (pieceStaged qpn h m p j us.flatten s) := by
  obtain ⟨hold, hpair, hplace, hherd, hcoll, rfl⟩ := n
  unfold herdReceive
  rw [hold, hpair]
  simp only []
  rw [if_neg (by rw [hm]; decide), hplace]
  simp only []
  rw [hherd, hcoll]
  simp only []
  rw [hgood]
  simp only []
  rw [if_neg (not_not_intro hpiece), if_neg (by rw [ha]; decide), applyPiece_scatter hherd hcoll hk hus]
  rfl

/-- A step that still awaits a rank's piece does not end. -/
theorem endStep_awaits {seq n k : Nat} {reads : NMap (BitVec 128)} (hherd : mapGet s.hd.herds h = some d) (hcoll : collOf s h seq = some c)
    (hk : k ∈ stepFrom d c d.rank n) (hgot : (n, k) ∉ c.got) : endStep h seq n reads s = s := by
  have hmiss : (stepFrom d c d.rank n).all (fun j => c.got.contains (n, j)) = false :=
    List.all_eq_false.mpr ⟨k, hk, by simpa using hgot⟩
  unfold endStep
  rw [hherd, hcoll]
  simp only []
  rw [hmiss]
  exact if_pos (by simp)

theorem herd_updColl (hherd : mapGet s.hd.herds h = some d) (seq : Nat) (f : Coll → Coll) :
    mapGet (updColl h seq f s).hd.herds h = some { d with colls := mapModify d.colls seq f } := herd_updHerd hherd _

theorem herd_pieceStaged (qpn : Nat) (m : HerdMsg) (p : HerdPos) (j : Nat) (bs : List Byte) (hherd : mapGet s.hd.herds h = some d) :
    ∃ colls, mapGet (pieceStaged qpn h m p j bs s).hd.herds h = some { d with colls := colls } := by
  have hstaged : mapGet (takeMsg qpn m (updColl h p.seq (fun c => { c with staged := c.staged ++ [(p.step, j, bs)] }) s)).hd.herds h = _ :=
    herd_updColl hherd p.seq _
  exact ⟨_, herd_updColl hstaged p.seq _⟩

/-- What stands in a collective does not change to whom and from whom its steps go. -/
theorem stepFrom_kept (r n : Nat) (colls : NMap Coll) (staged : List (Nat × Nat × List Byte)) (got : List (Nat × Nat)) :
    stepFrom { d with colls := colls } { c with staged := staged, got := got } r n = stepFrom d c r n := rfl

end

theorem inbox_collAbort (h seq code rank : Nat) (s : State) :
    (collAbort h seq code rank s).hd.inbox = s.hd.inbox ∧ (collAbort h seq code rank s) =
      { s with hd := (collAbort h seq code rank s).hd, regs := (collAbort h seq code rank s).regs } := by
  unfold collAbort
  split
  · exact ⟨rfl, rfl⟩
  · split
    · exact ⟨rfl, rfl⟩
    · split
      · exact ⟨rfl, rfl⟩
      · exact ⟨rfl, rfl⟩

/-- What a word does to a collective that is neither aborted nor decided. -/
def wordActs (code j arg : Nat) (c : Coll) : Coll :=
  match code with
  | 2 => { c with votes := insertNew c.votes j }
  | 3 => { c with abort := some (min 1 arg, j) }
  | 4 => { c with decision := some 2 }
  | 5 => { c with decision := some (min 1 arg), abort := some (min 1 arg, j) }
  | _ => c

theorem wordActs_other {code : Nat} (h2 : code ≠ 2) (h3 : code ≠ 3) (h4 : code ≠ 4) (h5 : code ≠ 5) (j arg : Nat) (c : Coll) :
    wordActs code j arg c = c := by
  unfold wordActs
  split
  · exact absurd rfl h2
  · exact absurd rfl h3
  · exact absurd rfl h4
  · exact absurd rfl h5
  · rfl

/-- A word changes its collective alone, and keeps what has arrived. -/
theorem takeWord_acts {s : State} {h seq j code : Nat} {m : HerdMsg} {c : Coll} (hc : collOf s h seq = some c) (ha : c.abort = none)
    (hdec : c.decision = none) (hcode : fld m.imm 31 28 = code) :
    collOf (takeWord h seq j m s) h seq = some (wordActs code j (fld m.imm 27 24) c) ∧
      (takeWord h seq j m s).hd.inbox = s.hd.inbox ∧
      takeWord h seq j m s = { s with hd := (takeWord h seq j m s).hd, regs := (takeWord h seq j m s).regs } := by
  have habort := collOf_collAbort (min 1 (fld m.imm 27 24)) j hc ha (by rw [hdec]; simp)
  obtain ⟨hinbox, hframe⟩ := inbox_collAbort h seq (min 1 (fld m.imm 27 24)) j s
  unfold takeWord
  rw [hcode]
  split
  · exact ⟨collOf_updColl hc _, rfl, rfl⟩
  · exact ⟨habort, hinbox, hframe⟩
  · refine ⟨(collOf_updColl hc _).trans ?_, rfl, rfl⟩
    rw [hdec]
    rfl
  · simp only []
    refine ⟨(collOf_updColl habort _).trans ?_, hinbox, ?_⟩
    · rw [show (aborted (min 1 (fld m.imm 27 24)) j c).decision = c.decision from rfl, hdec]
      rfl
    · conv => lhs; rw [hframe]
      rfl
  · rename_i h2 h3 h4 h5
    exact ⟨hc.trans (congrArg some (wordActs_other h2 h3 h4 h5 _ _ _).symm), rfl, rfl⟩

theorem pieceMismatch_acts {s : State} {h seq j : Nat} {c : Coll} (hc : collOf s h seq = some c) (ha : c.abort = none)
    (hdec : c.decision = none) :
    (collOf (pieceMismatch h seq j s) h seq).bind (·.abort) = some (0, j) ∧ (pieceMismatch h seq j s).hd.inbox = s.hd.inbox ∧
      pieceMismatch h seq j s = { s with hd := (pieceMismatch h seq j s).hd, regs := (pieceMismatch h seq j s).regs } := by
  obtain ⟨hinbox, hframe⟩ := inbox_collAbort h seq 0 j s
  have habort := collOf_collAbort 0 j hc ha (by rw [hdec]; simp)
  unfold pieceMismatch
  refine ⟨?_, hinbox, ?_⟩
  · rw [collOf_updColl habort]
    rfl
  · conv => lhs; rw [hframe]
    rfl

/-- A SEND that is not the one expected leaves and aborts its collective. -/
theorem wrongTaken_acts {s : State} {qpn h j : Nat} {m : HerdMsg} {p : HerdPos} {c : Coll} (hc : collOf s h p.seq = some c)
    (ha : c.abort = none) (hdec : c.decision = none) :
    let t := takeMsg qpn m (if tailCheck c p m = 1 then collAbort h p.seq 1 j s else pieceMismatch h p.seq j s)
    (collOf t h p.seq).bind (·.abort) = some (if tailCheck c p m = 1 then 1 else 0, j) ∧
      t.hd.inbox = s.hd.inbox.filter (fun x => !(x.qpn == qpn && x.ssn == m.ssn)) ∧ t = { s with hd := t.hd, regs := t.regs } := by
  have hlater : ∀ (x : Nat) (u : State), (collOf u h p.seq).bind (·.abort) = some (x, j) → u.hd.inbox = s.hd.inbox →
      u = { s with hd := u.hd, regs := u.regs } →
      (collOf (takeMsg qpn m u) h p.seq).bind (·.abort) = some (x, j) ∧
        (takeMsg qpn m u).hd.inbox = s.hd.inbox.filter (fun x => !(x.qpn == qpn && x.ssn == m.ssn)) ∧
        takeMsg qpn m u = { s with hd := (takeMsg qpn m u).hd, regs := (takeMsg qpn m u).regs } := by
    intro x u h1 h2 h3
    refine ⟨h1, congrArg (List.filter _) h2, ?_⟩
    conv => lhs; rw [h3]
    rfl
  intro t
  by_cases h1 : tailCheck c p m = 1
  · obtain ⟨hinbox, hframe⟩ := inbox_collAbort h p.seq 1 j s
    simp only [t, if_pos h1]
    refine hlater 1 _ ?_ hinbox hframe
    rw [collOf_collAbort 1 j hc ha (by rw [hdec]; simp)]
    rfl
  · obtain ⟨habort, hinbox, hframe⟩ := pieceMismatch_acts (j := j) hc ha hdec
    simp only [t, if_neg h1]
    exact hlater 0 _ habort hinbox hframe

/-- Settles O48: the oldest SEND of a queue pair is read against its position; a word acts on its collective, a piece is staged, and a
SEND that disagrees aborts. -/
theorem herdMessagesAreTaken : Obligations.HerdMessagesAreTaken := by
  unfold Obligations.HerdMessagesAreTaken
  refine ⟨?_, ?_, ?_⟩
  · intro cmd qpn code h j m d p c s hcmd hw n hcode hgood hdec ha
    obtain ⟨hcoll, hinbox, hframe⟩ := takeWord_acts (s := takeMsg qpn m s) (j := j) (show collOf (takeMsg qpn m s) h p.seq = some c from n.coll)
      ha hdec hcode
    have hexec : exec cmd s = .next (takeWord h p.seq j m (takeMsg qpn m s)) := by
      simp only [List.mem_cons, List.not_mem_nil, or_false, Prod.mk.injEq] at hcmd
      obtain ⟨rfl, rfl⟩ | ⟨rfl, rfl⟩ | ⟨rfl, rfl⟩ | ⟨rfl, rfl⟩ | ⟨rfl, rfl⟩ := hcmd <;>
        exact (next_whenOk hw).trans (congrArg Host.Outcome.next
          (herdReceive_word n (by rw [hcode]; rfl) hgood (by rw [hcode]; decide)))
    exact ⟨_, hexec, hinbox, hcoll, hframe.trans rfl⟩
  · intro qpn h j k reads m d p c us s hw n hcode hgood ha hkind hus hk hkj hgot
    have hrec := herdReceive_piece (msgs := [0, 6, 7, 8, 9, 10, 11, 12, 13, 14, 15]) (reads := reads) n (by rw [hcode]; rfl) hgood hcode ha
      hkind hus
    have hcoll : collOf (pieceStaged qpn h m p j us.flatten s) h p.seq = some { c with
        staged := c.staged ++ [(p.step, j, us.flatten)], got := c.got ++ [(p.step, j)] } :=
      collOf_updColl (s := takeMsg qpn m (updColl h p.seq (fun c => { c with staged := c.staged ++ [(p.step, j, us.flatten)] }) s))
        (collOf_updColl n.coll _) _
    obtain ⟨colls, hherd⟩ := herd_pieceStaged qpn m p j us.flatten n.herd
    have hawait := endStep_awaits (reads := reads) hherd hcoll (by rw [stepFrom_kept]; exact hk)
      (by simpa [hkj] using hgot)
    exact ⟨_, (next_whenOk hw).trans (congrArg Host.Outcome.next (hrec.trans hawait)), hcoll, rfl⟩
  · intro cmd qpn code h j m d p c s hcmd hw n hcode hbad hdec ha
    have hexec : exec cmd s =
        .next (takeMsg qpn m (if tailCheck c p m = 1 then collAbort h p.seq 1 j s else pieceMismatch h p.seq j s)) := by
      simp only [List.mem_cons, List.not_mem_nil, or_false, Prod.mk.injEq] at hcmd
      obtain ⟨rfl, rfl⟩ | ⟨rfl, rfl⟩ | ⟨rfl, rfl⟩ | ⟨rfl, rfl⟩ | ⟨rfl, rfl⟩ | ⟨rfl, rfl⟩ := hcmd <;>
        exact (next_whenOk hw).trans (congrArg Host.Outcome.next (herdReceive_wrong n (by rw [hcode]; rfl) hbad))
    exact ⟨_, hexec, wrongTaken_acts n.coll ha hdec⟩

end Sys2Proof.Machine
end

section
/-! PROOFS. Instances are reset, frozen and thawed (R379, R430, R440 to R450, R551). -/

namespace Sys2Proof.Machine

/-! ### What the end of work leaves alone -/

/-- The running structure, MSI-X's tables and the pages but for their STATUS are as they were. -/
structure PagesKept (s t : State) : Prop where
  run : t.lz.run = s.lz.run
  table : t.gl.msixTable = s.gl.msixTable
  on : t.gl.msixOn = s.gl.msixOn
  page : ∀ k, 0x4000000 ≤ k → k % 0x10000 ≠ 0x20 → regAt t k = regAt s k

theorem PagesKept.refl (s : State) : PagesKept s s := ⟨rfl, rfl, rfl, fun _ _ _ => rfl⟩

theorem PagesKept.trans {s t u : State} (h : PagesKept s t) (k : PagesKept t u) : PagesKept s u :=
  ⟨k.run.trans h.run, k.table.trans h.table, k.on.trans h.on, fun i h1 h2 => (k.page i h1 h2).trans (h.page i h1 h2)⟩

theorem PagesKept.of_same {s t : State} (hlz : t.lz.run = s.lz.run) (hgl : t.gl = s.gl) (hregs : t.regs = s.regs) : PagesKept s t :=
  ⟨hlz, by rw [hgl], by rw [hgl], fun k _ _ => by rw [regAt, hregs]; rfl⟩

/-- Pages and the instances' records are as they were. -/
structure InstsKept (s t : State) : Prop where
  pages : PagesKept s t
  vi : t.vi = s.vi

theorem InstsKept.refl (s : State) : InstsKept s s := ⟨PagesKept.refl s, rfl⟩

theorem InstsKept.trans {s t u : State} (h : InstsKept s t) (k : InstsKept t u) : InstsKept s u :=
  ⟨h.pages.trans k.pages, k.vi.trans h.vi⟩

theorem InstsKept.of_same {s t : State} (hlz : t.lz = s.lz) (hgl : t.gl = s.gl) (hregs : t.regs = s.regs) (hvi : t.vi = s.vi) :
    InstsKept s t := ⟨.of_same (by rw [hlz]) hgl hregs, hvi⟩

theorem InstsKept.inst {s t : State} (h : InstsKept s t) (n : Nat) : inst t n = inst s n := inst_of_vi h.vi n

theorem pagesKept_msixRaise (fn v : Nat) (s : State) : PagesKept s (msixRaise fn v s) := by
  have hgl : (msixRaise fn v s).gl.msixTable = s.gl.msixTable ∧ (msixRaise fn v s).gl.msixOn = s.gl.msixOn := by
    unfold msixRaise
    split
    · unfold msixSend
      split
      · exact ⟨rfl, rfl⟩
      · exact ⟨rfl, rfl⟩
    · exact ⟨rfl, rfl⟩
  refine ⟨by rw [msixRaise_frame], hgl.1, hgl.2, fun k _ _ => ?_⟩
  rw [regAt, msixRaise_frame]
  rfl

theorem pagesKept_putReg {key : Nat} (v : Word) (s : State) (h : key < 0x4000000 ∨ key % 0x10000 = 0x20) :
    PagesKept s (putReg key v s) :=
  ⟨rfl, rfl, rfl, fun k h1 h2 => regAt_putReg_ne _ _ (by rintro rfl; exact h.elim (fun hk => absurd h1 (by omega)) h2)⟩

theorem instsKept_raise {off : Nat} (bit : Nat) (s : State) (h : off < 0x4000000) : InstsKept s (raise off bit s) := by
  refine ⟨?_, raise_vi _ _ _⟩
  unfold raise
  extract_lets old s1
  have h1 : PagesKept s s1 := pagesKept_putReg _ s (.inl h)
  split
  · exact PagesKept.refl s
  · split
    · unfold intFire
      split
      · exact h1.trans (pagesKept_msixRaise _ _ s1)
      · exact h1
    · exact h1

theorem instsKept_raisePage (n bit : Nat) (s : State) : InstsKept s (raisePage n bit s) := by
  refine ⟨?_, raisePage_vi _ _ _⟩
  unfold raisePage
  extract_lets key old s1
  have h1 : PagesKept s s1 := pagesKept_putReg _ s (.inr (by
    show (0x4000020 + n * 0x10000) % 0x10000 = 0x20
    omega))
  split
  · exact PagesKept.refl s
  · split
    · exact h1.trans (pagesKept_msixRaise _ _ s1)
    · exact h1

theorem instsKept_putReg {key : Nat} (v : Word) (s : State) (h : key < 0x4000000) : InstsKept s (putReg key v s) :=
  ⟨pagesKept_putReg v s (.inl h), rfl⟩

theorem instsKept_bump {off : Nat} (s : State) (h : off < 0x4000000) : InstsKept s (bump off s) := instsKept_putReg _ s h

/-! ### The end of operations -/

theorem instsKept_finishOp (ring head : Nat) (c : Completion) (s : State) : InstsKept s (finishOp ring head c s) := .of_same rfl rfl rfl rfl

theorem instsKept_mgmtDone (slot status : Nat) (s : State) : InstsKept s (mgmtDone slot status s) := instsKept_finishOp _ _ _ s

theorem instsKept_updChain (ring head : Nat) (f : Op → Op) (s : State) : InstsKept s (updChain ring head f s) := .of_same rfl rfl rfl rfl

theorem instsKept_updAcc (p : Nat) (f : AccPort → AccPort) (s : State) : InstsKept s (updAcc p f s) := .of_same rfl rfl rfl rfl

theorem instsKept_tryFlush (p : Nat) (s : State) : InstsKept s (tryFlush p s) := by
  unfold tryFlush
  extract_lets a
  split
  · exact ((instsKept_updAcc p (fun a => { a with flush := some a.dirty, dirty := [] }) s).trans (instsKept_bump _ (by decide))).trans
      (.of_same rfl rfl rfl rfl)
  · exact InstsKept.refl s

theorem instsKept_awaitFlush (w : Waiter) (s : State) : InstsKept s (awaitFlush w s).1 := by
  unfold awaitFlush
  refine foldl_maintains (InstsKept s) _ (fun t p ht => ht.trans ?_) _ s (InstsKept.refl s)
  exact (instsKept_updAcc p _ t).trans (instsKept_tryFlush p _)

theorem instsKept_releaseUses (us : List Nat) (s : State) : InstsKept s (releaseUses us s) := by
  have h := releaseUses_beyond us s
  exact .of_same (congrArg State.lz h :) (congrArg State.gl h :) (congrArg State.regs h :) (congrArg State.vi h :)

theorem instsKept_removeRun (key : Nat) (s : State) : InstsKept s (removeRun key s) := by
  unfold removeRun
  split
  · exact InstsKept.refl s
  · exact (instsKept_releaseUses _ s).trans (.of_same rfl rfl rfl rfl)

theorem instsKept_finishRun (key : Nat) (c : Completion) (s : State) : InstsKept s (finishRun key c s) := by
  unfold finishRun
  split
  · exact InstsKept.refl s
  · rename_i r hr
    have hflush := instsKept_awaitFlush (.run key) s
    generalize awaitFlush (.run key) s = flushed at hflush ⊢
    obtain ⟨u, ports⟩ := flushed
    have hend := hflush.trans (instsKept_finishOp r.ring r.slot c u)
    simp only []
    split
    · exact hend.trans (instsKept_removeRun key _)
    · exact hend.trans (instsKept_updChain _ _ _ _)

theorem instsKept_checkRun (key : Nat) (s : State) : InstsKept s (checkRun key s) := by
  unfold checkRun
  split
  · exact InstsKept.refl s
  · split
    · exact instsKept_finishRun _ _ s
    · exact InstsKept.refl s

theorem instsKept_collAbort (h seq code rank : Nat) (s : State) : InstsKept s (collAbort h seq code rank s) := by
  unfold collAbort
  split
  · exact InstsKept.refl s
  · split
    · exact InstsKept.refl s
    · split
      · exact InstsKept.refl s
      · have h1 (herds : NMap Herd) : InstsKept s { s with hd := { s.hd with herds := herds } } := .of_same rfl rfl rfl rfl
        exact (h1 _).trans ((instsKept_putReg (key := Reg.GX_HD_LAST_ABORT_SEQ) _ _ (by decide)).trans
          (instsKept_putReg (key := Reg.GX_HD_LAST_ABORT) _ _ (by decide)))

theorem instsKept_collEnd (h seq status detail aux : Nat) (s : State) : InstsKept s (collEnd h seq status detail aux s) := by
  unfold collEnd
  split
  · rename_i d c hd hc
    extract_lets s1 s2 key
    have h1 : InstsKept s s1 := .of_same rfl rfl rfl rfl
    have h2 : InstsKept s1 s2 := by
      simp only [s2]
      split
      · exact instsKept_bump _ (by decide)
      · split
        · exact (instsKept_bump _ (by decide)).trans (instsKept_raise _ _ (by decide))
        · split
          · exact (instsKept_bump _ (by decide)).trans (instsKept_raise _ _ (by decide))
          · exact InstsKept.refl s1
    have h3 : InstsKept s2 (dropGot key s2) := .of_same rfl rfl rfl rfl
    have hflush := instsKept_awaitFlush (.run key) (dropGot key s2)
    generalize awaitFlush (.run key) (dropGot key s2) = flushed at hflush ⊢
    obtain ⟨u, ports⟩ := flushed
    have hend := ((h1.trans h2).trans (h3.trans hflush)).trans (instsKept_finishOp c.ring c.slot
      { status := status, detail := detail, bytes := if status = stOk then collBytes d c else 0, aux := aux } u)
    simp only []
    split
    · exact hend
    · exact hend.trans (instsKept_updChain _ _ _ _)
  · exact InstsKept.refl s

/-! ### The modes of a reset (R441) -/

theorem instsKept_stopColls (p : Nat → Bool) (status : Nat) (s : State) : InstsKept s (stopColls p status s) := by
  refine foldl_maintains (InstsKept s) _ (fun t x ht => ht.trans ?_) _ s (InstsKept.refl s)
  split
  · split
    · exact InstsKept.refl t
    · have h1 (f : Coll → Coll) : InstsKept t (updColl x.1 x.2 f t) := .of_same rfl rfl rfl rfl
      simp only []
      split
      · exact (h1 _).trans (instsKept_collAbort _ _ _ _ _)
      · exact (h1 _).trans (instsKept_collEnd _ _ _ _ _ _)
  · exact InstsKept.refl t

theorem instsKept_stopWork (p : Nat → Bool) (status : Nat) (s : State) : InstsKept s (stopWork p status s) := by
  unfold stopWork
  extract_lets stop halt runs kernels _ _ s1 s2
  have h1 : InstsKept s s1 := .of_same rfl rfl rfl rfl
  have h2 : InstsKept s1 s2 :=
    foldl_maintains (InstsKept s1) _ (fun t e ht => ht.trans (instsKept_checkRun e.1 t)) _ s1 (InstsKept.refl s1)
  exact (h1.trans h2).trans (instsKept_stopColls p status s2)

theorem instsKept_dropFenced (p : Nat → Bool) (s : State) : InstsKept s (dropFenced p s) :=
  foldl_maintains (InstsKept s) (fun (s : State) (e : Nat × OpRun) => finishRun e.1 (runCompletion e.2) s)
    (fun t _ ht => ht.trans (instsKept_finishRun _ _ t)) _ s (InstsKept.refl s)

theorem instsKept_abortUnstarted (n : Nat) (s : State) : InstsKept s (abortUnstarted n s) := by
  unfold abortUnstarted
  extract_lets idle runs s1 colls s2
  have h1 : InstsKept s s1 := by
    refine foldl_maintains (InstsKept s) _ (fun t k ht => ht.trans ?_) _ s (InstsKept.refl s)
    have hrun (f : OpRun → OpRun) : InstsKept t (updRun k f t) := .of_same rfl rfl rfl rfl
    exact (hrun _).trans (instsKept_checkRun k _)
  have h2 : InstsKept s1 s2 :=
    foldl_maintains (InstsKept s1) (fun (s : State) (x : Nat × Nat) => collEnd x.1 x.2 stAborted 0 0 s)
      (fun t x ht => ht.trans (instsKept_collEnd _ _ _ _ _ t)) _ s1 (InstsKept.refl s1)
  refine (h1.trans h2).trans (foldl_maintains (InstsKept s2) _ (fun t r ht => ht.trans ?_) _ s2 (InstsKept.refl s2))
  split
  · exact InstsKept.refl t
  · split
    · exact InstsKept.refl t
    · exact foldl_maintains (InstsKept t) (fun (s : State) (o : Op) => finishOp r o.head { status := stAborted } s)
        (fun u o hu => hu.trans (instsKept_finishOp _ _ _ u)) _ t (InstsKept.refl t)

theorem instsKept_applyMode (n : Nat) (mode : ResetMode) (s : State) : InstsKept s (applyMode n mode s) := by
  cases mode with
  | drain => exact instsKept_abortUnstarted n s
  | squash => exact (instsKept_stopWork _ _ s).trans (instsKept_dropFenced _ _)
  | discard => exact InstsKept.refl s

/-! ### A reset begins -/

theorem instsKept_stopMoves (n status : Nat) (s : State) : InstsKept s (stopMoves n status s) := by
  refine foldl_maintains (InstsKept s) (fun (s : State) (slot : Nat) => stopMgmt slot status s) (fun t slot ht => ht.trans ?_) _ s
    (InstsKept.refl s)
  unfold stopMgmt
  split
  · exact .of_same rfl rfl rfl rfl
  · exact instsKept_mgmtDone slot status t

theorem instsKept_endMalformed (n : Nat) (s : State) : InstsKept s (endMalformed n s) := by
  refine foldl_maintains (InstsKept s) _ (fun t r ht => ht.trans ?_) _ s (InstsKept.refl s)
  split
  · exact InstsKept.refl t
  · rename_i g hg
    exact foldl_maintains (InstsKept t) (fun (s : State) (o : Op) =>
        finishOp r o.head { status := stMalformed, detail := o.malformed.getD 0, recv := g.kind == .rq } s)
      (fun u o hu => hu.trans (instsKept_finishOp _ _ _ u)) _ t (InstsKept.refl t)

theorem instsKept_startUnits (a : Nat) (kind : UnitActionKind) (s : State) : InstsKept s (startUnits a kind s) := by
  refine foldl_maintains (InstsKept s) _ (fun t f ht => ht.trans ?_) _ s (InstsKept.refl s)
  split
  · exact InstsKept.refl t
  · simp only []
    split
    · exact InstsKept.refl t
    · refine foldl_maintains (InstsKept t) (fun (s : State) (m : Nat) => { s with out := s.out ++ [.unitAction f.id m kind] })
        (fun u m hu => hu.trans (.of_same rfl rfl rfl rfl)) _ _ ?_
      exact ⟨⟨rfl, rfl, rfl, fun _ _ _ => rfl⟩, rfl⟩

/-- A change of one instance's record: pages, and the others, are as they were. -/
structure OthersKept (n : Nat) (s t : State) : Prop where
  pages : PagesKept s t
  others : ∀ j, j ≠ n → inst t j = inst s j
  enable : t.vi.vfEnable = s.vi.vfEnable ∧ t.vi.numVfs = s.vi.numVfs

theorem OthersKept.trans {n : Nat} {s t u : State} (h : OthersKept n s t) (k : OthersKept n t u) : OthersKept n s u :=
  ⟨h.pages.trans k.pages, fun j hj => (k.others j hj).trans (h.others j hj),
    k.enable.1.trans h.enable.1, k.enable.2.trans h.enable.2⟩

theorem InstsKept.others {s t : State} (h : InstsKept s t) (n : Nat) : OthersKept n s t :=
  ⟨h.pages, fun j _ => h.inst j, by rw [h.vi]; exact ⟨rfl, rfl⟩⟩

theorem othersKept_setInst (n : Nat) (i : Instance) (s : State) : OthersKept n s (setInst n i s) :=
  ⟨.of_same rfl rfl rfl, fun _ hj => inst_setInst_ne i s hj, rfl, rfl⟩

theorem othersKept_enterState (n : Nat) (st : InstState) (s : State) : OthersKept n s (enterState n st s) := by
  have hset := othersKept_setInst n { inst s n with state := st } s
  have hraise (bit : Nat) := hset.trans ((instsKept_raisePage n bit (setInst n { inst s n with state := st } s)).others n)
  unfold enterState
  cases st with
  | disabled => exact hset
  | ready => exact hraise 3
  | freezing => exact hraise 3
  | frozen => exact hraise 3
  | resetting => exact hraise 3
  | halted => exact hraise 2

theorem othersKept_dropFreeze (n : Nat) (s : State) : OthersKept n s (dropFreeze n s) := by
  have hdone (slot : Option Nat) (t : State) : OthersKept n t (slot.elim t (fun slot => mgmtDone slot stAborted t)) := by
    cases slot with
    | none => exact (InstsKept.refl t).others n
    | some slot => exact (instsKept_mgmtDone slot stAborted t).others n
  exact ((hdone _ s).trans (hdone _ _)).trans (othersKept_setInst n _ _)

/-- What a reset that finds none running does before its mode ends the work. -/
theorem resetBegin_begins {n : Nat} {mode : ResetMode} {wipe : Bool} {slots : List Nat} {s : State} (h : (inst s n).reset = none) :
    (inst (resetBegin n mode wipe slots s) n).state = .resetting ∧
      (inst (resetBegin n mode wipe slots s) n).reset = some ⟨mode, wipe, slots⟩ ∧ OthersKept n s (resetBegin n mode wipe slots s) := by
  unfold resetBegin
  extract_lets i s1 s2 s3 s4 _ s5
  rw [show i.reset = none from h]
  have h1 : OthersKept n s s1 := (othersKept_dropFreeze n s).trans ((instsKept_stopMoves n stAborted _).others n)
  have h2 : InstsKept s1 s2 := foldl_maintains (InstsKept s1) (fun (s : State) (k : Nat) => checkRun k s)
    (fun t k ht => ht.trans (instsKept_checkRun k t)) _ s1 (InstsKept.refl s1)
  have h3 : InstsKept s2 s3 := instsKept_endMalformed n s2
  have h4 : InstsKept s3 s4 := by
    simp only [s4]
    cases instFlock s3.lz.run n with
    | none => exact InstsKept.refl s3
    | some a => exact instsKept_startUnits a .reset s3
  have h6 : inst s5 n = { inst s4 n with reset := some ⟨mode, wipe, slots⟩, state := .resetting } :=
    (inst_enterState_same n .resetting _).trans (by rw [inst_setInst_same])
  have h5 : OthersKept n s4 s5 := (othersKept_setInst n _ s4).trans (othersKept_enterState n .resetting _)
  have hmode := instsKept_applyMode n mode s5
  refine ⟨?_, ?_, (((h1.trans (h2.others n)).trans (h3.others n)).trans (h4.others n)).trans (h5.trans (hmode.others n))⟩
  · rw [hmode.inst, h6]
  · rw [hmode.inst, h6]

/-- The mode of a running reset that another one meets. -/
def joinedMode (mode : ResetMode) (r : ResetRun) : ResetMode :=
  if mode == .squash && r.mode == .drain then .squash else r.mode

/-- The instance's record with the reset that has been taken in. -/
def resetJoined (n : Nat) (mode : ResetMode) (wipe : Bool) (slots : List Nat) (r : ResetRun) (s : State) : State :=
  setInst n { inst s n with reset := some ⟨joinedMode mode r, r.wipe || wipe, r.slots ++ slots⟩ } s

/-- A reset that meets a running one is taken into it. -/
theorem resetBegin_joins {n : Nat} {mode : ResetMode} {wipe : Bool} {slots : List Nat} {r : ResetRun} {s : State}
    (h : (inst s n).reset = some r) :
    inst (resetBegin n mode wipe slots s) n = { inst s n with reset := some ⟨joinedMode mode r, r.wipe || wipe, r.slots ++ slots⟩ } ∧
      OthersKept n s (resetBegin n mode wipe slots s) := by
  have hform : resetBegin n mode wipe slots s = if mode == .squash && r.mode == .drain
      then applyMode n .squash (resetJoined n mode wipe slots r s) else resetJoined n mode wipe slots r s := by
    unfold resetBegin
    simp only []
    rw [h]
    rfl
  have h1 : OthersKept n s (resetJoined n mode wipe slots r s) := othersKept_setInst n _ s
  have hinst := inst_setInst_same n { inst s n with reset := some ⟨joinedMode mode r, r.wipe || wipe, r.slots ++ slots⟩ } s
  rw [hform]
  split
  · have hmode := instsKept_applyMode n .squash (resetJoined n mode wipe slots r s)
    exact ⟨(hmode.inst n).trans hinst, h1.trans (hmode.others n)⟩
  · exact ⟨hinst, h1⟩

/-- INSTANCE_RESET that is not refused begins a reset, or joins the one that runs. -/
theorem instanceReset_begins {mode : ResetMode} {code slot : Nat} {o : Op} {s : State} (hm : mgmtOp s slot 0x19 = some o)
    (hc : ef o.entry 18 1 = code) (hs : o.started = false) (hst : (inst s (bodyInst o.entry)).state ≠ .disabled)
    (hdis : mode = .discard → (inst s (bodyInst o.entry)).state = .frozen) :
    instanceReset mode code slot s =
      resetBegin (bodyInst o.entry) mode (ef o.entry 19 1 % 2 == 1) [slot] (markStarted 0 slot s) := by
  unfold instanceReset
  rw [hm]
  simp only []
  rw [if_neg (by simp [hc, hs]), if_neg]
  simp only [Bool.or_eq_true, beq_iff_eq, hst, false_or, Bool.and_eq_true, bne_iff_ne, not_and, Decidable.not_not]
  exact hdis

theorem instanceReset_refused {mode : ResetMode} {code slot : Nat} {o : Op} {s : State} (hm : mgmtOp s slot 0x19 = some o)
    (hc : ef o.entry 18 1 = code) (hs : o.started = false)
    (hst : (inst s (bodyInst o.entry)).state = .disabled ∨ mode = .discard ∧ (inst s (bodyInst o.entry)).state = .ready) :
    instanceReset mode code slot s = mgmtDone slot stAborted s := by
  unfold instanceReset
  rw [hm]
  simp only []
  rw [if_neg (by simp [hc, hs]), if_pos]
  rcases hst with h | ⟨rfl, h⟩
  · simp [h]
  · simp [h]

/-! ### A reset ends (R443) -/

theorem mapGet_filter_key {α : Type} (m : NMap α) (p : Nat → Bool) (k : Nat) :
    mapGet (m.filter (fun e => p e.1)) k = if p k then mapGet m k else none := by
  induction m with
  | nil =>
    split
    · rfl
    · rfl
  | cons e t ih =>
    rw [List.filter_cons]
    by_cases hk : e.1 = k
    · subst hk
      by_cases hp : p e.1
      · rw [if_pos hp, if_pos hp, mapGet, mapGet, if_pos rfl, if_pos rfl]
      · rw [if_neg hp, if_neg hp, ih, if_neg hp]
    · have hstep : mapGet (e :: t) k = mapGet t k := if_neg hk
      rw [hstep, ← ih]
      split
      · exact if_neg hk
      · rfl

theorem byteAt_bytesWipe (m : List Host.Cell) (a n x : Nat) (h : (a ≤ x ∧ x < a + n) ∨ byteAt m x = 0) :
    byteAt (bytesWipe m a n) x = 0 := by
  have hget := mapGet_filter_key m (fun x => decide (x < a) || decide (a + n ≤ x)) x
  unfold byteAt bytesWipe
  rw [hget]
  split
  · rename_i hout
    refine h.resolve_left fun hin => ?_
    simp only [Bool.or_eq_true, decide_eq_true_eq] at hout
    omega
  · rfl

theorem byteAt_wipeGranules {gs : List Nat} {s : State} {x : Nat}
    (h : (∃ g ∈ gs, granuleStart g ≤ x ∧ x < granuleStart g + granuleBytes) ∨ byteAt s.mem.bytes x = 0) :
    byteAt (gs.foldl (fun s g => wipeGranule g s) s).mem.bytes x = 0 := by
  induction gs generalizing s with
  | nil => exact h.resolve_left (fun ⟨g, hg, _⟩ => List.not_mem_nil hg)
  | cons g t ih =>
    refine ih ?_
    rcases h with ⟨g', hg', hx⟩ | h
    · rcases List.mem_cons.mp hg' with rfl | ht
      · exact .inr (byteAt_bytesWipe _ _ _ _ (.inl hx))
      · exact .inl ⟨g', ht, hx⟩
    · exact .inr (byteAt_bytesWipe _ _ _ _ (.inr h))

/-- A wipe of core stores keeps the tiers' bytes, and all but memory. -/
theorem wipeRegions_keeps (st : Structure) (f : Nat) (s : State) :
    (wipeRegions st f s).mem.bytes = s.mem.bytes ∧ { wipeRegions st f s with mem := s.mem } = s := by
  unfold wipeRegions
  refine foldl_maintains (fun t : State => t.mem.bytes = s.mem.bytes ∧ { t with mem := s.mem } = s) _ (fun t l ht => ?_) _ s ⟨rfl, rfl⟩
  exact ht

/-- The wipe of an instance's memory. -/
def instWiped (n : Nat) (s : State) : State :=
  let s := (instWindow s n 0 ++ instWindow s n 1).foldl (fun s g => wipeGranule g s) s
  (instFlock s.lz.run n).elim s (fun a => wipeRegions s.lz.run a s)

theorem byteAt_instWiped {n g i : Nat} {s : State} (hg : g ∈ instWindow s n 0 ++ instWindow s n 1) (hi : i < granuleBytes) :
    byteAt (instWiped n s).mem.bytes (granuleStart g + i) = 0 := by
  have hwiped := byteAt_wipeGranules (s := s) (x := granuleStart g + i)
    (.inl ⟨g, hg, Nat.le_add_right _ _, Nat.add_lt_add_left hi _⟩)
  unfold instWiped
  simp only []
  generalize List.foldl _ s (instWindow s n 0 ++ instWindow s n 1) = t at hwiped ⊢
  cases instFlock t.lz.run n with
  | none => exact hwiped
  | some a =>
    rw [Option.elim_some, (wipeRegions_keeps _ _ _).1]
    exact hwiped

theorem instWiped_keeps (n : Nat) (s : State) : { instWiped n s with mem := s.mem } = s := by
  have hgranules : { (instWindow s n 0 ++ instWindow s n 1).foldl (fun s g => wipeGranule g s) s with mem := s.mem } = s :=
    foldl_keeps (fun t : State => { t with mem := s.mem }) (fun (s : State) (g : Nat) => wipeGranule g s) (fun _ _ => rfl) _ s
  unfold instWiped
  simp only []
  generalize List.foldl _ s (instWindow s n 0 ++ instWindow s n 1) = t at hgranules ⊢
  cases instFlock t.lz.run n with
  | none => exact hgranules
  | some a =>
    have hregions := (wipeRegions_keeps t.lz.run a t).2
    exact (congrArg (fun u : State => { u with mem := s.mem }) hregions :).trans hgranules

/-- What is left of an instance's state once its work has ended and its rings, queue pairs and Herds are none. -/
def resetCleared (n : Nat) (s : State) : State :=
  dropSpaces n { s with
    kn := { s.kn with kernels := s.kn.kernels.filter (fun k => k.2.inst != n) }
    ce := { s.ce with slots := s.ce.slots.filter (fun e => !(e.2.inst == n)) } }

theorem eraseSlots_quiet {p : KeySlot → Bool} {s : State} (h : ∀ k ∈ s.ce.slots, p k.2 = true → k.2.change = none) :
    eraseSlots p s = { s with ce := { s.ce with slots := s.ce.slots.filter (fun e => !(p e.2)) } } := by
  have hnone : (s.ce.slots.filter (fun e => p e.2)).filterMap (fun e => e.2.change) = [] :=
    List.filterMap_eq_nil_iff.mpr fun e he => h e (List.mem_filter.mp he).1 (List.mem_filter.mp he).2
  unfold eraseSlots
  rw [hnone]
  rfl

theorem resetClear_quiet {n : Nat} {wipe : Bool} {s : State} (hrings : instRings s n = []) (hqps : instQps s n = [])
    (hherds : ∀ h ∈ s.hd.herds, h.2.inst ≠ n) (hkeys : ∀ k ∈ s.ce.slots, k.2.inst = n → k.2.change = none) :
    resetClear n wipe s = if wipe then instWiped n (resetCleared n s) else resetCleared n s := by
  have hnone : s.hd.herds.filter (fun h => h.2.inst == n) = [] :=
    List.filter_eq_nil_iff.mpr fun h hh => by simpa using hherds h hh
  have herase := eraseSlots_quiet (p := fun k => k.inst == n)
    (s := { s with kn := { s.kn with kernels := s.kn.kernels.filter (fun k => k.2.inst != n) } })
    (fun k hk hn => hkeys k hk (by simpa using hn))
  unfold resetClear
  simp only [hrings, hqps, List.foldl_nil, hnone, List.map_nil]
  rw [herase]
  cases wipe
  · rfl
  · rfl

theorem regAt_raisePage_window (n bit : Nat) (s : State) {k : Nat} (h : k < 0x4000000) : regAt (raisePage n bit s) k = regAt s k := by
  have hne : k ≠ pageKey Reg.GX_INST_INT_STATUS n := by
    show k ≠ 0x4000020 + n * 0x10000
    omega
  unfold raisePage
  extract_lets key old s1
  have h1 : regAt s1 k = regAt s k := regAt_putReg_ne _ _ hne
  split
  · rfl
  · split
    · rw [regAt, msixRaise_frame]
      exact h1
    · exact h1

theorem regAt_enterState_window (n : Nat) (st : InstState) (s : State) {k : Nat} (h : k < 0x4000000) :
    regAt (enterState n st s) k = regAt s k := by
  unfold enterState
  cases st with
  | disabled => rfl
  | ready => exact regAt_raisePage_window n 3 _ h
  | freezing => exact regAt_raisePage_window n 3 _ h
  | frozen => exact regAt_raisePage_window n 3 _ h
  | resetting => exact regAt_raisePage_window n 3 _ h
  | halted => exact regAt_raisePage_window n 2 _ h

/-- A reset of an instance without rings, queue pairs, Herds and members leaves the record of a new instance. -/
theorem resetEnd_ends {n slot : Nat} {o : Op} {s : State} (hunits : s.lz.unitActions = []) (ho : opAt s 0 slot = some o)
    (hh : o.head = slot) (hd : o.done = none) :
    let t := resetEnd n [slot] s
    endsWith t 0 slot stOk ∧ inst t n = { state := if instShould s n then .ready else .disabled } ∧
      (∀ j, j ≠ n → inst t j = inst s j) ∧ (rg t Reg.GX_VI_EVENTS).getLsbD 3 = true ∧ t.ce = s.ce ∧ t.mem = s.mem := by
  have hdeg : (instFlock s.lz.run n).elim false (fun a => unitsDegraded s a .reset) = false := by
    cases instFlock s.lz.run n with
    | none => rfl
    | some a =>
      rw [Option.elim_some, unitsDegraded, unitActionsOf, hunits]
      rfl
  have hend : (instFlock s.lz.run n).elim s (fun a => endUnits a .reset s) = s := by
    cases instFlock s.lz.run n with
    | none => rfl
    | some a =>
      rw [Option.elim_some, endUnits, hunits, List.filter_nil, ← hunits]
  have hform : resetEnd n [slot] s = mgmtDone slot stOk (enterState n (if instShould s n then .ready else .disabled)
      (raise Reg.GX_VI_EVENTS 3 (setInst n {} s))) := by
    have hshould : instShould (raise Reg.GX_VI_EVENTS 3 (setInst n {} s)) n = instShould s n := by
      rw [instShould, raise_lz, raise_vi]
      rfl
    unfold resetEnd
    simp only [hdeg, hend, hshould]
    rfl
  have hothers := (othersKept_setInst n {} s).trans (((instsKept_raise (off := Reg.GX_VI_EVENTS) 3 (setInst n {} s) (by decide)).others n).trans
    (othersKept_enterState n (if instShould s n then .ready else .disabled) _))
  intro t
  rw [show t = _ from hform]
  refine ⟨mgmtDone_endsWith ((opAt_of_q ?_ 0 slot).trans ho) hh hd, ?_, hothers.others, ?_, ?_, ?_⟩
  · rw [enterState_q, raise_q]
    rfl
  · rw [(instsKept_mgmtDone slot stOk _).inst, inst_enterState_same, inst_of_vi (raise_vi _ _ _), inst_setInst_same]
  · show (regAt (enterState _ _ _) Reg.GX_VI_EVENTS).getLsbD 3 = true
    rw [regAt_enterState_window (k := Reg.GX_VI_EVENTS) _ _ _ (by decide)]
    exact raise_sets _ _ _ (by decide)
  · show (enterState _ _ _).ce = _
    rw [enterState_ce, raise_ce]
    rfl
  · show (enterState _ _ _).mem = _
    rw [enterState_mem, raise_mem]
    rfl

theorem resetComplete_ends {n slot : Nat} {wipe : Bool} {scans : List RingScan} {s : State}
    (hr : (inst s n).reset = some ⟨.drain, wipe, [slot]⟩) (hquiet : workQuiet (instRing s n) s = true) (hrings : instRings s n = [])
    (hunits : s.lz.unitActions = []) : resetComplete n scans s = resetEnd n [slot] (resetClear n wipe s) := by
  have hacked : (instFlock s.lz.run n).elim true (fun a => unitsDone s a .reset) = true := by
    cases instFlock s.lz.run n with
    | none => rfl
    | some a =>
      rw [Option.elim_some, unitsDone, unitActionsOf, hunits]
      rfl
  have hscan : resetScans n scans s = (s, true) := by
    rw [resetScans, hrings, List.foldl_nil]
  unfold resetComplete
  rw [hr]
  simp only [hquiet, hacked, Bool.or_true, if_neg (show ResetMode.drain ≠ .squash by decide),
    if_neg (show ResetMode.drain ≠ .discard by decide), hscan]
  rfl

/-! ### The host enables virtual functions (R430) -/

/-- What VF_ENABLE_CHANGE does to one instance. -/
def vfStep (s : State) (n : Nat) : State :=
  if instShould s n then (if (inst s n).state == .disabled then enterState n .ready s else s)
  else if (inst s n).state == .disabled then s else resetBegin n .squash false [] s

/-- Nothing that decides which instances exist has changed. -/
def ExistKept (s t : State) : Prop := t.lz.run = s.lz.run ∧ t.vi.vfEnable = s.vi.vfEnable ∧ t.vi.numVfs = s.vi.numVfs

theorem ExistKept.should {s t : State} (h : ExistKept s t) (n : Nat) : instShould t n = instShould s n := by
  obtain ⟨hrun, henable, hnum⟩ := h
  rw [instShould, instShould, hrun, henable, hnum]

theorem othersKept_resetBegin (n : Nat) (mode : ResetMode) (wipe : Bool) (slots : List Nat) (s : State) :
    OthersKept n s (resetBegin n mode wipe slots s) := by
  cases h : (inst s n).reset with
  | none => exact (resetBegin_begins h).2.2
  | some r => exact (resetBegin_joins h).2

theorem othersKept_vfStep (s : State) (n : Nat) : OthersKept n s (vfStep s n) := by
  unfold vfStep
  split
  · split
    · exact othersKept_enterState n .ready s
    · exact (InstsKept.refl s).others n
  · split
    · exact (InstsKept.refl s).others n
    · exact othersKept_resetBegin n .squash false [] s

theorem existKept_vfStep {s t : State} (n : Nat) (h : ExistKept s t) : ExistKept s (vfStep t n) := by
  have hk := othersKept_vfStep t n
  exact ⟨hk.pages.run.trans h.1, hk.enable.1.trans h.2.1, hk.enable.2.trans h.2.2⟩

theorem resetBegin_resetting {n : Nat} {mode : ResetMode} {wipe : Bool} {slots : List Nat} {s : State}
    (h : (inst s n).reset = none ∨ (inst s n).state = .resetting) : (inst (resetBegin n mode wipe slots s) n).state = .resetting := by
  cases hr : (inst s n).reset with
  | none => exact (resetBegin_begins hr).1
  | some r =>
    rw [(resetBegin_joins hr).1]
    exact h.resolve_left (by rw [hr]; simp)

/-- What the steps of VF_ENABLE_CHANGE make of an instance with a Flock. -/
theorem vfSteps_make {l : List Nat} {n : Nat} {s : State} (hn : n ∈ l) :
    let t := l.foldl vfStep s
    ExistKept s t ∧ (instShould s n = true → (inst s n).state = .disabled → (inst t n).state = .ready) ∧
      (instShould s n = true → (inst s n).state ≠ .disabled → inst t n = inst s n) ∧
      (instShould s n = false → (inst s n).state = .disabled → inst t n = inst s n) ∧
      (instShould s n = false → (inst s n).state ≠ .disabled → (inst s n).reset = none → (inst t n).state = .resetting) := by
  have hexist : ∀ t m, ExistKept s t → ExistKept s (vfStep t m) := fun t m h => existKept_vfStep m h
  have hself : ExistKept s s := ⟨rfl, rfl, rfl⟩
  have hstay : ∀ P : Instance → Prop, P (inst s n) → (∀ t, ExistKept s t → P (inst t n) → P (inst (vfStep t n) n)) →
      P (inst (l.foldl vfStep s) n) := by
    intro P h0 hstep
    refine (foldl_maintains (fun t : State => ExistKept s t ∧ P (inst t n)) vfStep (fun t m ht => ⟨hexist t m ht.1, ?_⟩) l s ⟨hself, h0⟩).2
    by_cases hm : m = n
    · rw [hm]
      exact hstep t ht.1 ht.2
    · rw [(othersKept_vfStep t m).others n (Ne.symm hm)]
      exact ht.2
  have hreach : ∀ P Q : Instance → Prop, P (inst s n) → (∀ t, ExistKept s t → P (inst t n) → P (inst (vfStep t n) n)) →
      (∀ t, ExistKept s t → P (inst t n) → Q (inst (vfStep t n) n)) → Q (inst (l.foldl vfStep s) n) := by
    intro P Q h0 hP hQ
    refine foldl_reaches (fun t : State => ExistKept s t ∧ P (inst t n)) (fun t : State => Q (inst t n)) vfStep
      (fun t m ht => ⟨hexist t m ht.1, ?_⟩) (fun t m ht hq => ?_) hn (fun t ht => hQ t ht.1 ht.2) ⟨hself, h0⟩
    · by_cases hm : m = n
      · rw [hm]
        exact hP t ht.1 ht.2
      · rw [(othersKept_vfStep t m).others n (Ne.symm hm)]
        exact ht.2
    · by_cases hm : m = n
      · rw [hm]
        exact hQ t ht.1 ht.2
      · rw [(othersKept_vfStep t m).others n (Ne.symm hm)]
        exact hq
  refine ⟨foldl_maintains (ExistKept s) vfStep hexist l s hself, fun hsh hdis => ?_, fun hsh hst => ?_, fun hsh hdis => ?_,
    fun hsh hst hres => ?_⟩
  · have hready : ∀ t, ExistKept s t → (inst t n).state = .disabled ∨ (inst t n).state = .ready → (inst (vfStep t n) n).state = .ready := by
      intro t ht hor
      unfold vfStep
      rw [if_pos ((ht.should n).trans hsh)]
      split
      · rw [inst_enterState_same]
      · rename_i hne
        exact hor.resolve_left (by simpa using hne)
    exact hreach (fun i => i.state = .disabled ∨ i.state = .ready) (fun i => i.state = .ready) (.inl hdis)
      (fun t ht hor => .inr (hready t ht hor)) hready
  · refine hstay (fun i => i = inst s n) rfl fun t ht hi => ?_
    unfold vfStep
    rw [if_pos ((ht.should n).trans hsh), if_neg (by rw [hi]; simpa using hst)]
    exact hi
  · refine hstay (fun i => i = inst s n) rfl fun t ht hi => ?_
    unfold vfStep
    rw [if_neg (by rw [ht.should n, hsh]; exact Bool.false_ne_true), if_pos (by rw [hi]; simpa using hdis)]
    exact hi
  · have hgone : ∀ t, ExistKept s t → ((inst t n).state ≠ .disabled ∧ ((inst t n).reset = none ∨ (inst t n).state = .resetting)) →
        (inst (vfStep t n) n).state = .resetting := by
      intro t ht hi
      unfold vfStep
      rw [if_neg (by rw [ht.should n, hsh]; exact Bool.false_ne_true), if_neg (by simpa using hi.1)]
      exact resetBegin_resetting hi.2
    exact hreach (fun i => i.state ≠ .disabled ∧ (i.reset = none ∨ i.state = .resetting)) (fun i => i.state = .resetting)
      ⟨hst, .inl hres⟩ (fun t ht hi => ⟨by rw [hgone t ht hi]; decide, .inr (hgone t ht hi)⟩) hgone

theorem instFlock_mem {st : Structure} {n : Nat} (h : (instFlock st n).isSome = true) : n ∈ st.insts.map Prod.fst := by
  obtain ⟨a, ha⟩ := Option.isSome_iff_exists.mp h
  obtain ⟨e, he, -⟩ := Option.map_eq_some_iff.mp ha
  exact List.mem_map.mpr ⟨e, List.mem_of_find?_eq_some he, by simpa using List.find?_some he⟩

/-! ### Freezing and thawing (R445 to R450) -/

theorem instanceFreeze_waits {slot : Nat} {o : Op} {s : State} (hm : mgmtOp s slot 0x1A = some o) (ha : ef o.entry 18 1 = 0)
    (hs : o.started = false) (hst : (inst s (bodyInst o.entry)).state = .ready) (hb : instBonded s (bodyInst o.entry) = false)
    (hf : (inst s (bodyInst o.entry)).freeze = none) (hat : ef o.entry 24 8 = 0 ∨ s.tick.count.toNat < ef o.entry 24 8) :
    instanceFreeze slot s = setInst (bodyInst o.entry) { inst s (bodyInst o.entry) with
        freeze := some (slot, if ef o.entry 24 8 = 0 then s.tick.count + 1 else BitVec.ofNat 64 (ef o.entry 24 8)) }
      (markStarted 0 slot s) := by
  unfold instanceFreeze
  rw [hm]
  simp only []
  rw [if_neg (by simp [ha, hs]), if_neg]
  simp only [hst, hb, hf, Bool.or_eq_true, Bool.and_eq_true, decide_eq_true_eq, bne_iff_ne]
  simp only [ne_eq, not_true_eq_false, Bool.false_eq_true, Option.isSome_none, false_or, not_and, Nat.not_le]
  exact fun hne => hat.resolve_left hne

theorem instanceFreeze_refused {slot : Nat} {o : Op} {s : State} (hm : mgmtOp s slot 0x1A = some o) (ha : ef o.entry 18 1 = 0)
    (hs : o.started = false) (hbad : (inst s (bodyInst o.entry)).state ≠ .ready ∨ instBonded s (bodyInst o.entry) = true ∨
      ef o.entry 24 8 ≠ 0 ∧ ef o.entry 24 8 ≤ s.tick.count.toNat) : instanceFreeze slot s = mgmtDone slot stAborted s := by
  unfold instanceFreeze
  rw [hm]
  simp only []
  rw [if_neg (by simp [ha, hs]), if_pos]
  simp only [Bool.or_eq_true, Bool.and_eq_true, decide_eq_true_eq, bne_iff_ne]
  rcases hbad with h | h | h
  · exact .inl (.inl (.inl h))
  · exact .inl (.inl (.inr h))
  · exact .inr h

theorem instanceThaw_waits {slot : Nat} {o : Op} {s : State} (hm : mgmtOp s slot 0x1A = some o) (ha : ef o.entry 18 1 = 1)
    (hs : o.started = false) (hst : (inst s (bodyInst o.entry)).state = .frozen) (ht : (inst s (bodyInst o.entry)).thaw = none)
    (hsave : instOps s (bodyInst o.entry) 0x1B = []) (hrestore : instOps s (bodyInst o.entry) 0x1C = []) :
    instanceThaw slot s = setInst (bodyInst o.entry) { inst s (bodyInst o.entry) with thaw := some (slot, s.tick.count) }
      (markStarted 0 slot s) := by
  unfold instanceThaw
  rw [hm]
  simp only []
  rw [if_neg (by simp [ha, hs]), if_neg (by rw [hst, ht, hsave, hrestore]; simp)]

/-- An entry that has started and still waits. -/
theorem waitsAt_started {s : State} {slot opcode : Nat} {o : Op} (h : waitsAt s slot opcode o) :
    (opAt (markStarted 0 slot s) 0 slot).bind (·.done) = none := by
  obtain ⟨ho, hh, hd⟩ := waitsAt_opAt h
  rw [opAt_markStarted ho hh]
  exact hd

theorem ringOf_map (f : Nat → Ring → Ring) (s : State) (r : Nat) :
    ringOf { s with q := { s.q with rings := s.q.rings.map (fun e => (e.1, f e.1 e.2)) } } r = (ringOf s r).map (f r) := by
  show mapGet (s.q.rings.map (fun e => (e.1, f e.1 e.2))) r = (mapGet s.q.rings r).map (f r)
  induction s.q.rings with
  | nil => rfl
  | cons e t ih =>
    rw [List.map_cons, mapGet, mapGet]
    split
    · rename_i he
      rw [← he]
      rfl
    · exact ih

/-- A ring of a thawed instance polls again. -/
def ringThawed (n r : Nat) (g : Ring) : Ring := if g.inst = n ∧ 2 ≤ r then { g with interval := g.pollInt, polled := true } else g

/-- The state in which an instance's rings poll again. -/
def ringsThawed (n : Nat) (s : State) : State :=
  { s with q := { s.q with rings := s.q.rings.map (fun e => (e.1, ringThawed n e.1 e.2)) } }

theorem opAt_ringsThawed {n slot : Nat} {o : Op} {s : State} (h : opAt s 0 slot = some o) : opAt (ringsThawed n s) 0 slot = some o := by
  obtain ⟨g, hg, hfind⟩ := Option.bind_eq_some_iff.mp h
  rw [opAt, ringsThawed, ringOf_map, hg, Option.map_some, ringThawed, if_neg (by omega)]
  exact hfind

theorem thawActivate_thaws {n slot : Nat} {since : BitVec 64} {s : State} (ht : (inst s n).thaw = some (slot, since))
    (hst : (inst s n).state = .frozen) (hsince : since < s.tick.count) :
    thawActivate n s = mgmtDone slot stOk (enterState n .ready
      (setInst n { inst s n with thaw := none, restored := false } (ringsThawed n s))) := by
  unfold thawActivate
  simp only []
  rw [ht]
  simp only []
  rw [if_pos (by simp [hst, hsince])]
  rfl

theorem pageKey_ne {a b : Nat} (n : Nat) (h : a ≠ b) : pageKey a n ≠ pageKey b n := fun e => h (Nat.add_right_cancel e)

/-- Settles O52: a reset, a freeze or a thaw changes the record of the one instance that it names, and what ends on the way changes none. -/
theorem instancesAreResetFrozenAndThawed : Obligations.InstancesAreResetFrozenAndThawed := by
  unfold Obligations.InstancesAreResetFrozenAndThawed
  refine ⟨?_, ?_, ?_, ?_, ?_, ?_, ?_, ?_, ?_, ?_, ?_, ?_⟩
  · intro c slot code n mode o s hc hw hwait hcode hs hn hst hdis hres
    subst hn
    obtain ⟨h1, h2, h3⟩ := resetBegin_begins (mode := mode) (wipe := ef o.entry 19 1 % 2 == 1) (slots := [slot]) (s := markStarted 0 slot s) hres
    have hbegin := instanceReset_begins hwait.1 hcode hs hst hdis
    have hexec : exec c s = .next (instanceReset mode code slot s) := by
      simp only [List.mem_cons, List.not_mem_nil, or_false, Prod.mk.injEq] at hc
      obtain ⟨rfl, rfl, rfl⟩ | ⟨rfl, rfl, rfl⟩ | ⟨rfl, rfl, rfl⟩ := hc <;> exact next_whenOk hw
    exact ⟨_, hexec.trans (congrArg Host.Outcome.next hbegin), h1, h2, h3.others⟩
  · intro slot n o r s hw hwait hcode hs hn hst hres hmode
    subst hn
    have hbegin := instanceReset_begins (mode := .squash) hwait.1 hcode hs (by rw [hst]; decide) (fun h => nomatch h)
    refine ⟨_, (next_whenOk hw).trans (congrArg Host.Outcome.next hbegin), ?_⟩
    rw [(resetBegin_joins (s := markStarted 0 slot s) hres).1, joinedMode, hmode]
    rfl
  · intro c slot code o s hc hw hwait hcode hs hst
    have hexec : ∃ mode, exec c s = .next (instanceReset mode code slot s) ∧ (code = 2 → mode = .discard) := by
      simp only [List.mem_cons, List.not_mem_nil, or_false, Prod.mk.injEq] at hc
      obtain ⟨rfl, rfl⟩ | ⟨rfl, rfl⟩ | ⟨rfl, rfl⟩ := hc
      · exact ⟨.drain, next_whenOk hw, fun h => absurd h (by decide)⟩
      · exact ⟨.squash, next_whenOk hw, fun h => absurd h (by decide)⟩
      · exact ⟨.discard, next_whenOk hw, fun _ => rfl⟩
    obtain ⟨mode, he, hm⟩ := hexec
    have href := instanceReset_refused (mode := mode) hwait.1 hcode hs (hst.imp_right fun h => ⟨hm h.1, h.2⟩)
    exact ⟨_, he.trans (congrArg Host.Outcome.next href), waitsAt_endsWith hwait rfl _, rfl⟩
  · intro n slot wipe scans o s hw hst hres hquiet hrings hqps hherds hkeys hunits ho hh hd
    have hform := (resetComplete_ends (scans := scans) hres hquiet hrings hunits).trans
      (congrArg (resetEnd n [slot]) (resetClear_quiet (wipe := wipe) hrings hqps hherds hkeys))
    have hexec : exec (.instanceResetComplete n scans) s = .next (resetComplete n scans s) := next_whenOk (by simp [hw, hst])
    have hslots : ∀ k ∈ (resetCleared n s).ce.slots, k.2.inst ≠ n := fun k hk => by simpa using (List.mem_filter.mp hk).2
    cases wipe with
    | false =>
      simp only [Bool.false_eq_true, if_false] at hform
      obtain ⟨h1, h2, h3, h4, h5, h6⟩ := resetEnd_ends (n := n) (s := resetCleared n s) hunits ho hh hd
      refine ⟨_, hexec.trans (congrArg Host.Outcome.next hform), h1, h2, h3, h4, ?_, fun _ => h6, (fun h => nomatch h)⟩
      rw [h5]
      exact hslots
    | true =>
      simp only [if_true] at hform
      have hkept := instWiped_keeps n (resetCleared n s)
      obtain ⟨h1, h2, h3, h4, h5, h6⟩ := resetEnd_ends (n := n) (s := instWiped n (resetCleared n s))
        ((congrArg (fun t : State => t.lz.unitActions) hkept :).trans hunits) ((opAt_of_q (congrArg State.q hkept :) 0 slot).trans ho) hh hd
      refine ⟨_, hexec.trans (congrArg Host.Outcome.next hform), h1, h2.trans ?_, fun j hj => (h3 j hj).trans ?_, h4, ?_,
        (fun h => nomatch h), fun _ g hg i hi => ?_⟩
      · rw [show instShould (instWiped n (resetCleared n s)) n = instShould s n from (congrArg (fun t : State => instShould t n) hkept :)]
      · exact (congrArg (fun t : State => inst t j) hkept :)
      · rw [h5, show (instWiped n (resetCleared n s)).ce = (resetCleared n s).ce from (congrArg State.ce hkept :)]
        exact hslots
      · rw [h6]
        exact byteAt_instWiped (s := resetCleared n s) hg hi
  · intro n s hw hn hst hres
    obtain ⟨h1, h2, h3⟩ := resetBegin_begins (mode := .squash) (wipe := false) (slots := []) (s := msixReset n (pageReset n s)) hres
    have hpage : ∀ off, off = Reg.GX_INST_INT_ENABLE ∨ off = Reg.GX_INST_INT_VECTOR → regAt (pageReset n s) (pageKey off n) = 0 := by
      intro off hoff
      unfold pageReset
      rcases hoff with rfl | rfl
      · rw [regAt_putReg_ne _ _ (pageKey_ne n (by decide)), regAt_putReg_same]
      · rw [regAt_putReg_ne _ _ (pageKey_ne n (by decide)), regAt_putReg_ne _ _ (pageKey_ne n (by decide)), regAt_putReg_same]
    refine ⟨_, next_whenOk (by simp [hw, hn, hst]), h1, h2, ?_, ?_, fun e he => ?_, fun hmem => ?_⟩
    · rw [h3.pages.page (pageKey Reg.GX_INST_INT_ENABLE n) (Nat.le_add_right_of_le (by decide)) (by show (0x4000024 + n * 0x10000) % 0x10000 ≠ 0x20; omega)]
      exact hpage _ (.inl rfl)
    · rw [h3.pages.page (pageKey Reg.GX_INST_INT_VECTOR n) (Nat.le_add_right_of_le (by decide)) (by show (0x4000028 + n * 0x10000) % 0x10000 ≠ 0x20; omega)]
      exact hpage _ (.inr rfl)
    · rw [h3.pages.table] at he
      simpa using (List.mem_filter.mp he).2
    · rw [h3.pages.on] at hmem
      simpa using (List.mem_filter.mp hmem).2
  · intro enable numVfs n s s' hw hs' hn hflock
    have hmem : n ∈ (s'.lz.run.insts.map Prod.fst).filter (· != 0) := by
      rw [hs']
      exact List.mem_filter.mpr ⟨instFlock_mem hflock, by simpa using hn⟩
    obtain ⟨hexist, h1, h2, h3, h4⟩ := vfSteps_make (s := s') hmem
    have hinst : inst s' n = inst s n := by
      rw [hs']
      rfl
    rw [hinst] at h1 h2 h3 h4
    have hexec : exec (.vfEnableChange enable numVfs) s = .next (((s'.lz.run.insts.map Prod.fst).filter (· != 0)).foldl vfStep s') := by
      rw [hs']
      exact next_whenOk hw
    refine ⟨_, hexec, hexist.2.1.trans ?_, hexist.2.2.trans ?_, h1, h2, h3, h4⟩
    · rw [hs']
    · rw [hs']
  · intro slot n o s hw hwait ha hs hn hst hb hf hat
    subst hn
    refine ⟨_, (next_whenOk hw).trans (congrArg Host.Outcome.next (instanceFreeze_waits hwait.1 ha hs hst hb hf hat)),
      inst_setInst_same _ _ _, fun j hj => inst_setInst_ne _ _ hj, ?_, rfl⟩
    exact (congrArg (fun x => Option.bind x Op.done) (opAt_of_q rfl 0 slot)).trans (waitsAt_started hwait)
  · intro slot n o s hw hwait ha hs hn hbad
    subst hn
    exact ⟨_, (next_whenOk hw).trans (congrArg Host.Outcome.next (instanceFreeze_refused hwait.1 ha hs hbad)), waitsAt_endsWith hwait rfl _, rfl⟩
  · intro n slot edge s hw hf hst hedge hready
    have hform : freezeActivate n s = enterState n .freezing (setInst n { inst s n with
        freezeEdge := edge, migrationId := (Config.drbg s.sec.drbgCount).setWidth 64 } (drawDrbg s).2) := by
      unfold freezeActivate
      simp only []
      rw [hf]
      simp only []
      rw [if_pos (by simp [hst, hedge, hready])]
      rfl
    refine ⟨_, (next_whenOk hw).trans (congrArg Host.Outcome.next hform), ?_, fun j hj => ?_, ?_, ?_, ?_⟩
    · rw [inst_enterState_same, inst_setInst_same]
    · rw [(othersKept_enterState n .freezing _).others j hj, inst_setInst_ne _ _ hj]
      rfl
    · rw [enterState_mem]
      rfl
    · rw [enterState_tp]
      rfl
    · rw [enterState_q]
      rfl
  · intro n slot edge o s hw hf hst hdue ho hh hd
    have hform : freezeComplete n s = mgmtDone slot stOk (enterState n .frozen (setInst n { inst s n with freeze := none }
        { s with tp := { s.tp with resps := s.tp.resps.filter (fun e => !((instQps s n).contains e.2.qpn)) } })) := by
      unfold freezeComplete
      simp only []
      rw [hf]
      simp only []
      rw [if_pos (by simp [hst, hdue])]
    refine ⟨_, (next_whenOk hw).trans (congrArg Host.Outcome.next hform), mgmtDone_endsWith ((opAt_of_q ?_ 0 slot).trans ho) hh hd, ?_,
      fun j hj => ?_, ?_⟩
    · rw [enterState_q]
      rfl
    · rw [(instsKept_mgmtDone slot stOk _).inst, inst_enterState_same, inst_setInst_same]
    · rw [(instsKept_mgmtDone slot stOk _).inst, (othersKept_enterState n .frozen _).others j hj, inst_setInst_ne _ _ hj]
      rfl
    · show (enterState _ _ _).mem = _
      rw [enterState_mem]
      rfl
  · intro slot n o s hw hwait ha hs hn hst ht hsave hrestore
    subst hn
    refine ⟨_, (next_whenOk hw).trans (congrArg Host.Outcome.next (instanceThaw_waits hwait.1 ha hs hst ht hsave hrestore)),
      inst_setInst_same _ _ _, fun j hj => inst_setInst_ne _ _ hj, ?_, rfl⟩
    exact (congrArg (fun x => Option.bind x Op.done) (opAt_of_q rfl 0 slot)).trans (waitsAt_started hwait)
  · intro n slot since o s hw ht hst hsince ho hh hd
    have hq : (enterState n .ready (setInst n { inst s n with thaw := none, restored := false } (ringsThawed n s))).q =
        (ringsThawed n s).q := by
      rw [enterState_q]
      rfl
    refine ⟨_, (next_whenOk hw).trans (congrArg Host.Outcome.next (thawActivate_thaws ht hst hsince)),
      mgmtDone_endsWith ((opAt_of_q hq 0 slot).trans (opAt_ringsThawed ho)) hh hd, ?_, fun j hj => ?_, fun r g hr hg hn => ?_, ?_, ?_⟩
    · rw [(instsKept_mgmtDone slot stOk _).inst, inst_enterState_same, inst_setInst_same]
    · rw [(instsKept_mgmtDone slot stOk _).inst, (othersKept_enterState n .ready _).others j hj, inst_setInst_ne _ _ hj]
      rfl
    · have hring : ringOf (ringsThawed n s) r = some { g with interval := g.pollInt, polled := true } := by
        rw [ringsThawed, ringOf_map, hg]
        exact congrArg some (if_pos ⟨hn, hr⟩)
      exact (ringOf_updRing_ne _ _ (by omega)).trans ((congrArg (fun q : QueueState => mapGet q.rings r) hq).trans hring)
    · show (enterState _ _ _).mem = _
      rw [enterState_mem]
      rfl
    · show (enterState _ _ _).tp = _
      rw [enterState_tp]
      rfl

end Sys2Proof.Machine
end

section
/-! PROOFS. Mailboxes, and the parts of a migration (R434 to R437, R451 to R457). -/

namespace Sys2Proof.Machine

/-! ### Page events -/

theorem raisePage_eventsOnly (s : State) (n bit : Nat) : eventsOnly s (raisePage n bit s) [pageKey Reg.GX_INST_INT_STATUS n] := by
  unfold raisePage
  simp only []
  split
  · exact eventsOnly_refl s _
  · split
    · exact eventsOnly_trans (ls := []) (putReg_eventsOnly s _ _) (msixRaise_eventsOnly _ _ _)
    · exact putReg_eventsOnly s _ _

theorem raisePage_sets {n bit : Nat} (s : State) (h : bit < 32) :
    (regAt (raisePage n bit s) (pageKey Reg.GX_INST_INT_STATUS n)).getLsbD bit = true := by
  have hbit : ∀ v : Word, (v ||| BitVec.ofNat 32 (2 ^ bit)).getLsbD bit = true := by
    intro v
    rw [BitVec.getLsbD_or, BitVec.getLsbD_ofNat, Nat.testBit_two_pow_self, decide_eq_true h]
    exact Bool.or_true _
  unfold raisePage
  simp only []
  split
  · assumption
  · split
    · rw [regAt_msixRaise, regAt_putReg_same]
      exact hbit _
    · rw [regAt_putReg_same]
      exact hbit _

/-! ### Mailboxes (R434 to R436) -/

/-- What a change of a mailbox with a page event does. -/
theorem pageMail (n bit : Nat) (i : Instance) (s : State) (hb : bit < 32) :
    let t := raisePage n bit (setInst n i s)
    inst t n = i ∧ (regAt t (pageKey Reg.GX_INST_INT_STATUS n)).getLsbD bit = true ∧
      eventsOnly { s with vi := { s.vi with insts := t.vi.insts } } t [pageKey Reg.GX_INST_INT_STATUS n] := by
  refine ⟨(inst_of_vi (raisePage_vi _ _ _) n).trans (inst_setInst_same n i s), raisePage_sets _ hb, ?_⟩
  rw [raisePage_vi]
  exact raisePage_eventsOnly (setInst n i s) n bit

/-- What a change of a mailbox with an event for the physical function does. -/
theorem viMail (n bit : Nat) (i : Instance) (s : State) (hb : bit < 32) :
    let t := viEvent n bit (setInst n i s)
    inst t n = i ∧ (n ≠ 0 → (rg t Reg.GX_VI_EVENTS).getLsbD bit = true) ∧
      eventsOnly { s with vi := { s.vi with insts := t.vi.insts } } t [Reg.GX_VI_EVENTS] := by
  by_cases hn : n = 0
  · simp only [viEvent, if_pos hn]
    exact ⟨inst_setInst_same n i s, fun h => absurd hn h, eventsOnly_refl _ _⟩
  · simp only [viEvent, if_neg hn]
    refine ⟨(inst_of_vi (raise_vi _ _ _) n).trans (inst_setInst_same n i s), fun _ => raise_sets _ _ _ hb, ?_⟩
    rw [raise_vi]
    exact raise_eventsOnly (setInst n i s) Reg.GX_VI_EVENTS bit

/-! ### Charges -/

/-- All but the registers, the interrupts and the cipher engine. -/
def beyondCipher (s : State) : State := { s with regs := [], gl := {}, out := [], ce := {} }

theorem beyondCipher_exhaust (n : Nat) (s : State) : beyondCipher (exhaust n s) = beyondCipher s := by
  unfold exhaust beyondCipher bump
  rw [raise_frame]
  rfl

theorem charge_keeps (n blocks : Nat) (s : State) :
    beyondCipher (charge n blocks s).1 = beyondCipher s ∧ (keySlot (charge n blocks s).1 n).invocation = (keySlot s n).invocation := by
  have hexhaust : ∀ t : State, (keySlot (exhaust n t) n).invocation = (keySlot t n).invocation := by
    intro t
    have hce : (exhaust n t).ce = (setKeySlot n { keySlot t n with state := 2 } t).ce := raise_ce _ _ _
    have hslot : keySlot (exhaust n t) n = keySlot (setKeySlot n { keySlot t n with state := 2 } t) n := by
      rw [keySlot, hce]
      rfl
    rw [hslot, keySlot_setKeySlot_same]
  have hset (k : KeySlot) (hk : k.invocation = (keySlot s n).invocation) :
      (keySlot (setKeySlot n k s) n).invocation = (keySlot s n).invocation := by
    rw [keySlot_setKeySlot_same]
    exact hk
  unfold charge
  simp only []
  split
  · exact ⟨rfl, rfl⟩
  · split
    · exact ⟨beyondCipher_exhaust n s, hexhaust s⟩
    · split
      · exact ⟨beyondCipher_exhaust n _, (hexhaust _).trans (hset _ rfl)⟩
      · exact ⟨rfl, hset _ rfl⟩

/-! ### Saving (R451 to R453) -/

/-- The state in which a part is sealed and its slot has one invocation more. -/
def partSealed (k : Nat) (plain : List Byte) (s1 : State) : State :=
  setKeySlot k { keySlot s1 k with invocation := (keySlot s1 k).invocation + 1 }
    (cryptCount plain.length (muleMove false false true plain s1))

/-- The run that sends a sealed part as a WRITE. -/
def saveRun (slot : Nat) (e : BitVec 512) (plain : List Byte) (bad : Bool) (s1 : State) : OpRun :=
  let blob := sealBlob (keySlot s1 (ef e 20 2 - 1)) 0 plain
  { kind := .write, ring := 0, slot := slot, qpn := ef e 22 2, inst := 0, space := ef e 32 4 % 2 ^ 20
    tiles := cutTransfer (cutFuel blob.length) 0 (ef e 40 8) blob.length true
      (if qpMode (partSealed (ef e 20 2 - 1) plain s1) (ef e 22 2) 0 == some 4 then some 0 else none)
    data := some blob, force := if bad then stMemUncorrectable else 0 }

/-- The state with the run of a sealed part. -/
def saveSent (slot : Nat) (e : BitVec 512) (plain : List Byte) (bad : Bool) (s1 : State) : State :=
  { partSealed (ef e 20 2 - 1) plain s1 with
    tp := { (partSealed (ef e 20 2 - 1) plain s1).tp with
      runs := mapSet (partSealed (ef e 20 2 - 1) plain s1).tp.runs (opKey 0 slot) (saveRun slot e plain bad s1) } }

theorem saveBlob_remote {slot : Nat} {e : BitVec 512} {plain : List Byte} {bad : Bool} {reads : NMap (BitVec 128)} {s s1 : State}
    (hw : chargeWaits s (ef e 20 2 - 1) = false) (hr : ef e 19 1 % 2 = 1)
    (hc : charge (ef e 20 2 - 1) (sealBlocks (keySlot s (ef e 20 2 - 1)) plain.length) s = (s1, true)) :
    saveBlob slot e plain bad reads s = progressRun (opKey 0 slot) (saveSent slot e plain bad s1) := by
  unfold saveBlob
  simp only []
  rw [if_neg (by rw [hw]; exact Bool.false_ne_true), if_pos hr, hc]
  rfl

theorem saveSent_sends {slot : Nat} {e : BitVec 512} {plain : List Byte} {bad : Bool} {s s1 : State} {blocks : Nat}
    (hc : charge (ef e 20 2 - 1) blocks s = (s1, true)) :
    runOf (saveSent slot e plain bad s1) (opKey 0 slot) = some (saveRun slot e plain bad s1) ∧
      (keySlot (saveSent slot e plain bad s1) (ef e 20 2 - 1)).invocation = (keySlot s (ef e 20 2 - 1)).invocation + 1 ∧
      (saveSent slot e plain bad s1).mem = s.mem := by
  obtain ⟨hkept, hinv⟩ := charge_keeps (ef e 20 2 - 1) blocks s
  rw [hc] at hkept hinv
  refine ⟨mapGet_mapSet_same _ _ _, ?_, (muleMove_keeps _ _ _ _ _).2.trans (congrArg State.mem hkept :)⟩
  have hslot : keySlot (saveSent slot e plain bad s1) (ef e 20 2 - 1) =
      { keySlot s1 (ef e 20 2 - 1) with invocation := (keySlot s1 (ef e 20 2 - 1)).invocation + 1 } := keySlot_setKeySlot_same _ _ _
  rw [hslot]
  exact congrArg (· + 1) hinv

theorem instanceSave_refused {memory : Bool} {slot : Nat} {reads : NMap (BitVec 128)} {o : Op} {s : State}
    (hm : mgmtOp s slot 0x1B = some o) (hpart : (ef o.entry 18 1 != 0) = memory) (hrun : runOf s (opKey 0 slot) = none)
    (href : saveRefused s o.entry (bodyInst o.entry) (ef o.entry 18 1)
      (96 + if memory then ef o.entry 28 4 * granuleBytes else (stateBody s (bodyInst o.entry)).length) = true) :
    instanceSave memory slot reads s = mgmtDone slot stAborted s := by
  unfold instanceSave
  rw [hm]
  simp only []
  rw [if_neg (by rw [hpart, hrun]; simp), if_pos href]

/-- The plain bytes of a part, and whether an uncorrectable byte was met. -/
def savePart (memory : Bool) (e : BitVec 512) (s : State) : List Byte × Bool :=
  let body := if memory then memBody s (bodyInst e) (ef e 18 1) (ef e 24 4) (ef e 28 4) else (stateBody s (bodyInst e), false)
  (partHeader s (bodyInst e) (ef e 18 1) (if memory then ef e 24 4 else 0) (if memory then ef e 28 4 else 0) body.1.length ++ body.1, body.2)

theorem instanceSave_seals {memory : Bool} {slot : Nat} {reads : NMap (BitVec 128)} {o : Op} {s : State}
    (hm : mgmtOp s slot 0x1B = some o) (hpart : (ef o.entry 18 1 != 0) = memory) (hrun : runOf s (opKey 0 slot) = none)
    (href : saveRefused s o.entry (bodyInst o.entry) (ef o.entry 18 1)
      (96 + if memory then ef o.entry 28 4 * granuleBytes else (stateBody s (bodyInst o.entry)).length) = false) :
    instanceSave memory slot reads s = if memory ∧ ef o.entry 28 4 = 0 then mgmtDone slot stOk s
      else saveBlob slot o.entry (savePart memory o.entry s).1 (savePart memory o.entry s).2 reads (markStarted 0 slot s) := by
  unfold instanceSave
  rw [hm]
  simp only []
  rw [if_neg (by rw [hpart, hrun]; simp), if_neg (by rw [href]; exact Bool.false_ne_true)]
  simp only [Bool.and_eq_true, beq_iff_eq]
  rfl

/-! ### Restoring (R454 to R457) -/

/-- The blob of a RESTORE was read, charged and opened well, and its header agrees. -/
structure PartOpens (s s1 s2 s3 : State) (slot : Nat) (o : Op) (reads : NMap (BitVec 128)) (pages : List PageMap)
    (blob plain : List Byte) (pad : Nat) : Prop where
  waits : mgmtOp s slot 0x1C = some o
  long : 96 ≤ ef o.entry 48 8
  unspent : saSpent s (ef o.entry 20 2) = false
  key : tierGcm s (ef o.entry 20 2) 3 = true
  free : chargeWaits s (ef o.entry 20 2 - 1) = false
  mapped : movePages (ef o.entry 32 4 % 2 ^ 20) (ef o.entry 40 8) (ef o.entry 48 8) { read := true } reads (markStarted 0 slot s) = .ok s1 pages
  found : readRange s1 (opKey 0 slot) pages (ef o.entry 40 8) (ef o.entry 48 8) = .got blob false
  charged : charge (ef o.entry 20 2 - 1) (sealBlocks (keySlot s1 (ef o.entry 20 2 - 1)) (openLen 4 (ef o.entry 48 8))) s1 = (s2, true)
  passed : s3 = cryptCount (openLen 4 (ef o.entry 48 8)) (muleMove false false true blob s2)
  opened : openBlob (keySlot s3 (ef o.entry 20 2 - 1)) blob = (plain, pad, true)
  head : headBad s3 (ef o.entry 18 1) plain = false

theorem memStalls_of_mem {s t : State} (hmem : t.mem = s.mem) (hre : t.re = s.re) (off : Nat) : memStalls t off = memStalls s off := by
  rw [memStalls, memStalls]
  simp only [granuleClean, swapHolds, hmem, hre]

theorem windowStalls_of_mem {s t : State} (hlz : t.lz = s.lz) (hmem : t.mem = s.mem) (hre : t.re = s.re) (n part : Nat) :
    windowStalls t n part = windowStalls s n part := by
  have hwindow : instWindow t n (part - 1) = instWindow s n (part - 1) := by
    rw [instWindow, instWindow, hlz, hmem]
  rw [windowStalls, windowStalls, hwindow]
  simp only [memStalls_of_mem hmem hre]

section
variable {s s1 s2 s3 : State} {slot : Nat} {o : Op} {reads : NMap (BitVec 128)} {pages : List PageMap} {blob plain : List Byte} {pad : Nat}

theorem instanceRestore_opens (memory : Bool) (table : List (BitVec 128)) (failed : Bool)
    (h : PartOpens s s1 s2 s3 slot o reads pages blob plain pad) (hpart : (ef o.entry 18 1 != 0) = memory)
    (hmay : (if memory then (inst s (bodyInst o.entry)).state != .frozen || !(inst s (bodyInst o.entry)).restored
      else targetBad s (bodyInst o.entry) ||
        (instOps s (bodyInst o.entry) 0x1C).any (fun x => x != slot && (opAt s 0 x).any (fun y => ef y.entry 18 1 == 0))) = false)
    (hflow : (memory && windowStalls s (bodyInst o.entry) (ef o.entry 18 1)) = false) :
    instanceRestore memory slot reads table failed s =
      if memory then restoreMemoryPart slot (bodyInst o.entry) (ef o.entry 18 1) plain true s3
      else restoreStatePart slot (bodyInst o.entry) plain (table.take (ef o.entry 36 2)) failed s3 := by
  obtain ⟨hm, hlong, hspent, hkey, hfree, hpages, hfound, hcharge, rfl, hopen, hhead⟩ := h
  unfold instanceRestore
  rw [hm]
  simp only []
  rw [if_neg (by rw [hpart]; simp), if_neg (by omega), if_neg (by rw [hmay]; exact Bool.false_ne_true),
    if_neg (by rw [hspent]; exact Bool.false_ne_true), if_neg (by rw [hkey]; simp; omega)]
  rw [show chargeWaits (markStarted 0 slot s) (ef o.entry 20 2 - 1) = false from hfree,
    windowStalls_of_mem (s := s) (t := markStarted 0 slot s) rfl rfl rfl,
    if_neg (by rw [hflow]; exact Bool.false_ne_true), hpages]
  simp only []
  rw [hfound]
  simp only []
  rw [hcharge]
  simp only [Bool.not_true, Bool.false_eq_true, if_false]
  rw [hopen]
  simp only [if_true, Bool.not_true, Bool.false_and, Bool.false_eq_true, if_false]
  rw [if_neg (by rw [hhead]; exact Bool.false_ne_true)]

end

/-- A management operation of a migration ends, where no flush is awaited. -/
theorem moveEnd_ends {slot : Nat} {c : Completion} {o : Op} {s : State} (hf : unflushed s (.run (opKey 0 slot)) = [])
    (ho : opAt s 0 slot = some o) (hh : o.head = slot) (hd : o.done = none) :
    endsWith (moveEnd slot c s) 0 slot c.status ∧ moveEnd slot c s = finishOp 0 slot c (dropGot (opKey 0 slot) s) := by
  have hform : moveEnd slot c s = finishOp 0 slot c (dropGot (opKey 0 slot) s) := by
    unfold moveEnd
    rw [awaitFlush, hf]
    rfl
  rw [hform]
  exact ⟨finishOp_endsWith (s := dropGot (opKey 0 slot) s) c ho hh hd, rfl⟩

theorem unflushed_of_acc {s t : State} (h : t.pc.acc = s.pc.acc) (w : Waiter) : unflushed t w = unflushed s w := by
  rw [unflushed, unflushed, h]

/-! ### A STATE part (R456) -/

theorem foldl_putRings (l : List (Nat × Ring)) (s : State) :
    l.foldl (fun s x => { s with q := { s.q with rings := mapSet s.q.rings x.1 x.2 } }) s =
      { s with q := { s.q with rings := l.foldl (fun m x => mapSet m x.1 x.2) s.q.rings } } := by
  induction l generalizing s with
  | nil => rfl
  | cons x t ih => exact (ih _).trans rfl

theorem foldl_putQps (l : List (Nat × Qp)) (s : State) :
    l.foldl (fun s x => { s with tp := { s.tp with qps := mapSet s.tp.qps x.1 x.2 } }) s =
      { s with tp := { s.tp with qps := l.foldl (fun m x => mapSet m x.1 x.2) s.tp.qps } } := by
  induction l generalizing s with
  | nil => rfl
  | cons x t ih => exact (ih _).trans rfl

theorem foldl_putSlots (l : List (Nat × KeySlot)) (s : State) :
    l.foldl (fun s x => setKeySlot x.1 x.2 s) s = { s with ce := (l.foldl (fun s x => setKeySlot x.1 x.2 s) s).ce } :=
  foldl_maintains (fun t : State => t = { s with ce := t.ce }) (fun (s : State) (x : Nat × KeySlot) => setKeySlot x.1 x.2 s)
    (fun t x ht => by rw [ht]; rfl) l s rfl

theorem eq_of_nodup_map {α β : Type} {f : α → β} {l : List α} (h : (l.map f).Nodup) {x y : α} (hx : x ∈ l) (hy : y ∈ l)
    (e : f x = f y) : x = y := by
  induction l with
  | nil => exact absurd hx List.not_mem_nil
  | cons a t ih =>
    rw [List.map_cons, List.nodup_cons] at h
    rcases List.mem_cons.1 hx with rfl | hx'
    · rcases List.mem_cons.1 hy with rfl | hy'
      · rfl
      · exact absurd (e ▸ List.mem_map_of_mem hy') h.1
    · rcases List.mem_cons.1 hy with rfl | hy'
      · exact absurd (e ▸ List.mem_map_of_mem hx') h.1
      · exact ih h.2 hx' hy'

theorem mapGet_foldl_put {α : Type} {l : List (Nat × α)} {x : Nat × α} (m : NMap α) (hnd : (l.map Prod.fst).Nodup) (hx : x ∈ l) :
    mapGet (l.foldl (fun m x => mapSet m x.1 x.2) m) x.1 = some x.2 := by
  refine mapGet_foldl_mapSet Prod.fst Prod.snd (fun y hy hk => ?_) (.inl hx)
  rw [eq_of_nodup_map hnd hy hx hk]

theorem mapGet_foldl_put_ne {α : Type} {l : List (Nat × α)} {k : Nat} (m : NMap α) (h : ∀ x ∈ l, x.1 ≠ k) :
    mapGet (l.foldl (fun m x => mapSet m x.1 x.2) m) k = mapGet m k := by
  induction l generalizing m with
  | nil => rfl
  | cons x t ih =>
    rw [List.foldl_cons, ih _ fun y hy => h y (List.mem_cons_of_mem _ hy), mapGet_mapSet_ne _ _ (Ne.symm (h x List.mem_cons_self))]

/-- The rings, the transport block, the PCIe block and the instances. -/
def restoreView (s : State) : QueueState × TpState × PcieState × InstBlock := (s.q, s.tp, s.pc, s.vi)

theorem restoreView_putReg (k : Nat) (v : Word) (s : State) : restoreView (putReg k v s) = restoreView s := rfl

theorem restoreView_putBoth (k : Nat) (v : Word) (s : State) : restoreView (putBoth k v s) = restoreView s := rfl

/-- The rings and contexts with those of a STATE body. -/
def ringsRestored (n : Nat) (b : StateBody) (rs : List Reloc) (s : State) : QueueState :=
  { s.q with rings := (b.rings.map (ringOfRecord n rs)).foldl (fun m x => mapSet m x.1 x.2) s.q.rings }
def qpsRestored (n : Nat) (b : StateBody) (rs : List Reloc) (s : State) : TpState :=
  { s.tp with qps := (b.qps.map (qpOfRecord n rs)).foldl (fun m x => mapSet m x.1 x.2) s.tp.qps }

/-- What a STATE RESTORE leaves: its rings, its contexts, and an instance that is FROZEN. -/
theorem restoreState_restores (n : Nat) (b : StateBody) (rs : List Reloc) (migration : Nat) (s : State) :
    let t := restoreState n b rs migration s
    t.q = ringsRestored n b rs s ∧ t.tp = qpsRestored n b rs s ∧ t.pc = s.pc ∧
      inst t n = { inst s n with restored := true, migrationId := BitVec.ofNat 64 migration, state := .frozen } := by
  unfold restoreState
  extract_lets h s1 s2 s3 s4 s5 s6 _ t
  have h1 : restoreView s1 = (ringsRestored n b rs s, s.tp, s.pc, s.vi) := congrArg restoreView (foldl_putRings _ s)
  have h2 : restoreView s2 = (s1.q, { s1.tp with qps := (b.qps.map (qpOfRecord n rs)).foldl (fun m x => mapSet m x.1 x.2) s1.tp.qps },
    s1.pc, s1.vi) := congrArg restoreView (foldl_putQps _ s1)
  have h3 : restoreView s3 = restoreView s2 := Eq.trans (congrArg restoreView (foldl_putSlots (b.slots.map (slotOfRecord n rs)) s2)) rfl
  have h5 : restoreView s5 = restoreView s3 := by
    simp only [s5, s4]
    rw [restoreView_putBoth, restoreView_putReg, restoreView_putReg, restoreView_putReg, restoreView_putReg]
  have h6 : restoreView s6 = restoreView s5 := by
    simp only [s6]
    cases instFlock s5.lz.run n with
    | none => rfl
    | some a => exact (congrArg restoreView (wipeRegions_keeps s5.lz.run a s5).2 :)
  have hview : restoreView s6 = restoreView s2 := h6.trans (h5.trans h3)
  simp only [restoreView, Prod.mk.injEq] at h1 h2 hview
  obtain ⟨hq1, htp1, hpc1, hvi1⟩ := h1
  obtain ⟨hq2, htp2, hpc2, hvi2⟩ := h2
  obtain ⟨hq, htp, hpc, hvi⟩ := hview
  refine ⟨?_, ?_, ?_, ?_⟩
  · exact (enterState_q _ _ _).trans (hq.trans (hq2.trans hq1))
  · refine (enterState_tp _ _ _).trans (htp.trans (htp2.trans ?_))
    rw [htp1]
    rfl
  · exact (enterState_pc _ _ _).trans (hpc.trans (hpc2.trans hpc1))
  · have ht : inst t n = { inst s6 n with restored := true, migrationId := BitVec.ofNat 64 migration, state := .frozen } :=
      (inst_enterState_same n .frozen _).trans (by rw [inst_setInst_same])
    rw [ht, inst_of_vi (hvi.trans (hvi2.trans hvi1)) n]

theorem bodyRefused_fits {s : State} {n : Nat} {b : StateBody} {rs : List Reloc} (h : bodyRefused s n b rs = false) :
    (∀ x ∈ b.rings.map (ringOfRecord n rs), 2 ≤ x.1) ∧ ((b.rings.map (ringOfRecord n rs)).map Prod.fst).Nodup ∧
      ((b.qps.map (qpOfRecord n rs)).map Prod.fst).Nodup := by
  unfold bodyRefused at h
  extract_lets rings qps slots at h
  simp only [Bool.or_eq_false_iff, Bool.not_eq_false', decide_eq_true_eq] at h
  obtain ⟨⟨⟨⟨⟨⟨⟨⟨-, -⟩, hbad⟩, hrings⟩, -⟩, hqps⟩, -⟩, -⟩, -⟩ := h
  refine ⟨fun x hx => ?_, hrings, hqps⟩
  have hx' := List.any_eq_false.mp hbad x hx
  simp only [ringBad, Bool.or_eq_true, not_or, decide_eq_true_eq, Nat.not_lt] at hx'
  exact hx'.1.1.1

theorem restoreStatePart_restores {s : State} {slot n : Nat} {plain : List Byte} {b : StateBody}
    (hb : readBody (plain.drop 64) = some b) (hfit : bodyRefused s n b [] = false) (hquota : bodyOverQuota s n b = false) :
    restoreStatePart slot n plain [] false s =
      moveEnd slot { status := stOk, bytes := plain.length } (restoreState n b [] (leAt plain 8 8) s) := by
  unfold restoreStatePart
  rw [hb]
  simp only [List.map_nil, List.isEmpty_nil, Bool.not_true, Bool.false_and, Bool.false_eq_true, if_false, List.any_nil, hfit, hquota]

/-- What the clause of a STATE RESTORE asks. -/
theorem stateRestored {s : State} {slot n : Nat} {plain : List Byte} {b : StateBody} {o : Op}
    (hfit : bodyRefused s n b [] = false) (ho : opAt s 0 slot = some o) (hh : o.head = slot) (hd : o.done = none)
    (hf : unflushed s (.run (opKey 0 slot)) = []) :
    let t := moveEnd slot { status := stOk, bytes := plain.length } (restoreState n b [] (leAt plain 8 8) s)
    endsWith t 0 slot stOk ∧ (inst t n).state = .frozen ∧ (inst t n).restored = true ∧
      (inst t n).migrationId = BitVec.ofNat 64 (leAt plain 8 8) ∧
      (∀ x ∈ b.rings, ringOf t (ringOfRecord n [] x).1 = some (ringOfRecord n [] x).2) ∧
      (∀ x ∈ b.qps, qpOf t (qpOfRecord n [] x).1 = some (qpOfRecord n [] x).2) := by
  obtain ⟨hlow, hrings, hqps⟩ := bodyRefused_fits hfit
  obtain ⟨hq, htp, hpc, hinst⟩ := restoreState_restores n b [] (leAt plain 8 8) s
  generalize leAt plain 8 8 = mig at *
  generalize restoreState n b [] mig s = u at *
  have hzero : ringOf u 0 = ringOf s 0 := by
    rw [ringOf, hq]
    exact mapGet_foldl_put_ne _ fun x hx => by have := hlow x hx; omega
  have ho' : opAt u 0 slot = some o := by
    rw [opAt, hzero]
    exact ho
  obtain ⟨hend, hform⟩ := moveEnd_ends (c := { status := stOk, bytes := plain.length })
    ((unflushed_of_acc (by rw [hpc]) _).trans hf) ho' hh hd
  intro t
  have hinst' : inst t n = inst u n := by
    rw [show t = _ from hform]
    rfl
  refine ⟨hend, ?_, ?_, ?_, fun x hx => ?_, fun x hx => ?_⟩
  · rw [hinst', hinst]
  · rw [hinst', hinst]
  · rw [hinst', hinst]
  · have hx' := List.mem_map_of_mem (f := ringOfRecord n []) hx
    have hlow' := hlow _ hx'
    rw [show t = _ from hform]
    refine (ringOf_updRing_ne (dropGot (opKey 0 slot) u) _ (by omega)).trans ?_
    show mapGet u.q.rings _ = _
    rw [hq]
    exact mapGet_foldl_put _ hrings hx'
  · rw [show t = _ from hform]
    show mapGet u.tp.qps _ = _
    rw [htp]
    exact mapGet_foldl_put _ hqps (List.mem_map_of_mem hx)

/-! ### A memory part (R457) -/

theorem restoreMemoryPart_restores {s : State} {slot n part : Nat} {plain : List Byte}
    (hid : leAt plain 8 8 = (inst s n).migrationId.toNat) (hlen : leAt plain 40 8 = leAt plain 28 4 * granuleBytes)
    (hroom : leAt plain 24 4 + leAt plain 28 4 ≤ (instWindow s n (part - 1)).length) :
    restoreMemoryPart slot n part plain true s = moveEnd slot { status := stOk, bytes := plain.length }
      (restoreMemory n part (leAt plain 24 4) (plain.drop 64) (muleMove true false true (plain.drop 64) s)) := by
  unfold restoreMemoryPart
  generalize leAt plain 24 4 = first at *
  generalize leAt plain 28 4 = count at *
  simp only []
  rw [hid, hlen, if_neg (by simp only [bne_self_eq_false, Bool.false_or, decide_eq_true_eq]; omega)]
  simp only [if_true]

theorem tierPut_keeps (off : Nat) (bs : List Byte) (s : State) : (tierPut off bs s).1.q = s.q ∧ (tierPut off bs s).1.pc = s.pc := by
  have h := beyondStream_tierStream off bs (tierWrite off bs s).1
  exact ⟨(congrArg State.q h :), (congrArg State.pc h :)⟩

theorem foldl_tierPut_keeps {β : Type} (off : β → Nat) (bs : β → List Byte) (l : List β) (s : State) :
    (l.foldl (fun s x => (tierPut (off x) (bs x) s).1) s).q = s.q ∧ (l.foldl (fun s x => (tierPut (off x) (bs x) s).1) s).pc = s.pc := by
  induction l generalizing s with
  | nil => exact ⟨rfl, rfl⟩
  | cons x t ih =>
    obtain ⟨hq, hpc⟩ := tierPut_keeps (off x) (bs x) s
    exact ⟨(ih _).1.trans hq, (ih _).2.trans hpc⟩

/-- What a memory RESTORE leaves: the rings and the ports. -/
theorem restoreMemory_keeps (n part first : Nat) (body : List Byte) (s : State) :
    (restoreMemory n part first body s).q = s.q ∧ (restoreMemory n part first body s).pc = s.pc := by
  have h := foldl_tierPut_keeps (fun x : Nat × Nat => granuleStart x.1) (fun x => slice body (x.2 * granuleBytes) granuleBytes)
    (((instWindow s n (part - 1)).drop first).take (body.length / granuleBytes)).zipIdx s
  unfold restoreMemory
  exact h

/-- What the clause of a memory RESTORE asks. -/
theorem memoryRestored {s : State} {slot n part first : Nat} {plain : List Byte} {o : Op}
    (ho : opAt s 0 slot = some o) (hh : o.head = slot) (hd : o.done = none) (hf : unflushed s (.run (opKey 0 slot)) = []) :
    let u := restoreMemory n part first (plain.drop 64) (muleMove true false true (plain.drop 64) s)
    let t := moveEnd slot { status := stOk, bytes := plain.length } u
    endsWith t 0 slot stOk ∧ t.mem = u.mem := by
  intro u t
  obtain ⟨hq, hpc⟩ := restoreMemory_keeps n part first (plain.drop 64) (muleMove true false true (plain.drop 64) s)
  have hmule := beyondMules_muleMove true false true (plain.drop 64) s
  have hq' : u.q = s.q := hq.trans (congrArg State.q hmule :)
  have hacc : u.pc.acc = s.pc.acc := (congrArg PcieState.acc hpc).trans (congrArg (fun t : State => t.pc.acc) hmule :)
  obtain ⟨hend, hform⟩ := moveEnd_ends (s := u) (c := { status := stOk, bytes := plain.length })
    ((unflushed_of_acc hacc _).trans hf) ((opAt_of_q hq' 0 slot).trans ho) hh hd
  exact ⟨hend, (congrArg State.mem hform).trans rfl⟩

theorem instanceRestore_refused {slot : Nat} {reads : NMap (BitVec 128)} {table : List (BitVec 128)} {failed : Bool} {o : Op} {s : State}
    (hm : mgmtOp s slot 0x1C = some o) (hpart : ef o.entry 18 1 = 0) (hlen : ef o.entry 48 8 ≠ 0)
    (hbad : targetBad s (bodyInst o.entry) = true) : instanceRestore false slot reads table failed s = mgmtDone slot stAborted s := by
  unfold instanceRestore
  rw [hm]
  simp only []
  rw [if_neg (by rw [hpart]; decide), if_neg hlen, if_neg Bool.false_ne_true, hbad, if_pos (Bool.true_or _)]

/-- Settles O53: a mailbox's bit and buffer are one instance's; a sealed part leaves as the run of a WRITE; a part that opens well is
written, and one that is refused ends its command alone. -/
theorem mailboxesAndMigration : Obligations.MailboxesAndMigration := by
  unfold Obligations.MailboxesAndMigration
  refine ⟨?_, ?_, ?_, ?_, ?_, ?_, ?_, ?_, ?_, ?_, ?_, ?_⟩
  · intro n s hm hfull
    obtain ⟨h1, h2, h3⟩ := viMail n 0 { inst s n with outFull := true } s (by decide)
    exact ⟨_, next_whenOk (by simp [hm, hfull]), h1, h2, h3⟩
  · intro n s hm hfull
    obtain ⟨h1, h2, h3⟩ := pageMail n 1 { inst s n with outFull := false } s (by decide)
    exact ⟨_, next_whenOk (by simp [hm, hfull]), h1, h2, h3⟩
  · intro n s hm hfull
    obtain ⟨h1, h2, h3⟩ := pageMail n 0 { inst s n with inFull := true } s (by decide)
    exact ⟨_, next_whenOk (by simp [hm, hfull]), h1, h2, h3⟩
  · intro n s hm hfull
    obtain ⟨h1, h2, h3⟩ := viMail n 1 { inst s n with inFull := false } s (by decide)
    exact ⟨_, next_whenOk (by simp [hm, hfull]), h1, h2, h3⟩
  · intro n off inbound v s hm hoff hal hfull
    refine ⟨_, _, next_whenOk (by simp [hm, hoff, hal, hfull]), inst_setInst_same n _ s, ?_, fun hin => ?_, fun hin => ?_,
      fun j hj => inst_setInst_ne _ s hj, rfl⟩
    · cases inbound with
      | false => exact getD_mapPut_same _ _ _ _
      | true => exact getD_mapPut_same _ _ _ _
    · subst hin
      exact ⟨rfl, fun a ha => mapGet_mapPut_ne _ _ _ ha⟩
    · subst hin
      exact ⟨rfl, fun a ha => mapGet_mapPut_ne _ _ _ ha⟩
  · intro n off inbound v s hfull
    exact next_whenOk_false (by simp [hfull])
  · intro slot n k reads o plain s s1 hw hwait hpart hrun hn href hremote hk hfree hplain hcharge
    subst hn hk
    have hseals := (instanceSave_seals (memory := false) (reads := reads) hwait.1 (by rw [hpart]; rfl) hrun (by rw [hpart]; exact href)).trans
      (if_neg fun h => Bool.false_ne_true h.1)
    have hplain' : (savePart false o.entry s).1 = plain := by
      rw [hplain, savePart, hpart]
      rfl
    rw [hplain'] at hseals
    obtain ⟨hrun', hinv, hmem⟩ := saveSent_sends (slot := slot) (e := o.entry) (plain := plain) (bad := false) hcharge
    exact ⟨saveSent slot o.entry plain false s1, saveRun slot o.entry plain false s1,
      (next_whenOk hw).trans (congrArg Host.Outcome.next (hseals.trans (saveBlob_remote hfree hremote hcharge))),
      hrun', rfl, rfl, rfl, rfl, hinv, hmem⟩
  · intro slot n k part first count reads o plain s s1 hw hwait hp hpart hrun hn hf hc hcount href hremote hk hfree hplain hcharge
    subst hp hn hf hc hk
    have hseals := (instanceSave_seals (memory := true) (reads := reads) hwait.1 (by simpa using hpart) hrun href).trans (if_neg fun h => hcount h.2)
    have hplain' : (savePart true o.entry s).1 = plain := hplain.symm
    rw [hplain'] at hseals
    obtain ⟨hrun', -, hmem⟩ := saveSent_sends (slot := slot) (e := o.entry) (plain := plain) (bad := (savePart true o.entry s).2) hcharge
    exact ⟨saveSent slot o.entry plain (savePart true o.entry s).2 s1, saveRun slot o.entry plain (savePart true o.entry s).2 s1,
      (next_whenOk hw).trans (congrArg Host.Outcome.next (hseals.trans (saveBlob_remote hfree hremote hcharge))),
      hrun', rfl, rfl, rfl, rfl, hmem⟩
  · intro slot part reads o s hw hwait hp hpart hrun hcount
    subst hp
    have hlen : (96 + if true = true then ef o.entry 28 4 * granuleBytes else (stateBody s (bodyInst o.entry)).length) = 96 := by
      rw [if_pos rfl, hcount, Nat.zero_mul]
    by_cases href : saveRefused s o.entry (bodyInst o.entry) (ef o.entry 18 1) 96 = true
    · rw [href, if_pos rfl]
      exact ⟨_, (next_whenOk hw).trans (congrArg Host.Outcome.next
        (instanceSave_refused (memory := true) (reads := reads) hwait.1 (by simpa using hpart) hrun (by rw [hlen]; exact href))), rfl, waitsAt_endsWith hwait rfl _⟩
    · rw [if_neg href]
      exact ⟨_, (next_whenOk hw).trans (congrArg Host.Outcome.next
        ((instanceSave_seals (memory := true) (reads := reads) hwait.1 (by simpa using hpart) hrun (by rw [hlen]; exact Bool.not_eq_true _ ▸ href)).trans
          (if_pos ⟨rfl, hcount⟩))), rfl, waitsAt_endsWith hwait rfl _⟩
  · intro slot n sa va len reads table o o' pages blob plain pad b s s1 s2 s3 hw hwait hpart hn hsa hva hlen hlong htarget hops hspent hkey
      hfree hpages hfound hcharge hs3 hopen hhead hbody htable hfit hquota ho hh hd hf
    subst hn hsa hva hlen
    have hopens : PartOpens s s1 s2 s3 slot o reads pages blob plain pad :=
      ⟨hwait.1, hlong, hspent, hkey, hfree, hpages, hfound, hcharge, hs3, hopen, by rw [hpart]; exact hhead⟩
    have hrestore := instanceRestore_opens false table false hopens (by rw [hpart]; rfl) (by simp [htarget, hops]) rfl
    simp only [Bool.false_eq_true, if_false] at hrestore
    rw [htable, restoreStatePart_restores hbody hfit hquota] at hrestore
    exact ⟨_, (next_whenOk hw).trans (congrArg Host.Outcome.next hrestore), stateRestored hfit ho hh hd hf⟩
  · intro slot n sa va len part first count reads o o' pages blob plain pad s s1 s2 s3 hw hwait hp hpart hn hsa hva hlen hlong hst hrest
      hspent hkey hfree hflow hpages hfound hcharge hs3 hopen hhead hfirst hcount hid hlen' hroom ho hh hd hf
    subst hp hn hsa hva hlen
    have hopens : PartOpens s s1 s2 s3 slot o reads pages blob plain pad :=
      ⟨hwait.1, hlong, hspent, hkey, hfree, hpages, hfound, hcharge, hs3, hopen, hhead⟩
    have hrestore := instanceRestore_opens true [] false hopens (by simpa using hpart) (by simp [hst, hrest]) (by simp [hflow])
    simp only [if_true] at hrestore
    subst hfirst hcount
    rw [restoreMemoryPart_restores hid hlen' hroom] at hrestore
    obtain ⟨hend, hmem⟩ := memoryRestored (first := leAt plain 24 4) (part := ef o.entry 18 1) (n := bodyInst o.entry) (plain := plain) ho hh hd hf
    exact ⟨_, (next_whenOk hw).trans (congrArg Host.Outcome.next hrestore), hend, hmem⟩
  · intro slot reads table failed o s hw hwait hpart hlen hbad
    exact ⟨_, (next_whenOk hw).trans (congrArg Host.Outcome.next (instanceRestore_refused hwait.1 hpart hlen hbad)),
      waitsAt_endsWith hwait rfl _, rfl⟩

end Sys2Proof.Machine
end

section
/-! PROOFS. The firmware's actions (R468, R473 to R479, R490, R495). -/

namespace Sys2Proof.Machine

/-! ### Their beginning and their end (R475, R477) -/

theorem fwEvent_eventsOnly (bit : Nat) (s : State) : eventsOnly s (fwEvent bit s) [Reg.GX_FW_EVENTS] :=
  raise_eventsOnly s Reg.GX_FW_EVENTS bit

@[simp] theorem fwEvent_fw (bit : Nat) (s : State) : (fwEvent bit s).fw = s.fw := raise_fw _ _ _

@[simp] theorem fwEvent_sec (bit : Nat) (s : State) : (fwEvent bit s).sec = s.sec := raise_sec _ _ _

/-- The firmware's record once an action has ended. -/
def fwEnded (result detail : Nat) (f : FwState) : FwState := { f with state := 3, result := result, detail := detail, action := none }

theorem fwEnd_fw (result detail : Nat) (s : State) : (fwEnd result detail s).fw = fwEnded result detail s.fw := by
  unfold fwEnd
  simp only []
  split
  · exact fwEvent_fw 0 _
  · exact (fwEvent_fw 1 _).trans (fwEvent_fw 0 _)

theorem fwEnd_eventsOnly (result detail : Nat) (s : State) :
    eventsOnly { s with fw := fwEnded result detail s.fw } (fwEnd result detail s) [Reg.GX_FW_EVENTS] := by
  have hdone := fwEvent_eventsOnly 0 { s with fw := fwEnded result detail s.fw }
  unfold fwEnd
  simp only []
  split
  · exact hdone
  · exact eventsOnly_mono (eventsOnly_trans hdone (fwEvent_eventsOnly 1 _)) (by simp)

theorem fwEnd_done (result detail : Nat) (s : State) : (rg (fwEnd result detail s) Reg.GX_FW_EVENTS).getLsbD 0 = true := by
  have hdone := raise_sets { s with fw := fwEnded result detail s.fw } Reg.GX_FW_EVENTS 0 (by decide)
  unfold fwEnd
  simp only []
  split
  · exact hdone
  · exact raise_keeps _ _ 1 0 hdone

theorem fwEnd_failed {result : Nat} (h : result ≠ 0) (detail : Nat) (s : State) :
    (rg (fwEnd result detail s) Reg.GX_FW_EVENTS).getLsbD 1 = true := by
  unfold fwEnd
  simp only []
  rw [if_neg h]
  exact raise_sets _ _ 1 (by decide)

theorem fwEnd_sec (result detail : Nat) (s : State) : (fwEnd result detail s).sec = s.sec := by
  rw [(fwEnd_eventsOnly result detail s).1]

/-- What the end of an action does. -/
theorem fwEnd_ends (result detail : Nat) (s : State) :
    let t := fwEnd result detail s
    t.fw = fwEnded result detail s.fw ∧ (rg t Reg.GX_FW_EVENTS).getLsbD 0 = true ∧ eventsOnly { s with fw := t.fw } t [Reg.GX_FW_EVENTS] := by
  refine ⟨fwEnd_fw result detail s, fwEnd_done result detail s, ?_⟩
  rw [fwEnd_fw]
  exact fwEnd_eventsOnly result detail s

/-- What a further write does while an action runs. -/
theorem fwBusy_ends (s : State) :
    let t := fwBusy s
    t.fw = { s.fw with result := 7 } ∧ (rg t Reg.GX_FW_EVENTS).getLsbD 0 = true ∧ (rg t Reg.GX_FW_EVENTS).getLsbD 1 = true ∧
      eventsOnly { s with fw := t.fw } t [Reg.GX_FW_EVENTS] := by
  have hdone := raise_sets { s with fw := { s.fw with result := 7 } } Reg.GX_FW_EVENTS 0 (by decide)
  have hfw : (fwBusy s).fw = { s.fw with result := 7 } := (fwEvent_fw 1 _).trans (fwEvent_fw 0 _)
  refine ⟨hfw, raise_keeps _ _ 1 0 hdone, raise_sets _ _ 1 (by decide), ?_⟩
  rw [hfw]
  exact eventsOnly_mono (eventsOnly_trans (fwEvent_eventsOnly 0 { s with fw := { s.fw with result := 7 } }) (fwEvent_eventsOnly 1 _)) (by simp)

theorem fwStart_acts {a : FwAction} {f : State → State} {s : State} (hb : s.fw.boot = .ready) (ha : s.fw.action = none)
    (hd : s.fw.deferred = none) (hr : bantamBusy s 0 = false) : fwStart a f s = f s := by
  unfold fwStart
  rw [if_neg (by simp [ha, hd, hr]), if_neg (by simp [hb])]

theorem fwStart_busy {a : FwAction} {f : State → State} {s : State} (h : s.fw.action ≠ none ∨ s.fw.deferred ≠ none) :
    fwStart a f s = fwBusy s := by
  unfold fwStart
  rw [if_pos]
  rcases h with h | h
  · simp [Option.isSome_iff_ne_none.mpr h]
  · simp [Option.isSome_iff_ne_none.mpr h]

theorem stagedStart_runs {a : FwAction} {lenOk : Nat → Bool} {s : State} (h : lenOk (stageLen s) = true) :
    stagedStart a lenOk s = fwRun a s := if_pos h

theorem stagedStart_ends {a : FwAction} {lenOk : Nat → Bool} {s : State} (h : lenOk (stageLen s) = false) :
    stagedStart a lenOk s = fwEnd 1 0 s := if_neg (by rw [h]; exact Bool.false_ne_true)

theorem bantamBusy_of_idle {s : State} (h : s.fw.restarting = none) (b : Nat) : bantamBusy s b = false := by
  rw [bantamBusy, h]
  rfl

/-! ### Activations and lone restarts (R473, R478, R479) -/

theorem regAt_ptpLoseLock_ne (s : State) {k : Nat} (h : k ≠ Reg.GX_TICK_EVENTS) : regAt (ptpLoseLock s) k = regAt s k := by
  unfold ptpLoseLock
  split
  · simp only []
    split
    · exact (regAt_enterAlign_ne _ _ h).trans (regAt_raise_ne _ 5 h)
    · exact regAt_raise_ne _ 5 h
  · rfl

/-- The state in which a lone restart is noted and counted. -/
def restartNoted (b : Nat) (roll : Bool) (s : State) : State :=
  bump Reg.GX_FW_RESTART_CNT { s with fw := { s.fw with restarting := some b, restartRoll := roll } }

theorem restartBegin_zero (roll : Bool) (s : State) : restartBegin 0 roll s = { restartNoted 0 roll s with spdm := {} } := rfl

theorem restartBegin_else {b : Nat} (h0 : b ≠ 0) (roll : Bool) (s : State) :
    restartBegin b roll s = if b = 2 && s.tick.ptpLocked then ptpLoseLock (restartNoted b roll s) else restartNoted b roll s := by
  unfold restartBegin
  simp only []
  rw [if_neg h0]
  rfl

/-- What a lone restart that begins does. -/
theorem restartBegin_begins (b : Nat) (roll : Bool) (s : State) :
    let t := restartBegin b roll s
    t.fw = { s.fw with restarting := some b, restartRoll := roll } ∧ counted s t Reg.GX_FW_RESTART_CNT 1 := by
  have hcount : counted s (restartNoted b roll s) Reg.GX_FW_RESTART_CNT 1 :=
    counted_bump Reg.GX_FW_RESTART_CNT { s with fw := { s.fw with restarting := some b, restartRoll := roll } }
  by_cases h0 : b = 0
  · subst h0
    rw [restartBegin_zero]
    exact ⟨rfl, hcount⟩
  · rw [restartBegin_else h0]
    split
    · refine ⟨?_, counted_of_rg hcount (regAt_ptpLoseLock_ne _ (by decide))⟩
      rw [ptpLoseLock_frame]
      rfl
    · exact ⟨rfl, hcount⟩

theorem regAt_restartBegin_ne (b : Nat) (roll : Bool) (s : State) {k : Nat} (hk : k ≠ Reg.GX_FW_RESTART_CNT) (ht : k ≠ Reg.GX_TICK_EVENTS) :
    regAt (restartBegin b roll s) k = regAt s k := by
  have hnoted : regAt (restartNoted b roll s) k = regAt s k := regAt_putReg_ne _ _ hk
  by_cases h0 : b = 0
  · subst h0
    exact hnoted
  · rw [restartBegin_else h0]
    split
    · exact (regAt_ptpLoseLock_ne _ ht).trans hnoted
    · exact hnoted

/-- The first restart of a roll, which is not Bantam 0's or 2's, changes the firmware and its count alone. -/
theorem restartBegin_frame {b : Nat} (h0 : b ≠ 0) (h2 : b ≠ 2) (roll : Bool) (s : State) :
    restartBegin b roll s = { s with fw := (restartBegin b roll s).fw, regs := (restartBegin b roll s).regs } := by
  rw [restartBegin_else h0, if_neg (by simp [h2])]
  rfl

theorem restartNext_rolls {s : State} {r : Roll} {b : Nat} {rest : List Nat} (hr : s.fw.restarting = none) (hw : s.fw.waiting = [])
    (hroll : s.fw.roll = some r) (hl : r.left = b :: rest) : restartNext s = restartBegin b true s := by
  unfold restartNext
  rw [if_neg (by rw [hr]; exact Bool.false_ne_true), hw]
  simp only []
  rw [hroll]
  simp only []
  rw [hl]

theorem restartRequest_begins {s : State} (b : Nat) (hr : s.fw.restarting = none) (hw : s.fw.waiting = []) :
    restartRequest b s = restartBegin b false s := by
  have hback : { s with fw := { s.fw with waiting := [] } } = s := by rw [← hw]
  unfold restartRequest restartNext
  rw [if_neg (by rw [hr]; simp), if_neg (by simp [hr]), hw]
  exact congrArg (restartBegin b false) hback

/-- The state in which an activation waits for the end of an emergency, before its notice. -/
def fwDeferred (a : FwAction) (s : State) : State :=
  { s with fw := { s.fw with state := 2, result := 0, detail := 0, deferred := some a } }

/-- A message for the host changes the firmware's own queue of messages, and no register of the window. -/
theorem fwMail_keeps (s : State) :
    (∃ o, (fwMail s).fw = { s.fw with outbox := o }) ∧ ∀ k, k < 0x4000000 → regAt (fwMail s) k = regAt s k := by
  unfold fwMail
  split
  · next m rest hbox =>
    split
    · exact ⟨⟨s.fw.outbox, rfl⟩, fun _ _ => rfl⟩
    · exact ⟨⟨rest, raisePage_fw _ _ _⟩, fun k hk => regAt_raisePage_window 0 0 _ hk⟩
  · exact ⟨⟨s.fw.outbox, rfl⟩, fun _ _ => rfl⟩

theorem fwNotice_keeps (event : Nat) (extra : List Byte) (s : State) :
    (∃ o q, (fwNotice event extra s).fw = { s.fw with outbox := o, noticeSeq := q }) ∧
      ∀ k, k < 0x4000000 → regAt (fwNotice event extra s) k = regAt s k := by
  unfold fwNotice fwSend
  obtain ⟨⟨o, ho⟩, hregs⟩ := fwMail_keeps { s with fw := { s.fw with
    noticeSeq := s.fw.noticeSeq + 1, outbox := s.fw.outbox ++ [mailBytes 0x8102 (s.fw.noticeSeq + 1) 0 (leBytes 4 event ++ extra)] } }
  exact ⟨⟨o, s.fw.noticeSeq + 1, ho⟩, hregs⟩

/-- What the deferral of an activation does. -/
theorem fwDefer_defers (a : FwAction) (s : State) :
    let t := fwDefer a s
    t.fw.state = 2 ∧ t.fw.deferred = some a ∧ t.fw.action = s.fw.action ∧ t.fw.activeB = s.fw.activeB ∧
      (rg t Reg.GX_FW_EVENTS).getLsbD 3 = true := by
  obtain ⟨⟨o, q, hfw⟩, hregs⟩ := fwNotice_keeps 4 [] (fwEvent 3 (fwDeferred a s))
  rw [fwEvent_fw] at hfw
  have hform : fwDefer a s = fwNotice 4 [] (fwEvent 3 (fwDeferred a s)) := rfl
  intro t
  simp only [show t = _ from hform, hfw]
  refine ⟨rfl, rfl, rfl, rfl, ?_⟩
  rw [rg, hregs _ (by decide)]
  exact raise_sets _ _ 3 (by decide)

theorem activateWarm_resets {s : State} (hs : fwServed s = true) (hb : s.fw.boot = .ready) (hc : s.fw.coldDue = false) :
    activateWarm s =
      { s with fw := { s.fw with activeB := !s.fw.activeB, pending := false, deferred := none, action := none, warmDue := some 5
                                 boot := .loading }, gl := { s.gl with resetCause := 5 } } := by
  simp only [fwServed, Bool.and_eq_true, Bool.not_eq_true'] at hs
  obtain ⟨⟨hp, hf⟩, -⟩ := hs
  exact warmBegin_up (s := { s with fw := { s.fw with activeB := !s.fw.activeB, pending := false, deferred := none, action := none } })
    hf hp hc hb

theorem activateRolling_served {s : State} (hs : fwServed s = true) (hb : s.fw.boot = .ready) (ha : s.fw.action = none)
    (hd : s.fw.deferred = none) (hr : bantamBusy s 0 = false) (hp : s.fw.pending = true) (hfeat : s.fw.features.getLsbD 0 = true)
    (hbar : domainBars s = false) :
    exec .activateRolling s = .next (if s.pw.emergency then fwDefer .activateRolling s else rollBegin s) := by
  refine (next_whenOk hs).trans (congrArg Host.Outcome.next ((fwStart_acts hb ha hd hr).trans ?_))
  rw [if_neg (by rw [hp, hfeat]; decide), if_neg (by rw [hbar]; exact Bool.false_ne_true)]

theorem activateWarm_served {s : State} (hs : fwServed s = true) (hb : s.fw.boot = .ready) (ha : s.fw.action = none)
    (hd : s.fw.deferred = none) (hr : bantamBusy s 0 = false) (hp : s.fw.pending = true) (hbar : domainBars s = false) :
    exec .activateWarm s = .next (if s.pw.emergency then fwDefer .activateWarm s else activateWarm s) := by
  refine (next_whenOk hs).trans (congrArg Host.Outcome.next ((fwStart_acts hb ha hd hr).trans ?_))
  rw [if_neg (by rw [hp]; decide), if_neg (by rw [hbar]; exact Bool.false_ne_true)]

/-! ### The ends of the actions (R468, R477, R490, R495) -/

theorem installEnd_written (b : List Byte) (flashOk : Bool) (s : State) :
    let t := installEnd b flashOk s
    t.fw.result = (if flashOk then 0 else 9) ∧ t.fw.pending = flashOk ∧
      bankOf t (!s.fw.activeB) = (if flashOk then some (readBundle b) else none) ∧ bankOf t s.fw.activeB = bankOf s s.fw.activeB ∧
      t.fw.activeB = s.fw.activeB ∧ t.fw.fusedSvn = s.fw.fusedSvn := by
  unfold installEnd bankOf
  cases flashOk with
  | true =>
    cases hB : s.fw.activeB with
    | true => simp [fwEnd_fw, fwEnded, hB]
    | false => simp [fwEnd_fw, fwEnded, hB]
  | false =>
    cases hB : s.fw.activeB with
    | true => simp [fwEnd_fw, fwEnded, hB]
    | false => simp [fwEnd_fw, fwEnded, hB]

theorem newNonce_draws (s : State) :
    newNonce s = { s with sec := { s.sec with nonce := Config.drbg s.sec.drbgCount, drbgCount := s.sec.drbgCount + 1
                                              drbgSince := s.sec.drbgSince + 1 } } := rfl

theorem warmScans_none {s : State} (h : s.q.scanning = []) (scans : List RingScan) : warmScans scans s = s := by
  unfold warmScans
  rw [h]
  rfl

/-- A change of the life cycle on an adapter without rings is recorded at once, and a cold reset is due. -/
theorem lcEnd_records {x : FwEnd} {s : State} (hd : drbgReady s = true) (hc : tokenCheck s x.bytes x.verdict = 0)
    (hne : leAt x.bytes 7 1 ≠ lcCode s.sec.lc) (hr : s.q.rings = []) :
    lcEnd x s = coldBegin (lcRecord (leAt x.bytes 7 1) { s with q := { s.q with rings := [], scanning := [] } }) := by
  unfold lcEnd
  simp only []
  rw [if_neg (by rw [hd]; exact Bool.false_ne_true), if_neg (by rw [hc]; exact fun h => h rfl), if_neg hne, hr]
  simp only [List.filter_nil, List.map_nil]
  rw [warmScans_none rfl]
  rfl

/-- What the record of a change of the life cycle holds. -/
theorem lcRecord_holds (to_ : Nat) (s : State) :
    let t := lcRecord to_ s
    t.sec.lc = lcOf to_ ∧ t.sec.transitionsLeft = s.sec.transitionsLeft - 1 ∧
      (to_ = 2 → t.sec.ownerRows = s.sec.ownerRows + 1 ∧ t.sec.kek = none) := by
  unfold lcRecord
  by_cases hto : to_ = 2
  · by_cases hlc : (s.sec.lc == .deployed) = true
    · simp [hto, hlc]
    · simp [hto, hlc]
  · by_cases hlc : (s.sec.lc == .deployed) = true
    · simp [hto, hlc]
    · simp [hto, hlc]

/-- Settles O54: an action begins on the firmware's record alone, ends with its check's result, and an activation turns the bank at its
warm reset. -/
theorem firmwareActionsRunAndEnd : Obligations.FirmwareActionsRunAndEnd := by
  unfold Obligations.FirmwareActionsRunAndEnd
  refine ⟨?_, ?_, ?_, ?_, ?_, ?_, ?_, ?_, ?_, ?_, ?_, ?_, ?_, ?_, ?_⟩
  · intro c a s hmem hs hb ha hd hr hstage hlc hkek
    refine ⟨fwRun a s, ?_, rfl⟩
    have hacts (f : State → State) : (Host.Outcome.next (whenOk (fwServed s) (fwStart a f) s) : Res) = .next (f s) :=
      (next_whenOk hs).trans (congrArg Host.Outcome.next (fwStart_acts hb ha hd hr))
    simp only [List.mem_cons, Prod.mk.injEq, List.not_mem_nil, or_false] at hmem
    rcases hmem with ⟨rfl, rfl⟩ | ⟨rfl, rfl⟩ | ⟨rfl, rfl⟩ | ⟨rfl, rfl⟩ | ⟨rfl, rfl⟩
    · exact (hacts _).trans (congrArg Host.Outcome.next (stagedStart_runs (by simp [hstage])))
    · exact (hacts _).trans (congrArg Host.Outcome.next (stagedStart_runs (by simp [hstage])))
    · exact hacts _
    · exact (hacts _).trans (congrArg Host.Outcome.next (if_pos (by simp [hlc])))
    · obtain ⟨hlen, hdep⟩ := hkek rfl
      exact (hacts _).trans (congrArg Host.Outcome.next ((if_neg (by simp [hdep])).trans (stagedStart_runs (by simp [hlen]))))
  · intro c s hmem hs ha hd hr hb hzero
    obtain ⟨hfw, hdone, hframe⟩ := fwEnd_ends 1 0 s
    refine ⟨fwEnd 1 0 s, ?_, hfw, hdone, fwEnd_failed (by decide) 0 s, hframe⟩
    simp only [List.mem_cons, List.not_mem_nil, or_false] at hmem
    rcases hmem with rfl | rfl
    · exact (next_whenOk hs).trans (congrArg Host.Outcome.next ((fwStart_acts hb ha hd hr).trans (stagedStart_ends (by simp [hzero]))))
    · exact (next_whenOk hs).trans (congrArg Host.Outcome.next ((fwStart_acts hb ha hd hr).trans (stagedStart_ends (by simp [hzero]))))
  · intro c b s hmem hs hrun
    refine ⟨fwBusy s, ?_, fwBusy_ends s⟩
    have hbusy (a : FwAction) (f : State → State) : (Host.Outcome.next (whenOk (fwServed s) (fwStart a f) s) : Res) = .next (fwBusy s) :=
      (next_whenOk hs).trans (congrArg Host.Outcome.next (fwStart_busy hrun))
    simp only [List.mem_cons, List.not_mem_nil, or_false] at hmem
    rcases hmem with rfl | rfl | rfl | rfl | rfl | rfl | rfl | rfl
    all_goals exact hbusy _ _
  · intro s hs hb ha hd hr hw hp hfeat hbar hem
    have hstart := activateRolling_served hs hb ha hd (bantamBusy_of_idle hr 0) hp hfeat hbar
    rw [if_neg (by rw [hem]; exact Bool.false_ne_true)] at hstart
    have hroll := restartNext_rolls (b := 4) (rest := [5, 2, 3, 1, 0]) (r := { left := [4, 5, 2, 3, 1, 0] })
      (s := { fwRun .activateRolling s with fw := { (fwRun .activateRolling s).fw with roll := some { left := [4, 5, 2, 3, 1, 0] } } })
      hr hw rfl rfl
    obtain ⟨hfw, hcount⟩ := restartBegin_begins 4 true
      { fwRun .activateRolling s with fw := { (fwRun .activateRolling s).fw with roll := some { left := [4, 5, 2, 3, 1, 0] } } }
    refine ⟨_, hstart.trans (congrArg Host.Outcome.next hroll), ?_, ?_, ?_, ?_, ?_, hcount, restartBegin_frame (by decide) (by decide) _ _⟩
    all_goals rw [hfw]
    all_goals rfl
  · intro s hs hb ha hd hr hp hbar hem hc
    have hreset := activateWarm_resets hs hb hc
    have hexec := activateWarm_served hs hb ha hd hr hp hbar
    rw [if_neg (by rw [hem]; exact Bool.false_ne_true), hreset] at hexec
    exact ⟨_, hexec, by simp only [ha, hd], rfl⟩
  · intro c a s hmem hs hb ha hd hr hp hfeat hbar hem
    obtain ⟨hstate, hdef, hact, hbank, hevent⟩ := fwDefer_defers a s
    refine ⟨fwDefer a s, ?_, hstate, hdef, hact.trans ha, hbank, hevent⟩
    simp only [List.mem_cons, Prod.mk.injEq, List.not_mem_nil, or_false] at hmem
    rcases hmem with ⟨rfl, rfl⟩ | ⟨rfl, rfl⟩
    · exact (activateRolling_served hs hb ha hd hr hp hfeat hbar).trans (congrArg Host.Outcome.next (if_pos hem))
    · exact (activateWarm_served hs hb ha hd hr hp hbar).trans (congrArg Host.Outcome.next (if_pos hem))
  · intro s hs hd hem hb hc
    have hresume : fwResume s = activateWarm s := by
      unfold fwResume
      rw [if_neg (by rw [hem]; exact Bool.false_ne_true), hd]
    exact ⟨_, (next_whenOk hs).trans (congrArg Host.Outcome.next (hresume.trans (activateWarm_resets hs hb hc))), rfl, rfl, rfl, rfl⟩
  · intro b s hs hb ha hd hr hw hlt
    have hrequest := restartRequest_begins (s := { fwRun .restartBantam s with fw := { (fwRun .restartBantam s).fw with target := b } })
      b hr hw
    obtain ⟨hfw, hcount⟩ := restartBegin_begins b false { fwRun .restartBantam s with fw := { (fwRun .restartBantam s).fw with target := b } }
    refine ⟨_, (next_whenOk hs).trans (congrArg Host.Outcome.next ((fwStart_acts hb ha hd (bantamBusy_of_idle hr 0)).trans
      ((if_neg (by omega)).trans hrequest))), ?_, ?_, ?_, ?_, hcount⟩
    all_goals rw [hfw]
    all_goals rfl
  · intro b s hs hb ha hd hr hle
    obtain ⟨hfw, -, hframe⟩ := fwEnd_ends 5 b s
    exact ⟨_, (next_whenOk hs).trans (congrArg Host.Outcome.next ((fwStart_acts hb ha hd hr).trans (if_pos hle))), hfw, hframe⟩
  · intro x r s hs ha hr
    have hend : fwActionEnd x s = fwEnd r.1 r.2 s := by
      unfold fwActionEnd
      rw [ha, hr]
    exact ⟨_, (next_whenOk hs).trans (congrArg Host.Outcome.next hend), fwEnd_ends r.1 r.2 s⟩
  · intro x s hs ha hcheck
    have hend : fwActionEnd x s = installEnd x.bytes x.flashOk s := by
      unfold fwActionEnd
      rw [ha]
      simp only []
      rw [hcheck]
      rfl
    exact ⟨_, (next_whenOk hs).trans (congrArg Host.Outcome.next hend), installEnd_written x.bytes x.flashOk s⟩
  · intro x u s hs ha hu
    have hend : fwActionEnd x s = fwEnd 0 0 { s with fw := { s.fw with fusedSvn := max s.fw.fusedSvn u.svn } } := by
      unfold fwActionEnd
      rw [ha]
      simp only []
      rw [hu]
      rfl
    obtain ⟨hfw, -, hframe⟩ := fwEnd_ends 0 0 { s with fw := { s.fw with fusedSvn := max s.fw.fusedSvn u.svn } }
    exact ⟨_, (next_whenOk hs).trans (congrArg Host.Outcome.next hend), hfw, hframe⟩
  · intro x s hs ha hd hcheck
    have hend : fwActionEnd x s = newNonce (fwEnd (tokenCheck s x.bytes x.verdict) 0 s) := by
      unfold fwActionEnd
      rw [ha]
      simp only []
      unfold lcEnd
      simp only []
      rw [if_neg (by rw [hd]; exact Bool.false_ne_true), if_pos hcheck]
    have hfw := fwEnd_fw (tokenCheck s x.bytes x.verdict) 0 s
    have hsec := fwEnd_sec (tokenCheck s x.bytes x.verdict) 0 s
    refine ⟨_, (next_whenOk hs).trans (congrArg Host.Outcome.next (hend.trans (newNonce_draws _))), ?_, ?_, ?_, ?_, ?_⟩
    · simp only [hfw, fwEnded]
    · simp only [hfw, fwEnded]
    · simp only [hsec]
    · simp only [hsec]
    · simp only [hsec]
  · intro x s hs ha hd hcheck hne hrings
    have hend : fwActionEnd x s = lcEnd x s := by
      unfold fwActionEnd
      rw [ha]
    obtain ⟨hlc, hleft, howner⟩ := lcRecord_holds (leAt x.bytes 7 1) { s with q := { s.q with rings := [], scanning := [] } }
    exact ⟨_, (next_whenOk hs).trans (congrArg Host.Outcome.next (hend.trans (lcEnd_records hd hcheck hne hrings))), hlc, hleft, rfl, rfl,
      howner⟩
  · intro x s hs ha hcheck hflash
    have hend : fwActionEnd x s = fwEnd 0 0 { s with sec := { s.sec with kek := some x.kek } } := by
      unfold fwActionEnd
      rw [ha]
      simp only []
      rw [hcheck, hflash]
      rfl
    obtain ⟨hfw, -, hframe⟩ := fwEnd_ends 0 0 { s with sec := { s.sec with kek := some x.kek } }
    have hsec := fwEnd_sec 0 0 { s with sec := { s.sec with kek := some x.kek } }
    refine ⟨_, (next_whenOk hs).trans (congrArg Host.Outcome.next hend), hsec, ?_, ?_, ?_⟩
    · rw [hfw]
      rfl
    · rw [hfw]
      rfl
    · rw [hsec]
      exact hframe

end Sys2Proof.Machine
end

section
/-! PROOFS. The firmware serves the adapter (R473, R474, R481 to R485, R491). -/

namespace Sys2Proof.Machine

/-! ### A Bantam runs again (R473) -/

/-- The state in which a Bantam's restart is over. -/
def bantamBack (b ms : Nat) (s : State) : State :=
  { s with fw := { s.fw with
    restarting := none, restartRoll := false, dogs := s.fw.dogs.filter (· != b), lastEnd := mapSet s.fw.lastEnd b ms
    bantamBank := mapSet s.fw.bantamBank b ((mapGet s.fw.bantamBank b).getD s.fw.activeB) } }

theorem restartNext_idle {s : State} (hr : s.fw.restarting = none) (hw : s.fw.waiting = []) (hroll : s.fw.roll = none) :
    restartNext s = s := by
  unfold restartNext
  rw [if_neg (by rw [hr]; exact Bool.false_ne_true), hw]
  simp only []
  rw [hroll]

theorem fwMail_full {s : State} (h : (inst s 0).inFull = true) : fwMail s = s := by
  unfold fwMail
  split
  · exact if_pos (by rw [h]; rfl)
  · rfl

theorem fwMail_empty {s : State} (h : s.fw.outbox = []) : fwMail s = s := by
  unfold fwMail
  rw [h]

/-- What a Bantam takes up again, without mail and captured errors. -/
theorem bantamUp_keeps {s : State} (b : Nat) (hmail : s.fw.outbox = []) (hcap : s.re.captured = []) :
    (bantamUp b s).fw = s.fw ∧ (bantamUp b s).mem = s.mem ∧ (bantamUp b s).tp = s.tp := by
  unfold bantamUp
  split
  · exact ⟨rfl, rfl, rfl⟩
  · split
    · unfold classifyCaptured
      rw [hcap]
      exact ⟨rfl, rfl, rfl⟩
    · split
      · rw [fwMail_empty hmail]
        exact ⟨rfl, rfl, rfl⟩
      · exact ⟨rfl, rfl, rfl⟩

/-- Bantam 1 polls every ring at its POLL_INTERVAL again. -/
theorem bantamUp_polls {s : State} {r : Nat} {g : Ring} (hg : ringOf s r = some g) :
    ringOf (bantamUp 1 s) r = some { g with interval := g.pollInt } :=
  (ringOf_map (fun _ (g : Ring) => { g with interval := g.pollInt }) s r).trans (by rw [hg]; rfl)

/-- A lone restart that was asked for ends its action. -/
theorem restartComplete_ends {b ms : Nat} {s : State} (hb : s.fw.restarting = some b) (hroll : s.fw.restartRoll = false)
    (hdogs : s.fw.dogs = []) (ha : s.fw.action = some .restartBantam) (ht : s.fw.target = b) (hw : s.fw.waiting = [])
    (hr : s.fw.roll = none) (hmail : s.fw.outbox = []) (hcap : s.re.captured = []) :
    restartComplete true ms s = fwEnd 0 0 (bantamUp b (bantamBack b ms s)) := by
  have hup := (bantamUp_keeps (s := bantamBack b ms s) b hmail hcap).1
  have hfw : (fwEnd 0 0 (bantamUp b (bantamBack b ms s))).fw = fwEnded 0 0 (bantamBack b ms s).fw := by rw [fwEnd_fw, hup]
  have hnext : restartNext (fwEnd 0 0 (bantamUp b (bantamBack b ms s))) = fwEnd 0 0 (bantamUp b (bantamBack b ms s)) :=
    restartNext_idle (by rw [hfw]; rfl) (by rw [hfw]; exact hw) (by rw [hfw]; exact hr)
  unfold restartComplete
  rw [hb]
  have hdog : s.fw.dogs.contains b = false := by
    rw [hdogs]
    rfl
  simp only [hroll, hdog, Bool.not_true, Bool.false_eq_true, if_false]
  show restartNext (if (decide ((bantamUp b (bantamBack b ms s)).fw.action = some .restartBantam) &&
    decide ((bantamUp b (bantamBack b ms s)).fw.target = b)) = true then fwEnd 0 0 (bantamUp b (bantamBack b ms s))
      else bantamUp b (bantamBack b ms s)) = _
  rw [if_pos (by rw [hup]; simp [bantamBack, ha, ht])]
  exact hnext

/-! ### Fatal errors (R533, R534) -/

/-- No restart, no FATAL_CNT and no fatal event is taken back. -/
structure FatalKept (s t : State) : Prop where
  restarting : t.fw.restarting = s.fw.restarting
  count : rg t Reg.GX_RE_FATAL_CNT = rg s Reg.GX_RE_FATAL_CNT
  event : (rg s Reg.GX_RE_EVENTS).getLsbD 6 = true → (rg t Reg.GX_RE_EVENTS).getLsbD 6 = true

theorem FatalKept.refl (s : State) : FatalKept s s := ⟨rfl, rfl, id⟩

theorem FatalKept.trans {s t u : State} (h : FatalKept s t) (k : FatalKept t u) : FatalKept s u :=
  ⟨k.restarting.trans h.restarting, k.count.trans h.count, fun e => k.event (h.event e)⟩

theorem FatalKept.of_same {s t : State} (hfw : t.fw = s.fw) (hregs : t.regs = s.regs) : FatalKept s t :=
  ⟨by rw [hfw], by rw [rg, regAt, hregs]; rfl, fun e => by rw [rg, regAt, hregs]; exact e⟩

theorem FatalKept.of_window {s t : State} (hfw : t.fw = s.fw) (hregs : ∀ k, k < 0x4000000 → regAt t k = regAt s k) : FatalKept s t :=
  ⟨by rw [hfw], hregs _ (by decide), fun e => by rw [rg, hregs _ (by decide)]; exact e⟩

theorem fatalKept_raise {off : Nat} (bit : Nat) (s : State) (h : Reg.GX_RE_FATAL_CNT ≠ off) : FatalKept s (raise off bit s) := by
  refine ⟨by rw [raise_fw], regAt_raise_ne s bit h, fun e => ?_⟩
  by_cases hoff : Reg.GX_RE_EVENTS = off
  · subst hoff
    exact raise_keeps s _ bit 6 e
  · rw [rg, regAt_raise_ne s bit hoff]
    exact e

theorem fatalKept_raisePage (n bit : Nat) (s : State) : FatalKept s (raisePage n bit s) :=
  .of_window (raisePage_fw _ _ _) fun _ hk => regAt_raisePage_window n bit s hk

theorem fatalKept_stopMoves (n status : Nat) (s : State) : FatalKept s (stopMoves n status s) := by
  refine foldl_maintains (FatalKept s) (fun (s : State) (slot : Nat) => stopMgmt slot status s) (fun t slot ht => ht.trans ?_) _ s
    (FatalKept.refl s)
  unfold stopMgmt
  split
  · exact .of_same rfl rfl
  · exact .of_same rfl rfl

theorem fatalKept_dropFreeze (n : Nat) (s : State) : FatalKept s (dropFreeze n s) := by
  have hdone (slot : Option Nat) (t : State) : FatalKept t (slot.elim t (fun slot => mgmtDone slot stAborted t)) := by
    cases slot with
    | none => exact FatalKept.refl t
    | some slot => exact .of_same rfl rfl
  unfold dropFreeze
  exact ((hdone _ s).trans (hdone _ _)).trans (.of_same rfl rfl)

theorem fatalKept_startUnits (a : Nat) (kind : UnitActionKind) (s : State) : FatalKept s (startUnits a kind s) := by
  refine foldl_maintains (FatalKept s) _ (fun t f ht => ht.trans ?_) _ s (FatalKept.refl s)
  split
  · exact FatalKept.refl t
  · simp only []
    split
    · exact FatalKept.refl t
    · refine foldl_maintains (FatalKept t) (fun (s : State) (m : Nat) => { s with out := s.out ++ [.unitAction f.id m kind] })
        (fun u m hu => hu.trans (.of_same rfl rfl)) _ _ ?_
      exact .of_same rfl rfl

theorem fatalKept_enterHalted (n reason : Nat) (s : State) : FatalKept s (enterHalted n reason s) := by
  unfold enterHalted
  extract_lets i s1 _ s2 s3
  split
  · have h1 : FatalKept s s1 := (fatalKept_dropFreeze n s).trans (fatalKept_stopMoves n stAborted _)
    have h2 : FatalKept s1 s2 := .of_same rfl rfl
    have h3 : FatalKept s2 s3 := by
      simp only [s3]
      cases instFlock s2.lz.run n with
      | none => exact FatalKept.refl s2
      | some a => exact fatalKept_startUnits a .halt s2
    have hset : FatalKept s3 (setInst n { inst s3 n with state := .halted } s3) := .of_same rfl rfl
    have hhalt : FatalKept s3 (enterState n .halted s3) := hset.trans (fatalKept_raisePage n 2 _)
    exact (((h1.trans h2).trans h3).trans hhalt).trans (fatalKept_raise 0 _ (by decide))
  · exact FatalKept.refl s

theorem fatalKept_warmBegin (cause : Nat) (s : State) : FatalKept s (warmBegin cause s) := by
  unfold warmBegin
  split
  · exact FatalKept.refl s
  · split
    · exact ⟨rfl, rfl, id⟩
    · exact ⟨rfl, rfl, id⟩

theorem fatalKept_dumpEnd (s : State) : FatalKept s (dumpEnd s) := by
  have h1 : FatalKept s { s with re := { s.re with dumping := false } } := .of_same rfl rfl
  unfold dumpEnd
  simp only []
  split
  · exact h1
  · exact h1.trans (fatalKept_warmBegin 6 _)

theorem fatalKept_dumpLost (s : State) : FatalKept s (dumpLost s) := by
  have h1 : FatalKept s { s with re := { s.re with dumpState := 4 } } := .of_same rfl rfl
  exact (h1.trans (fatalKept_raise 8 _ (by decide))).trans (fatalKept_dumpEnd _)

theorem fatalKept_logWrite (e : LogEntry) (s : State) : FatalKept s (logWrite e s) := by
  unfold logWrite
  extract_lets full _ s1
  have h1 : FatalKept s s1 := .of_same rfl rfl
  split
  · exact h1.trans (fatalKept_raise 5 s1 (by decide))
  · exact h1

/-- A fatal error is counted once, and its event is set. -/
theorem fatal_counts (e : LogEntry) (ms : Nat) {s : State} (hf : s.gl.fatalHalt = false) :
    let t := fatal e ms s
    counted s t Reg.GX_RE_FATAL_CNT 1 ∧ (rg t Reg.GX_RE_EVENTS).getLsbD 6 = true ∧ t.fw.restarting = s.fw.restarting := by
  intro t
  have ht : t = fatal e ms s := rfl
  unfold fatal at ht
  rw [if_neg (by rw [hf]; exact Bool.false_ne_true)] at ht
  extract_lets times third idx s1 s2 seq _ s3 _ s4 at ht
  have h1 : FatalKept s s1 := fatalKept_logWrite _ s
  have hcount : counted s s2 Reg.GX_RE_FATAL_CNT 1 :=
    counted_from (counted_raise Reg.GX_RE_EVENTS 6 (counted_bump Reg.GX_RE_FATAL_CNT s1) (by decide)) h1.count
  have hevent : (rg s2 Reg.GX_RE_EVENTS).getLsbD 6 = true := raise_sets _ _ 6 (by decide)
  have hrest : s2.fw.restarting = s.fw.restarting := by
    rw [show s2.fw = s1.fw from raise_fw _ _ _, h1.restarting]
  have hkept : FatalKept s2 t := by
    have h3 : FatalKept s2 s3 := .of_same rfl rfl
    have h4 : FatalKept s3 s4 := by
      simp only [s4]
      split
      · exact foldl_maintains (FatalKept s3) (fun (s : State) (n : Nat) => enterHalted n 0 s)
          (fun u n hu => hu.trans (fatalKept_enterHalted n 0 u)) _ _ (.of_same rfl rfl)
      · exact FatalKept.refl s3
    rw [ht]
    split
    · exact FatalKept.refl s2
    · split
      · exact (h3.trans h4).trans (fatalKept_dumpLost s4)
      · exact h3.trans h4
  exact ⟨counted_of_rg hcount hkept.count, hkept.event hevent, hkept.restarting.trans hrest⟩

/-- The state in which a Bantam's restart has failed. -/
def bantamLost (b : Nat) (s : State) : State :=
  { s with fw := { s.fw with restarting := none, restartRoll := false, dogs := s.fw.dogs.filter (· != b) } }

theorem restartComplete_fatal {b ms : Nat} {s : State} (hb : s.fw.restarting = some b) (hroll : s.fw.restartRoll = false) :
    restartComplete false ms s = fatal (mkLog (bantamLost b s) 12 3 b 2 9 noInst 0 0) ms (bantamLost b s) := by
  unfold restartComplete
  rw [hb]
  simp only [hroll, Bool.not_false, if_true, Bool.false_and, Bool.false_eq_true, if_false]
  rfl

/-! ### Watchdogs (R474) -/

/-- The state in which a watchdog's first expiry is noted. -/
def dogNoted (b : Nat) (s : State) : State := fwNotice 2 (leBytes 1 b) (fwEvent 4 { s with fw := { s.fw with dogs := s.fw.dogs ++ [b] } })

theorem watchdog_first {b ms : Nat} {s : State} (hb : b < 6) (hr : s.fw.restarting = none) (hw : s.fw.waiting = [])
    (he : mapGet s.fw.lastEnd b = none) : watchdog b ms s = restartRequest b (dogNoted b s) := by
  unfold watchdog
  rw [if_neg (by rw [hr, hw]; simp; omega), he]
  rfl

theorem watchdog_again {b ms e : Nat} {s : State} (hb : b < 6) (hr : s.fw.restarting = none) (hw : s.fw.waiting = [])
    (he : mapGet s.fw.lastEnd b = some e) (hms : ms ≤ e + 1000) (hroll : s.fw.roll = none) :
    watchdog b ms s = fatal (mkLog s 12 5 b 2 9 noInst 0 0) ms s := by
  unfold watchdog
  rw [if_neg (by rw [hr, hw]; simp; omega), he, hroll]
  simp only [Option.elim_some, Option.elim_none, decide_eq_true hms, if_true, Bool.false_eq_true, if_false]

/-! ### The hello (R481) -/

theorem fwSend_waits {m : List Byte} {s : State} (h : (inst s 0).inFull = true) :
    fwSend m s = { s with fw := { s.fw with outbox := s.fw.outbox ++ [m] } } :=
  fwMail_full (s := { s with fw := { s.fw with outbox := s.fw.outbox ++ [m] } }) h

/-- The state in which the firmware has taken the message from instance 0's buffer. -/
def helloTaken (s : State) : State := raisePage 0 1 (setInst 0 { inst s 0 with outFull := false } s)

theorem inst_helloTaken (s : State) : inst (helloTaken s) 0 = { inst s 0 with outFull := false } :=
  (inst_of_vi (raisePage_vi _ 0 1) 0).trans (inst_setInst_same 0 _ s)

theorem helloTaken_fw (s : State) : (helloTaken s).fw = s.fw := raisePage_fw _ _ _

/-- A sound hello is answered with the agreed version; a full inbound buffer lets the answer wait. -/
theorem fwHello_answers {s : State} {u : Bundle} {m : List Byte} (hfull : (inst s 0).inFull = true) (hu : activeBundle s = some u)
    (hm : m = ((List.range 8).map (fun i => leBytes 4 ((mapGet (inst s 0).mboxOut (4 * i)).getD 0).toNat)).flatten)
    (hty : leAt m 0 2 = 0x0101) (hlen : leAt m 2 2 = 16) :
    let high := min (leAt m 18 2) u.ifaceHigh
    let agreed := if max (leAt m 16 2) u.ifaceLow ≤ high then high else 0
    let feats := BitVec.ofNat 64 (leAt m 24 8) &&& u.features
    fwHello s = { helloTaken s with fw := { s.fw with
      hello := some (leAt m 16 2, leAt m 18 2, BitVec.ofNat 64 (leAt m 24 8)), agreed := agreed, features := feats
      outbox := s.fw.outbox ++ [mailBytes 0x8101 (leAt m 4 4) 0 (leBytes 2 agreed ++ leBytes 2 u.ifaceHigh ++
        leBytes 4 u.release ++ leBytes 8 feats.toNat ++ leBytes 1 u.svn ++ List.replicate 7 0)] } } := by
  have hactive : activeBundle (helloTaken s) = some u := by
    rw [activeBundle, bankOf, helloTaken_fw]
    exact hu
  have hfull' : (inst (helloTaken s) 0).inFull = true := by
    rw [inst_helloTaken]
    exact hfull
  intro high agreed feats
  unfold fwHello
  rw [← hm]
  simp only []
  rw [show raisePage 0 1 (setInst 0 { inst s 0 with outFull := false } s) = helloTaken s from rfl, hactive]
  simp only []
  rw [if_pos (by rw [hty, hlen]; rfl)]
  refine (fwSend_waits ?_).trans ?_
  · exact hfull'
  · rw [helloTaken_fw]

/-! ### Joining (R483, R484) -/

section
variable {s : State} (hj : s.fw.joined = false)
include hj

theorem joinEdge_joins (h : joinUnmet s = 0) :
    joinEdge s = { s with fw := { s.fw with joined := true, refused := false, mismatch := false } } := by
  unfold joinEdge
  rw [if_neg (by rw [hj]; exact Bool.false_ne_true)]
  split
  · rfl
  · next h16 => exact absurd (h.symm.trans h16) (by decide)
  · next h0 _ => exact absurd h h0

theorem joinEdge_refuses (h : joinUnmet s = 16) (hr : s.fw.refused = false) :
    joinEdge s = fwNotice 3 [] (fwEvent 6 { s with fw := { s.fw with refused := true } }) := by
  unfold joinEdge
  rw [if_neg (by rw [hj]; exact Bool.false_ne_true)]
  split
  · next h0 => exact absurd (h.symm.trans h0) (by decide)
  · exact if_neg (by rw [hr]; exact Bool.false_ne_true)
  · next _ h16 => exact absurd h h16

theorem joinEdge_waits (h0 : joinUnmet s ≠ 0) (h16 : joinUnmet s ≠ 16) : joinEdge s = { s with fw := { s.fw with refused := false } } := by
  unfold joinEdge
  rw [if_neg (by rw [hj]; exact Bool.false_ne_true)]
  split
  · next h => exact absurd h h0
  · next h => exact absurd h h16
  · rfl

end

/-- Settles O55: a Bantam's end and a watchdog act on the firmware's record; a fatal error is counted once; hello, joining, heartbeat
and reseeding each change what they name. -/
theorem firmwareServesTheAdapter : Obligations.FirmwareServesTheAdapter := by
  unfold Obligations.FirmwareServesTheAdapter
  refine ⟨?_, ?_, ?_, ?_, ?_, ?_, ?_, ?_, ?_, ?_, ?_, ?_⟩
  · intro b ms s hp hb hrest hroll hdogs ha ht hw hr hmail hcap
    have hend := restartComplete_ends (ms := ms) hrest hroll hdogs ha ht hw hr hmail hcap
    obtain ⟨hup, hmem, htp⟩ := bantamUp_keeps (s := bantamBack b ms s) b hmail hcap
    have hfw : (fwEnd 0 0 (bantamUp b (bantamBack b ms s))).fw = fwEnded 0 0 (bantamBack b ms s).fw := by rw [fwEnd_fw, hup]
    have hframe := (fwEnd_eventsOnly 0 0 (bantamUp b (bantamBack b ms s))).1
    refine ⟨_, (next_whenOk (by simp [hp, hb])).trans (congrArg Host.Outcome.next hend), ?_, ?_, ?_, ?_, ?_, ?_, ?_, ?_, ?_⟩
    · rw [hfw]
      rfl
    · rw [hfw]
      rfl
    · rw [hfw]
      rfl
    · rw [hfw]
      rfl
    · rw [hfw]
      exact mapGet_mapSet_same _ _ _
    · rw [hfw]
      exact mapGet_mapSet_same _ _ _
    · rintro rfl r g hg
      rw [hframe]
      exact bantamUp_polls (s := bantamBack 1 ms s) hg
    · rw [hframe]
      exact hmem
    · rw [hframe]
      exact htp
  · intro b ms s hp hb hrest hroll hf hdump
    obtain ⟨hcount, hevent, hnone⟩ := fatal_counts (s := bantamLost b s) (mkLog (bantamLost b s) 12 3 b 2 9 noInst 0 0) ms hf
    exact ⟨_, (next_whenOk (by simp [hp, hb])).trans (congrArg Host.Outcome.next (restartComplete_fatal hrest hroll)), hcount, hevent, hnone⟩
  · intro b ms s hp hb hs hf hlt hrest hw he
    obtain ⟨⟨o, q, hfw⟩, hregs⟩ := fwNotice_keeps 2 (leBytes 1 b) (fwEvent 4 { s with fw := { s.fw with dogs := s.fw.dogs ++ [b] } })
    rw [fwEvent_fw] at hfw
    have hnoted : (dogNoted b s).fw = { s.fw with dogs := s.fw.dogs ++ [b], outbox := o, noticeSeq := q } := hfw
    have hbegin := restartRequest_begins (s := dogNoted b s) b (by rw [hnoted]; exact hrest) (by rw [hnoted]; exact hw)
    obtain ⟨hfw', hcount⟩ := restartBegin_begins b false (dogNoted b s)
    have hevent : (rg (dogNoted b s) Reg.GX_FW_EVENTS).getLsbD 4 = true := by
      rw [rg, show regAt (dogNoted b s) Reg.GX_FW_EVENTS = _ from hregs _ (by decide)]
      exact raise_sets _ _ 4 (by decide)
    have hreg : rg (dogNoted b s) Reg.GX_FW_RESTART_CNT = rg s Reg.GX_FW_RESTART_CNT :=
      (hregs _ (by decide)).trans (regAt_raise_ne _ 4 (by decide))
    refine ⟨_, (next_whenOk (by simp [hp, hb, hs, hf])).trans (congrArg Host.Outcome.next ((watchdog_first hlt hrest hw he).trans hbegin)),
      ?_, ?_, ?_, counted_from hcount hreg⟩
    · rw [hfw']
    · rw [hfw', hnoted]
    · rw [rg, regAt_restartBegin_ne _ _ _ (by decide) (by decide)]
      exact hevent
  · intro b ms e s hp hb hs hf hlt hrest hw he hms hroll hdump
    obtain ⟨hcount, -, hnone⟩ := fatal_counts (mkLog s 12 5 b 2 9 noInst 0 0) ms hf
    exact ⟨_, (next_whenOk (by simp [hp, hb, hs, hf])).trans (congrArg Host.Outcome.next (watchdog_again hlt hrest hw he hms hroll)),
      hcount, hnone.trans hrest⟩
  · intro m u high agreed feats s hmail hout hin hbusy hu hm hty hlen hhigh hagreed hfeats
    subst hhigh hagreed hfeats
    refine ⟨_, (next_whenOk (by simp [hmail, hout, hbusy])).trans (congrArg Host.Outcome.next (fwHello_answers hin hu hm hty hlen)),
      rfl, rfl, rfl, ?_, fun hempty => ?_⟩
    · exact congrArg Instance.outFull (inst_helloTaken s)
    · simp only [hempty, List.nil_append]
  · intro s hrun hj hunmet
    exact ⟨_, (next_whenOk hrun).trans (congrArg Host.Outcome.next (joinEdge_joins hj hunmet)), rfl⟩
  · intro s hrun hj hunmet hr
    obtain ⟨⟨o, q, hfw⟩, hregs⟩ := fwNotice_keeps 3 [] (fwEvent 6 { s with fw := { s.fw with refused := true } })
    rw [fwEvent_fw] at hfw
    refine ⟨fwNotice 3 [] (fwEvent 6 { s with fw := { s.fw with refused := true } }),
      (next_whenOk hrun).trans (congrArg Host.Outcome.next (joinEdge_refuses hj hunmet hr)), ?_, ?_, ?_⟩
    · rw [hfw]
      exact hj
    · rw [hfw]
    · rw [rg, hregs _ (by decide)]
      exact raise_sets _ _ 6 (by decide)
  · intro s hrun hj h0 h16
    exact ⟨_, (next_whenOk hrun).trans (congrArg Host.Outcome.next (joinEdge_waits hj h0 h16)), rfl⟩
  · intro s hrun hj hslot
    have hleaves : joinEdge s = { s with fw := { s.fw with joined := false } } := by
      unfold joinEdge
      rw [if_pos hj, if_pos (by rw [hslot]; rfl)]
    exact ⟨_, (next_whenOk hrun).trans (congrArg Host.Outcome.next hleaves), rfl⟩
  · intro v ms s hup
    exact ⟨_, next_whenOk hup, regAt_putReg_same _ _ _, rfl, fun k hk => regAt_putReg_ne _ _ hk, rfl⟩
  · intro ms limit s hrun hfeat hlimit hne hms
    subst hlimit
    exact ⟨_, next_whenOk (by simp only [hrun, hfeat, bne_iff_ne.mpr hne, decide_eq_true hms, Bool.and_self]),
      raise_sets _ _ 7 (by decide), fwEvent_eventsOnly 7 s⟩
  · intro s hp hstop hsince
    exact ⟨_, next_whenOk (by rw [hp, hstop, decide_eq_true hsince]; rfl), rfl⟩

end Sys2Proof.Machine
end
